-- ==== Sys2Proof/Word.lean ====
section
/-! DEFINITION. The register word and the byte of the NG-5120 (R6): 32-bit little-endian words. -/

namespace Sys2Proof

/-- A register, window or ring word (R6). -/
abbrev Word := BitVec 32

/-- A byte of SRAM, NOR or a network frame. -/
abbrev Byte := BitVec 8

end Sys2Proof
end

