-- ==== Sys2Proof/Syntax.lean ====
section
/-! DEFINITION. The commands of the block: one constructor of `Instr` per row of spec/opcode_table.json, in the
table's order, with the operands the sender or the outside world supplies (an address, a value, a measurement).
Where a rule leaves a choice to the block itself (the path the Wheelwright picks, R96), the choice is an operand
that the meaning checks against the rules. -/

namespace Sys2Proof

/-- A requester of R15: a bus matrix master with its function, session or core number. -/
inductive Requester where
  /-- HIF link `link` (master 0 to 3), function `f` (0 is PF0). -/
  | fn (link : Fin 4) (f : Fin 17)
  /-- The NGCP agent (master 4) serving session `n`. -/
  | session (n : Fin 64)
  /-- Management core `n` (master 5). -/
  | core (n : Fin 4)
  /-- An internal master 6 to 11 of Table 1-3. -/
  | internal (m : Fin 16)
deriving DecidableEq, Repr

/-- One bus matrix request (R15 to R17). `data` holds the words a write carries. -/
structure Access where
  rq : Requester
  bar2 : Bool
  write : Bool
  addr : Nat
  size : Nat
  data : List Word
deriving DecidableEq, Repr

/-- A write burst in flight when a master is reset: its start address and the words of the beats delivered (R26). -/
structure Burst where
  rq : Requester
  addr : Nat
  beats : List Word
  undelivered : Nat
deriving DecidableEq, Repr

/-- A link that is reset, in whole or for one of its functions, and the bursts and reads through it that are then in flight (R26). -/
structure LinkReset where
  link : Fin 4
  bursts : List Burst
  reads : List Access
deriving DecidableEq, Repr

/-- A route the Wheelwright's search offers: the light of `input` and the state (true = CROSS) of each cell it meets,
stage 0 first (R37). -/
structure Route where
  input : Fin 512
  cross : List Bool
deriving DecidableEq, Repr

/-- One outcome of the search (R89): routes for the circuits it moves, and alternates of protected circuits, each named by
the circuit's working input. -/
structure Candidate where
  routes : List Route
  alts : List (Fin 512 × Route)
deriving DecidableEq, Repr

/-- What the SecY found for a frame (R275): the port's SecY is off or the frame bypasses it, it verified under an association of a receive
channel with its packet number, or it failed. -/
inductive SecyResult where
  | bypassed
  | verified (sc : Fin 4) (sa : Fin 2) (pn : Nat)
  | failed
deriving DecidableEq, Repr

/-- A measurement of a cell in one band as the Assayer's converters delivered it (R210, R211, R217). Staged factor writes are
pairs of a tile-window offset and a word. -/
structure Measured where
  levelBefore : Nat
  levelAfter : Nat
  halfWave : Nat
  delta : Nat
  heaterFault : Bool
  dualLit : Bool
  ext : Nat
  phase : Nat
  factors : List (Nat × Word)
deriving DecidableEq, Repr

/-- A resistance reading of R174, in units of 0.25 Ω, for a local cell. -/
structure HeaterReading where
  cell : Fin 76
  res : Nat
deriving DecidableEq, Repr

/-- The trigger causes of R160. -/
inductive TraceCause where
  | software | inbandLoss | commit
deriving DecidableEq, Repr

/-- The rails the module switches (R406), and VIO, which it only watches (R408). -/
inductive Rail where
  | vcore | vphy | vana | vdrv | vio
deriving DecidableEq, Repr

/-- The failure causes of Table 13-3. -/
inductive PathCause where
  | link | hb | gm | msec
deriving DecidableEq, Repr

/-- What a Watchman round found on one path (Table 13-4): the link and the unit's heartbeat held through the round, the test frames
emerged, a Delay_Resp and an Announce came within GMWIN, and an SA is in use for transmit. -/
structure PathChecks where
  link : Bool
  hb : Bool
  rx : Bool
  tx : Bool
  gm : Bool
  msec : Bool
deriving DecidableEq, Repr

/-- Why a block did not stop (PWR_REFUSE.REASON, Table 15-10). -/
inductive RefuseReason where
  | fullcal | save | tnkbusy | timeout | fenced
deriving DecidableEq, Repr

/-- The wake events of Table 15-6 (TGWAKE is a request and has its own row). -/
inductive WakeSrc where
  | wake0 | wake1 | compare | perst (link : Fin 4)
deriving DecidableEq, Repr

/-- An image as its slot holds it (R368 to R370): header words 0x000 to 0x01C, the TYPEs of the used entries of the section table, and the
sections. REGWR pairs are a BAR0 offset and a value, and FACTORY pairs an offset and a factor word. -/
structure Image where
  header : List Word
  sections : List Nat
  startup : List Word
  regwr : List (Nat × Word)
  factory : List (Nat × Word)
  /-- NVM: NOR address and size of banks A and B, wear records A and B, the wear log and the dump area. -/
  nvm : List (Nat × Nat)
  /-- SEALED: the 80-byte blobs of its entries. -/
  blobs : List (List Word)
deriving DecidableEq, Repr

/-- What the ROM finds in a slot (R371): the first of the checks that fails by what lies outside the image's own words, as Table 17-7 codes it
(1 blank, 8 unreadable, 3 a key that OTP does not hold, 5 a signature, 6 a digest; 0 none), the image, and its digest. -/
structure SlotRead where
  reason : Fin 10
  image : Image
  digest : List Word
deriving DecidableEq, Repr

/-- The rows of Table 18-2, in its order. -/
inductive MemRow where
  | cueBusy | cueOther | pattern | tables | ringDesc | tcam | tally | trace | tile | firmware | retention | aonOther
deriving DecidableEq, Repr

/-- What a scrub or a read found in a protected word (R389, R391). -/
inductive WordCheck where
  | clean | corrected (bit : Fin 64) | uncorrectable
deriving DecidableEq, Repr

/-- A NOR command's outcome as the device gave it (R386). -/
inductive FlashOutcome where
  | ok | device | verifyFail (reason : Fin 10)
deriving DecidableEq, Repr

/-- The scope of a master reset (R26): one function's traffic, or a whole master. -/
inductive ResetScope where
  | function (link : Fin 4) (f : Fin 17)
  | master (m : Fin 16)
deriving DecidableEq, Repr

/-- The commands: one per row of the operation table. -/
inductive Instr where
  -- register access and the bus matrix (R4, R11 to R27)
  | registerWrite (rq : Requester) (addr : Nat) (v : Word)
  | rcRead (rq : Requester) (addr : Nat)
  | latchedLowRead (rq : Requester) (addr : Nat)
  | tallyHighRead (rq : Requester) (addr : Nat)
  | matrixRequest (reqs : List Access)
  | islandTimeout (req : Access) (island : Fin 69)
  | masterReset (scope : ResetScope) (bursts : List Burst) (reads : List Access)
  | drainComplete (scope : ResetScope) (cycles : Fin 257)
  | pllLockLoss (island : Fin 69)
  | beatBoundary (bad : List (Fin 69))
  | tbokLost (island : Fin 69)
  | timeBusRecompensation (loopback : List (Fin 69 × Fin 512))
  -- fabric state (R43 to R53)
  | tileStateReport (tile : Fin 64)
  | fabricSnapshot (v : Word)
  | fabricSnapshotCopy
  | overpowerChange (out : Bool) (port : Fin 512) (high : Bool)
  -- circuits, cues, patterns, partitions (R58 to R87)
  | cueWrite (cue : Fin 65536) (word : Fin 8) (vals : List Word)
  | patternWrite (pat : Fin 256) (word : Fin 512) (vals : List Word)
  | patternCapture (v : Word)
  | patternCaptureDone
  | portOwnershipWrite (port : Fin 512) (v : Word)
  | partitionRangeWrite (part : Fin 64) (pat : Bool) (v : Word)
  | partitionControlWrite (part : Fin 64) (v : Word)
  | monitorSample (tile : Fin 64) (ch : Fin 92) (second : Bool) (code : BitVec 16)
  | lossOfLight (out : Bool) (port : Fin 512)
  | lightRegained (out : Bool) (port : Fin 512)
  | holdoffExpiry (input : Fin 512)
  -- Tollkeeper and Wheelwright
  | batchRelease
  | solveComplete (found : List Candidate) (ns : Nat)
  | resolveComplete (batch : Nat) (found : List Candidate)
  | resolveDeadline (batch : Nat)
  | winshareWrite (n : Fin 8) (hi : Bool) (v : Word)
  | policyCeilingWrite (part : Fin 64) (v : Word)
  -- Lamplighter
  | batchPlacement (batch : Nat)
  | setpointSending (tc : Nat)
  | setpointArrival (tc : Nat) (tile : Fin 64)
  | armPoint (tc : Nat)
  | commitInstant (tc : Nat)
  | postponedApplication (tc : Nat)
  | spanPassageStage (cell : Fin 4864)
  | journalClose (tc : Nat)
  | timedDeadlinePass (batch : Nat)
  | guardWindowOpen (n : Fin 8)
  | guardWindowClose (n : Fin 8)
  | windowScheduleWrite (n : Fin 8) (word : Fin 5) (v : Word)
  | lmpAbort (rq : Requester) (v : Word)
  | lmpHoldWrite (v : Word)
  | throttleBucketFill
  -- Cooper
  | controlLaw (tile : Fin 64)
  | heaterOffload (tile : Fin 64)
  | cycleTrigger (tile : Fin 64)
  | thermalBandArrival (tile : Fin 64) (band : Fin 8)
  | freezeWrite (tile : Fin 64) (v : Word)
  | loopStateWrite (tile : Fin 64) (cell : Fin 76) (word : Fin 3) (v : Word)
  | factorWrite (tile : Fin 64) (offset : Nat) (v : Word)
  | cycleConfigWrite (tile : Fin 64) (v : Word)
  | traceEnable (tile : Fin 64) (v : Word)
  | traceTrigger (tile : Fin 64) (cause : TraceCause)
  | traceDataRead (rq : Requester) (tile : Fin 64)
  -- drivers
  | heaterUpdate (tile : Fin 64) (readings : List HeaterReading)
  | heaterFault (tile : Fin 64) (cell : Fin 76)
  | heaterFaultClear (tile : Fin 64) (cell : Fin 76) (v : Word)
  | fadeStart (tile : Fin 64) (len : Option Nat)
  | fadeEnd (tile : Fin 64)
  | driveOverrideWrite (tile : Fin 64) (cell : Fin 76) (v : Word)
  | waveformWrite (tile : Fin 64) (offset : Nat) (v : Word)
  | waveformBankSelect (tile : Fin 64) (v : Word)
  -- monitors and Tallyman
  | frameBoundary (tile : Fin 64)
  | sequenceApply (tile : Fin 64)
  | channelConfigWrite (tile : Fin 64) (ch : Fin 92) (v : Word)
  | monitorModeWrite (tile : Fin 64) (v : Word)
  | urgentRequest (tile : Fin 64) (v : Word)
  | urgentConversion (tile : Fin 64) (adc : Fin 4) (slot : Fin 23) (assayer : Option (Fin 92)) (code : BitVec 16)
  | selfCalibrationCommand (tile : Fin 64) (v : Word)
  | adcCalibrationDone (tile : Fin 64) (adc : Fin 4) (ok : Bool)
  | conversionTrigger (tile : Fin 64)
  | snapshotRequest (tile : Fin 64) (v : Word)
  | snapshotTrigger (tile : Fin 64)
  | tallySnapshot (tile : Fin 64)
  | channelClear (tile : Fin 64) (word : Fin 3) (v : Word)
  -- Assayer and Tinker
  | fullcal
  | cellcal (cell : Fin 4864) (full : Bool)
  | save
  | calAbort
  | calsrcSettled
  | backgroundVisit (cell : Fin 4864)
  | measurementComplete (cell : Fin 4864) (m : Measured)
  | fullcalStageComplete
  | calibrationCommitPlacement
  | saveComplete (readBackOk : Bool)
  | tinkerWriteOperation (cell : Fin 4864)
  | trimPulseRemeasure (cell : Fin 4864) (err : BitVec 16)
  | stuckClear (v : Word)
  -- host interface
  | perstDeassert (link : Fin 4)
  | functionConfigWrite (link : Fin 4) (f : Fin 17) (word : Fin 4) (v : Word)
  | ringConfigure (ring : Fin 32768) (v : Word)
  | ringEnable (ring : Fin 32768) (v : Word)
  | ringDisable (ring : Fin 32768) (v : Word)
  | doorbell (link : Fin 4) (f : Fin 17) (ring : Fin 32768) (v : Word)
  | submitFetch (ring : Fin 32768) (entries : List (List Word))
  | nop (ring : Fin 32768)
  | cues (ring : Fin 32768)
  | abort (ring : Fin 32768)
  | cqSpaceFreed (ring : Fin 32768)
  | interruptTimer (ring : Fin 32768)
  | dmaErrorCompletion (ring : Fin 32768) (poisoned : Bool)
  | poisonedWrite (a : Access)
  | busMasterEnable (link : Fin 4) (f : Fin 17)
  | functionLevelReset (link : LinkReset) (f : Fin 17)
  | hotReset (link : LinkReset)
  | streamEnable (stream : Fin 64) (v : Word)
  | telemetryEmission (stream : Fin 64) (changed : Nat)
  -- Tollkeeper buckets
  | shaperFill
  | policerFill
  | shaperControlWrite (part : Fin 64) (shape : Bool) (v : Word)
  | shaperDebtClear (part : Fin 64) (v : Word)
  -- network
  | linkModeWrite (net : Fin 2) (v : Word)
  | frameReceived (net : Fin 2) (bytes : List Byte) (fcsOk : Bool) (secy : SecyResult) (landPs : Nat)
  | recirculate
  | bankSwap (v : Word)
  | sessionWrite (s : Fin 64) (word : Fin 2) (v : Word)
  | read (s : Fin 64)
  | write (s : Fin 64)
  | submit (s : Fin 64)
  | ngcpAbort (s : Fin 64)
  | keepalive (s : Fin 64)
  | notify (s : Fin 64)
  | notifyAck (s : Fin 64) (seq : Word)
  | notifyRetransmit (s : Fin 64)
  -- path redundancy
  | epochStart
  | epochEnd
  | heartbeat (path : Fin 2)
  | activePathFailure (cause : PathCause)
  | switchoverUp (gapCycles : Fin 4096)
  | tiebreak
  | watchmanRound (a b : PathChecks)
  | switch
  | release (path : Fin 2)
  -- time
  | incrementWrite (v : Word)
  | adjustmentStart (v : Word)
  | adjustmentEnd
  | set
  | step
  | stepApply
  | compareArm (unit : Fin 64) (v : Word)
  | compareFire (unit : Fin 64)
  | ptpTimeout
  | ppsoutPulse
  | ppsinEdge
  | ppsinLoss
  -- power
  | powerRequestP0 (rq : Requester) (repl : Bool)
  | powerRequestP1 (rq : Requester) (repl : Bool)
  | powerRequestP2 (rq : Requester) (repl : Bool)
  | powerRequestP3 (rq : Requester) (repl : Bool)
  | tgsleep (rq : Requester) (repl : Bool) (mask : BitVec 8)
  | tgwake (rq : Requester) (repl : Bool) (mask : BitVec 8)
  | entryStepComplete
  | blockRefusal (reason : RefuseReason)
  | p2Timeout
  | wakeEvent (src : WakeSrc)
  | wakeReplay
  | driveReturn (found : List Candidate)
  | tileGroupWakeComplete (tg : Fin 8)
  -- thermal
  | sensorSample (sensor : Fin 136) (raw : BitVec 16)
  | sensorFault (sensor : Fin 136)
  | risecrit (sensor : Fin 136)
  | sensorClear (v : Word)
  | thresholdWrite (v : Word)
  | creditUpdate (railMw portMw : Nat)
  | shutCut (sensor : Fin 136)
  -- power-up, resets, boot
  | powerOn
  | powerGood (rail : Rail)
  | sequenceFailure (rail : Rail)
  | sequenceRetry
  | undervoltage (rail : Rail)
  | moduleReset
  | swrst
  | bootRomStart (bifsel : Fin 4) (engineOk : Bool)
  | imageVerified (a b : SlotRead)
  | bootPhaseComplete (banks : List (Option (Word × List (Nat × Word)))) (wear : Option (List (Fin 4864 × Word)))
  | calwaitExpiry
  | up
  | locklate
  -- trust
  | report
  | cert
  | attestationDone (window : List Word)
  | sealData
  | keyRevocation (v : Word)
  | debugUnlock (tokenOk : Bool)
  | erase
  | prog
  | verify
  | flashCommandDone (outcome : FlashOutcome)
  -- faults
  | scrubRead (sweep : Bool) (addr : Nat) (check : WordCheck) (mem : MemRow) (reader : Option Requester)
  | unfence (tile : Fin 64)
  | unfenceComplete (tile : Fin 64) (locked sound : Bool)
  | fatal
  | watchdog (core : Fin 4)
  | dumpComplete (silent : List (Fin 69)) (fw : List Word)
  | dumpStall
  | dumpDataRead (rq : Requester)
  -- rows added at the table's end
  | netLinkChange (net : Fin 2) (blockLock fecLock : Bool)
  | pcieLinkUp (link : Fin 4) (width : Fin 32) (speed : Fin 16) (flit : Bool)
  | standbyHeartbeatLoss
  | restErrorMeasurement (cell : Fin 4864)
  | restErrorMeasured (cell : Fin 4864) (err : Option (BitVec 16))
  | autosave
  | sealingDone
  | delayReqTransmit (net : Fin 2) (landPs : Nat)
  | wearLogProgrammed
deriving DecidableEq, Repr

end Sys2Proof
end

