-- ==== Sys2Proof/Machine/Bits.lean ====
section
/-! DEFINITION. Bit fields of register words, signed fields and the rounding helpers of the block's arithmetic. -/

namespace Sys2Proof.Machine

/-- The `n`-bit field of `w` at bit `lo`, as a number. -/
def fld (w : Word) (lo n : Nat) : Nat := (BitVec.extractLsb' lo n w).toNat

/-- Bit `i` of `w`. -/
def wbit (w : Word) (i : Nat) : Bool := w.getLsbD i

/-- The word whose bits `lo` to `lo + n - 1` are ones. -/
def fieldMask (lo n : Nat) : Word := (BitVec.allOnes n).setWidth 32 <<< lo

/-- `w` with its `n`-bit field at `lo` set to `v` (modulo 2^n). -/
def put (w : Word) (lo n v : Nat) : Word :=
  (w &&& ~~~ fieldMask lo n) ||| ((BitVec.ofNat n v).setWidth 32 <<< lo)

/-- `w` with bit `i` set to `b`. -/
def putBit (w : Word) (i : Nat) (b : Bool) : Word := put w i 1 b.toNat

/-- The word whose fields (lo, width, value) are as listed and whose other bits are 0. -/
def pack (fs : List (Nat × Nat × Nat)) : Word := fs.foldl (fun w f => put w f.1 f.2.1 f.2.2) 0#32

/-- A number as a 32-bit word. -/
def wd (n : Nat) : Word := BitVec.ofNat 32 n

/-- The two's complement reading of an `n`-bit number. -/
def signed (n v : Nat) : Int := (BitVec.ofNat n v).toInt

/-- The signed field of `w` at `lo`. -/
def sfld (w : Word) (lo n : Nat) : Int := signed n (fld w lo n)

/-- The `n`-bit two's complement code of an integer (modulo 2^n). -/
def code (n : Nat) (x : Int) : Nat := (BitVec.ofInt n x).toNat

/-- An integer clamped to a range. -/
def clampI (lo hi x : Int) : Int := max lo (min hi x)

/-- Saturation to 16 signed bits. -/
def sat16 (x : Int) : Int := clampI (-32768) 32767 x

/-- Saturation of a counter of `n` bits. -/
def satN (n x : Nat) : Nat := min x (2 ^ n - 1)

/-- Division of an integer rounded to nearest, halves away from zero. -/
def roundDiv (x : Int) (d : Nat) : Int :=
  if 0 ≤ x then (2 * x + d) / (2 * d) else - ((2 * (-x) + d) / (2 * d))

/-- Whether the `n` bits at `lo` of the flag word `w` have bit `i` set, for words of an array of flags. -/
def flagAt (ws : List Word) (i : Nat) : Bool := (ws.getD (i / 32) 0#32).getLsbD (i % 32)

/-- The low `n` bytes of a number in network byte order: the most significant first (R6). -/
def beBytes : Nat → Nat → List Byte
  | 0, _ => []
  | n + 1, v => BitVec.ofNat 8 (v / 256 ^ n) :: beBytes n v

/-- Words in the little-endian layout they have in BAR0 or in a ring (R6). -/
def leBytes (ws : List Word) : List Byte := ws.flatMap fun w => (List.range 4).map fun i => w.extractLsb' (8 * i) 8

/-- Twice the median of a list of values: twice the middle one, or the sum of the middle two (R351). -/
def median2 (xs : List Int) : Int :=
  let ys := xs.mergeSort (fun a b => decide (a ≤ b))
  let n := ys.length
  if n % 2 = 1 then 2 * ys.getD (n / 2) 0 else ys.getD (n / 2 - 1) 0 + ys.getD (n / 2) 0

end Sys2Proof.Machine
end

