-- ==== Sys2Proof/Config.lean ====
section
/-! DEFINITION. What an assembly fixes and the spec gives no value for: constants without a body, so that no proof can see a
value of them. The free values are applied to the counter `State.fresh`, which the step that draws one advances. -/

namespace Sys2Proof

/-- The assembly fuse behind GEN_ID.VARIANT: true for the NG-5120-M32L (R1, Table 0-1). -/
opaque Config.isM32L : Bool

/-- SEC_UID word `i`, from OTP (Table 17-11). -/
opaque Config.uid : Nat → Word

/-- SEC_DEVPUB word `i`, the device public key from OTP (Table 17-12). -/
opaque Config.devPub : Nat → Word

/-- A word the spec leaves open, fresh at each use. -/
opaque Config.freeWord : Nat → Word

/-- A choice the spec leaves open, fresh at each use. -/
opaque Config.freeBool : Nat → Bool

/-- A number the spec leaves open, fresh at each use. -/
opaque Config.freeNat : Nat → Nat

/-- Whether AER reporting is enabled for function `g` (17·link + number) once `n` messages have been sent: a bit of its configuration
space, which the spec does not describe (R25). -/
opaque Config.aerEnabled : (g n : Nat) → Bool

/-- The time-bus compensation measured for island `i` at its start-up, in steps of 31.25 ps: half the round trip of its branch
(R12, R28). -/
opaque Config.tbComp : Nat → Nat

/-- Word `i` of KMAC256(seal key, NONCE, 256, "NG5120 SEAL-E"), which the device's seal key fixes (R383). -/
opaque Config.sealPad : List Word → Nat → Word

/-- Word `i` of KMAC256(seal key, NONCE ‖ CT, 256, "NG5120 SEAL-T") (R383). -/
opaque Config.sealTag : List Word → Nat → Word

/-- Word `i` of a calibration bank's TAG: the KMAC256 of header bytes 0x000 to 0x01F and the body, under the device's key (R224). -/
opaque Config.bankTag : List Word → (i : Nat) → Word

/-- Word `i` of the 256-bit SHAKE256 of a byte string (FIPS 202), a function that the spec names and does not define (R368). -/
opaque Config.shake256 : List Byte → (i : Nat) → Word

/-- Word `i` of the image key digest that OTP holds in key slot `k` (R381). -/
opaque Config.keyDigest : (k i : Nat) → Word

/-- Whether a signature verifies under an SLH-DSA-SHAKE-256s public key with context "NG5120 IMAGE" (FIPS 205, R368). -/
opaque Config.signatureOk : (key message sig : List Byte) → Bool

/-- Word `i` of the certificate store in OTP (R381). -/
opaque Config.certificate : Nat → Word

/-- The probe offset po that the Assayer chose for the visit of draw `n`, at instant `t` (ns) (R213): the spec leaves its sweep to it. -/
opaque Config.probeOffset : (n t : Nat) → Int

/-- The probe tone of the visit of draw `n` at instant `t` (ns) (R213). -/
opaque Config.probeTone : (n t : Nat) → Int

/-- Byte `i` of the PTP clock identity that the module sends, which the spec does not state. -/
opaque Config.clockIdentity : Nat → Byte

end Sys2Proof
end

