-- ==== Sys2Proof/Machine/Reg.lean ====
section
/-! DEFINITION. The BAR0 offset of every register and window word of the NG-5120, under the manual's own names (Tables 1-14
and 1-15 and the header table of each chapter). Arrays are functions of their indexes. -/

namespace Sys2Proof.Machine.Reg

abbrev GEN_ID : Nat := 0x0
abbrev GEN_RSTCAUSE : Nat := 0x10
abbrev HIF_LINKCFG (i : Nat) : Nat := 0x10000 + 0x4 * i
abbrev HIF_ERRSTAT : Nat := 0x10010
abbrev HIF_FNCFG_W0 (i : Nat) : Nat := 0x10100 + 0x10 * i
abbrev HIF_FNCFG_W1 (i : Nat) : Nat := 0x10104 + 0x10 * i
abbrev HIF_FNCFG_W2 (i : Nat) : Nat := 0x10108 + 0x10 * i
abbrev HIF_FNCFG_W3 (i : Nat) : Nat := 0x1010C + 0x10 * i
abbrev HIF_CRSTREAM_W0 (i : Nat) : Nat := 0x11000 + 0x10 * i
abbrev HIF_CRSTREAM_W1 (i : Nat) : Nat := 0x11004 + 0x10 * i
abbrev HIF_CRSTREAM_W2 (i : Nat) : Nat := 0x11008 + 0x10 * i
abbrev HIF_CRSTREAM_W3 (i : Nat) : Nat := 0x1100C + 0x10 * i
abbrev HIF_SELFID : Nat := 0x18000
abbrev HIF_SELFRING : Nat := 0x18004
abbrev HIF_SELFEV : Nat := 0x18008
abbrev HIF_SELFCQL : Nat := 0x1800C
abbrev MTX_CTRL : Nat := 0x20000
abbrev MTX_PARK : Nat := 0x20010
abbrev MTX_ERRSTAT : Nat := 0x20020
abbrev MTX_ERRADDR : Nat := 0x20024
abbrev MTX_ERRINFO : Nat := 0x20028
abbrev MTX_DRAINLOG : Nat := 0x20030
abbrev MTX_ISLSTAT (i : Nat) : Nat := 0x20100 + 0x4 * i
abbrev TOL_STAT : Nat := 0x30000
abbrev TOL_ERRSTAT : Nat := 0x30004
abbrev TOL_VTLO : Nat := 0x30008
abbrev TOL_VTHI : Nat := 0x3000C
abbrev TOL_WEIGHT (i : Nat) : Nat := 0x30100 + 0x20 * i
abbrev TOL_SHAPE (i : Nat) : Nat := 0x30104 + 0x20 * i
abbrev TOL_POLICE (i : Nat) : Nat := 0x30108 + 0x20 * i
abbrev TOL_PCTL (i : Nat) : Nat := 0x3010C + 0x20 * i
abbrev TOL_SHLEVEL (i : Nat) : Nat := 0x30110 + 0x20 * i
abbrev TOL_POLEVEL (i : Nat) : Nat := 0x30114 + 0x20 * i
abbrev TOL_PCNT (i : Nat) : Nat := 0x30118 + 0x20 * i
abbrev TOL_QSTAT (i : Nat) : Nat := 0x3011C + 0x20 * i
abbrev CIR_CTRL : Nat := 0x40000
abbrev CIR_ERRSTAT : Nat := 0x40004
abbrev CIR_PATCAP : Nat := 0x40008
abbrev CIR_PARTCTL (i : Nat) : Nat := 0x40100 + 0x10 * i
abbrev CIR_PARTCUE (i : Nat) : Nat := 0x40104 + 0x10 * i
abbrev CIR_PARTPAT (i : Nat) : Nat := 0x40108 + 0x10 * i
abbrev CIR_PORTOWN (i : Nat) : Nat := 0x40800 + 0x4 * i
abbrev CIR_CKTA (i : Nat) : Nat := 0x41000 + 0x8 * i
abbrev CIR_CKTB (i : Nat) : Nat := 0x41004 + 0x8 * i
abbrev CIR_FSSEQ : Nat := 0x42000
abbrev CIR_FSGEN : Nat := 0x42004
abbrev CIR_FSCTRL : Nat := 0x42008
abbrev CIR_FSSNAPSEQ : Nat := 0x4200C
abbrev CIR_OUTMAP (i : Nat) : Nat := 0x43000 + 0x4 * i
abbrev CIR_INMAP (i : Nat) : Nat := 0x43800 + 0x4 * i
abbrev CIR_OUTMAP_SNAP (i : Nat) : Nat := 0x44000 + 0x4 * i
abbrev CIR_INMAP_SNAP (i : Nat) : Nat := 0x44800 + 0x4 * i
abbrev CIR_CELLST (i : Nat) : Nat := 0x45000 + 0x4 * i
abbrev CIR_CELLST_SNAP (i : Nat) : Nat := 0x4A000 + 0x4 * i
abbrev WHL_CTRL : Nat := 0x50000
abbrev WHL_STAT : Nat := 0x50004
abbrev WHL_SOLVEMAX : Nat := 0x50008
abbrev WHL_RESOLVECNT : Nat := 0x5000C
abbrev WHL_STALECNT : Nat := 0x50010
abbrev WHL_DISTHEAD : Nat := 0x50014
abbrev WHL_WINSHLO (i : Nat) : Nat := 0x50020 + 0x8 * i
abbrev WHL_WINSHHI (i : Nat) : Nat := 0x50024 + 0x8 * i
abbrev WHL_PARTCFG (i : Nat) : Nat := 0x50100 + 0x4 * i
abbrev WHL_PARTSTAT (i : Nat) : Nat := 0x50200 + 0x4 * i
abbrev WHL_DISTLOG_W0 (i : Nat) : Nat := 0x51000 + 0x8 * i
abbrev WHL_DISTLOG_W1 (i : Nat) : Nat := 0x51004 + 0x8 * i
abbrev LMP_CTRL : Nat := 0x60000
abbrev LMP_STAT : Nat := 0x60004
abbrev LMP_GEN : Nat := 0x60008
abbrev LMP_JHEAD : Nat := 0x6000C
abbrev LMP_ABORT : Nat := 0x60010
abbrev LMP_ABORTRES : Nat := 0x60014
abbrev LMP_ERRSTAT : Nat := 0x60018
abbrev LMP_ARMTIME : Nat := 0x60020
abbrev LMP_ARMSEC : Nat := 0x60024
abbrev LMP_THRSTAT : Nat := 0x60028
abbrev LMP_THRCNT : Nat := 0x6002C
abbrev LMP_WINSEC (i : Nat) : Nat := 0x60100 + 0x20 * i
abbrev LMP_WINNS (i : Nat) : Nat := 0x60104 + 0x20 * i
abbrev LMP_WINPER (i : Nat) : Nat := 0x60108 + 0x20 * i
abbrev LMP_WINLEN (i : Nat) : Nat := 0x6010C + 0x20 * i
abbrev LMP_WINCTL (i : Nat) : Nat := 0x60110 + 0x20 * i
abbrev LMP_WINSTAT (i : Nat) : Nat := 0x60114 + 0x20 * i
abbrev LMP_JOURNAL (i j : Nat) : Nat := 0x61000 + 0x20 * i + 0x4 * j
abbrev ASY_CTRL : Nat := 0x70000
abbrev ASY_CMD : Nat := 0x70004
abbrev ASY_CMDRES : Nat := 0x70008
abbrev ASY_STAT : Nat := 0x7000C
abbrev ASY_ERRSTAT : Nat := 0x70010
abbrev ASY_PWIN : Nat := 0x70014
abbrev ASY_QLIM : Nat := 0x70018
abbrev ASY_BGPER : Nat := 0x7001C
abbrev ASY_BANKGEN (i : Nat) : Nat := 0x70020 + 0x4 * i
abbrev ASY_CALCNT : Nat := 0x70028
abbrev ASY_SKIPCNT : Nat := 0x7002C
abbrev ASY_YIELDCNT : Nat := 0x70030
abbrev ASY_QUAL_W0 (i : Nat) : Nat := 0x74000 + 0x8 * i
abbrev ASY_QUAL_W1 (i : Nat) : Nat := 0x74004 + 0x8 * i
abbrev TNK_CTRL : Nat := 0x80000
abbrev TNK_WARN : Nat := 0x80004
abbrev TNK_STAT : Nat := 0x80008
abbrev TNK_CNT : Nat := 0x8000C
abbrev TNK_ERRSTAT : Nat := 0x80010
abbrev TNK_CLR : Nat := 0x80014
abbrev TNK_CELL_W0 (i : Nat) : Nat := 0x84000 + 0x8 * i
abbrev TNK_CELL_W1 (i : Nat) : Nat := 0x84004 + 0x8 * i
abbrev TIM_CTRL : Nat := 0x90000
abbrev TIM_STAT : Nat := 0x90004
abbrev TIM_ERRSTAT : Nat := 0x90008
abbrev TIM_NOWNS : Nat := 0x90010
abbrev TIM_NOWSECLO : Nat := 0x90014
abbrev TIM_NOWSECHI : Nat := 0x90018
abbrev TIM_NOWFR : Nat := 0x9001C
abbrev TIM_INCR : Nat := 0x90020
abbrev TIM_ADJINCR : Nat := 0x90024
abbrev TIM_ADJCNT : Nat := 0x90028
abbrev TIM_SETNS : Nat := 0x90030
abbrev TIM_SETSECLO : Nat := 0x90034
abbrev TIM_SETSECHI : Nat := 0x90038
abbrev TIM_STEP : Nat := 0x9003C
abbrev TIM_STEPCTL : Nat := 0x90040
abbrev TIM_LASTSTEP : Nat := 0x90044
abbrev TIM_PPSCTL : Nat := 0x90070
abbrev TIM_PPSOFS : Nat := 0x90074
abbrev TIM_PPSINNS : Nat := 0x90078
abbrev TIM_PPSINSEC : Nat := 0x9007C
abbrev TIM_PTPCFG : Nat := 0x90080
abbrev TIM_HOCFG : Nat := 0x90084
abbrev TIM_OFFSET : Nat := 0x90088
abbrev TIM_MPD : Nat := 0x9008C
abbrev TIM_MEASSEQ : Nat := 0x90090
abbrev TIM_PTPCNT : Nat := 0x90094
abbrev TIM_PORTCOMP_W0 (i : Nat) : Nat := 0x90050 + 0x8 * i
abbrev TIM_PORTCOMP_W1 (i : Nat) : Nat := 0x90054 + 0x8 * i
abbrev TIM_CMP_W0 (i : Nat) : Nat := 0x90100 + 0x10 * i
abbrev TIM_CMP_W1 (i : Nat) : Nat := 0x90104 + 0x10 * i
abbrev TIM_CMP_W2 (i : Nat) : Nat := 0x90108 + 0x10 * i
abbrev TIM_CMP_W3 (i : Nat) : Nat := 0x9010C + 0x10 * i
abbrev TIM_TILESEL (i : Nat) : Nat := 0x90500 + 0x4 * i
abbrev NETA_CTRL : Nat := 0xA0000
abbrev NETA_STAT : Nat := 0xA0004
abbrev NETA_ERRSTAT : Nat := 0xA0008
abbrev NETA_MSCTL : Nat := 0xA000C
abbrev NETA_CNT (i : Nat) : Nat := 0xA0010 + 0x4 * i
abbrev NETB_CTRL : Nat := 0xB0000
abbrev NETB_STAT : Nat := 0xB0004
abbrev NETB_ERRSTAT : Nat := 0xB0008
abbrev NETB_MSCTL : Nat := 0xB000C
abbrev NETB_CNT (i : Nat) : Nat := 0xB0010 + 0x4 * i
abbrev POR_CTRL : Nat := 0xC0000
abbrev POR_SYSID : Nat := 0xC0004
abbrev POR_BANK : Nat := 0xC0008
abbrev POR_ERRSTAT : Nat := 0xC000C
abbrev POR_PORTCFG (i : Nat) : Nat := 0xC0010 + 0x4 * i
abbrev POR_PCNT (i j : Nat) : Nat := 0xC0020 + 0x10 * i + 0x4 * j
abbrev POR_STRADDLE : Nat := 0xC0040
abbrev POR_DROPCNT : Nat := 0xC0044
abbrev POR_NGCPCNT : Nat := 0xC0048
abbrev POR_SESS_W0 (i : Nat) : Nat := 0xC0100 + 0x8 * i
abbrev POR_SESS_W1 (i : Nat) : Nat := 0xC0104 + 0x8 * i
abbrev PTH_CTRL : Nat := 0xD0000
abbrev PTH_STAT : Nat := 0xD0004
abbrev PTH_CMD : Nat := 0xD0008
abbrev PTH_CMDRES : Nat := 0xD000C
abbrev PTH_ERRSTAT : Nat := 0xD0010
abbrev PTH_EPOCH : Nat := 0xD0014
abbrev PTH_WCTL : Nat := 0xD0018
abbrev PTH_CNT : Nat := 0xD001C
abbrev PTH_HEALTH (i : Nat) : Nat := 0xD0020 + 0x4 * i
abbrev PTH_SWLOG_W0 : Nat := 0xD0030
abbrev PTH_SWLOG_W1 : Nat := 0xD0034
abbrev PTH_SWLOG_W2 : Nat := 0xD0038
abbrev PTH_SWLOG_W3 : Nat := 0xD003C
abbrev PWR_CTRL : Nat := 0xE0000
abbrev PWR_REQ : Nat := 0xE0004
abbrev PWR_REQRES : Nat := 0xE0008
abbrev PWR_STAT : Nat := 0xE000C
abbrev PWR_ERRSTAT : Nat := 0xE0010
abbrev PWR_REFUSE : Nat := 0xE0014
abbrev PWR_WAKECFG : Nat := 0xE0018
abbrev PWR_WAKESRC : Nat := 0xE001C
abbrev PWR_WAKENS : Nat := 0xE0020
abbrev PWR_WAKESEC : Nat := 0xE0024
abbrev PWR_RETSTAT : Nat := 0xE0028
abbrev THM_CTRL : Nat := 0xF0000
abbrev THM_STAT : Nat := 0xF0004
abbrev THM_ERRSTAT : Nat := 0xF0008
abbrev THM_THR : Nat := 0xF000C
abbrev THM_RISE : Nat := 0xF0010
abbrev THM_PSUS : Nat := 0xF0014
abbrev THM_CREDCFG : Nat := 0xF0018
abbrev THM_CREDIT : Nat := 0xF001C
abbrev THM_PEST : Nat := 0xF0020
abbrev THM_RATE : Nat := 0xF0024
abbrev THM_SENSCLR : Nat := 0xF0028
abbrev THM_RESUME : Nat := 0xF002C
abbrev THM_STOPLOG_W0 : Nat := 0xF0030
abbrev THM_STOPLOG_W1 : Nat := 0xF0034
abbrev THM_STOPLOG_W2 : Nat := 0xF0038
abbrev THM_SENS (i : Nat) : Nat := 0xF0100 + 0x4 * i
abbrev BOOT_CTRL : Nat := 0x100000
abbrev BOOT_STAT : Nat := 0x100004
abbrev BOOT_REJ : Nat := 0x100008
abbrev BOOT_IMGSEQ : Nat := 0x10000C
abbrev BOOT_IMGINFO : Nat := 0x100010
abbrev BOOT_TIME (i : Nat) : Nat := 0x100020 + 0x4 * i
abbrev BOOT_FLADDR : Nat := 0x100040
abbrev BOOT_FLCMD : Nat := 0x100044
abbrev BOOT_FLSTAT : Nat := 0x100048
abbrev BOOT_FLBUF (i : Nat) : Nat := 0x100100 + 0x4 * i
abbrev SEC_UID (i : Nat) : Nat := 0x101000 + 0x4 * i
abbrev SEC_OTPSTAT : Nat := 0x101010
abbrev SEC_KEYREV : Nat := 0x101014
abbrev SEC_ERRSTAT : Nat := 0x101018
abbrev SEC_DEVPUB (i : Nat) : Nat := 0x101020 + 0x4 * i
abbrev SEC_ATTCTL : Nat := 0x101060
abbrev SEC_ATTCNT : Nat := 0x101064
abbrev SEC_ATTNONCE (i : Nat) : Nat := 0x101080 + 0x4 * i
abbrev SEC_SEALCTL : Nat := 0x1010C0
abbrev SEC_SEALBUF (i : Nat) : Nat := 0x101100 + 0x4 * i
abbrev SEC_ATTWIN (i : Nat) : Nat := 0x108000 + 0x4 * i
abbrev FLT_CTRL : Nat := 0x110000
abbrev FLT_STAT : Nat := 0x110004
abbrev FLT_ERRSTAT : Nat := 0x110008
abbrev FLT_CECNT : Nat := 0x11000C
abbrev FLT_CELOG : Nat := 0x110010
abbrev FLT_UELOG_W0 : Nat := 0x110014
abbrev FLT_UELOG_W1 : Nat := 0x110018
abbrev FLT_CMD : Nat := 0x110020
abbrev FLT_CMDRES : Nat := 0x110024
abbrev FLT_LAST_W0 : Nat := 0x110028
abbrev FLT_LAST_W1 : Nat := 0x11002C
abbrev FLT_LAST_W2 : Nat := 0x110030
abbrev DMP_ADDRLO : Nat := 0x110040
abbrev DMP_ADDRHI : Nat := 0x110044
abbrev DMP_CTL : Nat := 0x110048
abbrev DMP_STAT : Nat := 0x11004C
abbrev DMP_NVMPTR : Nat := 0x110050
abbrev DMP_NVMDATA : Nat := 0x110054
abbrev CUE_W0 (i : Nat) : Nat := 0x1000000 + 0x20 * i
abbrev CUE_W1 (i : Nat) : Nat := 0x1000004 + 0x20 * i
abbrev CUE_W2 (i : Nat) : Nat := 0x1000008 + 0x20 * i
abbrev CUE_W3 (i : Nat) : Nat := 0x100000C + 0x20 * i
abbrev CUE_W4 (i : Nat) : Nat := 0x1000010 + 0x20 * i
abbrev CUE_W5 (i : Nat) : Nat := 0x1000014 + 0x20 * i
abbrev CUE_W6 (i : Nat) : Nat := 0x1000018 + 0x20 * i
abbrev CUE_W7 (i : Nat) : Nat := 0x100001C + 0x20 * i
abbrev PAT (i j : Nat) : Nat := 0x1200000 + 0x800 * i + 0x4 * j
abbrev TCAM_KEY (i j : Nat) : Nat := 0x1400000 + 0x100 * i + 0x4 * j
abbrev TCAM_MASK (i j : Nat) : Nat := 0x1400040 + 0x100 * i + 0x4 * j
abbrev TCAM_ACT (i : Nat) : Nat := 0x1400080 + 0x100 * i
abbrev TCAM_HITS (i : Nat) : Nat := 0x1400084 + 0x100 * i
abbrev TCAM_RSVD (i j : Nat) : Nat := 0x1400088 + 0x100 * i + 0x4 * j
abbrev RING_W0 (i : Nat) : Nat := 0x1800000 + 0x20 * i
abbrev RING_W1 (i : Nat) : Nat := 0x1800004 + 0x20 * i
abbrev RING_W2 (i : Nat) : Nat := 0x1800008 + 0x20 * i
abbrev RING_W3 (i : Nat) : Nat := 0x180000C + 0x20 * i
abbrev RING_W4 (i : Nat) : Nat := 0x1800010 + 0x20 * i
abbrev RING_W5 (i : Nat) : Nat := 0x1800014 + 0x20 * i
abbrev RING_W6 (i : Nat) : Nat := 0x1800018 + 0x20 * i
abbrev RING_W7 (i : Nat) : Nat := 0x180001C + 0x20 * i
abbrev COO_CTRL (i : Nat) : Nat := 0x2000000 + 0x40000 * i
abbrev COO_CYCLE (i : Nat) : Nat := 0x2000004 + 0x40000 * i
abbrev COO_STAT (i : Nat) : Nat := 0x2000008 + 0x40000 * i
abbrev COO_ERRSTAT (i : Nat) : Nat := 0x200000C + 0x40000 * i
abbrev COO_HSCALE (i j : Nat) : Nat := 0x2000020 + 0x40000 * i + 0x4 * j
abbrev COO_TRCTL (i : Nat) : Nat := 0x2000040 + 0x40000 * i
abbrev COO_TRTRIG (i : Nat) : Nat := 0x2000044 + 0x40000 * i
abbrev COO_TRADDR (i : Nat) : Nat := 0x2000048 + 0x40000 * i
abbrev COO_TRDATA (i : Nat) : Nat := 0x200004C + 0x40000 * i
abbrev COO_TRSTAT (i : Nat) : Nat := 0x2000050 + 0x40000 * i
abbrev COO_GAIN_W0 (i j : Nat) : Nat := 0x2000400 + 0x40000 * i + 0x20 * j
abbrev COO_GAIN_W1 (i j : Nat) : Nat := 0x2000404 + 0x40000 * i + 0x20 * j
abbrev COO_GAIN_W2 (i j : Nat) : Nat := 0x2000408 + 0x40000 * i + 0x20 * j
abbrev COO_GAIN_W3 (i j : Nat) : Nat := 0x200040C + 0x40000 * i + 0x20 * j
abbrev COO_GAIN_W4 (i j : Nat) : Nat := 0x2000410 + 0x40000 * i + 0x20 * j
abbrev COO_GAIN_W5 (i j : Nat) : Nat := 0x2000414 + 0x40000 * i + 0x20 * j
abbrev COO_GAIN_W6 (i j : Nat) : Nat := 0x2000418 + 0x40000 * i + 0x20 * j
abbrev COO_GAIN_W7 (i j : Nat) : Nat := 0x200041C + 0x40000 * i + 0x20 * j
abbrev COO_CELL_W0 (i j : Nat) : Nat := 0x2000800 + 0x40000 * i + 0x40 * j
abbrev COO_CELL_W1 (i j : Nat) : Nat := 0x2000804 + 0x40000 * i + 0x40 * j
abbrev COO_CELL_W2 (i j : Nat) : Nat := 0x2000808 + 0x40000 * i + 0x40 * j
abbrev COO_CELL_W3 (i j : Nat) : Nat := 0x200080C + 0x40000 * i + 0x40 * j
abbrev COO_CELL_W4 (i j : Nat) : Nat := 0x2000810 + 0x40000 * i + 0x40 * j
abbrev COO_CELL_W5 (i j : Nat) : Nat := 0x2000814 + 0x40000 * i + 0x40 * j
abbrev COO_CELL_W6 (i j : Nat) : Nat := 0x2000818 + 0x40000 * i + 0x40 * j
abbrev COO_CELL_W7 (i j : Nat) : Nat := 0x200081C + 0x40000 * i + 0x40 * j
abbrev COO_CELL_W8 (i j : Nat) : Nat := 0x2000820 + 0x40000 * i + 0x40 * j
abbrev COO_CELL_W9 (i j : Nat) : Nat := 0x2000824 + 0x40000 * i + 0x40 * j
abbrev COO_CELL_W10 (i j : Nat) : Nat := 0x2000828 + 0x40000 * i + 0x40 * j
abbrev COO_CELL_W11 (i j : Nat) : Nat := 0x200082C + 0x40000 * i + 0x40 * j
abbrev COO_CELL_W12 (i j : Nat) : Nat := 0x2000830 + 0x40000 * i + 0x40 * j
abbrev COO_CELL_W13 (i j : Nat) : Nat := 0x2000834 + 0x40000 * i + 0x40 * j
abbrev COO_CELL_W14 (i j : Nat) : Nat := 0x2000838 + 0x40000 * i + 0x40 * j
abbrev COO_CELL_W15 (i j : Nat) : Nat := 0x200083C + 0x40000 * i + 0x40 * j
abbrev COO_PTAB (i j k : Nat) : Nat := 0x2001C00 + 0x40000 * i + 0x300 * j + 0x4 * k
abbrev COO_HTAB (i j k : Nat) : Nat := 0x2001D00 + 0x40000 * i + 0x300 * j + 0x4 * k
abbrev COO_NCTAB (i j k : Nat) : Nat := 0x2001E00 + 0x40000 * i + 0x300 * j + 0x4 * k
abbrev COO_HDR_W0 (i j k : Nat) : Nat := 0x2001E80 + 0x40000 * i + 0x300 * j + 0x10 * k
abbrev COO_HDR_W1 (i j k : Nat) : Nat := 0x2001E84 + 0x40000 * i + 0x300 * j + 0x10 * k
abbrev COO_HDR_W2 (i j k : Nat) : Nat := 0x2001E88 + 0x40000 * i + 0x300 * j + 0x10 * k
abbrev COO_HDR_W3 (i j k : Nat) : Nat := 0x2001E8C + 0x40000 * i + 0x300 * j + 0x10 * k
abbrev COO_TABRSVD (i j k : Nat) : Nat := 0x2001EA0 + 0x40000 * i + 0x300 * j + 0x4 * k
abbrev DRV_CTRL (i : Nat) : Nat := 0x2010000 + 0x40000 * i
abbrev DRV_STAT (i : Nat) : Nat := 0x2010004 + 0x40000 * i
abbrev DRV_ERRSTAT (i : Nat) : Nat := 0x2010008 + 0x40000 * i
abbrev DRV_HSLEW (i : Nat) : Nat := 0x201000C + 0x40000 * i
abbrev DRV_FADE (i : Nat) : Nat := 0x2010010 + 0x40000 * i
abbrev DRV_PECTL (i : Nat) : Nat := 0x2010014 + 0x40000 * i
abbrev DRV_CELL_W0 (i j : Nat) : Nat := 0x2010100 + 0x40000 * i + 0x10 * j
abbrev DRV_CELL_W1 (i j : Nat) : Nat := 0x2010104 + 0x40000 * i + 0x10 * j
abbrev DRV_CELL_W2 (i j : Nat) : Nat := 0x2010108 + 0x40000 * i + 0x10 * j
abbrev DRV_CELL_W3 (i j : Nat) : Nat := 0x201010C + 0x40000 * i + 0x10 * j
abbrev DRV_WAVE (i j k l : Nat) : Nat := 0x2011000 + 0x40000 * i + 0x4000 * j + 0x800 * k + 0x100 * l
abbrev DRV_WAVERSVD (i j k l : Nat) : Nat := 0x20110C8 + 0x40000 * i + 0x4000 * j + 0x800 * k + 0x100 * l
abbrev MON_CTRL (i : Nat) : Nat := 0x2020000 + 0x40000 * i
abbrev MON_STAT (i : Nat) : Nat := 0x2020004 + 0x40000 * i
abbrev MON_ERRSTAT (i : Nat) : Nat := 0x2020008 + 0x40000 * i
abbrev MON_URGREQ (i : Nat) : Nat := 0x202000C + 0x40000 * i
abbrev MON_URGSTAT (i : Nat) : Nat := 0x2020010 + 0x40000 * i
abbrev MON_WINLAST (i : Nat) : Nat := 0x2020014 + 0x40000 * i
abbrev MON_WINHIT (i j : Nat) : Nat := 0x2020020 + 0x40000 * i + 0x4 * j
abbrev MON_SEQ (i j : Nat) : Nat := 0x2020100 + 0x40000 * i + 0x4 * j
abbrev MON_CHCFG (i j : Nat) : Nat := 0x2020400 + 0x40000 * i + 0x4 * j
abbrev MON_WIN (i j : Nat) : Nat := 0x2020600 + 0x40000 * i + 0x4 * j
abbrev MON_PORTCAL_W0 (i j : Nat) : Nat := 0x2020800 + 0x40000 * i + 0x8 * j
abbrev MON_PORTCAL_W1 (i j : Nat) : Nat := 0x2020804 + 0x40000 * i + 0x8 * j
abbrev TAL_CTRL (i : Nat) : Nat := 0x2030000 + 0x40000 * i
abbrev TAL_SNAP (i : Nat) : Nat := 0x2030004 + 0x40000 * i
abbrev TAL_SNAPLO (i : Nat) : Nat := 0x2030008 + 0x40000 * i
abbrev TAL_SNAPHI (i : Nat) : Nat := 0x203000C + 0x40000 * i
abbrev TAL_SNAPSEQ (i : Nat) : Nat := 0x2030010 + 0x40000 * i
abbrev TAL_ERRSTAT (i : Nat) : Nat := 0x2030014 + 0x40000 * i
abbrev TAL_CLR (i j : Nat) : Nat := 0x2030020 + 0x40000 * i + 0x4 * j
abbrev TAL_LIVE_W0 (i j : Nat) : Nat := 0x2030100 + 0x40000 * i + 0x20 * j
abbrev TAL_LIVE_W1 (i j : Nat) : Nat := 0x2030104 + 0x40000 * i + 0x20 * j
abbrev TAL_LIVE_W2 (i j : Nat) : Nat := 0x2030108 + 0x40000 * i + 0x20 * j
abbrev TAL_LIVE_W3 (i j : Nat) : Nat := 0x203010C + 0x40000 * i + 0x20 * j
abbrev TAL_LIVE_W4 (i j : Nat) : Nat := 0x2030110 + 0x40000 * i + 0x20 * j
abbrev TAL_LIVE_W5 (i j : Nat) : Nat := 0x2030114 + 0x40000 * i + 0x20 * j
abbrev TAL_LIVE_W6 (i j : Nat) : Nat := 0x2030118 + 0x40000 * i + 0x20 * j
abbrev TAL_LIVE_W7 (i j : Nat) : Nat := 0x203011C + 0x40000 * i + 0x20 * j
abbrev TAL_SNAPBLK_W0 (i j : Nat) : Nat := 0x2031000 + 0x40000 * i + 0x20 * j
abbrev TAL_SNAPBLK_W1 (i j : Nat) : Nat := 0x2031004 + 0x40000 * i + 0x20 * j
abbrev TAL_SNAPBLK_W2 (i j : Nat) : Nat := 0x2031008 + 0x40000 * i + 0x20 * j
abbrev TAL_SNAPBLK_W3 (i j : Nat) : Nat := 0x203100C + 0x40000 * i + 0x20 * j
abbrev TAL_SNAPBLK_W4 (i j : Nat) : Nat := 0x2031010 + 0x40000 * i + 0x20 * j
abbrev TAL_SNAPBLK_W5 (i j : Nat) : Nat := 0x2031014 + 0x40000 * i + 0x20 * j
abbrev TAL_SNAPBLK_W6 (i j : Nat) : Nat := 0x2031018 + 0x40000 * i + 0x20 * j
abbrev TAL_SNAPBLK_W7 (i j : Nat) : Nat := 0x203101C + 0x40000 * i + 0x20 * j

end Sys2Proof.Machine.Reg
end

