-- ==== Sys2Proof/Machine/RegMap.lean ====
section
/-! DEFINITION. The register map: for every register and window word its place, reset value, the access masks of its field
table (Table 0-7) and the encodings its field table does not reserve (R5). An unlisted word of the word store reads its
reset value here. -/

namespace Sys2Proof.Machine

/-- A field whose encodings are restricted: bits `hi` to `lo` may hold a multiple of `mult` inside one of `ok`. -/
structure FieldRule where
  hi : Nat
  lo : Nat
  ok : List (Nat × Nat)
  mult : Nat
deriving DecidableEq, Repr

/-- How a register's reset value follows from its index. -/
inductive ResetValue where
  | const (v : Nat)
  /-- GEN_ID (Table 0-2): the variant comes from the assembly fuses. -/
  | genId
  /-- Index 0 resets to `v`, every other index to 0. -/
  | firstIdx (v : Nat)
  /-- The index itself (the identity map). -/
  | index
  /-- SEC_UID and SEC_DEVPUB, from OTP. -/
  | uid
  | devpub
  /-- COO_CELL W0: the factory tone of R141 in TONE. -/
  | tone
  /-- MON_SEQ: 0x8000_0000 + 4e + a at index 23a + e. -/
  | seq
  /-- Channels 0 to 75 reset to `a`, channels 76 to 91 to `b`. -/
  | split (a b : Nat)
deriving DecidableEq, Repr

/-- A register or window array of the map: `dims` are its (count, stride) pairs, outermost first. -/
structure RegEntry where
  name : String
  base : Nat
  dims : List (Nat × Nat)
  reset : ResetValue
  rw : Nat
  w1c : Nat
  w1s : Nat
  rc : Nat
  wo : Nat
  rules : List FieldRule
  win : Bool
deriving DecidableEq, Repr

/-- The words of GEN (Tables 0-3, 19-8). -/
def RegMap.gen : List RegEntry :=
  [⟨"GEN_ID", 0x0, [], .genId, 0x0, 0x0, 0x0, 0x0, 0x0, [], false⟩,
   ⟨"GEN_RSTCAUSE", 0x10, [], .const 0x0, 0x0, 0x0, 0x0, 0x0, 0x0, [], false⟩]

/-- The words of HIF (Tables 10-14 to 10-17). -/
def RegMap.hif : List RegEntry :=
  [⟨"HIF_LINKCFG", 0x10000, [(4, 0x4)], .const 0x0, 0x0, 0x0, 0x0, 0x0, 0x0, [], false⟩,
   ⟨"HIF_ERRSTAT", 0x10010, [], .const 0x0, 0x0, 0x7F, 0x0, 0x0, 0x0, [], false⟩,
   ⟨"HIF_FNCFG_W0", 0x10100, [(68, 0x10)], .const 0x0, 0xC03F0000, 0x0, 0x0, 0x0, 0x0, [], false⟩,
   ⟨"HIF_FNCFG_W1", 0x10104, [(68, 0x10)], .const 0x0, 0x7FFFFFFF, 0x0, 0x0, 0x0, 0x0, [], false⟩,
   ⟨"HIF_FNCFG_W2", 0x10108, [(68, 0x10)], .const 0x0, 0x80007FFF, 0x0, 0x0, 0x0, 0x0, [], false⟩,
   ⟨"HIF_FNCFG_W3", 0x1010C, [(68, 0x10)], .const 0x0, 0x0, 0x0, 0x0, 0xFFFF, 0x0, [], false⟩,
   ⟨"HIF_CRSTREAM_W0", 0x11000, [(64, 0x10)], .const 0x0, 0xF03F7FFF, 0x0, 0x0, 0x0, 0x0, [⟨30, 28, [(0x0, 0x3)], 1⟩], false⟩,
   ⟨"HIF_CRSTREAM_W1", 0x11004, [(64, 0x10)], .const 0x0, 0xFFFFFFFF, 0x0, 0x0, 0x0, 0x0, [], false⟩,
   ⟨"HIF_CRSTREAM_W2", 0x11008, [(64, 0x10)], .const 0x0, 0xFFFFFFFF, 0x0, 0x0, 0x0, 0x0, [], false⟩,
   ⟨"HIF_CRSTREAM_W3", 0x1100C, [(64, 0x10)], .const 0x0, 0x0, 0x0, 0x0, 0xFFFFFFFF, 0x0, [], false⟩,
   ⟨"HIF_SELFID", 0x18000, [], .const 0x0, 0x0, 0x0, 0x0, 0x0, 0x0, [], false⟩,
   ⟨"HIF_SELFRING", 0x18004, [], .const 0x0, 0x0, 0x0, 0x0, 0x0, 0x0, [], false⟩,
   ⟨"HIF_SELFEV", 0x18008, [], .const 0x0, 0x80007FFF, 0x0, 0x0, 0x0, 0x0, [], false⟩,
   ⟨"HIF_SELFCQL", 0x1800C, [], .const 0x0, 0x0, 0x0, 0x0, 0xFFFF, 0x0, [], false⟩]

/-- The words of MTX (Tables 1-7 to 1-13). -/
def RegMap.mtx : List RegEntry :=
  [⟨"MTX_CTRL", 0x20000, [], .const 0x100, 0xFF03, 0x0, 0x0, 0x0, 0x0, [⟨15, 8, [(0x1, 0xFF)], 1⟩], false⟩,
   ⟨"MTX_PARK", 0x20010, [], .const 0xB6574005, 0xFFFFFFFF, 0x0, 0x0, 0x0, 0x0, [⟨3, 0, [(0x0, 0xB), (0xF, 0xF)], 1⟩, ⟨7, 4, [(0x0, 0xB), (0xF, 0xF)], 1⟩, ⟨11, 8, [(0x0, 0xB), (0xF, 0xF)], 1⟩, ⟨15, 12, [(0x0, 0xB), (0xF, 0xF)], 1⟩, ⟨19, 16, [(0x0, 0xB), (0xF, 0xF)], 1⟩, ⟨23, 20, [(0x0, 0xB), (0xF, 0xF)], 1⟩, ⟨27, 24, [(0x0, 0xB), (0xF, 0xF)], 1⟩, ⟨31, 28, [(0x0, 0xB), (0xF, 0xF)], 1⟩], false⟩,
   ⟨"MTX_ERRSTAT", 0x20020, [], .const 0x0, 0x0, 0x3F, 0x0, 0x0, 0x0, [], false⟩,
   ⟨"MTX_ERRADDR", 0x20024, [], .const 0x0, 0x0, 0x0, 0x0, 0x0, 0x0, [], false⟩,
   ⟨"MTX_ERRINFO", 0x20028, [], .const 0x0, 0x0, 0x0, 0x0, 0x0, 0x0, [], false⟩,
   ⟨"MTX_DRAINLOG", 0x20030, [], .const 0x0, 0x0, 0x0, 0x0, 0x0, 0x0, [], false⟩,
   ⟨"MTX_ISLSTAT", 0x20100, [(69, 0x4)], .const 0x0, 0x0, 0x0, 0x0, 0x0, 0x0, [], false⟩]

/-- The words of TOL (Tables 11-5, 11-6). -/
def RegMap.tol : List RegEntry :=
  [⟨"TOL_STAT", 0x30000, [], .const 0x0, 0x0, 0x0, 0x0, 0x0, 0x0, [], false⟩,
   ⟨"TOL_ERRSTAT", 0x30004, [], .const 0x0, 0x0, 0x1, 0x0, 0x0, 0x0, [], false⟩,
   ⟨"TOL_VTLO", 0x30008, [], .const 0x0, 0x0, 0x0, 0x0, 0x0, 0x0, [], false⟩,
   ⟨"TOL_VTHI", 0x3000C, [], .const 0x0, 0x0, 0x0, 0x0, 0x0, 0x0, [], false⟩,
   ⟨"TOL_WEIGHT", 0x30100, [(64, 0x20)], .const 0x8000010, 0xFFFF00FF, 0x0, 0x0, 0x0, 0x0, [⟨7, 0, [(0x1, 0xFF)], 1⟩], false⟩,
   ⟨"TOL_SHAPE", 0x30104, [(64, 0x20)], .const 0x20001388, 0xFFFFFFFF, 0x0, 0x0, 0x0, 0x0, [⟨31, 16, [(0x1, 0xFFFF)], 1⟩, ⟨15, 0, [(0x1, 0xFFFF)], 1⟩], false⟩,
   ⟨"TOL_POLICE", 0x30108, [(64, 0x20)], .const 0x20001388, 0xFFFFFFFF, 0x0, 0x0, 0x0, 0x0, [⟨31, 16, [(0x1, 0xFFFF)], 1⟩, ⟨15, 0, [(0x1, 0xFFFF)], 1⟩], false⟩,
   ⟨"TOL_PCTL", 0x3010C, [(64, 0x20)], .const 0x0, 0xE0000000, 0x0, 0x1, 0x0, 0x0, [], false⟩,
   ⟨"TOL_SHLEVEL", 0x30110, [(64, 0x20)], .const 0x2000, 0x0, 0x0, 0x0, 0x0, 0x0, [], false⟩,
   ⟨"TOL_POLEVEL", 0x30114, [(64, 0x20)], .const 0x2000, 0x0, 0x0, 0x0, 0x0, 0x0, [], false⟩,
   ⟨"TOL_PCNT", 0x30118, [(64, 0x20)], .const 0x0, 0x0, 0x0, 0x0, 0xFFFFFFFF, 0x0, [], false⟩,
   ⟨"TOL_QSTAT", 0x3011C, [(64, 0x20)], .const 0x0, 0x0, 0x0, 0x0, 0x0, 0x0, [], false⟩]

/-- The words of CIR (chapters 2 and 3). -/
def RegMap.cir : List RegEntry :=
  [⟨"CIR_CTRL", 0x40000, [], .const 0x164, 0x1FF, 0x0, 0x0, 0x0, 0x0, [], false⟩,
   ⟨"CIR_ERRSTAT", 0x40004, [], .const 0x0, 0x0, 0xF, 0x0, 0x0, 0x0, [], false⟩,
   ⟨"CIR_PATCAP", 0x40008, [], .const 0x0, 0x40003FFF, 0x0, 0x80000000, 0x0, 0x0, [], false⟩,
   ⟨"CIR_PARTCTL", 0x40100, [(64, 0x10)], .firstIdx 0x1, 0xF, 0x0, 0x0, 0x0, 0x0, [], false⟩,
   ⟨"CIR_PARTCUE", 0x40104, [(64, 0x10)], .firstIdx 0x10000, 0x1FFFF, 0x0, 0x0, 0x0, 0x0, [], false⟩,
   ⟨"CIR_PARTPAT", 0x40108, [(64, 0x10)], .firstIdx 0x10000, 0x1FFFF, 0x0, 0x0, 0x0, 0x0, [], false⟩,
   ⟨"CIR_PORTOWN", 0x40800, [(512, 0x4)], .const 0xED400000, 0xFFF03F3F, 0x0, 0x0, 0x0, 0x0, [⟨31, 20, [(0x0, 0xC8), (0xE70, 0xFFF)], 1⟩], false⟩,
   ⟨"CIR_CKTA", 0x41000, [(512, 0x8)], .const 0x0, 0x0, 0x0, 0x0, 0x0, 0x0, [], false⟩,
   ⟨"CIR_CKTB", 0x41004, [(512, 0x8)], .const 0x0, 0x0, 0x0, 0x0, 0x0, 0x0, [], false⟩,
   ⟨"CIR_FSSEQ", 0x42000, [], .const 0x0, 0x0, 0x0, 0x0, 0x0, 0x0, [], false⟩,
   ⟨"CIR_FSGEN", 0x42004, [], .const 0x0, 0x0, 0x0, 0x0, 0x0, 0x0, [], false⟩,
   ⟨"CIR_FSCTRL", 0x42008, [], .const 0x0, 0x0, 0x0, 0x1, 0x0, 0x0, [], false⟩,
   ⟨"CIR_FSSNAPSEQ", 0x4200C, [], .const 0x0, 0x0, 0x0, 0x0, 0x0, 0x0, [], false⟩,
   ⟨"CIR_OUTMAP", 0x43000, [(512, 0x4)], .index, 0x0, 0x0, 0x0, 0x0, 0x0, [], false⟩,
   ⟨"CIR_INMAP", 0x43800, [(512, 0x4)], .index, 0x0, 0x0, 0x0, 0x0, 0x0, [], false⟩,
   ⟨"CIR_OUTMAP_SNAP", 0x44000, [(512, 0x4)], .index, 0x0, 0x0, 0x0, 0x0, 0x0, [], false⟩,
   ⟨"CIR_INMAP_SNAP", 0x44800, [(512, 0x4)], .index, 0x0, 0x0, 0x0, 0x0, 0x0, [], false⟩,
   ⟨"CIR_CELLST", 0x45000, [(4864, 0x4)], .const 0x600, 0x0, 0x0, 0x0, 0x0, 0x0, [], false⟩,
   ⟨"CIR_CELLST_SNAP", 0x4A000, [(4864, 0x4)], .const 0x600, 0x0, 0x0, 0x0, 0x0, 0x0, [], false⟩]

/-- The words of WHL (Tables 4-5 to 4-10). -/
def RegMap.whl : List RegEntry :=
  [⟨"WHL_CTRL", 0x50000, [], .const 0x4, 0xF, 0x0, 0x0, 0x0, 0x0, [], false⟩,
   ⟨"WHL_STAT", 0x50004, [], .const 0x0, 0x0, 0x0, 0x0, 0x0, 0x0, [], false⟩,
   ⟨"WHL_SOLVEMAX", 0x50008, [], .const 0x0, 0x0, 0x0, 0x0, 0xFFFFFFFF, 0x0, [], false⟩,
   ⟨"WHL_RESOLVECNT", 0x5000C, [], .const 0x0, 0x0, 0x0, 0x0, 0xFFFFFFFF, 0x0, [], false⟩,
   ⟨"WHL_STALECNT", 0x50010, [], .const 0x0, 0x0, 0x0, 0x0, 0xFFFFFFFF, 0x0, [], false⟩,
   ⟨"WHL_DISTHEAD", 0x50014, [], .const 0x0, 0x0, 0x0, 0x0, 0x0, 0x0, [], false⟩,
   ⟨"WHL_WINSHLO", 0x50020, [(8, 0x8)], .const 0x0, 0xFFFFFFFF, 0x0, 0x0, 0x0, 0x0, [], false⟩,
   ⟨"WHL_WINSHHI", 0x50024, [(8, 0x8)], .const 0x0, 0xFFFFFFFF, 0x0, 0x0, 0x0, 0x0, [], false⟩,
   ⟨"WHL_PARTCFG", 0x50100, [(64, 0x4)], .firstIdx 0x2, 0x3, 0x0, 0x0, 0x0, 0x0, [⟨1, 0, [(0x0, 0x2)], 1⟩], false⟩,
   ⟨"WHL_PARTSTAT", 0x50200, [(64, 0x4)], .const 0x0, 0x0, 0x0, 0x0, 0xFFFFFFFF, 0x0, [], false⟩,
   ⟨"WHL_DISTLOG_W0", 0x51000, [(256, 0x8)], .const 0x0, 0x0, 0x0, 0x0, 0x0, 0x0, [], false⟩,
   ⟨"WHL_DISTLOG_W1", 0x51004, [(256, 0x8)], .const 0x0, 0x0, 0x0, 0x0, 0x0, 0x0, [], false⟩]

/-- The words of LMP (Tables 5-6 to 5-12). -/
def RegMap.lmp : List RegEntry :=
  [⟨"LMP_CTRL", 0x60000, [], .const 0x0, 0x100, 0x0, 0x0, 0x0, 0x0, [], false⟩,
   ⟨"LMP_STAT", 0x60004, [], .const 0x0, 0x0, 0x0, 0x0, 0x0, 0x0, [], false⟩,
   ⟨"LMP_GEN", 0x60008, [], .const 0x0, 0x0, 0x0, 0x0, 0x0, 0x0, [], false⟩,
   ⟨"LMP_JHEAD", 0x6000C, [], .const 0x0, 0x0, 0x0, 0x0, 0x0, 0x0, [], false⟩,
   ⟨"LMP_ABORT", 0x60010, [], .const 0x0, 0x0, 0x0, 0x0, 0x0, 0xFFFF, [], false⟩,
   ⟨"LMP_ABORTRES", 0x60014, [], .const 0x0, 0x0, 0x0, 0x0, 0x0, 0x0, [], false⟩,
   ⟨"LMP_ERRSTAT", 0x60018, [], .const 0x0, 0x0, 0xF, 0x0, 0x0, 0x0, [], false⟩,
   ⟨"LMP_ARMTIME", 0x60020, [], .const 0x0, 0x0, 0x0, 0x0, 0x0, 0x0, [], false⟩,
   ⟨"LMP_ARMSEC", 0x60024, [], .const 0x0, 0x0, 0x0, 0x0, 0x0, 0x0, [], false⟩,
   ⟨"LMP_THRSTAT", 0x60028, [], .const 0xFFFF1300, 0x0, 0x0, 0x0, 0x0, 0x0, [], false⟩,
   ⟨"LMP_THRCNT", 0x6002C, [], .const 0x0, 0x0, 0x0, 0x0, 0xFFFFFFFF, 0x0, [], false⟩,
   ⟨"LMP_WINSEC", 0x60100, [(8, 0x20)], .const 0x0, 0xFFFFFFFF, 0x0, 0x0, 0x0, 0x0, [], false⟩,
   ⟨"LMP_WINNS", 0x60104, [(8, 0x20)], .const 0x0, 0x3FFFFFFF, 0x0, 0x0, 0x0, 0x0, [⟨29, 0, [(0x0, 0x3B9AC9FF)], 1⟩], false⟩,
   ⟨"LMP_WINPER", 0x60108, [(8, 0x20)], .const 0xF4240, 0xFFFFFFFF, 0x0, 0x0, 0x0, 0x0, [⟨31, 0, [(0x7D0, 0xFFFFFFFF)], 1⟩], false⟩,
   ⟨"LMP_WINLEN", 0x6010C, [(8, 0x20)], .const 0xFA0, 0xFFFFFFFF, 0x0, 0x0, 0x0, 0x0, [⟨31, 0, [(0x258, 0xFFFFFFFF)], 1⟩], false⟩,
   ⟨"LMP_WINCTL", 0x60110, [(8, 0x20)], .const 0x0, 0x1, 0x0, 0x0, 0x0, 0x0, [], false⟩,
   ⟨"LMP_WINSTAT", 0x60114, [(8, 0x20)], .const 0x0, 0x0, 0x0, 0x0, 0x0, 0x0, [], false⟩,
   ⟨"LMP_JOURNAL", 0x61000, [(256, 0x20), (8, 0x4)], .const 0x0, 0x0, 0x0, 0x0, 0x0, 0x0, [], false⟩]

/-- The words of ASY (Tables 9-9, 9-10). -/
def RegMap.asy : List RegEntry :=
  [⟨"ASY_CTRL", 0x70000, [], .const 0xA0508, 0xFFFF0F09, 0x0, 0x0, 0x0, 0x0, [⟨23, 16, [(0x1, 0xFF)], 1⟩, ⟨11, 10, [(0x0, 0x2)], 1⟩], false⟩,
   ⟨"ASY_CMD", 0x70004, [], .const 0x0, 0x0, 0x0, 0x0, 0x0, 0xF1001FFF, [], false⟩,
   ⟨"ASY_CMDRES", 0x70008, [], .const 0x0, 0x0, 0x0, 0x0, 0x0, 0x0, [], false⟩,
   ⟨"ASY_STAT", 0x7000C, [], .const 0x0, 0x0, 0x0, 0x0, 0x0, 0x0, [], false⟩,
   ⟨"ASY_ERRSTAT", 0x70010, [], .const 0x0, 0x0, 0x1F, 0x0, 0x0, 0x0, [], false⟩,
   ⟨"ASY_PWIN", 0x70014, [], .const 0x753007D0, 0xFFFFFFFF, 0x0, 0x0, 0x0, 0x0, [], false⟩,
   ⟨"ASY_QLIM", 0x70018, [], .const 0x1A40014, 0x3FF00FF, 0x0, 0x0, 0x0, 0x0, [], false⟩,
   ⟨"ASY_BGPER", 0x7001C, [], .const 0xE10, 0xFFFFFFFF, 0x0, 0x0, 0x0, 0x0, [⟨31, 0, [(0x3C, 0xFFFFFFFF)], 1⟩], false⟩,
   ⟨"ASY_BANKGEN", 0x70020, [(2, 0x4)], .const 0xFFFFFFFF, 0x0, 0x0, 0x0, 0x0, 0x0, [], false⟩,
   ⟨"ASY_CALCNT", 0x70028, [], .const 0x0, 0x0, 0x0, 0x0, 0xFFFFFFFF, 0x0, [], false⟩,
   ⟨"ASY_SKIPCNT", 0x7002C, [], .const 0x0, 0x0, 0x0, 0x0, 0xFFFFFFFF, 0x0, [], false⟩,
   ⟨"ASY_YIELDCNT", 0x70030, [], .const 0x0, 0x0, 0x0, 0x0, 0xFFFFFFFF, 0x0, [], false⟩,
   ⟨"ASY_QUAL_W0", 0x74000, [(4864, 0x8)], .const 0x0, 0x0, 0x0, 0x0, 0x0, 0x0, [], false⟩,
   ⟨"ASY_QUAL_W1", 0x74004, [(4864, 0x8)], .const 0x0, 0x0, 0x0, 0x0, 0x0, 0x0, [], false⟩]

/-- The words of TNK (Table 9-12). -/
def RegMap.tnk : List RegEntry :=
  [⟨"TNK_CTRL", 0x80000, [], .const 0x28180000, 0xFFFF0001, 0x0, 0x0, 0x0, 0x0, [⟨31, 24, [(0x1, 0xFF)], 1⟩], false⟩,
   ⟨"TNK_WARN", 0x80004, [], .const 0x4A38, 0x7FFF, 0x0, 0x0, 0x0, 0x0, [⟨14, 0, [(0x0, 0x4E20)], 1⟩], false⟩,
   ⟨"TNK_STAT", 0x80008, [], .const 0x0, 0x0, 0x0, 0x0, 0x0, 0x0, [], false⟩,
   ⟨"TNK_CNT", 0x8000C, [], .const 0x0, 0x0, 0x0, 0x0, 0x0, 0x0, [], false⟩,
   ⟨"TNK_ERRSTAT", 0x80010, [], .const 0x0, 0x0, 0xF, 0x0, 0x0, 0x0, [], false⟩,
   ⟨"TNK_CLR", 0x80014, [], .const 0x0, 0x0, 0x0, 0x0, 0x0, 0x80001FFF, [], false⟩,
   ⟨"TNK_CELL_W0", 0x84000, [(4864, 0x8)], .const 0x0, 0x0, 0x0, 0x0, 0x0, 0x0, [], false⟩,
   ⟨"TNK_CELL_W1", 0x84004, [(4864, 0x8)], .const 0x80000000, 0x0, 0x0, 0x0, 0x0, 0x0, [], false⟩]

/-- The words of TIM (Table 14-4). -/
def RegMap.tim : List RegEntry :=
  [⟨"TIM_CTRL", 0x90000, [], .const 0x0, 0x7, 0x0, 0x0, 0x0, 0x0, [], false⟩,
   ⟨"TIM_STAT", 0x90004, [], .const 0x0, 0x0, 0x0, 0x0, 0x0, 0x0, [], false⟩,
   ⟨"TIM_ERRSTAT", 0x90008, [], .const 0x0, 0x0, 0x1F, 0x0, 0x0, 0x0, [], false⟩,
   ⟨"TIM_NOWNS", 0x90010, [], .const 0x0, 0x0, 0x0, 0x0, 0x0, 0x0, [], false⟩,
   ⟨"TIM_NOWSECLO", 0x90014, [], .const 0x0, 0x0, 0x0, 0x0, 0x0, 0x0, [], false⟩,
   ⟨"TIM_NOWSECHI", 0x90018, [], .const 0x0, 0x0, 0x0, 0x0, 0x0, 0x0, [], false⟩,
   ⟨"TIM_NOWFR", 0x9001C, [], .const 0x0, 0x0, 0x0, 0x0, 0x0, 0x0, [], false⟩,
   ⟨"TIM_INCR", 0x90020, [], .const 0x40000000, 0xFFFFFFFF, 0x0, 0x0, 0x0, 0x0, [⟨31, 0, [(0x3FF00000, 0x40100000)], 1⟩], false⟩,
   ⟨"TIM_ADJINCR", 0x90024, [], .const 0x40000000, 0xFFFFFFFF, 0x0, 0x0, 0x0, 0x0, [⟨31, 0, [(0x3FF00000, 0x40100000)], 1⟩], false⟩,
   ⟨"TIM_ADJCNT", 0x90028, [], .const 0x0, 0xFFFFFFFF, 0x0, 0x0, 0x0, 0x0, [], false⟩,
   ⟨"TIM_SETNS", 0x90030, [], .const 0x0, 0x3FFFFFFC, 0x0, 0x0, 0x0, 0x0, [⟨29, 0, [(0x0, 0x3B9AC9FF)], 1⟩], false⟩,
   ⟨"TIM_SETSECLO", 0x90034, [], .const 0x0, 0xFFFFFFFF, 0x0, 0x0, 0x0, 0x0, [], false⟩,
   ⟨"TIM_SETSECHI", 0x90038, [], .const 0x0, 0xFFFF, 0x0, 0x0, 0x0, 0x0, [], false⟩,
   ⟨"TIM_STEP", 0x9003C, [], .const 0x0, 0xFFFFFFFC, 0x0, 0x0, 0x0, 0x0, [], false⟩,
   ⟨"TIM_STEPCTL", 0x90040, [], .const 0x0, 0x0, 0x0, 0x0, 0x0, 0xF0000000, [], false⟩,
   ⟨"TIM_LASTSTEP", 0x90044, [], .const 0x0, 0x0, 0x0, 0x0, 0x0, 0x0, [], false⟩,
   ⟨"TIM_PPSCTL", 0x90070, [], .const 0x640000, 0xFFFF000F, 0x0, 0x0, 0x0, 0x0, [⟨31, 16, [(0x1, 0x1F4)], 1⟩], false⟩,
   ⟨"TIM_PPSOFS", 0x90074, [], .const 0x0, 0xFFFFFFFF, 0x0, 0x0, 0x0, 0x0, [], false⟩,
   ⟨"TIM_PPSINNS", 0x90078, [], .const 0x0, 0x0, 0x0, 0x0, 0x0, 0x0, [], false⟩,
   ⟨"TIM_PPSINSEC", 0x9007C, [], .const 0x0, 0x0, 0x0, 0x0, 0x0, 0x0, [], false⟩,
   ⟨"TIM_PTPCFG", 0x90080, [], .const 0x18, 0x3FF, 0x0, 0x0, 0x0, 0x0, [], false⟩,
   ⟨"TIM_HOCFG", 0x90084, [], .const 0x3E84032, 0xFFFFFFFF, 0x0, 0x0, 0x0, 0x0, [⟨15, 12, [(0x1, 0xF)], 1⟩], false⟩,
   ⟨"TIM_OFFSET", 0x90088, [], .const 0x0, 0x0, 0x0, 0x0, 0x0, 0x0, [], false⟩,
   ⟨"TIM_MPD", 0x9008C, [], .const 0x0, 0x0, 0x0, 0x0, 0x0, 0x0, [], false⟩,
   ⟨"TIM_MEASSEQ", 0x90090, [], .const 0x0, 0x0, 0x0, 0x0, 0x0, 0x0, [], false⟩,
   ⟨"TIM_PTPCNT", 0x90094, [], .const 0x0, 0x0, 0x0, 0x0, 0xFFFFFFFF, 0x0, [], false⟩,
   ⟨"TIM_PORTCOMP_W0", 0x90050, [(2, 0x8)], .const 0x0, 0xFFFFFFFF, 0x0, 0x0, 0x0, 0x0, [], false⟩,
   ⟨"TIM_PORTCOMP_W1", 0x90054, [(2, 0x8)], .const 0x0, 0xFFFFFFFF, 0x0, 0x0, 0x0, 0x0, [], false⟩,
   ⟨"TIM_CMP_W0", 0x90100, [(64, 0x10)], .const 0x0, 0xFFFFFFFF, 0x0, 0x0, 0x0, 0x0, [⟨29, 0, [(0x0, 0x3B9AC9FF)], 4⟩], false⟩,
   ⟨"TIM_CMP_W1", 0x90104, [(64, 0x10)], .const 0x0, 0xFFFFFFFF, 0x0, 0x0, 0x0, 0x0, [], false⟩] ++
  [⟨"TIM_CMP_W2", 0x90108, [(64, 0x10)], .const 0x0, 0xFFFF, 0x0, 0x0, 0x0, 0x0, [], false⟩,
   ⟨"TIM_CMP_W3", 0x9010C, [(64, 0x10)], .const 0x0, 0xFFFFFFFF, 0x0, 0x0, 0x0, 0x0, [⟨31, 0, [(0x0, 0x0), (0x1000, 0xFFFFFFFF)], 4⟩], false⟩,
   ⟨"TIM_TILESEL", 0x90500, [(64, 0x4)], .const 0x0, 0xBFBFBF00, 0x0, 0x0, 0x0, 0x0, [], false⟩]

/-- The words of NETA and NETB (Table 12-10), and the MACsec tables that R275 places at base + 0x1000, in a layout that the spec does not
give: 4 KiB of words that read as written (DESIGN CHOICE, log entry 123). -/
def RegMap.net : List RegEntry :=
  [⟨"NETA_CTRL", 0xA0000, [], .const 0x210, 0x313, 0x0, 0x0, 0x0, 0x0, [⟨1, 0, [(0x0, 0x1)], 1⟩], false⟩,
   ⟨"NETA_STAT", 0xA0004, [], .const 0x0, 0x0, 0x0, 0x0, 0x0, 0x0, [], false⟩,
   ⟨"NETA_ERRSTAT", 0xA0008, [], .const 0x0, 0x0, 0xF, 0x0, 0x0, 0x0, [], false⟩,
   ⟨"NETA_MSCTL", 0xA000C, [], .const 0x40, 0xFFFFFFFF, 0x0, 0x0, 0x0, 0x0, [], false⟩,
   ⟨"NETA_CNT", 0xA0010, [(6, 0x4)], .const 0x0, 0x0, 0x0, 0x0, 0xFFFFFFFF, 0x0, [], false⟩,
   ⟨"NETA_MSTAB", 0xA1000, [(1024, 0x4)], .const 0x0, 0xFFFFFFFF, 0x0, 0x0, 0x0, 0x0, [], false⟩,
   ⟨"NETB_CTRL", 0xB0000, [], .const 0x210, 0x313, 0x0, 0x0, 0x0, 0x0, [⟨1, 0, [(0x0, 0x1)], 1⟩], false⟩,
   ⟨"NETB_STAT", 0xB0004, [], .const 0x0, 0x0, 0x0, 0x0, 0x0, 0x0, [], false⟩,
   ⟨"NETB_ERRSTAT", 0xB0008, [], .const 0x0, 0x0, 0xF, 0x0, 0x0, 0x0, [], false⟩,
   ⟨"NETB_MSCTL", 0xB000C, [], .const 0x40, 0xFFFFFFFF, 0x0, 0x0, 0x0, 0x0, [], false⟩,
   ⟨"NETB_CNT", 0xB0010, [(6, 0x4)], .const 0x0, 0x0, 0x0, 0x0, 0xFFFFFFFF, 0x0, [], false⟩,
   ⟨"NETB_MSTAB", 0xB1000, [(1024, 0x4)], .const 0x0, 0xFFFFFFFF, 0x0, 0x0, 0x0, 0x0, [], false⟩]

/-- The words of POR (Table 12-9). -/
def RegMap.por : List RegEntry :=
  [⟨"POR_CTRL", 0xC0000, [], .const 0x88B5B810, 0xFFFFFFFF, 0x0, 0x0, 0x0, 0x0, [], false⟩,
   ⟨"POR_SYSID", 0xC0004, [], .const 0x0, 0xFFF, 0x0, 0x0, 0x0, 0x0, [⟨11, 0, [(0x0, 0xFFE)], 1⟩], false⟩,
   ⟨"POR_BANK", 0xC0008, [], .const 0x0, 0x0, 0x0, 0x80000000, 0x0, 0x0, [], false⟩,
   ⟨"POR_ERRSTAT", 0xC000C, [], .const 0x0, 0x0, 0xF, 0x0, 0x0, 0x0, [], false⟩,
   ⟨"POR_PORTCFG", 0xC0010, [(2, 0x4)], .const 0x7D04004, 0xFFFFFF07, 0x0, 0x0, 0x0, 0x0, [⟨31, 16, [(0x1, 0xFFFF)], 1⟩, ⟨15, 8, [(0x1, 0xFF)], 1⟩, ⟨1, 0, [(0x0, 0x1)], 1⟩], false⟩,
   ⟨"POR_PCNT", 0xC0020, [(2, 0x10), (4, 0x4)], .const 0x0, 0x0, 0x0, 0x0, 0xFFFFFFFF, 0x0, [], false⟩,
   ⟨"POR_STRADDLE", 0xC0040, [], .const 0x0, 0x0, 0x0, 0x0, 0xFFFFFFFF, 0x0, [], false⟩,
   ⟨"POR_DROPCNT", 0xC0044, [], .const 0x0, 0x0, 0x0, 0x0, 0xFFFFFFFF, 0x0, [], false⟩,
   ⟨"POR_NGCPCNT", 0xC0048, [], .const 0x0, 0x0, 0x0, 0x0, 0xFFFFFFFF, 0x0, [], false⟩,
   ⟨"POR_SESS_W0", 0xC0100, [(64, 0x8)], .const 0x0, 0xE03F0000, 0x0, 0x0, 0x0, 0x0, [], false⟩,
   ⟨"POR_SESS_W1", 0xC0104, [(64, 0x8)], .const 0x0, 0x0, 0x0, 0x0, 0xFFFFFFFF, 0x0, [], false⟩]

/-- The words of PTH (Table 13-8). A GMWIN outside the range that the table states is taken as reserved, so the field keeps its value and CFGERR
is set (DESIGN CHOICE, log entry 97). -/
def RegMap.pth : List RegEntry :=
  [⟨"PTH_CTRL", 0xD0000, [], .const 0x640000, 0xFFFF001C, 0x0, 0x0, 0x0, 0x0, [⟨31, 16, [(0x32, 0x3E8)], 1⟩], false⟩,
   ⟨"PTH_STAT", 0xD0004, [], .const 0x40000011, 0x0, 0x0, 0x0, 0x0, 0x0, [], false⟩,
   ⟨"PTH_CMD", 0xD0008, [], .const 0x0, 0x0, 0x0, 0x0, 0x0, 0xF0000001, [], false⟩,
   ⟨"PTH_CMDRES", 0xD000C, [], .const 0x0, 0x0, 0x0, 0x0, 0x0, 0x0, [], false⟩,
   ⟨"PTH_ERRSTAT", 0xD0010, [], .const 0x0, 0x0, 0x3F, 0x0, 0x0, 0x0, [], false⟩,
   ⟨"PTH_EPOCH", 0xD0014, [], .const 0x0, 0x0, 0x0, 0x0, 0x0, 0x0, [], false⟩,
   ⟨"PTH_WCTL", 0xD0018, [], .const 0x1F48101, 0xFFFFF1FF, 0x0, 0x0, 0x0, 0x0, [⟨31, 16, [(0x64, 0x2710)], 1⟩, ⟨15, 12, [(0x1, 0xF)], 1⟩, ⟨7, 0, [(0x1, 0xFF)], 1⟩], false⟩,
   ⟨"PTH_CNT", 0xD001C, [], .const 0x0, 0x0, 0x0, 0x0, 0xFFFFFFFF, 0x0, [], false⟩,
   ⟨"PTH_HEALTH", 0xD0020, [(2, 0x4)], .const 0x0, 0x0, 0x0, 0x0, 0x0, 0x0, [], false⟩,
   ⟨"PTH_SWLOG_W0", 0xD0030, [], .const 0x0, 0x0, 0x0, 0x0, 0x0, 0x0, [], false⟩,
   ⟨"PTH_SWLOG_W1", 0xD0034, [], .const 0x0, 0x0, 0x0, 0x0, 0x0, 0x0, [], false⟩,
   ⟨"PTH_SWLOG_W2", 0xD0038, [], .const 0x0, 0x0, 0x0, 0x0, 0x0, 0x0, [], false⟩,
   ⟨"PTH_SWLOG_W3", 0xD003C, [], .const 0x0, 0x0, 0x0, 0x0, 0x0, 0x0, [], false⟩]

/-- The words of PWR (Table 15-10). -/
def RegMap.pwr : List RegEntry :=
  [⟨"PWR_CTRL", 0xE0000, [], .const 0x320301, 0xFF0F01, 0x0, 0x0, 0x0, 0x0, [⟨23, 16, [(0x1, 0xFF)], 1⟩, ⟨11, 8, [(0x1, 0x4)], 1⟩], false⟩,
   ⟨"PWR_REQ", 0xE0004, [], .const 0x0, 0x4F0000FF, 0x0, 0x80000000, 0x0, 0x0, [⟨27, 24, [(0x0, 0x5)], 1⟩], false⟩,
   ⟨"PWR_REQRES", 0xE0008, [], .const 0x0, 0x0, 0x0, 0x0, 0x0, 0x0, [], false⟩,
   ⟨"PWR_STAT", 0xE000C, [], .const 0x0, 0x0, 0x0, 0x0, 0x0, 0x0, [], false⟩,
   ⟨"PWR_ERRSTAT", 0xE0010, [], .const 0x0, 0x0, 0x1F, 0x0, 0x0, 0x0, [], false⟩,
   ⟨"PWR_REFUSE", 0xE0014, [], .const 0x0, 0x0, 0x0, 0x0, 0x0, 0x0, [], false⟩,
   ⟨"PWR_WAKECFG", 0xE0018, [], .const 0x0, 0xFFBFF000, 0x0, 0x0, 0x0, 0x0, [], false⟩,
   ⟨"PWR_WAKESRC", 0xE001C, [], .const 0x0, 0x0, 0x0, 0x0, 0x0, 0x0, [], false⟩,
   ⟨"PWR_WAKENS", 0xE0020, [], .const 0x0, 0x0, 0x0, 0x0, 0x0, 0x0, [], false⟩,
   ⟨"PWR_WAKESEC", 0xE0024, [], .const 0x0, 0x0, 0x0, 0x0, 0x0, 0x0, [], false⟩,
   ⟨"PWR_RETSTAT", 0xE0028, [], .const 0x0, 0x0, 0x0, 0x0, 0x0, 0x0, [], false⟩]

/-- The words of THM (Table 16-6). -/
def RegMap.thm : List RegEntry :=
  [⟨"THM_CTRL", 0xF0000, [], .const 0x1, 0x1, 0x0, 0x0, 0x0, 0x0, [], false⟩,
   ⟨"THM_STAT", 0xF0004, [], .const 0x0, 0x0, 0x0, 0x0, 0x0, 0x0, [], false⟩,
   ⟨"THM_ERRSTAT", 0xF0008, [], .const 0x0, 0x0, 0xFF, 0x0, 0x0, 0x0, [], false⟩,
   ⟨"THM_THR", 0xF000C, [], .const 0x766E69, 0xFFFFFF, 0x0, 0x0, 0x0, 0x0, [], false⟩,
   ⟨"THM_RISE", 0xF0010, [], .const 0x640014, 0xFFFFFFFF, 0x0, 0x0, 0x0, 0x0, [], false⟩,
   ⟨"THM_PSUS", 0xF0014, [], .const 0x506E2814, 0xFFFFFFFF, 0x0, 0x0, 0x0, 0x0, [], false⟩,
   ⟨"THM_CREDCFG", 0xF0018, [], .const 0x2D01E0, 0xFFFFFFFF, 0x0, 0x0, 0x0, 0x0, [], false⟩,
   ⟨"THM_CREDIT", 0xF001C, [], .const 0x75300, 0x0, 0x0, 0x0, 0x0, 0x0, [], false⟩,
   ⟨"THM_PEST", 0xF0020, [], .const 0x0, 0x0, 0x0, 0x0, 0x0, 0x0, [], false⟩,
   ⟨"THM_RATE", 0xF0024, [], .const 0x1E70030, 0xFFFFFFFF, 0x0, 0x0, 0x0, 0x0, [], false⟩,
   ⟨"THM_SENSCLR", 0xF0028, [], .const 0x0, 0x0, 0x0, 0x0, 0x0, 0x800000FF, [], false⟩,
   ⟨"THM_RESUME", 0xF002C, [], .const 0x55, 0xFF, 0x0, 0x0, 0x0, 0x0, [], false⟩,
   ⟨"THM_STOPLOG_W0", 0xF0030, [], .const 0x0, 0x0, 0x0, 0x0, 0x0, 0x0, [], false⟩,
   ⟨"THM_STOPLOG_W1", 0xF0034, [], .const 0x0, 0x0, 0x0, 0x0, 0x0, 0x0, [], false⟩,
   ⟨"THM_STOPLOG_W2", 0xF0038, [], .const 0x0, 0x0, 0x0, 0x0, 0x0, 0x0, [], false⟩,
   ⟨"THM_SENS", 0xF0100, [(136, 0x4)], .const 0x0, 0x0, 0x0, 0x0, 0x0, 0x0, [], false⟩]

/-- The words of BOOT and SEC (Tables 17-11, 17-12). -/
def RegMap.boot : List RegEntry :=
  [⟨"BOOT_CTRL", 0x100000, [], .const 0x0, 0x0, 0x0, 0x80000000, 0x0, 0x0, [], false⟩,
   ⟨"BOOT_STAT", 0x100004, [], .const 0x0, 0x0, 0x0, 0x0, 0x0, 0x0, [], false⟩,
   ⟨"BOOT_REJ", 0x100008, [], .const 0x0, 0x0, 0x0, 0x0, 0x0, 0x0, [], false⟩,
   ⟨"BOOT_IMGSEQ", 0x10000C, [], .const 0x0, 0x0, 0x0, 0x0, 0x0, 0x0, [], false⟩,
   ⟨"BOOT_IMGINFO", 0x100010, [], .const 0x0, 0x0, 0x0, 0x0, 0x0, 0x0, [], false⟩,
   ⟨"BOOT_TIME", 0x100020, [(7, 0x4)], .const 0xFFFFFFFF, 0x0, 0x0, 0x0, 0x0, 0x0, [], false⟩,
   ⟨"BOOT_FLADDR", 0x100040, [], .const 0x0, 0x3FFFFFF, 0x0, 0x0, 0x0, 0x0, [], false⟩,
   ⟨"BOOT_FLCMD", 0x100044, [], .const 0x0, 0x0, 0x0, 0x0, 0x0, 0xF0000000, [], false⟩,
   ⟨"BOOT_FLSTAT", 0x100048, [], .const 0x0, 0x0, 0x0, 0x0, 0x0, 0x0, [], false⟩,
   ⟨"BOOT_FLBUF", 0x100100, [(64, 0x4)], .const 0x0, 0xFFFFFFFF, 0x0, 0x0, 0x0, 0x0, [], true⟩,
   ⟨"SEC_UID", 0x101000, [(4, 0x4)], .uid, 0x0, 0x0, 0x0, 0x0, 0x0, [], false⟩,
   ⟨"SEC_OTPSTAT", 0x101010, [], .const 0x40000000, 0x0, 0x0, 0x0, 0x0, 0x0, [], false⟩,
   ⟨"SEC_KEYREV", 0x101014, [], .const 0x0, 0x0, 0x0, 0x0, 0x0, 0x80000003, [], false⟩,
   ⟨"SEC_ERRSTAT", 0x101018, [], .const 0x0, 0x0, 0x7, 0x0, 0x0, 0x0, [], false⟩,
   ⟨"SEC_DEVPUB", 0x101020, [(16, 0x4)], .devpub, 0x0, 0x0, 0x0, 0x0, 0x0, [], false⟩,
   ⟨"SEC_ATTCTL", 0x101060, [], .const 0x0, 0xF, 0x0, 0x80000000, 0x0, 0x0, [⟨3, 0, [(0x1, 0x2)], 1⟩], false⟩,
   ⟨"SEC_ATTCNT", 0x101064, [], .const 0x0, 0x0, 0x0, 0x0, 0x0, 0x0, [], false⟩,
   ⟨"SEC_ATTNONCE", 0x101080, [(8, 0x4)], .const 0x0, 0xFFFFFFFF, 0x0, 0x0, 0x0, 0x0, [], false⟩,
   ⟨"SEC_SEALCTL", 0x1010C0, [], .const 0x0, 0x0, 0x0, 0x80000000, 0x0, 0x0, [], false⟩,
   ⟨"SEC_SEALBUF", 0x101100, [(20, 0x4)], .const 0x0, 0xFFFFFFFF, 0x0, 0x0, 0x0, 0x0, [], true⟩,
   ⟨"SEC_ATTWIN", 0x108000, [(8192, 0x4)], .const 0x0, 0x0, 0x0, 0x0, 0x0, 0x0, [], true⟩]

/-- The words of FLT and DMP (Table 18-8). -/
def RegMap.flt : List RegEntry :=
  [⟨"FLT_CTRL", 0x110000, [], .const 0x101010, 0xFFFF10FF, 0x0, 0x0, 0x0, 0x0, [⟨7, 0, [(0x1, 0xFF)], 1⟩], false⟩,
   ⟨"FLT_STAT", 0x110004, [], .const 0x0, 0x0, 0x0, 0x0, 0x0, 0x0, [], false⟩,
   ⟨"FLT_ERRSTAT", 0x110008, [], .const 0x0, 0x0, 0x3F, 0x0, 0x0, 0x0, [], false⟩,
   ⟨"FLT_CECNT", 0x11000C, [], .const 0x0, 0x0, 0x0, 0x0, 0xFFFFFFFF, 0x0, [], false⟩,
   ⟨"FLT_CELOG", 0x110010, [], .const 0x0, 0x0, 0x0, 0x0, 0x0, 0x0, [], false⟩,
   ⟨"FLT_UELOG_W0", 0x110014, [], .const 0x0, 0x0, 0x0, 0x0, 0x0, 0x0, [], false⟩,
   ⟨"FLT_UELOG_W1", 0x110018, [], .const 0x0, 0x0, 0x0, 0x0, 0x0, 0x0, [], false⟩,
   ⟨"FLT_CMD", 0x110020, [], .const 0x0, 0x0, 0x0, 0x0, 0x0, 0xF000003F, [], false⟩,
   ⟨"FLT_CMDRES", 0x110024, [], .const 0x0, 0x0, 0x0, 0x0, 0x0, 0x0, [], false⟩,
   ⟨"FLT_LAST_W0", 0x110028, [], .const 0x0, 0x0, 0x0, 0x0, 0x0, 0x0, [], false⟩,
   ⟨"FLT_LAST_W1", 0x11002C, [], .const 0x0, 0x0, 0x0, 0x0, 0x0, 0x0, [], false⟩,
   ⟨"FLT_LAST_W2", 0x110030, [], .const 0x0, 0x0, 0x0, 0x0, 0x0, 0x0, [], false⟩,
   ⟨"DMP_ADDRLO", 0x110040, [], .const 0x0, 0xFFFFF000, 0x0, 0x0, 0x0, 0x0, [], false⟩,
   ⟨"DMP_ADDRHI", 0x110044, [], .const 0x0, 0xFFFFFFFF, 0x0, 0x0, 0x0, 0x0, [], false⟩,
   ⟨"DMP_CTL", 0x110048, [], .const 0x0, 0x8003FFFF, 0x0, 0x0, 0x0, 0x0, [], false⟩,
   ⟨"DMP_STAT", 0x11004C, [], .const 0x0, 0x0, 0x0, 0x0, 0x0, 0x0, [], false⟩,
   ⟨"DMP_NVMPTR", 0x110050, [], .const 0x0, 0x3FFFC, 0x0, 0x0, 0x0, 0x0, [], false⟩,
   ⟨"DMP_NVMDATA", 0x110054, [], .const 0x0, 0x0, 0x0, 0x0, 0x0, 0x0, [], false⟩]

/-- The words of the cue table window (Table 3-4). -/
def RegMap.cue : List RegEntry :=
  [⟨"CUE_W0", 0x1000000, [(65536, 0x20)], .const 0x0, 0x3F0FFF, 0x0, 0x0, 0x0, 0x0, [⟨7, 6, [(0x0, 0x2)], 1⟩, ⟨5, 4, [(0x0, 0x2)], 1⟩, ⟨3, 0, [(0x0, 0x6)], 1⟩], true⟩,
   ⟨"CUE_W1", 0x1000004, [(65536, 0x20)], .const 0x0, 0x1FF01FF, 0x0, 0x0, 0x0, 0x0, [], true⟩,
   ⟨"CUE_W2", 0x1000008, [(65536, 0x20)], .const 0x0, 0x301FF, 0x0, 0x0, 0x0, 0x0, [], true⟩,
   ⟨"CUE_W3", 0x100000C, [(65536, 0x20)], .const 0x0, 0x0, 0x0, 0x0, 0x0, 0x0, [], true⟩,
   ⟨"CUE_W4", 0x1000010, [(65536, 0x20)], .const 0x0, 0xFFFFFFFF, 0x0, 0x0, 0x0, 0x0, [], true⟩,
   ⟨"CUE_W5", 0x1000014, [(65536, 0x20)], .const 0x0, 0xFFFFFFFF, 0x0, 0x0, 0x0, 0x0, [], true⟩,
   ⟨"CUE_W6", 0x1000018, [(65536, 0x20)], .const 0x0, 0x0, 0x0, 0x0, 0x0, 0x0, [], true⟩,
   ⟨"CUE_W7", 0x100001C, [(65536, 0x20)], .const 0x0, 0x0, 0x0, 0x0, 0x0, 0x0, [], true⟩]

/-- The words of the pattern store window (Table 3-13). -/
def RegMap.pat : List RegEntry :=
  [⟨"PAT", 0x1200000, [(256, 0x800), (512, 0x4)], .const 0x0, 0x93FF01FF, 0x0, 0x0, 0x0, 0x0, [], true⟩]

/-- The words of the TCAM window (Table 12-3). ACT takes 5 to 7, which Table 12-4 calls reserved and treats as DROP, as they are written
(DESIGN CHOICE, log entry 95). -/
def RegMap.tcam : List RegEntry :=
  [⟨"TCAM_KEY", 0x1400000, [(2048, 0x100), (16, 0x4)], .const 0x0, 0xFFFFFFFF, 0x0, 0x0, 0x0, 0x0, [], true⟩,
   ⟨"TCAM_MASK", 0x1400040, [(2048, 0x100), (16, 0x4)], .const 0x0, 0xFFFFFFFF, 0x0, 0x0, 0x0, 0x0, [], true⟩,
   ⟨"TCAM_ACT", 0x1400080, [(2048, 0x100)], .const 0x0, 0xFFFF0000, 0x0, 0x0, 0x0, 0x0, [], true⟩,
   ⟨"TCAM_HITS", 0x1400084, [(2048, 0x100)], .const 0x0, 0x0, 0x0, 0x0, 0xFFFFFFFF, 0x0, [], true⟩,
   ⟨"TCAM_RSVD", 0x1400088, [(2048, 0x100), (30, 0x4)], .const 0x0, 0x0, 0x0, 0x0, 0x0, 0x0, [], true⟩]

/-- The words of the ring descriptor window (Table 10-16). -/
def RegMap.ring : List RegEntry :=
  [⟨"RING_W0", 0x1800000, [(32768, 0x20)], .const 0x0, 0xFFFFFFC0, 0x0, 0x0, 0x0, 0x0, [], true⟩,
   ⟨"RING_W1", 0x1800004, [(32768, 0x20)], .const 0x0, 0xFFFFFFFF, 0x0, 0x0, 0x0, 0x0, [], true⟩,
   ⟨"RING_W2", 0x1800008, [(32768, 0x20)], .const 0x4000000, 0xFFFF7FFF, 0x0, 0x0, 0x0, 0x0, [⟨28, 24, [(0x4, 0xF)], 1⟩], true⟩,
   ⟨"RING_W3", 0x180000C, [(32768, 0x20)], .const 0x0, 0xFFFFFFFF, 0x0, 0x0, 0x0, 0x0, [], true⟩,
   ⟨"RING_W4", 0x1800010, [(32768, 0x20)], .const 0x0, 0x0, 0x0, 0x0, 0x0, 0x0, [], true⟩,
   ⟨"RING_W5", 0x1800014, [(32768, 0x20)], .const 0x0, 0x0, 0x0, 0x0, 0x0, 0x0, [], true⟩,
   ⟨"RING_W6", 0x1800018, [(32768, 0x20)], .const 0x0, 0x0, 0x0, 0x0, 0xFFFF, 0x0, [], true⟩,
   ⟨"RING_W7", 0x180001C, [(32768, 0x20)], .const 0x0, 0x0, 0x0, 0x0, 0x0, 0x0, [], true⟩]

/-- The words of a tile's COO sub-window (Tables 6-6 to 6-12). NCSH of a header word beyond 15, the end of the range that R150 states, is
taken as reserved (DESIGN CHOICE, log entry 96). -/
def RegMap.coo : List RegEntry :=
  [⟨"COO_CTRL", 0x2000000, [(64, 0x40000)], .const 0x0, 0x1, 0x0, 0x0, 0x0, 0x0, [], true⟩,
   ⟨"COO_CYCLE", 0x2000004, [(64, 0x40000)], .const 0x40, 0x107FF, 0x0, 0x0, 0x0, 0x0, [⟨10, 0, [(0x20, 0x400)], 32⟩], true⟩,
   ⟨"COO_STAT", 0x2000008, [(64, 0x40000)], .const 0x0, 0x0, 0x0, 0x0, 0x0, 0x0, [], true⟩,
   ⟨"COO_ERRSTAT", 0x200000C, [(64, 0x40000)], .const 0x0, 0x0, 0xF, 0x0, 0x0, 0x0, [], true⟩,
   ⟨"COO_HSCALE", 0x2000020, [(64, 0x40000), (8, 0x4)], .const 0x4000, 0xFFFF, 0x0, 0x0, 0x0, 0x0, [], true⟩,
   ⟨"COO_TRCTL", 0x2000040, [(64, 0x40000)], .const 0x0, 0xFFFF07FF, 0x0, 0x0, 0x0, 0x0, [⟨30, 24, [(0x0, 0x4B)], 1⟩], true⟩,
   ⟨"COO_TRTRIG", 0x2000044, [(64, 0x40000)], .const 0x0, 0x6, 0x0, 0x1, 0x0, 0x0, [], true⟩,
   ⟨"COO_TRADDR", 0x2000048, [(64, 0x40000)], .const 0x0, 0xFFF, 0x0, 0x0, 0x0, 0x0, [], true⟩,
   ⟨"COO_TRDATA", 0x200004C, [(64, 0x40000)], .const 0x0, 0x0, 0x0, 0x0, 0x0, 0x0, [], true⟩,
   ⟨"COO_TRSTAT", 0x2000050, [(64, 0x40000)], .const 0x0, 0x0, 0x0, 0x0, 0x0, 0x0, [], true⟩,
   ⟨"COO_GAIN_W0", 0x2000400, [(64, 0x40000), (24, 0x20)], .const 0x0, 0xFFFFFFFF, 0x0, 0x0, 0x0, 0x0, [], true⟩,
   ⟨"COO_GAIN_W1", 0x2000404, [(64, 0x40000), (24, 0x20)], .const 0x0, 0xFFFFFFFF, 0x0, 0x0, 0x0, 0x0, [], true⟩,
   ⟨"COO_GAIN_W2", 0x2000408, [(64, 0x40000), (24, 0x20)], .const 0x0, 0xFFFFFFFF, 0x0, 0x0, 0x0, 0x0, [], true⟩,
   ⟨"COO_GAIN_W3", 0x200040C, [(64, 0x40000), (24, 0x20)], .const 0x0, 0xFFFFFFFF, 0x0, 0x0, 0x0, 0x0, [], true⟩,
   ⟨"COO_GAIN_W4", 0x2000410, [(64, 0x40000), (24, 0x20)], .const 0x0, 0x7FFFFFFF, 0x0, 0x0, 0x0, 0x0, [], true⟩,
   ⟨"COO_GAIN_W5", 0x2000414, [(64, 0x40000), (24, 0x20)], .const 0x0, 0x7FFFFFFF, 0x0, 0x0, 0x0, 0x0, [], true⟩,
   ⟨"COO_GAIN_W6", 0x2000418, [(64, 0x40000), (24, 0x20)], .const 0x0, 0x1F1F1F1F, 0x0, 0x0, 0x0, 0x0, [], true⟩,
   ⟨"COO_GAIN_W7", 0x200041C, [(64, 0x40000), (24, 0x20)], .const 0x0, 0x0, 0x0, 0x0, 0x0, 0x0, [], true⟩,
   ⟨"COO_CELL_W0", 0x2000800, [(64, 0x40000), (76, 0x40)], .tone, 0xFFFF3F1F, 0x0, 0x0, 0x0, 0x0, [⟨4, 0, [(0x1, 0x1F)], 1⟩], true⟩,
   ⟨"COO_CELL_W1", 0x2000804, [(64, 0x40000), (76, 0x40)], .const 0x0, 0x1FFFFF, 0x0, 0x0, 0x0, 0x0, [], true⟩,
   ⟨"COO_CELL_W2", 0x2000808, [(64, 0x40000), (76, 0x40)], .const 0x0, 0xFFFFFFFF, 0x0, 0x0, 0x0, 0x0, [], true⟩,
   ⟨"COO_CELL_W3", 0x200080C, [(64, 0x40000), (76, 0x40)], .const 0x0, 0xFFFFFFFF, 0x0, 0x0, 0x0, 0x0, [], true⟩,
   ⟨"COO_CELL_W4", 0x2000810, [(64, 0x40000), (76, 0x40)], .const 0x0, 0xFFFFFFFF, 0x0, 0x0, 0x0, 0x0, [], true⟩,
   ⟨"COO_CELL_W5", 0x2000814, [(64, 0x40000), (76, 0x40)], .const 0x0, 0xFFFFFFFF, 0x0, 0x0, 0x0, 0x0, [], true⟩,
   ⟨"COO_CELL_W6", 0x2000818, [(64, 0x40000), (76, 0x40)], .const 0x0, 0xFFFFFFFF, 0x0, 0x0, 0x0, 0x0, [], true⟩,
   ⟨"COO_CELL_W7", 0x200081C, [(64, 0x40000), (76, 0x40)], .const 0x60000, 0x0, 0x0, 0x0, 0x0, 0x0, [], true⟩,
   ⟨"COO_CELL_W8", 0x2000820, [(64, 0x40000), (76, 0x40)], .const 0x0, 0x0, 0x0, 0x0, 0x0, 0x0, [], true⟩,
   ⟨"COO_CELL_W9", 0x2000824, [(64, 0x40000), (76, 0x40)], .const 0x0, 0xFFFFFFFF, 0x0, 0x0, 0x0, 0x0, [], true⟩,
   ⟨"COO_CELL_W10", 0x2000828, [(64, 0x40000), (76, 0x40)], .const 0x0, 0xFFFFFFFF, 0x0, 0x0, 0x0, 0x0, [], true⟩,
   ⟨"COO_CELL_W11", 0x200082C, [(64, 0x40000), (76, 0x40)], .const 0x0, 0xFFFFFFFF, 0x0, 0x0, 0x0, 0x0, [], true⟩] ++
  [⟨"COO_CELL_W12", 0x2000830, [(64, 0x40000), (76, 0x40)], .const 0x0, 0x0, 0x0, 0x0, 0x0, 0x0, [], true⟩,
   ⟨"COO_CELL_W13", 0x2000834, [(64, 0x40000), (76, 0x40)], .const 0x0, 0x0, 0x0, 0x0, 0x0, 0x0, [], true⟩,
   ⟨"COO_CELL_W14", 0x2000838, [(64, 0x40000), (76, 0x40)], .const 0x0, 0x0, 0x0, 0x0, 0xFFFFFFFF, 0x0, [], true⟩,
   ⟨"COO_CELL_W15", 0x200083C, [(64, 0x40000), (76, 0x40)], .const 0x0, 0x0, 0x0, 0x0, 0x0, 0x0, [], true⟩,
   ⟨"COO_PTAB", 0x2001C00, [(64, 0x40000), (76, 0x300), (64, 0x4)], .const 0x0, 0xFFFFFFFF, 0x0, 0x0, 0x0, 0x0, [], true⟩,
   ⟨"COO_HTAB", 0x2001D00, [(64, 0x40000), (76, 0x300), (64, 0x4)], .const 0x0, 0x3FFF3FFF, 0x0, 0x0, 0x0, 0x0, [], true⟩,
   ⟨"COO_NCTAB", 0x2001E00, [(64, 0x40000), (76, 0x300), (32, 0x4)], .const 0x0, 0xFFFFFFFF, 0x0, 0x0, 0x0, 0x0, [], true⟩,
   ⟨"COO_HDR_W0", 0x2001E80, [(64, 0x40000), (76, 0x300), (2, 0x10)], .const 0x0, 0xFFFFFFFF, 0x0, 0x0, 0x0, 0x0, [], true⟩,
   ⟨"COO_HDR_W1", 0x2001E84, [(64, 0x40000), (76, 0x300), (2, 0x10)], .const 0x0, 0x1F1F, 0x0, 0x0, 0x0, 0x0, [⟨12, 8, [(0x0, 0xF)], 1⟩, ⟨4, 0, [(0xC, 0x18)], 1⟩], true⟩,
   ⟨"COO_HDR_W2", 0x2001E88, [(64, 0x40000), (76, 0x300), (2, 0x10)], .const 0x0, 0xFFFFFFFF, 0x0, 0x0, 0x0, 0x0, [], true⟩,
   ⟨"COO_HDR_W3", 0x2001E8C, [(64, 0x40000), (76, 0x300), (2, 0x10)], .const 0x0, 0x1F, 0x0, 0x0, 0x0, 0x0, [⟨4, 0, [(0xC, 0x18)], 1⟩], true⟩,
   ⟨"COO_TABRSVD", 0x2001EA0, [(64, 0x40000), (76, 0x300), (24, 0x4)], .const 0x0, 0x0, 0x0, 0x0, 0x0, 0x0, [], true⟩]

/-- The words of a tile's DRV sub-window (Tables 7-9, 7-10). -/
def RegMap.drv : List RegEntry :=
  [⟨"DRV_CTRL", 0x2010000, [(64, 0x40000)], .const 0x0, 0x1, 0x0, 0x0, 0x0, 0x0, [], true⟩,
   ⟨"DRV_STAT", 0x2010004, [(64, 0x40000)], .const 0x0, 0x0, 0x0, 0x0, 0x0, 0x0, [], true⟩,
   ⟨"DRV_ERRSTAT", 0x2010008, [(64, 0x40000)], .const 0x0, 0x0, 0x1F, 0x0, 0x0, 0x0, [], true⟩,
   ⟨"DRV_HSLEW", 0x201000C, [(64, 0x40000)], .const 0x100, 0x3FFF, 0x0, 0x0, 0x0, 0x0, [], true⟩,
   ⟨"DRV_FADE", 0x2010010, [(64, 0x40000)], .const 0x1388, 0xFFFF, 0x0, 0x0, 0x0, 0x0, [⟨15, 0, [(0x64, 0x4E20)], 1⟩], true⟩,
   ⟨"DRV_PECTL", 0x2010014, [(64, 0x40000)], .const 0x0, 0x1, 0x0, 0x0, 0x0, 0x0, [], true⟩,
   ⟨"DRV_CELL_W0", 0x2010100, [(64, 0x40000), (76, 0x10)], .const 0x110, 0x130, 0x0, 0x0, 0x0, 0x0, [⟨5, 4, [(0x0, 0x2)], 1⟩], true⟩,
   ⟨"DRV_CELL_W1", 0x2010104, [(64, 0x40000), (76, 0x10)], .const 0x5000000, 0x0, 0x0, 0x10000000, 0x0, 0x0, [], true⟩,
   ⟨"DRV_CELL_W2", 0x2010108, [(64, 0x40000), (76, 0x10)], .const 0x0, 0xFFFFFFFF, 0x0, 0x0, 0x0, 0x0, [], true⟩,
   ⟨"DRV_CELL_W3", 0x201010C, [(64, 0x40000), (76, 0x10)], .const 0x0, 0x0, 0x0, 0x0, 0xFFFFFFFF, 0x0, [], true⟩,
   ⟨"DRV_WAVE", 0x2011000, [(64, 0x40000), (2, 0x4000), (8, 0x800), (6, 0x100), (50, 0x4)], .const 0x0, 0xFFFFFFFF, 0x0, 0x0, 0x0, 0x0, [], true⟩,
   ⟨"DRV_WAVERSVD", 0x20110C8, [(64, 0x40000), (2, 0x4000), (8, 0x800), (6, 0x100), (14, 0x4)], .const 0x0, 0x0, 0x0, 0x0, 0x0, 0x0, [], true⟩]

/-- The words of a tile's MON sub-window (Table 8-5). -/
def RegMap.mon : List RegEntry :=
  [⟨"MON_CTRL", 0x2020000, [(64, 0x40000)], .const 0x10001, 0xFFFF0023, 0x0, 0xF10, 0x0, 0x0, [⟨31, 16, [(0x1, 0xFFFF)], 1⟩], true⟩,
   ⟨"MON_STAT", 0x2020004, [(64, 0x40000)], .const 0x0, 0x0, 0x0, 0x0, 0x0, 0x0, [], true⟩,
   ⟨"MON_ERRSTAT", 0x2020008, [(64, 0x40000)], .const 0x0, 0x0, 0x7, 0x0, 0x0, 0x0, [], true⟩,
   ⟨"MON_URGREQ", 0x202000C, [(64, 0x40000)], .const 0x0, 0x4700007F, 0x0, 0x80000000, 0x0, 0x0, [⟨6, 0, [(0x0, 0x5B)], 1⟩], true⟩,
   ⟨"MON_URGSTAT", 0x2020010, [(64, 0x40000)], .const 0x0, 0x0, 0x0, 0x0, 0x0, 0x0, [], true⟩,
   ⟨"MON_WINLAST", 0x2020014, [(64, 0x40000)], .const 0x0, 0x0, 0x0, 0x0, 0x0, 0x0, [], true⟩,
   ⟨"MON_WINHIT", 0x2020020, [(64, 0x40000), (3, 0x4)], .const 0x0, 0x0, 0xFFFFFFFF, 0x0, 0x0, 0x0, [], true⟩,
   ⟨"MON_SEQ", 0x2020100, [(64, 0x40000), (92, 0x4)], .seq, 0x8000007F, 0x0, 0x0, 0x0, 0x0, [⟨6, 0, [(0x0, 0x5B)], 1⟩], true⟩,
   ⟨"MON_CHCFG", 0x2020400, [(64, 0x40000), (92, 0x4)], .split 0x00000001 0x00000002, 0x9103, 0x0, 0x0, 0x0, 0x0, [], true⟩,
   ⟨"MON_WIN", 0x2020600, [(64, 0x40000), (92, 0x4)], .split 0x7FFF8000 0xFFFF0000, 0xFFFFFFFF, 0x0, 0x0, 0x0, 0x0, [], true⟩,
   ⟨"MON_PORTCAL_W0", 0x2020800, [(64, 0x40000), (16, 0x8)], .const 0x0, 0xFFFF, 0x0, 0x0, 0x0, 0x0, [], true⟩,
   ⟨"MON_PORTCAL_W1", 0x2020804, [(64, 0x40000), (16, 0x8)], .const 0xF62BF62B, 0xFFFFFFFF, 0x0, 0x0, 0x0, 0x0, [], true⟩]

/-- The words of a tile's TAL sub-window (Tables 8-6, 8-7). -/
def RegMap.tal : List RegEntry :=
  [⟨"TAL_CTRL", 0x2030000, [(64, 0x40000)], .const 0x0, 0x3, 0x0, 0x0, 0x0, 0x0, [], true⟩,
   ⟨"TAL_SNAP", 0x2030004, [(64, 0x40000)], .const 0x0, 0x1, 0x0, 0x80000000, 0x0, 0x0, [], true⟩,
   ⟨"TAL_SNAPLO", 0x2030008, [(64, 0x40000)], .const 0x0, 0x0, 0x0, 0x0, 0x0, 0x0, [], true⟩,
   ⟨"TAL_SNAPHI", 0x203000C, [(64, 0x40000)], .const 0x0, 0x0, 0x0, 0x0, 0x0, 0x0, [], true⟩,
   ⟨"TAL_SNAPSEQ", 0x2030010, [(64, 0x40000)], .const 0x0, 0x0, 0x0, 0x0, 0x0, 0x0, [], true⟩,
   ⟨"TAL_ERRSTAT", 0x2030014, [(64, 0x40000)], .const 0x0, 0x0, 0x3, 0x0, 0x0, 0x0, [], true⟩,
   ⟨"TAL_CLR", 0x2030020, [(64, 0x40000), (3, 0x4)], .const 0x0, 0x0, 0x0, 0xFFFFFFFF, 0x0, 0x0, [], true⟩,
   ⟨"TAL_LIVE_W0", 0x2030100, [(64, 0x40000), (92, 0x20)], .const 0x0, 0x0, 0x0, 0x0, 0x0, 0x0, [], true⟩,
   ⟨"TAL_LIVE_W1", 0x2030104, [(64, 0x40000), (92, 0x20)], .const 0x0, 0x0, 0x0, 0x0, 0x0, 0x0, [], true⟩,
   ⟨"TAL_LIVE_W2", 0x2030108, [(64, 0x40000), (92, 0x20)], .const 0x0, 0x0, 0x0, 0x0, 0x0, 0x0, [], true⟩,
   ⟨"TAL_LIVE_W3", 0x203010C, [(64, 0x40000), (92, 0x20)], .const 0x0, 0x0, 0x0, 0x0, 0x0, 0x0, [], true⟩,
   ⟨"TAL_LIVE_W4", 0x2030110, [(64, 0x40000), (92, 0x20)], .const 0x0, 0x0, 0x0, 0x0, 0x0, 0x0, [], true⟩,
   ⟨"TAL_LIVE_W5", 0x2030114, [(64, 0x40000), (92, 0x20)], .const 0x0, 0x0, 0x0, 0x0, 0x0, 0x0, [], true⟩,
   ⟨"TAL_LIVE_W6", 0x2030118, [(64, 0x40000), (92, 0x20)], .const 0x0, 0x0, 0x0, 0x0, 0x0, 0x0, [], true⟩,
   ⟨"TAL_LIVE_W7", 0x203011C, [(64, 0x40000), (92, 0x20)], .const 0xC0000000, 0x0, 0x0, 0x0, 0x0, 0x0, [], true⟩,
   ⟨"TAL_SNAPBLK_W0", 0x2031000, [(64, 0x40000), (92, 0x20)], .const 0x0, 0x0, 0x0, 0x0, 0x0, 0x0, [], true⟩,
   ⟨"TAL_SNAPBLK_W1", 0x2031004, [(64, 0x40000), (92, 0x20)], .const 0x0, 0x0, 0x0, 0x0, 0x0, 0x0, [], true⟩,
   ⟨"TAL_SNAPBLK_W2", 0x2031008, [(64, 0x40000), (92, 0x20)], .const 0x0, 0x0, 0x0, 0x0, 0x0, 0x0, [], true⟩,
   ⟨"TAL_SNAPBLK_W3", 0x203100C, [(64, 0x40000), (92, 0x20)], .const 0x0, 0x0, 0x0, 0x0, 0x0, 0x0, [], true⟩,
   ⟨"TAL_SNAPBLK_W4", 0x2031010, [(64, 0x40000), (92, 0x20)], .const 0x0, 0x0, 0x0, 0x0, 0x0, 0x0, [], true⟩,
   ⟨"TAL_SNAPBLK_W5", 0x2031014, [(64, 0x40000), (92, 0x20)], .const 0x0, 0x0, 0x0, 0x0, 0x0, 0x0, [], true⟩,
   ⟨"TAL_SNAPBLK_W6", 0x2031018, [(64, 0x40000), (92, 0x20)], .const 0x0, 0x0, 0x0, 0x0, 0x0, 0x0, [], true⟩,
   ⟨"TAL_SNAPBLK_W7", 0x203101C, [(64, 0x40000), (92, 0x20)], .const 0xC0000000, 0x0, 0x0, 0x0, 0x0, 0x0, [], true⟩]

/-- The list of the block or window an offset lies in (Tables 1-14 and 1-15). -/
def RegMap.blockOf (a : Nat) : List RegEntry :=
  if a < 0x00120000 then
    match a / 0x10000 with
    | 0 => RegMap.gen | 1 => RegMap.hif | 2 => RegMap.mtx | 3 => RegMap.tol | 4 => RegMap.cir | 5 => RegMap.whl
    | 6 => RegMap.lmp | 7 => RegMap.asy | 8 => RegMap.tnk | 9 => RegMap.tim | 10 => RegMap.net | 11 => RegMap.net
    | 12 => RegMap.por | 13 => RegMap.pth | 14 => RegMap.pwr | 15 => RegMap.thm | 16 => RegMap.boot | _ => RegMap.flt
  else if a < 0x01000000 then []
  else if a < 0x01200000 then RegMap.cue
  else if a < 0x01280000 then RegMap.pat
  else if a < 0x01400000 then []
  else if a < 0x01480000 then RegMap.tcam
  else if a < 0x01800000 then []
  else if a < 0x01900000 then RegMap.ring
  else if a < 0x02000000 then []
  else if a < 0x03000000 then
    match a % 0x40000 / 0x10000 with
    | 0 => RegMap.coo | 1 => RegMap.drv | 2 => RegMap.mon | _ => RegMap.tal
  else []

/-- The indexes at which offset `o` from an array's base names a word of it, if it does. -/
def RegMap.locate : List (Nat × Nat) → Nat → Option (List Nat)
  | [], o => if o = 0 then some [] else none
  | (n, st) :: ds, o =>
    if o / st < n then (RegMap.locate ds (o % st)).map (o / st :: ·) else none

/-- The entry and indexes of the word at offset `a`. -/
def RegMap.find (a : Nat) : Option (RegEntry × List Nat) :=
  (RegMap.blockOf a).findSome? fun e =>
    if a < e.base then none else (RegMap.locate e.dims (a - e.base)).map (e, ·)

/-- R141's factory tone of local cell `l`: stage l / 4, row l mod 4 of its tile. -/
def factoryTone (l : Nat) : Nat :=
  1 + (3 * (l / 4) + 7 * (l % 4)) % 31

/-- The reset value an entry gives the word at `ix`. -/
def ResetValue.at : ResetValue → List Nat → Word
  | .const v, _ => BitVec.ofNat 32 v
  | .genId, _ => if Config.isM32L then 0x51200310#32 else 0x51200300#32
  | .firstIdx v, ix => if ix.headD 0 = 0 then BitVec.ofNat 32 v else 0#32
  | .index, ix => BitVec.ofNat 32 (ix.headD 0)
  | .uid, ix => Config.uid (ix.headD 0)
  | .devpub, ix => Config.devPub (ix.headD 0)
  | .tone, ix => BitVec.ofNat 32 (factoryTone (ix.getD 1 0))
  | .seq, ix => BitVec.ofNat 32 (0x80000000 + 4 * (ix.getD 1 0 % 23) + ix.getD 1 0 / 23)
  | .split a b, ix => BitVec.ofNat 32 (if ix.getD 1 0 < 76 then a else b)

/-- What an unlisted word of the word store reads: its reset value; 0 where the map names no word. -/
def resetWord (a : Nat) : Word :=
  match RegMap.find a with
  | some (e, ix) => e.reset.at ix
  | none => 0#32

end Sys2Proof.Machine
end

