-- ==== Sys2Proof/Machine/Store.lean ====
section
/-! DEFINITION. The sparse store: a list of (address, value) pairs in one canonical form, addresses strictly rising and no
entry equal to what an unlisted address reads as. It holds the register words, the copies in force and memory bytes. -/

namespace Sys2Proof.Machine

/-- The value at `a`; `d` where `a` is unlisted. -/
def Store.get {α : Type} (d : α) : List (Nat × α) → Nat → α
  | [], _ => d
  | (k, v) :: m, a => if k = a then v else Store.get d m a

/-- The store without an entry for `a`. -/
def Store.del {α : Type} (m : List (Nat × α)) (a : Nat) : List (Nat × α) := m.filter fun p => p.1 != a

/-- `m`, which has no entry for `a`, with one placed in address order. -/
def Store.ins {α : Type} : List (Nat × α) → Nat → α → List (Nat × α)
  | [], a, v => [(a, v)]
  | (k, u) :: m, a, v => if a < k then (a, v) :: (k, u) :: m else (k, u) :: Store.ins m a v

/-- The store with `v` at `a`; writing the unlisted value `d` removes the entry. -/
def Store.set {α : Type} [DecidableEq α] (d : α) (m : List (Nat × α)) (a : Nat) (v : α) : List (Nat × α) :=
  if v = d then Store.del m a else Store.ins (Store.del m a) a v

/-- The canonical form: addresses strictly rising, no entry equal to its unlisted value. -/
def Store.wf {α : Type} [DecidableEq α] (d : Nat → α) (m : List (Nat × α)) : Bool :=
  decide (m.Pairwise fun p q => p.1 < q.1) && m.all fun p => decide (p.2 ≠ d p.1)

end Sys2Proof.Machine
end

