-- ==== Sys2Proof/Machine/State.lean ====
section
/-! DEFINITION. The state of the NG-5120 as plain data: every register and window word in one sparse canonical store keyed by
BAR0 offset, the copies in force, the memories, and the block's own state that no register shows. -/

namespace Sys2Proof.Machine

/-- Why the block stops with a fault. The spec gives every command of the table an effect on every path, and an access to an
address that does not exist is answered by the default target (R24), so there is no reason to fault. -/
inductive Fault where
deriving DecidableEq, Repr

/-- Why the block refuses a command. -/
inductive Refusal where
  /-- Raised by an arm of `exec` whose meaning is not written; the string is the table's mnemonic. Safe. -/
  | notModelled (mnemonic : String)
deriving DecidableEq, Repr

/-- How a run of cues entered the module (R60): through a SUBMIT ring of function `fn` (17·link + number) with completion ring
`cq`, or through an NGCP session. -/
inductive Origin where
  | ring (cq fn htag : Nat)
  | session (n tag : Nat)
  /-- The completion space the run reserved was discarded (R256, R257). -/
  | dropped
deriving DecidableEq, Repr

/-- A circuit (R55, Table 3-2). -/
structure Ckt where
  inp : Nat
  out : Nat
  band : Bool
  owner : Nat
  peer : Option Nat
  activep : Bool
  lockout : Bool
  protok : Bool
deriving DecidableEq, Repr

/-- A cell that changes state or band in a solution (R89); `flip` where its state changes. -/
structure CellChange where
  cell : Nat
  cross : Bool
  band : Bool
  flip : Bool
deriving DecidableEq, Repr

/-- A route of a circuit: its feeding input and the state of the cell it meets in each stage (R37). -/
structure PathRec where
  owner : Nat
  input : Nat
  cross : List Bool
deriving DecidableEq, Repr

/-- The pre-solved alternate of the protected circuit whose working input is `wkg` (R82); `path = none` where none exists. -/
structure AltRec where
  wkg : Nat
  path : Option PathRec
deriving DecidableEq, Repr

/-- A held solution (R89): the delta, the new and moved paths, the alternates, the disturbed circuits (working input and
victim partition) and the held batches it depends on (R106). `old` are the paths the moved circuits leave, `tiles` the tiles
involved (R130). -/
structure Solution where
  delta : List CellChange
  paths : List PathRec
  old : List PathRec
  tiles : List Nat
  alts : List AltRec
  disturbed : List (Nat × Nat)
  deps : List Nat
  order : Nat
deriving DecidableEq, Repr

/-- Where a batch stands between its admission and its final state. -/
inductive BatchPhase where
  /-- In its partition's queue (R261). -/
  | queued
  /-- Released, being solved. -/
  | solving
  /-- Solved, without a commit instant. -/
  | solved
  /-- Placed at the commit instant `tc`, in nanoseconds of device time. -/
  | placed (tc : Nat)
  /-- Past its commit instant `tc`, its journal entry open. -/
  | committing (tc : Nat)
deriving DecidableEq, Repr

/-- An admitted batch (R61). `id` counts admissions. -/
structure Batch where
  id : Nat
  cues : List Nat
  part : Nat
  origin : Origin
  rule : Nat
  policy : Nat
  cost : Nat
  phase : BatchPhase
  sol : Option Solution
  /-- The held solution was invalidated and is being re-solved (R108). -/
  stale : Bool
  /-- Waits for the thermal bucket (R135), counted once in LMP_THRCNT. -/
  waited : Bool
  /-- The window (its opening, ns) of the placement it lost, for R124. -/
  lastWindow : Option Nat
  /-- Returned to SOLVED under order 4 of Table 5-1, with placement waiting for HOLD or P2 to end. -/
  heldBack : Bool
  /-- Returned to SOLVED under order 2 or 3 of Table 5-1, with placement waiting for TBOK. -/
  tbWait : Bool
  /-- TIMED: the full seconds chosen from TIME_SEC at t_acc (R63). -/
  secs : Option Nat
  /-- Solved under its partition's ceiling, and counted in CLAMP (R95). -/
  clamped : Bool
deriving DecidableEq, Repr

/-- The kind of a commit, as LMP_JOURNAL W3.KIND encodes it. -/
inductive CommitKind where
  | host | protection | calibration
deriving DecidableEq, Repr

/-- How far a commit has come: placed, armed (sending started), past its arm point, applied at its instant. -/
inductive CommitPhase where
  | placed | armed | go | applied
deriving DecidableEq, Repr

/-- A commit (R111). -/
structure Commit where
  tc : Nat
  kind : CommitKind
  phase : CommitPhase
  batches : List Nat
  /-- Protection: the working inputs of its switches. -/
  switches : List Nat
  /-- Calibration: the cells whose staged factors it brings into force. Host: the cells whose factors ride on it (R113). -/
  factors : List Nat
  gen : Nat
  journal : Nat
  delta : List CellChange
  involved : List Nat
  /-- The involved tiles that received GO and have not fenced since (R118). -/
  going : List Nat
  resident : List Nat
  stepped : List Nat
  reported : List Nat
  /-- The thermal band each involved tile sampled at T_arm (R119), plus 8 when waveform bank 1 is active (R170). -/
  bands : List (Nat × Nat)
  /-- The circuits the protection commit switches, as judged at its arm point: working input and tile of the dark input. -/
  lost : List (Nat × Nat)
  /-- The timed entries of its stepped cells (R153, R166): cell, post-commit code, and how its lookup clamped. -/
  codes : List (Nat × Int × Int)
deriving DecidableEq, Repr

/-- A commit at `tc` with nothing in it. -/
def Commit.new (tc : Nat) (kind : CommitKind) : Commit where
  tc := tc
  kind := kind
  phase := .placed
  batches := []
  switches := []
  factors := []
  gen := 0
  journal := 0
  delta := []
  involved := []
  going := []
  resident := []
  stepped := []
  reported := []
  bands := []
  lost := []
  codes := []

/-- A cell as its tile holds it: the applied state and band, its MODE as CIR_CELLST encodes it, and the generation number that
last changed its state or band. -/
structure CellRec where
  cross : Bool
  band : Bool
  mode : Nat
  gen : Nat
deriving DecidableEq, Repr

/-- The batch being solved (R89, R107): what its projected fabric was made of when the solve started, and what events of R107 have
touched since: cells changed, cells of switching circuits, circuits, batches ended, and whether one of them changed a port it names. -/
structure SolveRun where
  batch : Nat
  words : List (Nat × Word)
  cells : List (Nat × CellRec)
  commits : List Commit
  held : List Batch
  alts : List AltRec
  changed : List Nat
  near : List Nat
  ckts : List Nat
  ended : List Batch
  named : Bool
deriving DecidableEq, Repr

/-- A head batch's tags (R263): its finish tag, and whether its start tag came from the third row of Table 11-1. -/
structure HeadTag where
  batch : Nat
  finish : Nat
  waited : Bool
deriving DecidableEq, Repr

/-- A partition at the Tollkeeper: F_last, the head's tag, and the bucket levels in thousandths of a work unit. -/
structure TollPart where
  fLast : Nat
  head : Option HeadTag
  shaper : Int
  policer : Nat
deriving DecidableEq, Repr

/-- Reset: F_last 0, both buckets full (R263, R271). -/
def TollPart.reset : TollPart := ⟨0, none, 8192000, 8192000⟩

/-- Protection state of one protected circuit: its hold-off end (ns) and whether BOTHLOS was raised and is unreleased (R84). -/
structure ProtRec where
  wkg : Nat
  holdoff : Option Nat
  bothLos : Bool
deriving DecidableEq, Repr

/-- A ring's state behind its descriptor: SUBMIT entries fetched and not yet processed, completion space reserved on it as
CQ, entries written since its last MSI-X message, events dropped and not yet reported by EVLOST, and the entries that an outstanding
DMA read of the ring asks for. -/
structure RingRec where
  fetched : List (List Word)
  reserved : Nat
  unsignalled : Nat
  evlost : Nat
  timing : Bool
  asked : Nat
deriving DecidableEq, Repr

/-- A ring with nothing fetched, reserved or counted. -/
def RingRec.empty : RingRec := ⟨[], 0, 0, 0, false, 0⟩

/-- What a function's PCIe configuration space holds and the spec gives an effect: VF Enable of a PF0 (R257), D3hot (R256), and the vectors
masked and pending in its MSI-X table (R254). No command writes them; what they are after a reset is log entry 119's choice. -/
structure FnCfg where
  vfEnable : Bool
  d3hot : Bool
  masked : List Nat
  pendingVecs : List Nat
deriving DecidableEq, Repr

/-- A function's configuration space after a reset. -/
def FnCfg.zero : FnCfg := ⟨false, false, [], []⟩

/-- What the block sends out. -/
inductive Output where
  /-- An entry or record DMA-written to host memory (R242, R244). -/
  | dma (link fn : Nat) (addr : Nat) (ws : List Word)
  /-- The DMA read of `count` SUBMIT entries of a ring from entry index `first`, on a link from a bus address (R31, R245). -/
  | fetch (link ring first count addr : Nat)
  /-- An MSI-X message (R254). -/
  | msix (link fn vec : Nat)
  /-- An advisory non-fatal AER message (R25). -/
  | aer (link fn : Nat)
  /-- Read data to a requester. -/
  | readData (rq : Requester) (ws : List Word)
  /-- A completion with status Unsupported Request (Table 1-5). -/
  | unsupported (rq : Requester)
  /-- A configuration request of a function answered with Configuration Request Retry Status (R236). -/
  | retry (link fn : Nat)
  /-- A completion with poisoned data (R391). -/
  | poisoned (rq : Requester)
  /-- A bus error to an internal master, a read's data all ones (Table 1-5). -/
  | busError (rq : Requester) (isWrite : Bool) (ws : List Word)
  /-- An EVENT entry to the management cores (R25). -/
  | coreEvent (ws : List Word)
  /-- The default target's answer to one access that the NGCP agent makes for session `n`: operation, STATUS, failing address (Table 1-5). -/
  | ngcp (n : Option Nat) (op status : Nat) (addr : Nat) (ws : List Word)
  /-- An NGCP message on NETA (0) or NETB (1), byte for byte from its header on (R285). `dest` is the address it goes to: a MAC address, and
  over UDP the IPv4 address and port after it; `carrier` is then the UDP source port, else the EtherType. -/
  | message (net : Nat) (dest : List Byte) (carrier : Nat) (bytes : List Byte)
  /-- An Ethernet frame sent on NETA (0) or NETB (1). -/
  | frame (net : Nat) (bytes : List Byte)
  /-- A frame handed to the PTP engine or the management cores. -/
  | toCores (net : Nat) (bytes : List Byte)
  /-- A heartbeat of a path unit. -/
  | heartbeat (path : Nat)
  /-- A PTP Delay_Req leaving on a network port, byte for byte from the PTP header on. `dest` is the MAC address it goes to, or over UDP the
  IPv4 address and port. -/
  | delayReq (net : Nat) (dest bytes : List Byte)
  /-- A pulse of `us` µs on PPSOUT, at the high level or the low one. -/
  | ppsPulse (high : Bool) (us : Nat)
  /-- A compare unit drove its routed triggers. -/
  | trigger (unit : Nat)
  /-- A message line of the start-up or fault logic to the board. -/
  | pin (name : String) (level : Bool)
  /-- The fatal dump written to host memory through a link (R31, R397). -/
  | dump (link addr : Nat) (ws : List Word)
deriving DecidableEq, Repr

/-- A word latched for one requester (R201, R421): the word's offset, the tag it was latched for, and its value. -/
structure Latch where
  rq : Requester
  addr : Nat
  tag : Nat
  val : Word
deriving DecidableEq, Repr

/-- A request accepted from an NGCP session, in arrival order (R291): `verdict` is the STATUS that its form earns it, 0 where it is to be
executed; `src` its source as `Output.message` writes an address. -/
structure NgcpReq where
  op : Nat
  seq : Nat
  payload : List Byte
  verdict : Nat
  net : Nat
  src : List Byte
deriving DecidableEq, Repr

/-- A NOTIFY frame sent and not yet acknowledged (R290). -/
structure NotifyRec where
  seq : Nat
  entries : List (List Word)
  tries : Nat
deriving DecidableEq, Repr

/-- An NGCP session: notification entries waiting, NOTIFY frames unacknowledged, the last 8 responses, the requests to execute,
and the source of its most recent accepted request. -/
structure SessRec where
  queue : List (List Word)
  unacked : List NotifyRec
  replies : List (Nat × List Byte)
  reqs : List NgcpReq
  peer : Option (Nat × List Byte)
  nseq : Nat
deriving DecidableEq, Repr

/-- A session that has had no request. -/
def SessRec.empty : SessRec := ⟨[], [], [], [], none, 0⟩

/-- A cell in REST: undriven, BAR, band O. -/
def CellRec.rest : CellRec := ⟨false, false, 6, 0⟩

/-- A power request (R331, R332): its place in the order of requests, the master and source number of its requester (0xF for the
thermal manager), its TARGET as PWR_REQ encodes it, and TGMASK. -/
structure PowerReq where
  id : Nat
  master : Nat
  src : Nat
  target : Nat
  mask : Nat
deriving DecidableEq, Repr

/-- A change of power state in progress, at a step of Table 15-4; 0 for a wake of tile groups. `abandon`: a wake event waits for the
next abort point of a tile-group entry; `wakeAfter`: the groups it wakes once they are off (R344). -/
structure PowerChange where
  req : PowerReq
  step : Nat
  abandon : Bool
  wakeAfter : Nat
deriving DecidableEq, Repr

/-- Where an abort's result goes once the batch's final state is known (R129); for a session, with the request's source. -/
inductive AbortSink where
  | register
  | ring (cq fn htag : Nat)
  | session (n seq : Nat) (src : List Byte)
deriving DecidableEq, Repr

/-- An abort that found its batch past the arm point. -/
structure PendingAbort where
  cue : Nat
  sink : AbortSink
deriving DecidableEq, Repr

/-- Runs of consecutive valid samples of a port monitor, below LOSTHR and at or above LOSTHR + 1.0 dB (R83). -/
structure LightRun where
  below : Nat
  above : Nat
deriving DecidableEq, Repr

/-- A cell taken into CAL: by the Assayer or the Tinker, for a TRIM or a FULL measurement, and the band measured. -/
structure CalRec where
  cell : Nat
  tinker : Bool
  full : Bool
  band : Bool
  /-- The MODE it was taken from, to which it returns (R214). -/
  prev : Nat
  /-- Taken for a CELLCAL command. -/
  commanded : Bool
  /-- Retried on ambient light after NOLIGHT_LOW (PROBE_AMBIENT, R221). -/
  retried : Bool
  /-- The tile's thermal band changed during the measurement (R217). -/
  moved : Bool
  /-- The draw that the probe terms of this visit are taken at (R213). -/
  seed : Nat
deriving DecidableEq, Repr

/-- The sums of one control cycle of a cell (R144): S0, S1, and whether R146 holds the cycle for an invalid sample, a step or a
factor; and its length. -/
structure CycleSums where
  s0 : Int
  s1 : Int
  bad : Bool
  /-- N of the cycle (R140); 0 before its first sample. -/
  len : Nat
deriving DecidableEq, Repr

/-- A pre-emphasis segment in progress (R169): its commit instant, bank, thermal band, waveform, and Δ. -/
structure Segment where
  tc : Nat
  bank : Nat
  band : Nat
  wave : Nat
  delta : Int
deriving DecidableEq, Repr

/-- What a cell's Cooper loop and drivers hold beside their registers. -/
structure CooRec where
  /-- The sums of the cycle in progress, its samples, and the samples since E. -/
  cur : CycleSums
  cnt : Nat
  n : Nat
  /-- The sums of a finished cycle whose law has not run. -/
  ended : Option CycleSums
  fb : Int
  nc : Int
  psat : Int
  /-- Runs of R152: cycles in and out of the lock band. -/
  inRun : Nat
  outRun : Nat
  lastHeld : Bool
  /-- Cycles in a row that were not observable, up to 16 (R378). -/
  dimRun : Nat
  /-- The Cooper's most recent Pockels code, and the newest target in the heater queue. -/
  pcode : Int
  htarget : Option Nat
  /-- Runs of heater readings above and below the band (R174). -/
  openRun : Nat
  shortRun : Nat
  /-- A law result, and an offload tick, postponed under R153. -/
  postLaw : Bool
  postTick : Bool
  /-- The stages of a span passage still to come, in ns after its T_c and as instants (Table 7-3); the T_c of the cell's most recent step;
  and the post-commit code of a Pockels passage. -/
  passage : List (Nat × Nat)
  passTc : Nat
  passCode : Int
  seg : Option Segment
  /-- The codes at the start of a fade (R178). -/
  fadeP : Int
  fadeH : Nat
  /-- The heater code held when the cell was taken into CAL (R213). -/
  calH : Nat
  /-- A thermal band came into force while the loop could not recompute hcode (R157). -/
  bandOwed : Bool
  /-- Sample instants (multiples of 4 ns) whose clamps have been counted (R165). -/
  counted : Nat
deriving DecidableEq, Repr

/-- An empty cycle. -/
def CycleSums.zero : CycleSums := ⟨0, 0, false, 0⟩

/-- A cell's loop and drivers as reset leaves them. -/
def CooRec.zero : CooRec := ⟨CycleSums.zero, 0, 0, none, 0, 0, 0, 0, 0, false, 0, 0, none, 0, 0, false, false, [], 0, 0, none, 0, 0, 0, false, 0⟩

/-- A fade (R178): the update instants passed and LEN in µs. -/
structure Fade where
  count : Nat
  len : Nat
deriving DecidableEq, Repr

/-- What a tile's Cooper and drivers hold beside their registers. -/
structure TileRec where
  /-- The epoch E (R140), in units of `now`; a step back may put it before 0 (R315). -/
  epoch : Int
  cycle : Nat
  /-- A thermal band that has arrived and is not in force (R157). -/
  tband : Option Nat
  /-- Trace records still to write after the trigger (R160). -/
  tracePost : Nat
  fade : Option Fade
deriving DecidableEq, Repr

/-- A tile as reset leaves it. -/
def TileRec.zero : TileRec := ⟨0, 0, none, 0, none⟩

/-- What a monitor channel holds beside its registers: converted frames since its last valid sample, and the side of its window
comparator (R202, R203). -/
structure ChanRec where
  dry : Nat
  outside : Bool
deriving DecidableEq, Repr

/-- A channel as power-up leaves it: stale. -/
def ChanRec.zero : ChanRec := ⟨64, false⟩

/-- What a tile's converters and Tallyman hold beside their registers. -/
structure MonRec where
  /-- The sequence entries (23·converter + entry) converted in the frame in progress, and whether each gave a valid sample. -/
  got : List (Nat × Bool)
  /-- Converters that made an urgent conversion in the frame (R191). -/
  urgent : List Nat
  /-- A burst asked for, and the frames left of the one that runs (R205). -/
  burstReq : Bool
  burstLeft : Nat
  /-- A snapshot that waits for its boundary, and whether it clears (R200). -/
  snapWait : Option Bool
  /-- Converters whose power-up calibration has not ended: their channels owe the TIA's 16 invalid samples (Table 8-3). -/
  powerUp : List Nat
  /-- Urgent requests of the Assayer that wait for a later frame: converter and channel (R191). -/
  asyWait : List (Nat × Nat)
deriving DecidableEq, Repr

/-- A tile's converters and Tallyman with nothing in progress. -/
def MonRec.zero : MonRec := ⟨[], [], false, 0, none, [], []⟩

/-- A full calibration in progress (R219, R220). -/
structure FullCal where
  /-- Of start-up, not of ASY_CMD. -/
  boot : Bool
  /-- Both bands done: the calibration commit is placed and HOLD is still set (Table 9-3). -/
  ended : Bool
  /-- Bands abandoned after stage 0: O (false) and C (true). -/
  abandoned : List Bool
  /-- The instant (ns) at which the source settled in the band in progress. -/
  settledAt : Option Nat
  /-- The staged words that stage 0 of the band in progress replaced, newest first. -/
  undo : List (Nat × Word)
deriving DecidableEq, Repr

/-- A bank save in progress (R225): the copy of step 1, and the header's TEMP, TIME and CELLSOK. -/
structure SaveRun where
  copy : List (Nat × Word)
  temp : Word
  time : Word
  ok : Nat
  /-- A NOR command arrived before it and has not ended (R386). -/
  behind : Bool
deriving DecidableEq, Repr

/-- A wear record (R229): its GEN and the TNK_CELL W0 words it keeps. -/
structure WearRec where
  gen : Nat
  cells : List (Nat × Word)
deriving DecidableEq, Repr

/-- A write visit of the Tinker to a cell (R229): operations made, pulses of the current one, and whether its wear-log entry is
programmed. -/
structure TinkOp where
  cell : Nat
  ops : Nat
  pulses : Nat
  logged : Bool
  active : Bool
deriving DecidableEq, Repr

/-- The PTP port dataset and the exchange in progress (R297, R321 to R323): grandmaster identity, parent port identity, the other
announced attributes, steps removed; the times of the exchange in ps; the next Delay_Req sequenceId; the runs of the servo. -/
structure PtpRec where
  gm : List Byte
  parent : List Byte
  info : List Byte
  steps : Nat
  syncSeq : Nat
  t1 : Option Int
  t2 : Option Int
  t3 : Option Int
  reqSeq : Nat
  inRun : Nat
  outRun : Nat
deriving DecidableEq, Repr

/-- No master heard. -/
def PtpRec.zero : PtpRec := ⟨[], [], [], 0, 0, none, none, none, 0, 0, 0⟩

/-- A device-time step that is pending (R313): its operation (1 SET, 2 STEP) and B0 in ns. -/
structure StepReq where
  op : Nat
  b0 : Nat
deriving DecidableEq, Repr

/-- A frame held for its second pass (R282): the bank and epoch it is pinned to. -/
structure RecircRec where
  net : Nat
  bytes : List Byte
  macsec : Bool
  strip : Nat
  bank : Nat
  epoch : Nat
  stamp : Int
deriving DecidableEq, Repr

/-- A frame held through a switch-over gap (R300): its action, its session, and its ingress time in ps. -/
structure HeldFrame where
  net : Nat
  bytes : List Byte
  ptp : Bool
  sess : Nat
  stamp : Int
deriving DecidableEq, Repr

/-- A limiter's bucket (R281): its level in units of 10^-9 frame, and the ns at which it stood there. -/
structure Limiter where
  level : Nat
  since : Nat
deriving DecidableEq, Repr

/-- The copied state of an epoch (Table 13-2). -/
structure EpochCopy where
  num : Nat
  start : Nat
  /-- The final epoch of a planned switch (R307). -/
  last : Bool
  sess : List (Nat × SessRec)
  ptp : PtpRec
deriving DecidableEq, Repr

/-- A switch-over in progress (R300, R307): the path to become ACTIVE, KIND and CAUSE as PTH_SWLOG encodes them, T_fail in ns, and
for a planned switch whether its final epoch is still to come, and whether a SWITCH command awaits its result. -/
structure GapRec where
  dest : Nat
  kind : Nat
  cause : Nat
  start : Nat
  frozen : Bool
  cmd : Bool
deriving DecidableEq, Repr

/-- A retention image (R341, Table 15-5): the register words it holds, the cells, the tile groups asleep at entry, whether its CRC holds,
and the fenced tiles that are not in it (R336). -/
structure RetImage where
  words : List (Nat × Word)
  cells : List (Nat × CellRec)
  asleep : Nat
  sound : Bool
  unsaved : List Nat
deriving DecidableEq, Repr

/-- What the thermal manager holds of a sensor beside THM_SENS: its TEMPs of the last 100 ms (ns, 1/16 °C), newest first; its rate in
1/16 °C per 100 ms; runs of samples far from the neighbours' median and at or above 125 °C; the instant it last stood near a
threshold; since when its rate has been at or above RCRIT; and whether it is at or above RWARN. -/
structure SensorRec where
  hist : List (Nat × Int)
  rate : Int
  far : Nat
  hot : Nat
  near : Option Nat
  fastRise : Option Nat
  rising : Bool
deriving DecidableEq, Repr

/-- A sensor not sampled yet. -/
def SensorRec.zero : SensorRec := ⟨[], 0, 0, 0, none, none, false⟩

/-- A NOR command taken from BOOT_FLCMD and not finished (R386): OP, FLADDR, and FLBUF as it stood. -/
structure FlashOp where
  op : Nat
  addr : Nat
  data : List Word
  /-- A bank save arrived before it and has not ended. -/
  behind : Bool
deriving DecidableEq, Repr

/-- The whole machine. -/
structure State where
  /-- Device time, in units of 2^-28 ns: 48-bit seconds, nanoseconds, the 16-bit fraction and 12 bits below it (R309). -/
  now : Nat
  /-- The registers and window words that differ from their reset values, by BAR0 offset. -/
  words : List (Nat × Word)
  /-- The copies in force of staged words (R158, R170, R189), by the same offsets. -/
  live : List (Nat × Word)
  /-- The bytes of the on-die SRAM, the always-on SRAM and the NOR, by internal address (Table 1-16). -/
  mem : List Host.Cell
  /-- The commands that wait, first in, first out. -/
  pending : List Instr
  /-- What the block has sent, newest first. -/
  out : List Output
  /-- How many free values have been drawn. -/
  fresh : Nat
  /-- Per-requester latches (R421). -/
  latches : List Latch
  /-- Who submitted each submitted cue (R249). -/
  origins : List (Nat × Origin)
  /-- The admitted batches without a final state, in admission order. -/
  batches : List Batch
  nextBatch : Nat
  nextSolve : Nat
  /-- The commits not yet closed. -/
  commits : List Commit
  /-- The Tollkeeper's 48-bit virtual time (R263). -/
  vtime : Nat
  toll : List (Nat × TollPart)
  /-- The alternates in force (R82). -/
  alts : List AltRec
  prots : List (Nat × ProtRec)
  /-- Rings behind their descriptors. -/
  rings : List (Nat × RingRec)
  /-- Functions (17·link + number) with Bus Master Enable set in D0 (R256). -/
  bme : List Nat
  /-- The functions' configuration spaces (Table 10-2). -/
  fnCfg : List (Nat × FnCfg)
  /-- The SUBMIT ring each link's ring engine served last (R245). -/
  served : List (Nat × Nat)
  /-- Emissions made by each Crier stream (Table 10-11). -/
  emissions : List (Nat × Nat)
  /-- COMPLETE entries held for want of Bus Master Enable: ring and entry, oldest first. -/
  heldCq : List (Nat × List Word)
  /-- NGCP sessions. -/
  sess : List (Nat × SessRec)
  /-- Entries reserved in the notification queue for the cues of accepted runs (R289). -/
  notifyReserved : Nat
  /-- The cells as the tiles hold them, by cell index (R40). -/
  cells : List (Nat × CellRec)
  /-- The batch being solved. -/
  solveStart : Option SolveRun
  /-- Inputs whose loss of light has been declared, with no recovery declared since (R83, R84). -/
  darkIn : List Nat
  /-- Consecutive bad beats of each island, for which its time replica has run freely (R13). -/
  badBeats : List (Nat × Nat)
  /-- Islands whose TBCOMP is still the value measured at their start-up (R28). -/
  tbStart : List Nat
  /-- Word offsets poisoned by an uncorrectable error until rewritten (R391). -/
  poisoned : List Nat
  /-- Aborts whose result waits for the batch's final state. -/
  aborts : List PendingAbort
  /-- The power sequencer: the change in progress and the pending slot (R332). -/
  change : Option PowerChange
  slot : Option PowerReq
  /-- Light runs of the port monitors: IN k at k, OUT k at 512 + k. -/
  lightRuns : List (Nat × LightRun)
  /-- Windows in which a commit's occupancy falls: schedule and opening in ns (R127). -/
  winUsed : List (Nat × Nat)
  /-- Tiles whose report of a closed commit is still to come (R122). -/
  lateReports : List Nat
  /-- Cells the Assayer or the Tinker has in CAL, and those told to yield (R212, R214). -/
  calCells : List CalRec
  /-- Masters and functions whose traffic is draining after a reset, with the beats and reads discarded (R26, R27). -/
  draining : List (ResetScope × Nat × Nat)
  /-- Links that are training (R236). -/
  training : List Nat
  /-- Cooper loops and drivers, by cell index. -/
  coos : List (Nat × CooRec)
  tiles : List (Nat × TileRec)
  /-- The words of the trace rings: 4,096·tile + word. -/
  traceMem : List (Nat × Word)
  /-- Commits applied whose T_c + 400 ns has not come, with the cells they stepped (R153). -/
  settling : List (Nat × List Nat)
  /-- Monitor channels: 92·tile + channel. -/
  chans : List (Nat × ChanRec)
  mons : List (Nat × MonRec)
  fullcal : Option FullCal
  /-- The pins CALSRC_EN and CALSRC_BAND, whether the source has settled since they changed, and the open couplers (R216). -/
  calEn : Bool
  calBand : Bool
  calSettled : Bool
  couplers : List Nat
  /-- Cells of CELLCAL commands that wait for an eligible visit, with KIND FULL (R221). -/
  deferredCal : List (Nat × Bool)
  /-- The command whose result ASY_CMDRES waits for: 1 FULLCAL, 3 SAVE, 16 + c CELLCAL of cell c, 0 none (Table 9-9). -/
  asyLast : Nat
  /-- Seconds + 1 of each cell's last background visit, last rest-error measurement (4,864 + cell), last visit with a write
  (9,728 + cell), last passed measurement (14,592 + cell), and RESTERR (19,456 + cell); 0 = never. -/
  stamps : List (Nat × Nat)
  /-- The cell the background visits look at next. -/
  bgNext : Nat
  /-- A bank save in progress (R225). -/
  saving : Option SaveRun
  /-- No factor comes into force before this instant (ns): the copy of R225 step 1. -/
  saveUntil : Nat
  /-- The banks, A (0) and B (1), that the block itself has erased or written in the NOR, and the 64 KiB sectors of the image slots that NOR
  commands have erased or programmed. -/
  bankOwn : List Nat
  norOwn : List Nat
  /-- Extinctions (2·cell + band) of factors in force whose quality record a measurement staged since has replaced (R211). -/
  extOld : List (Nat × Nat)
  /-- The factory set was loaded, and the cells whose own factors have come into force since (R226, R232). -/
  factory : Bool
  ownFactors : List Nat
  /-- The wear records A and B and the entries of the wear log behind them: cell and TNK_CELL W0 (R229). -/
  wearA : Option WearRec
  wearB : Option WearRec
  wearLog : List (Nat × Word)
  /-- Seconds of the previous save, cells whose factors came into force since, and the instant of the last calibration commit. -/
  lastSave : Nat
  sinceSave : List Nat
  lastCalCommit : Nat
  tink : Option TinkOp
  /-- The boundaries (ns) at which written values of TIM_INCR take effect, oldest first, and the one at which a written adjustment does
  (R310, R311). -/
  incrAt : List (Nat × Word)
  adjAt : Option Nat
  /-- Armed compare units whose target was less than 2,048 ns ahead when they were armed or advanced (R319). -/
  lateUnits : List Nat
  /-- The step that is pending (R313). -/
  stepReq : Option StepReq
  ptp : PtpRec
  /-- Instants (ns) of the last PPSIN edge and of the pulses suppressed by a step. -/
  ppsLast : Nat
  /-- Frames that wait for their second pass, oldest first (R282). -/
  recirc : List RecircRec
  /-- Frames in the management cores' receive queue (Table 12-4). -/
  mgmtQ : Nat
  limiters : List (Nat × Limiter)
  /-- The next packet number of each secure association of a port, which replay protection measures from, at 8·port + 2·channel +
  association (R275). -/
  replay : List (Nat × Nat)
  /-- Frames held through a gap, oldest first (R300). -/
  gapFrames : List HeldFrame
  /-- The agent's messages that leave at T_up: destination and bytes, oldest first (R300, R307). -/
  gapOut : List (List Byte × List Byte)
  gap : Option GapRec
  /-- The epoch in progress, and the last complete one that each path unit holds (R297). -/
  epochNew : Option EpochCopy
  epochHeld : List (Nat × EpochCopy)
  /-- The number of the next power request. -/
  nextReq : Nat
  /-- The module is in P3, or cut: every island but AON is off. -/
  off : Bool
  /-- After an orderly stop or a cut: wake events wait for THM_RESUME (R359). -/
  stopHeld : Bool
  /-- A stop whose STOPPED event the next wake owes (R359). -/
  stopOwed : Bool
  /-- Wake events latched in AON, with their instants (ns), oldest first. -/
  latched : List (WakeSrc × Nat)
  retained : Option RetImage
  /-- The cells saved at a tile group's sleep, with INBAND and hcode (R159, R341). -/
  groupSaved : List (Nat × CellRec × Bool × Option Nat)
  /-- EVENT entries owed to the MGMT functions until one has an enabled event ring (R347, R359). -/
  owed : List (List Word)
  sensors : List (Nat × SensorRec)
  /-- The thermal credit's fraction below 1 mJ, in µJ. -/
  creditUj : Nat
  /-- The rail enables asserted and the failed power-up attempts (R406, R407). -/
  enables : List Rail
  seqFails : Nat
  /-- The verified image, its digest, and the bands the last full calibration at start-up abandoned (R377). -/
  image : Option Image
  digest : List Word
  abandoned : List Bool
  /-- T_rr and T_dr in ns. -/
  released : Nat
  driveAt : Nat
  /-- The NOR command that runs or waits, and SEALBUF as it stood at GO (R383). -/
  flash : Option FlashOp
  sealing : Option (List Word)
  /-- Tiles of UNFENCE attempts in progress (R393). -/
  unfencing : List Nat
  /-- Corrected errors of the last second: 64-bit word and instant (ns), newest first (R389). -/
  ceTimes : List (Nat × Nat)
deriving DecidableEq, Repr

/-- The machine right after the power-on reset: every register at its reset value, nothing listed in memory, device time 0 (R309). -/
def State.reset : State where
  now := 0
  words := []
  live := []
  mem := []
  pending := []
  out := []
  fresh := 0
  latches := []
  origins := []
  batches := []
  nextBatch := 0
  nextSolve := 0
  commits := []
  vtime := 0
  toll := []
  alts := []
  prots := []
  rings := []
  bme := []
  fnCfg := []
  served := []
  emissions := []
  heldCq := []
  sess := []
  notifyReserved := 0
  cells := []
  solveStart := none
  darkIn := []
  badBeats := []
  tbStart := []
  poisoned := []
  aborts := []
  change := none
  slot := none
  lightRuns := []
  winUsed := []
  lateReports := []
  calCells := []
  draining := []
  training := []
  coos := []
  tiles := []
  traceMem := []
  settling := []
  chans := []
  mons := []
  fullcal := none
  calEn := false
  calBand := false
  calSettled := false
  couplers := []
  deferredCal := []
  asyLast := 0
  stamps := []
  bgNext := 0
  saving := none
  saveUntil := 0
  bankOwn := []
  norOwn := []
  extOld := []
  factory := false
  ownFactors := []
  wearA := none
  wearB := none
  wearLog := []
  lastSave := 0
  sinceSave := []
  lastCalCommit := 0
  tink := none
  incrAt := []
  adjAt := none
  lateUnits := []
  stepReq := none
  ptp := PtpRec.zero
  ppsLast := 0
  recirc := []
  mgmtQ := 0
  limiters := []
  replay := []
  gapFrames := []
  gapOut := []
  gap := none
  epochNew := none
  epochHeld := []
  nextReq := 0
  off := false
  stopHeld := false
  stopOwed := false
  latched := []
  retained := none
  groupSaved := []
  owed := []
  sensors := []
  creditUj := 0
  enables := []
  seqFails := 0
  image := none
  digest := []
  abandoned := []
  released := 0
  driveAt := 0
  flash := none
  sealing := none
  unfencing := []
  ceTimes := []

end Sys2Proof.Machine
end

