-- ==== Sys2Proof/Machine/Ops.lean ====
section
/-! DEFINITION. The named operations over State that every family shares: reading and writing register words, fields and bits,
device time, the rings and their entries, EVENT delivery (R250, R251), error bits, COMPLETE posting (R249) and free values. -/

namespace Sys2Proof.Machine

/-- The stored word at BAR0 offset `a`. -/
def State.rd (s : State) (a : Nat) : Word := Store.get (resetWord a) s.words a

/-- The state with word `a` holding `v`. -/
def State.wr (s : State) (a : Nat) (v : Word) : State := { s with words := Store.set (resetWord a) s.words a v }

/-- The copy in force of staged word `a`. -/
def State.rdLive (s : State) (a : Nat) : Word := Store.get (resetWord a) s.live a

/-- The state with the copy in force of word `a` holding `v`. -/
def State.wrLive (s : State) (a : Nat) (v : Word) : State := { s with live := Store.set (resetWord a) s.live a v }

/-- The `n`-bit field at `lo` of word `a`. -/
def State.rdf (s : State) (a lo n : Nat) : Nat := fld (s.rd a) lo n

/-- The state with that field holding `v`. -/
def State.wrf (s : State) (a lo n v : Nat) : State := s.wr a (put (s.rd a) lo n v)

/-- Bit `i` of word `a`. -/
def State.bit (s : State) (a i : Nat) : Bool := wbit (s.rd a) i

/-- The state with bit `i` of word `a` holding `b`. -/
def State.wrBit (s : State) (a i : Nat) (b : Bool) : State := s.wrf a i 1 b.toNat

/-- A saturating count of `k` into the `n`-bit field at `lo` of word `a`. -/
def State.count (s : State) (a lo n k : Nat) : State := s.wrf a lo n (satN n (s.rdf a lo n + k))

/-- A wrapping increment of a whole counter word. -/
def State.bump (s : State) (a : Nat) : State := s.wr a (s.rd a + 1#32)

/-- Whether a field rule admits the value `v` writes to its field (R5). -/
def FieldRule.admits (r : FieldRule) (v : Word) : Bool :=
  let x := fld v r.lo (r.hi + 1 - r.lo)
  r.ok.any fun p => decide (p.1 ≤ x) && decide (x ≤ p.2) && x % r.mult == 0

/-- The RW bits of an entry that a write of `v` sets: those of fields given an encoding that is not reserved (R5). -/
def RegEntry.writable (e : RegEntry) (v : Word) : Word :=
  e.rules.foldl (fun m r => if r.admits v then m else m &&& ~~~ fieldMask r.lo (r.hi + 1 - r.lo)) (BitVec.ofNat 32 e.rw)

/-- A word after a write of `v` (R4, R5): RW fields set, W1C bits cleared, W1S bits set; RO, RC, WO and reserved bits kept. -/
def RegEntry.merge (e : RegEntry) (old v : Word) : Word :=
  let m := e.writable v
  (((old &&& ~~~ m) ||| (v &&& m)) &&& ~~~ (v &&& BitVec.ofNat 32 e.w1c)) ||| (v &&& BitVec.ofNat 32 e.w1s)

/-- A word of the window or register at `a` written under R4 and R5; the write clears its poison (R391). Nothing where the map
names no word. -/
def State.writeReg (s : State) (a : Nat) (v : Word) : State :=
  match RegMap.find a with
  | none => s
  | some (e, _) => { s.wr a (e.merge (s.rd a) v) with poisoned := s.poisoned.filter (· != a) }

/-- The bits of `mask` of word `a` set from `v`. -/
def State.wrMask (s : State) (a : Nat) (mask v : Word) : State := s.wr a ((s.rd a &&& ~~~ mask) ||| (v &&& mask))

/-- `s` with an output sent. -/
def State.send (s : State) (o : Output) : State := { s with out := o :: s.out }

/-- Applies `f` for each element of a list, in order. -/
def State.each {α : Type} (s : State) (xs : List α) (f : State → α → State) : State := xs.foldl f s

/-- `s` changed by `f` when `b` holds. -/
def State.when (s : State) (b : Bool) (f : State → State) : State := if b then f s else s

/-- The fatal state is in force (R395). -/
def State.fatalOn (s : State) : Bool := s.bit Reg.FLT_STAT 31

/-! ## Memory (Table 1-16) -/

/-- What a byte that nothing has written reads as: 0xFF in the xSPI NOR, which an erase leaves so, and 0 in the SRAMs (DESIGN CHOICE,
log entry 2). -/
def memDefault (a : Nat) : Byte := if 0x20000000 ≤ a then 0xFF#8 else 0#8

/-- The byte at internal address `a`. -/
def State.byte (s : State) (a : Nat) : Byte := Store.get (memDefault a) s.mem a

/-- The state with one byte of memory written. -/
def State.putByte (s : State) (a : Nat) (v : Byte) : State := { s with mem := Store.set (memDefault a) s.mem a v }

/-- The little-endian word at internal address `a` (R6). -/
def State.memWord (s : State) (a : Nat) : Word := s.byte (a + 3) ++ s.byte (a + 2) ++ s.byte (a + 1) ++ s.byte a

/-- The state with a word of memory written, little-endian. -/
def State.putMemWord (s : State) (a : Nat) (v : Word) : State :=
  (((s.putByte a (v.extractLsb' 0 8)).putByte (a + 1) (v.extractLsb' 8 8)).putByte (a + 2) (v.extractLsb' 16 8)).putByte (a + 3)
    (v.extractLsb' 24 8)

/-- Words written from internal address `a` on. -/
def State.putMem (s : State) (a : Nat) (ws : List Word) : State :=
  (ws.zip (List.range ws.length)).foldl (fun (s : State) p => s.putMemWord (a + 4 * p.2) p.1) s

/-- `n` bytes of memory from internal address `lo` on as nothing has written them: what an erase leaves in the NOR. -/
def State.eraseMem (s : State) (lo n : Nat) : State :=
  { s with mem := s.mem.filter fun p => !(decide (lo ≤ p.1) && decide (p.1 < lo + n)) }

/-- Internal address of NOR byte 0. -/
abbrev norBase : Nat := 0x20000000

/-! ## Device time -/

/-- One nanosecond in the units of `State.now`. -/
abbrev nsUnit : Nat := 2 ^ 28

/-- Whole nanoseconds of device time. -/
def State.ns (s : State) : Nat := s.now / nsUnit

/-- Device time in seconds. -/
def secOf (t : Nat) : Nat := t / 1000000000

/-- The nanoseconds within the second. -/
def nsecOf (t : Nat) : Nat := t % 1000000000

/-- Device time brought up to the instant `t` (ns) of an event, if it has not passed it. -/
def State.raise (s : State) (t : Nat) : State := { s with now := max s.now (t * nsUnit) }

/-- The first multiple of `k` at or after `t`. -/
def roundUp (k t : Nat) : Nat := (t + (k - 1)) / k * k

/-- `x - y` in `n`-bit arithmetic, read as signed (the tag and index comparisons). -/
def sdiff (n x y : Nat) : Int := signed n (x + 2 ^ n - y % 2 ^ n)

/-! ## Free values -/

/-- The state after one free value is drawn. -/
def State.draw (s : State) : State := { s with fresh := s.fresh + 1 }

/-- `n` free values drawn at once. -/
def State.drawMany (s : State) (n : Nat) : State := { s with fresh := s.fresh + n }

/-- The free word `s` draws next. -/
def State.freeWord (s : State) : Word := Config.freeWord s.fresh

/-- The free choice `s` draws next. -/
def State.freeBool (s : State) : Bool := Config.freeBool s.fresh

/-- The free number `s` draws next. -/
def State.freeNat (s : State) : Nat := Config.freeNat s.fresh

/-! ## Functions and partitions (R237, R238) -/

/-- Function index 17·link + number of HIF_FNCFG. -/
def fnIndex (link f : Nat) : Nat := 17 * link + f

/-- Whether function `g` is a MGMT PF0. -/
def State.isMgmtFn (s : State) (g : Nat) : Bool := g % 17 == 0 && s.bit (Reg.HIF_LINKCFG (g / 17)) 30

/-- The partition function `g` is bound to: a VF's binding, or that of a RESTRICTED PF0. -/
def State.fnPart (s : State) (g : Nat) : Option Nat :=
  if g % 17 = 0 then
    if s.bit (Reg.HIF_LINKCFG (g / 17)) 30 then none else some (s.rdf (Reg.HIF_LINKCFG (g / 17)) 24 6)
  else if s.bit (Reg.HIF_FNCFG_W0 g) 31 then some (s.rdf (Reg.HIF_FNCFG_W0 g) 16 6) else none

/-- The MGMT PF0s ("PF0 of every link", R250). -/
def State.mgmtFns (s : State) : List Nat := [0, 17, 34, 51].filter s.isMgmtFn

/-- The functions bound to partition `p`. -/
def State.partFns (s : State) (p : Nat) : List Nat := (List.range 68).filter fun g => s.fnPart g == some p

/-- Whether ring `r` lies in function `g`'s range (R241). -/
def State.ownsRing (s : State) (g r : Nat) : Bool :=
  let b := s.rdf (Reg.HIF_FNCFG_W1 g) 16 15
  decide (b ≤ r) && decide (r < b + s.rdf (Reg.HIF_FNCFG_W1 g) 0 16)

/-- The function that owns ring `r`. -/
def State.ringOwner (s : State) (r : Nat) : Option Nat := (List.range 68).find? fun g => s.ownsRing g r

/-! ## Rings (R242 to R244) -/

/-- Ring `r` behind its descriptor. -/
def State.ring (s : State) (r : Nat) : RingRec := Store.get RingRec.empty s.rings r

/-- The state with ring `r` behind its descriptor changed. -/
def State.setRing (s : State) (r : Nat) (x : RingRec) : State := { s with rings := Store.set RingRec.empty s.rings r x }

/-- Whether ring `r` is enabled. -/
def State.ringOn (s : State) (r : Nat) : Bool := s.bit (Reg.RING_W2 r) 31

/-- TYPE of ring `r`: 0 SUBMIT, 1 COMPLETE, 2 EVENT, 3 TELEMETRY. -/
def State.ringType (s : State) (r : Nat) : Nat := s.rdf (Reg.RING_W2 r) 29 2

/-- 2^LOG2SZ of ring `r`. -/
def State.ringSize (s : State) (r : Nat) : Nat := 2 ^ s.rdf (Reg.RING_W2 r) 24 5

/-- PI of ring `r`. -/
def State.ringPi (s : State) (r : Nat) : Nat := s.rdf (Reg.RING_W4 r) 16 16

/-- CI of ring `r`. -/
def State.ringCi (s : State) (r : Nat) : Nat := s.rdf (Reg.RING_W4 r) 0 16

/-- `x - y` modulo 65,536. -/
def sub16 (x y : Nat) : Nat := (x + 65536 - y % 65536) % 65536

/-- Occupancy of ring `r`. -/
def State.ringUsed (s : State) (r : Nat) : Nat := sub16 (s.ringPi r) (s.ringCi r)

/-- Entries free in ring `r` (0 when the occupancy stands at the size). -/
def State.ringFree (s : State) (r : Nat) : Nat := s.ringSize r - s.ringUsed r

/-- Bytes of an entry of ring `r`. -/
def State.entrySize (s : State) (r : Nat) : Nat := if s.ringType r = 3 then 64 else 32

/-- Bus address of entry `i` of ring `r`. -/
def State.entryAddr (s : State) (r i : Nat) : Nat :=
  (s.rd (Reg.RING_W1 r)).toNat * 2 ^ 32 + s.rdf (Reg.RING_W0 r) 6 26 * 64 + s.entrySize r * (i % s.ringSize r)

/-- PHASE of entry `i` of ring `r`: 1 on the first pass (R244). -/
def State.phase (s : State) (r i : Nat) : Bool := (i / s.ringSize r) % 2 == 0

/-- The PCIe configuration space of function `g`. -/
def State.cfg (s : State) (g : Nat) : FnCfg := Store.get FnCfg.zero s.fnCfg g

/-- The state with function `g`'s configuration space changed. -/
def State.setCfg (s : State) (g : Nat) (x : FnCfg) : State := { s with fnCfg := Store.set FnCfg.zero s.fnCfg g x }

/-- The module issues DMA for function `g`: Bus Master Enable is set, in D0 (R256). -/
def State.dmaOk (s : State) (g : Nat) : Bool := s.bme.contains g && !(s.cfg g).d3hot

/-- MSI-X vector `v` of function `g`: sent, or left pending while it is masked (R254). -/
def State.msixSend (s : State) (g v : Nat) : State :=
  let x := s.cfg g
  if x.masked.contains v then s.setCfg g { x with pendingVecs := (v :: x.pendingVecs).eraseDups }
  else s.send (.msix (g / 17) (g % 17) v)

/-- R254: with COUNT ≠ 0, the message sent once the entries written since the last one reach COUNT. -/
def State.ringSignal (s : State) (r : Nat) : State :=
  let x := s.ring r
  let cnt := s.rdf (Reg.RING_W3 r) 0 16
  if cnt = 0 then s
  else if cnt ≤ x.unsignalled + 1 then
    let g := (s.ringOwner r).getD 0
    (s.setRing r { x with unsignalled := 0, timing := false }).msixSend g (s.rdf (Reg.RING_W2 r) 16 8)
  else s.setRing r { x with unsignalled := x.unsignalled + 1, timing := true }

/-- An entry written at PI of ring `r`, its PHASE set, PI advanced and R254 applied. -/
def State.ringPut (s : State) (r : Nat) (ws : List Word) : State :=
  let i := s.ringPi r
  let g := (s.ringOwner r).getD 0
  let w0 := putBit (ws.headD 0#32) 31 (s.phase r i)
  ((s.send (.dma (g / 17) (g % 17) (s.entryAddr r i) (w0 :: ws.tail))).wrf (Reg.RING_W4 r) 16 16 (i + 1)).ringSignal r

/-! ## Events (R250, R251, R290) -/

/-- An EVENT entry without its PHASE (Table 10-8). -/
def eventEntry (code part tile gen : Nat) (data : List Word) (t : Nat) : List Word :=
  [pack [(16, 8, code), (8, 6, part), (0, 7, tile)], wd (nsecOf t), wd (secOf t), wd gen] ++
    (data ++ List.replicate (4 - data.length) 0#32)

/-- W0 TILE of an entry that names no tile. -/
abbrev noTile : Nat := 0x7F

/-- The event ring of function `g`, when it receives events: EVEN set and an enabled EVENT ring it owns. -/
def State.eventRing (s : State) (g : Nat) : Option Nat :=
  let ev := s.rd (Reg.HIF_FNCFG_W2 g)
  let r := fld ev 0 15
  if wbit ev 31 && s.ringOn r && s.ringType r == 2 && s.ownsRing g r then some r else none

/-- An entry dropped at ring `r`: DROPCNT counts it and the next entry written there is EVLOST (R251). -/
def State.ringDrop (s : State) (r : Nat) : State :=
  (s.count (Reg.RING_W6 r) 0 16 1).setRing r { s.ring r with evlost := (s.ring r).evlost + 1 }

/-- The EVLOST entry owed to ring `r`, written when it has room. -/
def State.payEvlost (s : State) (r : Nat) : State :=
  if (s.ring r).evlost = 0 ∨ s.ringFree r = 0 then s
  else (s.setRing r { s.ring r with evlost := 0 }).ringPut r
    (eventEntry 0x1F 0 noTile 0 [wd (s.ring r).evlost] s.ns)

/-- An EVENT entry offered to function `g`'s event ring. -/
def State.eventToFn (s : State) (ws : List Word) (g : Nat) : State :=
  match s.eventRing g with
  | none => s
  | some r =>
    if s.dmaOk g then
      let s1 := s.payEvlost r
      if s1.ringFree r = 0 then s1.ringDrop r else s1.ringPut r ws
    else s.ringDrop r

/-- NGCP session `n`. -/
def State.session (s : State) (n : Nat) : SessRec := Store.get SessRec.empty s.sess n

/-- The state with session `n` changed. -/
def State.setSession (s : State) (n : Nat) (x : SessRec) : State := { s with sess := Store.set SessRec.empty s.sess n x }

/-- Entries waiting in the notification queue that all sessions share (R289). -/
def State.notifyQueued (s : State) : Nat := (s.sess.map fun p => p.2.queue.length).sum

/-- The sessions that receive the events of `part` (`none`: those for "PF0 of every link"). -/
def State.eventSessions (s : State) (part : Option Nat) : List Nat :=
  (List.range 64).filter fun n =>
    let w := s.rd (Reg.POR_SESS_W0 n)
    wbit w 31 && wbit w 29 &&
      match part with
      | none => wbit w 30
      | some p => !wbit w 30 && fld w 16 6 == p

/-- An EVENT entry queued for session `n`; one that meets a full notification queue is dropped. -/
def State.eventToSession (s : State) (ws : List Word) (n : Nat) : State :=
  if 4096 ≤ s.notifyQueued + s.notifyReserved then s
  else s.setSession n { s.session n with queue := (s.session n).queue ++ [ws] }

/-- An EVENT entry to "PF0 of every link": the MGMT PF0s not on link `skip`, and the management sessions with EVEN. -/
def State.eventMgmt (s : State) (ws : List Word) (skip : Option Nat := none) : State :=
  (s.each (s.mgmtFns.filter fun g => skip != some (g / 17)) (fun s g => s.eventToFn ws g)).each
    (s.eventSessions none) (fun s n => s.eventToSession ws n)

/-- An EVENT entry to a partition's functions and bound sessions. -/
def State.eventPart (s : State) (ws : List Word) (p : Nat) : State :=
  (s.each (s.partFns p) (fun s g => s.eventToFn ws g)).each
    (s.eventSessions (some p)) (fun s n => s.eventToSession ws n)

/-- The tile whose window holds offset `a`, or 0x7F (R422). -/
def tileOfAddr (a : Nat) : Nat := if 0x02000000 ≤ a ∧ a < 0x03000000 then (a - 0x02000000) / 0x40000 else noTile

/-- The ERRBIT entry of bit `i` of register `a`. -/
def State.errEntry (s : State) (a i : Nat) : List Word :=
  eventEntry 0x01 0 (tileOfAddr a) 0 [wd a, wd i] s.ns

/-- An ERRSTAT bit set; it raises an ERRBIT event to the MGMT PF0s only when it changes from 0 to 1 (R250). -/
def State.err (s : State) (a i : Nat) : State :=
  if s.bit a i then s else (s.wrBit a i true).eventMgmt (s.errEntry a i)

/-- As `err`, the event going to the MGMT PF0s of the other links (R258). -/
def State.errOtherLinks (s : State) (a i link : Nat) : State :=
  if s.bit a i then s else (s.wrBit a i true).eventMgmt (s.errEntry a i) (some link)

/-- As `err`, the event going to the management cores as well (R25). -/
def State.errCores (s : State) (a i : Nat) : State :=
  if s.bit a i then s else ((s.wrBit a i true).eventMgmt (s.errEntry a i)).send (.coreEvent (s.errEntry a i))

/-! ## The matrix's error log (R25) -/

/-- The master ID of Table 1-3. -/
def masterOf : Requester → Nat
  | .fn l _ => l
  | .session _ => 4
  | .core _ => 5
  | .internal m => m

/-- The function number a request of masters 0 to 3 carries; 0 for the others. -/
def funcOf : Requester → Nat
  | .fn _ f => f
  | _ => 0

/-- A request answered by the default target: its cause logged, the request captured unless a capture is held (R25). -/
def State.mtxError (s : State) (rq : Requester) (bar2 isWrite : Bool) (addr cause island : Nat) : State :=
  let held := s.rdf Reg.MTX_ERRSTAT 0 4 != 0
  let s1 := if held then s.errCores Reg.MTX_ERRSTAT 5
    else (s.wr Reg.MTX_ERRADDR (wd addr)).wr Reg.MTX_ERRINFO
      (pack [(16, 7, if cause = 3 then island else 0), (10, 1, bar2.toNat), (9, 1, isWrite.toNat), (4, 5, funcOf rq), (0, 4, masterOf rq)])
  let s2 := s1.errCores Reg.MTX_ERRSTAT cause
  match rq with
  | .fn l f => if s.bit Reg.MTX_CTRL 1 && Config.aerEnabled (17 * l.val + f.val) s.out.length then s2.send (.aer l f) else s2
  | _ => s2

/-- The NGCP STATUS of a cause (Table 12-7). -/
def causeStatus (cause : Nat) : Nat := if cause = 0 then 2 else if cause = 1 then 3 else if cause = 2 then 4 else 5

/-- The default target's answer to a request of `n` words (Table 1-5). -/
def State.answer (s : State) (rq : Requester) (isWrite : Bool) (addr status n : Nat) : State :=
  match rq with
  | .fn _ _ =>
    if isWrite then s
    else if s.bit Reg.MTX_CTRL 0 then s.send (.unsupported rq) else s.send (.readData rq (List.replicate n 0xFFFFFFFF#32))
  | .session k => s.send (.ngcp (some k) (if isWrite then 2 else 1) status addr [])
  | _ => s.send (.busError rq isWrite (if isWrite then [] else List.replicate n 0xFFFFFFFF#32))

/-- A request of `n` words answered by the default target (R24), with its error log; no other state changes. -/
def State.refuse (s : State) (rq : Requester) (bar2 isWrite : Bool) (addr cause island n : Nat) : State :=
  (s.mtxError rq bar2 isWrite addr cause island).answer rq isWrite addr (causeStatus cause) n

/-- A requester with full access: a MGMT PF0, a management core, or a management session (R286). -/
def State.isMgmt (s : State) : Requester → Bool
  | .fn l f => f == 0 && s.isMgmtFn (17 * l.val)
  | .session n => s.bit (Reg.POR_SESS_W0 n) 30
  | .core _ => true
  | .internal _ => false

/-- A requester admitted to the COO, DRV and MON windows: those, and the Assayer (R161, R181, R207). -/
def State.isTileUser (s : State) (rq : Requester) : Bool := s.isMgmt rq || rq == .internal 7

/-! ## Completions (R247, R249, R256) -/

/-- One reserved CQ entry released. -/
def State.unreserve (s : State) (r k : Nat) : State :=
  s.setRing r { s.ring r with reserved := (s.ring r).reserved - k }

/-- A COMPLETE entry discarded at ring `r`: CQLOST counts and HIF_ERRSTAT.CQLOST is set (R256). -/
def State.cqLost (s : State) (r : Nat) : State :=
  match s.ringOwner r with
  | none => s.err Reg.HIF_ERRSTAT 4
  | some g => (s.count (Reg.HIF_FNCFG_W3 g) 0 16 1).err Reg.HIF_ERRSTAT 4

/-- COMPLETE entries held for rings of link `l`. -/
def State.heldOn (s : State) (l : Nat) : Nat :=
  (s.heldCq.filter fun p => (s.ringOwner p.1).map (· / 17) == some l).length

/-- A COMPLETE entry posted to CQ `r` in reserved space: written, held while Bus Master Enable is clear (up to 4,096 per link),
or dropped where the ring is no longer an enabled COMPLETE ring. -/
def State.postCq (s : State) (r : Nat) (ws : List Word) : State :=
  if s.ringOn r && s.ringType r == 1 then
    match s.ringOwner r with
    | none => s
    | some g =>
      if s.dmaOk g then (s.unreserve r 1).ringPut r ws
      else if s.heldOn (g / 17) < 4096 then { s with heldCq := s.heldCq ++ [(r, ws)] }
      else (s.unreserve r 1).cqLost r
  else s

/-- The CQ of SUBMIT ring `r`. -/
def State.cqOf (s : State) (r : Nat) : Nat := s.rdf (Reg.RING_W2 r) 0 15

/-- A COMPLETE entry posted where its origin says: the CQ of the SUBMIT ring, or the session's notification queue. -/
def State.postComplete (s : State) (o : Origin) (ws : List Word) : State :=
  match o with
  | .ring cq _ _ => s.postCq cq ws
  | .session n _ =>
    ({ s with notifyReserved := s.notifyReserved - 1 }).setSession n
      { s.session n with queue := (s.session n).queue ++ [ws] }
  | .dropped => s

/-! ## The network paths (R274, R295, R300) -/

/-- Word `i` of the registers of NETA (0) or NETB (1), from NETx_CTRL on (R293). -/
def netReg (k i : Nat) : Nat := Reg.NETA_CTRL + 0x10000 * k + 4 * i

/-- The role of path `k` (Table 13-1). -/
def State.role (s : State) (k : Nat) : Nat := s.rdf Reg.PTH_STAT (4 * k) 4

/-- The ACTIVE path. -/
def State.activePath (s : State) : Option Nat := [0, 1].find? fun k => s.role k == 3

/-- A frame sent on path `k`, counted in TXFRAMES. -/
def State.sendOn (s : State) (k : Nat) (o : Output) : State := (s.count (netReg k 5) 0 32 1).send o

/-- Between T_fail and T_up (R300). -/
def State.inGap (s : State) : Bool := s.gap.any fun g => !g.frozen

/-- The path the agent transmits on: the ACTIVE one, and none in a gap (R300, R302). -/
def State.txNet (s : State) : Option Nat := if s.inGap then none else s.activePath

/-- An NGCP message kept until T_up (R300, R307). -/
def State.keepMessage (s : State) (dest bytes : List Byte) : State := { s with gapOut := s.gapOut ++ [(dest, bytes)] }

/-- An NGCP message of the agent sent to an address: kept in a gap, lost while no path is ACTIVE (R300, R302). Its carrier is the
destination's: UDP from port NGCPUDP, or Ethernet with NGCPETYPE (R284). -/
def State.transmit (s : State) (dest bytes : List Byte) : State :=
  match s.txNet with
  | some k => s.sendOn k (.message k dest (if 6 < dest.length then s.rdf Reg.POR_CTRL 0 16 else s.rdf Reg.POR_CTRL 16 16) bytes)
  | none => if s.inGap then s.keepMessage dest bytes else s

/-- What was kept for T_up leaves on the path that is ACTIVE by now; where none is, it is lost (R300, R302). -/
def State.flushGap (s : State) : State :=
  s.gapOut.foldl (fun (t : State) p => t.transmit p.1 p.2) { s with gapOut := [] }

/-! ## The image's header and NVM section (Tables 17-3, 17-5) -/

/-- Word `i` of an image's header. -/
def imageWord (m : Image) (i : Nat) : Word := m.header.getD i 0#32

/-- SEQ. -/
def imageSeq (m : Image) : Word := imageWord m 3

/-- The security version. -/
def imageSvn (m : Image) : Nat := fld (imageWord m 4) 0 8

/-- ADVSVN. -/
def imageAdvSvn (m : Image) : Bool := wbit (imageWord m 4) 8

/-- KEYSLOT. -/
def imageKeySlot (m : Image) : Nat := fld (imageWord m 5) 0 2

/-- NOR address and size of area `i`: banks A (0) and B (1), wear records A and B, wear log, dump area (5). -/
def nvmArea (m : Image) (i : Nat) : Nat × Nat := m.nvm.getD i (0, 0)

/-! ## NGCP messages (R284, R285, R291) -/

/-- An NGCP message: the header of Table 12-5 and a payload. -/
def ngcpMessage (sysid session op flags seq status : Nat) (d : List Byte) : List Byte :=
  beBytes 2 (4096 + sysid) ++ beBytes 2 session ++ beBytes 1 op ++ beBytes 1 flags ++ beBytes 2 d.length ++ beBytes 4 seq ++
    beBytes 1 status ++ beBytes 3 0 ++ d

/-- Response `m` to request `seq` kept among session `n`'s last 8. -/
def State.noteReply (s : State) (n seq : Nat) (m : List Byte) : State :=
  s.setSession n { s.session n with replies := ((seq, m) :: (s.session n).replies).take 8 }

/-- The response to request `seq` of session `n`: kept in its cache, and sent to the request's source, or with `held` kept for T_up. -/
def State.ngcpReply (s : State) (held : Bool) (n seq op status : Nat) (dest d : List Byte) : State :=
  let m := ngcpMessage (s.rdf Reg.POR_SYSID 0 12) n op 0x80 seq status d
  if held then (s.noteReply n seq m).keepMessage dest m else (s.noteReply n seq m).transmit dest m

/-- The response to request `seq` of session `n`, sent to the request's source. -/
def State.ngcpAnswer (s : State) (n seq op status : Nat) (dest d : List Byte) : State := s.ngcpReply false n seq op status dest d

end Sys2Proof.Machine
end

