-- ==== Sys2Proof/Machine/Fabric.lean ====
section
/-! DEFINITION. The fabric of chapter 2: topology and numbering (R37 to R41), the trace of R38, the circuits of the circuit
table, the fabric state table and its snapshot (R43 to R47), and the commands on them. -/

namespace Sys2Proof.Machine

/-! ## Topology -/

/-- The low `n` bits of `x` rotated right by one. -/
def rotr (x n : Nat) : Nat := x / 2 ^ n * 2 ^ n + (x % 2 ^ n) / 2 + (x % 2) * 2 ^ (n - 1)

/-- The low `n` bits of `x` rotated left by one. -/
def rotl (x n : Nat) : Nat := x / 2 ^ n * 2 ^ n + (x % 2 ^ n) * 2 % 2 ^ n + (x % 2 ^ n) / 2 ^ (n - 1)

/-- L_s of Table 2-1. -/
def link (s x : Nat) : Nat :=
  if s ≤ 7 then rotr x (9 - s) else if s = 8 then rotr x 9 else if s = 9 then rotl x 9 else rotl x (s - 8)

/-- The inverse of L_s (Table 2-1). -/
def linkInv (s x : Nat) : Nat := link (17 - s) x

/-- The position after a cell: straight through in BAR, x XOR 1 in CROSS (R37). -/
def throughCell (cross : Bool) (x : Nat) : Nat := if cross then x ^^^ 1 else x

/-- The position after stage `s` and its link. -/
def onward (s x : Nat) : Nat := if s < 18 then link s x else x

/-- Cell index of stage `s`, row `w` (R40). -/
def cellAt (s w : Nat) : Nat := 256 * s + w

/-- The tile of a cell. -/
def tileOf (c : Nat) : Nat := c % 256 / 4

/-- The tile-local number of a cell. -/
def localOf (c : Nat) : Nat := 4 * (c / 256) + c % 4

/-- The cell of tile `t` with local number `l`. -/
def cellOf (t l : Nat) : Nat := cellAt (l / 4) (4 * t + l % 4)

/-- The neighbours of R41 of a cell, by index 0 to 3; `none` where none exists. -/
def neighbours (c : Nat) : List (Option Nat) :=
  let s := c / 256
  let w := c % 256
  [if w = 0 then none else some (cellAt s (w - 1)), if w = 255 then none else some (cellAt s (w + 1)),
   if s = 0 then none else some (cellAt (s - 1) w), if s = 18 then none else some (cellAt (s + 1) w)]

/-- The output position reached from position `x` at the first of `stages`, with cell states `st`. -/
def walk (st : Nat → Bool) : List Nat → Nat → Nat
  | [], x => x
  | g :: gs, x => walk st gs (onward g (throughCell (st (cellAt g (x / 2))) x))

/-- The trace of R38: the output IN `k` reaches under the cell states `st`. -/
def trace (st : Nat → Bool) (k : Nat) : Nat := walk st (List.range 19) k

/-- The positions at which the light of a walk enters each stage. -/
def walkPositions (st : Nat → Bool) : List Nat → Nat → List Nat
  | [], _ => []
  | g :: gs, x => x :: walkPositions st gs (onward g (throughCell (st (cellAt g (x / 2))) x))

/-- The cells the light of IN `k` meets, stage by stage. -/
def pathCells (st : Nat → Bool) (k : Nat) : List Nat :=
  ((walkPositions st (List.range 19) k).zip (List.range 19)).map fun p => cellAt p.2 (p.1 / 2)

/-- A route's cells with the state it wants of each, and its output (R37). -/
def routeCells : List Nat → List Bool → Nat → List (Nat × Bool) × Nat
  | g :: gs, b :: bs, x =>
    let r := routeCells gs bs (onward g (throughCell b x))
    ((cellAt g (x / 2), b) :: r.1, r.2)
  | _, _, x => ([], x)

/-- The cells and wanted states of a path. -/
def PathRec.cells (p : PathRec) : List (Nat × Bool) := (routeCells (List.range 19) p.cross p.input).1

/-- The output a path reaches. -/
def PathRec.output (p : PathRec) : Nat := (routeCells (List.range 19) p.cross p.input).2

/-- The path IN `k` takes under the cell states `st`, for the circuit with working input `owner`. -/
def pathUnder (st : Nat → Bool) (owner k : Nat) : PathRec := ⟨owner, k, (pathCells st k).map st⟩

/-! ## Cells and circuits -/

/-- Cell `c` as its tile holds it. -/
def State.cell (s : State) (c : Nat) : CellRec := Store.get CellRec.rest s.cells c

/-- The state with cell `c` changed; STATE, BAND and SET of its Cooper status word follow (Table 6-10). -/
def State.setCell (s : State) (c : Nat) (x : CellRec) : State :=
  let a := Reg.COO_CELL_W7 (tileOf c) (localOf c)
  { s with cells := Store.set CellRec.rest s.cells c x }.wr a
    (putBit (putBit (put (s.rd a) 16 3 x.mode) 5 x.band) 4 x.cross)

/-- The MODE of cell `c` changed. -/
def State.setMode (s : State) (c m : Nat) : State := s.setCell c { s.cell c with mode := m }

/-- The applied state of every cell. -/
def State.cross (s : State) : Nat → Bool := fun c => (s.cell c).cross

/-- A tile group that is asleep, entering or waking, by PWR_STAT. -/
def State.groupDown (s : State) (g : Nat) : Bool := s.bit Reg.PWR_STAT (8 + g) || s.bit Reg.PWR_STAT (16 + g)

/-- A pinned cell: MODE FAULT or FENCED (R99), or of a tile group from the pinning of its entry until its wake completes (R340). -/
def State.pinned (s : State) (c : Nat) : Bool :=
  (s.cell c).mode == 4 || (s.cell c).mode == 5 || s.groupDown (tileOf c / 8)

/-- The circuit whose working input is IN `k` (Tables 3-2, 3-3). -/
def State.ckt (s : State) (k : Nat) : Option Ckt :=
  let a := s.rd (Reg.CIR_CKTA k)
  let b := s.rd (Reg.CIR_CKTB k)
  if wbit a 31 then
    some { inp := k, out := fld a 0 9, band := wbit a 28, owner := fld a 16 6,
           peer := if wbit a 30 then some (fld b 0 9) else none,
           activep := wbit a 29, lockout := wbit a 25, protok := wbit a 26 }
  else none

/-- The circuits of the circuit table. -/
def State.ckts (s : State) : List Ckt := (List.range 512).filterMap s.ckt

/-- The input that feeds a circuit's output. -/
def Ckt.feed (c : Ckt) : Nat := if c.activep then c.peer.getD c.inp else c.inp

/-- The input of a protected circuit that does not feed its output. -/
def Ckt.other (c : Ckt) : Option Nat := c.peer.map fun p => if c.activep then c.inp else p

/-- CIR_CKTA of a circuit. -/
def Ckt.word (c : Ckt) : Word :=
  pack [(31, 1, 1), (30, 1, c.peer.isSome.toNat), (29, 1, c.activep.toNat), (28, 1, c.band.toNat), (26, 1, c.protok.toNat),
    (25, 1, c.lockout.toNat), (16, 6, c.owner), (0, 9, c.out)]

/-- The words CKTA and PEER that the circuits `cs` give entry `k`: a circuit's, a reserved protect input's, or none. -/
def cktEntry (cs : List Ckt) (k : Nat) : Word × Nat :=
  match cs.find? (·.inp == k), cs.find? (·.peer == some k) with
  | some c, _ => (c.word, c.peer.getD 0)
  | none, some c => (pack [(27, 1, 1), (16, 6, c.owner)], c.inp)
  | none, none => (0#32, 0)

/-- The circuit table holding `cs`; entries that change take the generation number `gen`, but PROTOK alone changes without one, as R131 has
it where a switch is lost (DEDUCED, log entry 103). -/
def State.putCkts (s : State) (cs : List Ckt) (gen : Nat) : State :=
  s.each (List.range 512) fun s k =>
    let e := cktEntry cs k
    if putBit (s.rd (Reg.CIR_CKTA k)) 26 false = putBit e.1 26 false ∧ s.rdf (Reg.CIR_CKTB k) 0 9 = e.2 then s.wr (Reg.CIR_CKTA k) e.1
    else (s.wr (Reg.CIR_CKTA k) e.1).wr (Reg.CIR_CKTB k) (pack [(16, 16, gen), (0, 9, e.2)])

/-! ## The fabric state table (R43, R44) -/

/-- CIR_FSSEQ advanced by one. -/
def State.fsTick (s : State) : State := s.bump Reg.CIR_FSSEQ

/-- An update is in progress: CIR_FSSEQ is odd. -/
def State.fsOpen (s : State) : Bool := s.bit Reg.CIR_FSSEQ 0

/-- CIR_CELLST of the cells of tile `t` as the tile reports them; OCCU and OCCL are filled by `refreshMaps`. -/
def State.reportTile (s : State) (t : Nat) : State :=
  s.each (List.range 76) fun s l =>
    let c := cellOf t l
    let x := s.cell c
    s.wr (Reg.CIR_CELLST c) (pack [(16, 16, x.gen), (8, 3, x.mode), (4, 1, x.band.toNat),
      (2, 2, s.rdf (Reg.CIR_CELLST c) 2 2), (0, 1, x.cross.toNat)])

/-- The reported state of a cell. -/
def State.reported (s : State) : Nat → Bool := fun c => s.bit (Reg.CIR_CELLST c) 0

/-- The positions, as (cell, lower input), that committed circuits occupy under the reported states. -/
def State.occupied (s : State) : List (Nat × Bool) :=
  s.ckts.flatMap fun c =>
    ((walkPositions s.reported (List.range 19) c.feed).zip (List.range 19)).map fun p => (cellAt p.2 (p.1 / 2), p.1 % 2 == 1)

/-- VALID, BAND and OWNER of a map entry (Tables 2-6 and 2-7). -/
def mapHead : Option Ckt → Word
  | some c => pack [(31, 1, 1), (28, 1, c.band.toNat), (16, 6, c.owner)]
  | none => 0#32

/-- OUTMAP, INMAP and the occupancy bits recomputed from the reported states and the circuit table (R43). -/
def State.refreshMaps (s : State) : State :=
  let cs := s.ckts
  let st := s.reported
  let occ := s.occupied
  let s1 := s.each (List.range 512) fun s k =>
    let j := trace st k
    let i := cs.find? (·.inp == k)
    let o := cs.find? (·.out == j)
    (s.wr (Reg.CIR_INMAP k) (put (put (mapHead i) 0 9 j) 29 2 (s.rdf (Reg.CIR_INMAP k) 29 2))).wr (Reg.CIR_OUTMAP j)
      (put (put (mapHead o) 0 9 k) 29 2 (s.rdf (Reg.CIR_OUTMAP j) 29 2))
  s1.each (List.range 4864) fun s c =>
    s.wrf (Reg.CIR_CELLST c) 2 2 ((occ.contains (c, false)).toNat + 2 * (occ.contains (c, true)).toNat)

/-- A table update outside a commit, in a bracket of its own. -/
def State.reportAlone (s : State) (t : Nat) : State := ((s.fsTick.reportTile t).refreshMaps).fsTick

end Sys2Proof.Machine
end

