-- ==== Sys2Proof/Machine/Circuits.lean ====
section
/-! DEFINITION. Cues, batches and their checks (R58 to R67, R73 to R78, R423): what a cue does to the circuits, checks 1 and 2 of
Table 3-8, and the writing of final cue states with their COMPLETE entries. -/

namespace Sys2Proof.Machine

/-- A cue entry as written (Table 3-4). -/
structure Cue where
  op : Nat
  rule : Nat
  policy : Nat
  band : Bool
  prot : Bool
  link : Bool
  notify : Bool
  part : Nat
  inp : Nat
  out : Nat
  protin : Nat
  toprot : Bool
  lockout : Bool
  timeNs : Nat
  timeSec : Nat
deriving DecidableEq, Repr

/-- Cue `q`. -/
def State.cue (s : State) (q : Nat) : Cue :=
  let w0 := s.rd (Reg.CUE_W0 q)
  let w1 := s.rd (Reg.CUE_W1 q)
  let w2 := s.rd (Reg.CUE_W2 q)
  { op := fld w0 0 4, rule := fld w0 4 2, policy := fld w0 6 2, band := wbit w0 8, prot := wbit w0 9, link := wbit w0 10,
    notify := wbit w0 11, part := fld w0 16 6, inp := fld w1 0 9, out := fld w1 16 9, protin := fld w2 0 9,
    toprot := wbit w2 16, lockout := wbit w2 17, timeNs := (s.rd (Reg.CUE_W4 q)).toNat, timeSec := s.rdf (Reg.CUE_W5 q) 0 16 }

/-- The protect input a cue names. -/
def Cue.peer (c : Cue) : Option Nat := if c.prot then some c.protin else none

/-- STATE of cue `q` (Table 3-6). -/
def State.cueState (s : State) (q : Nat) : Nat := s.rdf (Reg.CUE_W3 q) 0 3

/-- Whether cue `q` is PENDING, SOLVED or ARMED. -/
def State.cueBusy (s : State) (q : Nat) : Bool := let st := s.cueState q; st == 1 || st == 2 || st == 3

/-- A valid pattern entry as the circuit it asks for, owned by `p` (Table 3-13). -/
def State.patEntry (s : State) (n p j : Nat) : Option Ckt :=
  let w := s.rd (Reg.PAT n j)
  if wbit w 31 then
    some { inp := fld w 0 9, out := j, band := wbit w 28, owner := p,
           peer := if wbit w 25 then some (fld w 16 9) else none, activep := false, lockout := false, protok := false }
  else none

/-- The valid entries of pattern `n`. -/
def State.patEntries (s : State) (n p : Nat) : List Ckt := (List.range 512).filterMap (s.patEntry n p)

/-- Whether a circuit matches a pattern entry: the same input, output, band and protect input (R77). -/
def Ckt.sameAs (c e : Ckt) : Bool := c.inp == e.inp && c.out == e.out && c.band == e.band && c.peer == e.peer

/-- The circuits without the one whose working input is IN `k`. -/
def without (cs : List Ckt) (k : Nat) : List Ckt := cs.filter fun c => c.inp != k

/-- R423: a circuit after a cue that gives it band `b`, protect input `pr` and ports `i`, `o`. -/
def Ckt.changed (c : Ckt) (i o : Nat) (b : Bool) (pr : Option Nat) : Ckt :=
  let keep := c.peer.isSome && c.peer == pr
  { c with inp := i, out := o, band := b, peer := pr, activep := keep && c.activep, lockout := keep && c.lockout }

/-- A circuit newly set up. -/
def Cue.fresh (q : Cue) : Ckt := ⟨q.inp, q.out, q.band, q.part, q.peer, false, false, false⟩

/-- The circuits after a cue (Table 3-5, R77, R423): those it creates or changes stand last. `es` are the entries of the pattern a RECALL
names; an entry that moves a circuit leaves ACTIVEP and LOCKOUT 0 (DESIGN CHOICE, log entry 101). -/
def Cue.apply (q : Cue) (es : List Ckt) (cs : List Ckt) : List Ckt :=
  match q.op with
  | 0 => cs ++ [q.fresh]
  | 1 => without cs q.inp
  | 2 => match cs.find? (·.inp == q.inp) with
    | some c => without cs q.inp ++ [c.changed q.inp q.out q.band q.peer]
    | none => cs ++ [q.fresh]
  | 3 => match cs.find? (·.out == q.out) with
    | some c => without cs c.inp ++ [c.changed q.inp q.out q.band q.peer]
    | none => cs ++ [q.fresh]
  | 4 =>
    let kept := cs.filter fun c => c.owner == q.part && es.any c.sameAs
    let others := cs.filter fun c => c.owner != q.part
    others ++ kept ++ es.filter fun e => !kept.any (·.sameAs e)
  | 5 => match cs.find? (·.inp == q.inp) with
    | some c => without cs q.inp ++ [c.changed c.inp c.out c.band q.peer]
    | none => cs
  | 6 => match cs.find? (·.inp == q.inp) with
    | some c => without cs q.inp ++ [{ c with activep := q.toprot, lockout := q.lockout }]
    | none => cs
  | _ => cs

/-- The working inputs between which a cue carries a circuit's protection state (R423): from, to. Every other circuit it names starts
without a hold-off. -/
def Cue.carries (q : Cue) (cs : List Ckt) : List (Nat × Nat) :=
  let keep := fun (c : Ckt) => c.peer.isSome && c.peer == q.peer
  match q.op with
  | 2 => match cs.find? (·.inp == q.inp) with
    | some c => if keep c then [(c.inp, c.inp)] else []
    | none => []
  | 3 => match cs.find? (·.out == q.out) with
    | some c => if keep c then [(c.inp, q.inp)] else []
    | none => []
  | 5 => match cs.find? (·.inp == q.inp) with
    | some c => if keep c then [(c.inp, c.inp)] else []
    | none => []
  | 6 => [(q.inp, q.inp)]
  | _ => []

/-- The working inputs of a cue's target circuits, before and after it (R91). -/
def Cue.targets (q : Cue) (es : List Ckt) (cs : List Ckt) : List Nat :=
  match q.op with
  | 3 => q.inp :: ((cs.filter (·.out == q.out)).map (·.inp))
  | 4 => ((cs.filter fun c => c.owner == q.part && !es.any c.sameAs).map (·.inp)) ++
      ((es.filter fun e => !cs.any fun c => c.owner == q.part && c.sameAs e).map (·.inp))
  | _ => [q.inp]

/-- The input and output ports a cue names (R73). -/
def Cue.namedIn (q : Cue) (es : List Ckt) : List Nat :=
  if q.op = 4 then es.map (·.inp) ++ es.filterMap (·.peer)
  else q.inp :: (if q.prot && (q.op == 0 || q.op == 2 || q.op == 3 || q.op == 5) then [q.protin] else [])

/-- The output ports a cue names. -/
def Cue.namedOut (q : Cue) (es : List Ckt) : List Nat :=
  if q.op = 4 then es.map (·.out) else if q.op == 0 || q.op == 2 || q.op == 3 then [q.out] else []

/-- The entries of the pattern a cue recalls; none for another operation. -/
def State.cuePattern (s : State) (q : Cue) : List Ckt := if q.op = 4 then s.patEntries (q.inp % 256) q.part else []

/-- The owner partition of IN `k`. -/
def State.inOwner (s : State) (k : Nat) : Nat := s.rdf (Reg.CIR_PORTOWN k) 0 6

/-- The owner partition of OUT `k`. -/
def State.outOwner (s : State) (k : Nat) : Nat := s.rdf (Reg.CIR_PORTOWN k) 8 6

/-- Whether pattern `n` lies in partition `p`'s pattern range (R75). -/
def State.patInRange (s : State) (p n : Nat) : Bool :=
  let b := s.rdf (Reg.CIR_PARTPAT p) 0 8
  decide (b ≤ n) && decide (n < b + s.rdf (Reg.CIR_PARTPAT p) 8 9)

/-- Whether cues `q` to `q + n - 1` lie in partition `p`'s cue range (R75). -/
def State.cuesInRange (s : State) (p q n : Nat) : Bool :=
  let b := 256 * s.rdf (Reg.CIR_PARTCUE p) 0 8
  decide (b ≤ q) && decide (q + n ≤ b + 256 * s.rdf (Reg.CIR_PARTCUE p) 8 9)

/-- Check 1 of Table 3-8 for one cue of a batch of partition `p` (R61, R73). -/
def State.check1 (s : State) (p : Nat) (q : Cue) : Bool :=
  let es := s.cuePattern q
  q.part == p && s.bit (Reg.CIR_PARTCTL p) 0 &&
    (q.namedIn es).all (fun k => s.inOwner k == p) && (q.namedOut es).all (fun k => s.outOwner k == p) &&
    (q.op != 4 || s.patInRange p (q.inp % 256))

/-- Whether an input is the working or the protect input of some circuit of `cs`. -/
def inUsed (cs : List Ckt) (k : Nat) : Bool := cs.any fun c => c.inp == k || c.peer == some k

/-- Whether an output terminates some circuit of `cs`. -/
def outUsed (cs : List Ckt) (j : Nat) : Bool := cs.any (·.out == j)

/-- Whether the protect input a cue names is free for the circuit `own`, and not the cue's own input (R423). -/
def Cue.peerFree (q : Cue) (cs : List Ckt) (own : Option Ckt) : Bool :=
  !q.prot || (q.protin != q.inp && (!inUsed cs q.protin || own.any fun c => c.peer == some q.protin))

/-- R78: the entries name no input twice, no protect input twice, and no protect input that is an input. -/
def patternSound : List Ckt → Bool
  | [] => true
  | e :: es =>
    es.all (fun x => x.inp != e.inp && e.peer != some x.inp && x.peer != some e.inp && (e.peer.isNone || x.peer != e.peer)) &&
      e.peer != some e.inp && patternSound es

/-- Check 2 of Table 3-8 for one cue over the circuits that the cues before it leave (Table 3-7 code 4, R423). `poisoned` says the
recalled pattern is poisoned (Table 18-2). -/
def Cue.check2 (q : Cue) (es : List Ckt) (poisoned : Bool) (cs : List Ckt) : Bool :=
  match q.op with
  | 0 => !inUsed cs q.inp && !outUsed cs q.out && q.peerFree cs none
  | 1 => true
  | 2 => match cs.find? (·.inp == q.inp) with
    | some c => (!outUsed cs q.out || c.out == q.out) && q.peerFree cs (some c)
    | none => !inUsed cs q.inp && !outUsed cs q.out && q.peerFree cs none
  | 3 => match cs.find? (·.out == q.out) with
    | some c => (!inUsed cs q.inp || c.inp == q.inp) && q.peerFree cs (some c)
    | none => !inUsed cs q.inp && q.peerFree cs none
  | 4 => !poisoned && patternSound es &&
      let others := cs.filter fun c => c.owner != q.part
      es.all fun e => !inUsed others e.inp && !outUsed others e.out && !e.peer.any (inUsed others)
  | 5 => match cs.find? (·.inp == q.inp) with
    | some c => q.peerFree cs (some c)
    | none => false
  | 6 => match cs.find? (·.inp == q.inp) with
    | some c => !q.toprot || c.peer.isSome
    | none => false
  | _ => true

/-- Whether cue `q`'s entry is poisoned by an uncorrectable error: until all its 32 bytes are rewritten (Table 18-2). -/
def State.cuePoisoned (s : State) (q : Nat) : Bool :=
  s.poisoned.any fun a => decide (Reg.CUE_W0 q ≤ a) && decide (a < Reg.CUE_W0 (q + 1))

/-- Whether pattern `n` is poisoned by an uncorrectable error (Table 18-2). -/
def State.poisonedPattern (s : State) (n : Nat) : Bool :=
  s.poisoned.any fun a => decide (Reg.PAT n 0 ≤ a) && decide (a < Reg.PAT (n + 1) 0)

/-- The first cue of `qs` that fails `ok`, taken over the circuits each leaves to the next. -/
def State.firstBusy (s : State) : List Nat → List Ckt → Option Nat
  | [], _ => none
  | i :: is, cs =>
    let q := s.cue i
    let es := s.cuePattern q
    if q.check2 es (s.poisonedPattern (q.inp % 256)) cs then s.firstBusy is (q.apply es cs) else some i

/-- The circuits after the cues `qs`. -/
def State.afterCues (s : State) (qs : List Nat) (cs : List Ckt) : List Ckt :=
  qs.foldl (fun cs i => let q := s.cue i; q.apply (s.cuePattern q) cs) cs

/-- The circuits as every admitted batch that `keep` selects would leave them (R61, R66). -/
def State.cktsAfter (s : State) (keep : Batch → Bool) : List Ckt :=
  (s.batches.filter keep).foldl (fun cs b => s.afterCues b.cues cs) s.ckts

/-! ## Final states (R64, R67, R249) -/

/-- W3 of a cue. -/
def cueW3 (state status : Nat) (cause applied : Bool) : Word :=
  pack [(8, 4, status), (4, 1, applied.toNat), (3, 1, cause.toNat), (0, 3, state)]

/-- The COMPLETE entry of cue `q`, without its PHASE (Table 10-6). -/
def State.cueEntry (s : State) (q htag : Nat) (tc : Option Nat) : List Word :=
  [pack [(0, 16, q)], pack [(16, 16, s.rdf (Reg.CUE_W5 q) 16 16), (0, 16, s.rdf (Reg.CUE_W3 q) 0 16)], s.rd (Reg.CUE_W6 q),
   s.rd (Reg.CUE_W7 q), wd (nsecOf (tc.getD 0)), wd (secOf (tc.getD 0)), pack [(16, 16, htag)], 0#32]

/-- The host tag of an origin. -/
def Origin.htag : Origin → Nat
  | .ring _ _ h => h
  | .session _ h => h
  | .dropped => 0

/-- The origin of cue `q`. -/
def State.originOf (s : State) (q : Nat) : Origin := Store.get Origin.dropped s.origins q

/-- The COMPLETE entry of cue `q` posted when its NOTIFY is set or it ends its batch (R249). -/
def State.completeCue (s : State) (q : Nat) (ends : Bool) (tc : Option Nat) : State :=
  if (s.cue q).notify || ends then s.postComplete (s.originOf q) (s.cueEntry q (s.originOf q).htag tc) else s

/-- The COMPLETE entries of a batch's cues, in batch order. -/
def State.completeBatch (s : State) (qs : List Nat) (tc : Option Nat) : State :=
  s.each qs fun s q => s.completeCue q (qs.getLast? == some q) tc

/-- STATE of every cue of a batch, the other bits of W3 kept: a STATUS of DEFERRED stands until the final state replaces it (DESIGN CHOICE,
log entry 102). -/
def State.setCueStates (s : State) (qs : List Nat) (st : Nat) : State :=
  s.each qs fun s q => s.wrf (Reg.CUE_W3 q) 0 3 st

/-- The batch with identifier `id`. -/
def State.batch (s : State) (id : Nat) : Option Batch := s.batches.find? (·.id == id)

/-- The state with batch `b` in place of the one with its identifier. -/
def State.setBatch (s : State) (b : Batch) : State :=
  { s with batches := s.batches.map fun x => if x.id = b.id then b else x }

/-- The state without a batch. -/
def State.dropBatch (s : State) (id : Nat) : State := { s with batches := s.batches.filter fun x => x.id != id }

/-- A batch's cues given a final state without a commit: FAILED or ABORTED with a status, CAUSE on one of them, no generation
number and DISTCNT 0; the COMPLETE entries posted (R67, R129, R249). -/
def State.finishCues (s : State) (qs : List Nat) (st status : Nat) (cause : Option Nat) : State :=
  (s.each qs fun s q =>
    (((s.wr (Reg.CUE_W3 q) (cueW3 st status (cause == some q) false)).wr (Reg.CUE_W6 q) 0#32).wrf (Reg.CUE_W7 q) 0 10 0)).completeBatch
      qs none

end Sys2Proof.Machine
end

