-- ==== Sys2Proof/Machine/Toll.lean ====
section
/-! DEFINITION. The Tollkeeper (chapter 11): admission with checks 1 and 2 and the policer (R261, R269), costs, tags and
eligibility (R262 to R265), and its status registers. -/

namespace Sys2Proof.Machine

/-- Partition `p` at the Tollkeeper. -/
def State.tollPart (s : State) (p : Nat) : TollPart := Store.get TollPart.reset s.toll p

/-- The state with partition `p` at the Tollkeeper changed, its level registers kept in step (R267, Table 11-6). -/
def State.setToll (s : State) (p : Nat) (x : TollPart) : State :=
  (({ s with toll := Store.set TollPart.reset s.toll p x }).wr (Reg.TOL_SHLEVEL p)
      (wd (code 32 (x.shaper.tdiv 1000)))).wr (Reg.TOL_POLEVEL p) (wd (x.policer / 1000))

/-- SHEN of partition `p`. -/
def State.shapes (s : State) (p : Nat) : Bool := s.bit (Reg.TOL_PCTL p) 31

/-- A head batch of partition `p` is eligible: the shaper is disabled or its level is at least 0 (R263). -/
def State.shaperOpen (s : State) (p : Nat) : Bool := !s.shapes p || decide (0 ≤ (s.tollPart p).shaper)

/-- The batches queued for partition `p`, head first. -/
def State.queueOf (s : State) (p : Nat) : List Batch := s.batches.filter fun b => b.phase == .queued && b.part == p

/-- ⌈c × 65,536 / w⌉ (R263). -/
def virtualCost (c w : Nat) : Nat := (c * 65536 + (w - 1)) / w

/-- The later of two 48-bit tags by signed difference. -/
def tagMax (x y : Nat) : Nat := if sdiff 48 x y < 0 then y else x

/-- How a batch became its partition's head (the rows of Table 11-1). -/
inductive HeadCause where
  | newlyActive | successor | waited
deriving DecidableEq, Repr

/-- The start tag of Table 11-1. -/
def State.startTag (s : State) (p : Nat) (cause : HeadCause) : Nat :=
  let f := (s.tollPart p).fLast
  match cause with
  | .newlyActive =>
    tagMax f ((s.vtime + 2 ^ 48 - virtualCost (s.rdf (Reg.TOL_WEIGHT p) 16 16) (s.rdf (Reg.TOL_WEIGHT p) 0 8) % 2 ^ 48) % 2 ^ 48)
  | .successor => f
  | .waited => tagMax f s.vtime

/-- The head of partition `p` given its tags, once it is eligible and has none (R263). -/
def State.tagHead (s : State) (p : Nat) (cause : HeadCause) : State :=
  let x := s.tollPart p
  match s.queueOf p with
  | [] => if x.head.isSome then s.setToll p { x with head := none } else s
  | b :: _ =>
    if x.head.any fun h => h.batch == b.id then s
    else if s.shaperOpen p then
      s.setToll p { x with head := some ⟨b.id, (s.startTag p cause + virtualCost b.cost (s.rdf (Reg.TOL_WEIGHT p) 0 8)) % 2 ^ 48,
        cause == .waited⟩ }
    else s.setToll p { x with head := none }

/-- Held solutions: batches solved and not yet at their commit instant (R106). -/
def State.heldBatches (s : State) : List Batch := s.batches.filter fun b =>
  b.sol.isSome && match b.phase with
    | .committing _ => false
    | _ => true

/-- The module's power state (PWR_STAT.STATE). -/
def State.pstate (s : State) : Nat := s.rdf Reg.PWR_STAT 0 3

/-- TOL_STAT.RELBLK (Table 11-5): releases are blocked by the limit of 256 held solutions, or by P2, whose entry stops them from its step 2
on (R264, Table 15-4). -/
def State.relBlk (s : State) : Bool :=
  decide (256 ≤ s.heldBatches.length) || s.pstate == 2 || s.change.any fun c => c.req.target == 2 && decide (2 ≤ c.step)

/-- Releases are blocked: by those, by a fatal state (R395), or by an entry to P3 from its step 2 on (Table 15-4). -/
def State.releaseBlocked (s : State) : Bool :=
  s.relBlk || s.fatalOn || s.change.any fun c => c.req.target == 3 && decide (2 ≤ c.step)

/-- TOL_STAT and the TOL_QSTAT of partition `p` brought up to date. -/
def State.tollStat (s : State) (p : Nat) : State :=
  let q := s.batches.filter fun b => b.phase == .queued
  let act := ((List.range 64).filter fun p => q.any fun b => b.part == p).length
  let n := (s.queueOf p).length
  (s.wr Reg.TOL_STAT (pack [(31, 1, s.relBlk.toNat), (16, 7, act), (0, 16, satN 16 q.length)])).wr (Reg.TOL_QSTAT p)
    (pack [(16, 16, satN 16 n), (0, 1, (decide (n ≠ 0)).toNat)])

/-- The cost of one cue (R262). -/
def State.cueCost (s : State) (q : Nat) : Nat :=
  let c := s.cue q
  match c.op with
  | 0 | 2 | 3 | 6 => 5
  | 4 => 1 + 4 * (s.cuePattern c).length
  | _ => 1

/-- The cost of a batch. -/
def State.batchCost (s : State) (qs : List Nat) : Nat := (qs.map s.cueCost).sum

/-- How the policer answers a batch of cost `c`: admitted, counted, or aborted (R269). -/
inductive Policing where
  | pass | deduct | counted | aborted
deriving DecidableEq, Repr

/-- The policer test of R269. -/
def State.police (s : State) (p c : Nat) : Policing :=
  if !s.bit (Reg.TOL_PCTL p) 30 then .pass
  else if 1000 * c ≤ (s.tollPart p).policer ∧ c ≤ s.rdf (Reg.TOL_POLICE p) 16 16 then .deduct
  else if s.bit (Reg.TOL_PCTL p) 29 then .aborted else .counted

/-- A batch joining the tail of its partition's queue (R261). -/
def State.enqueue (s : State) (qs : List Nat) (p : Nat) (o : Origin) : State :=
  let q0 := s.cue (qs.headD 0)
  let wasEmpty := (s.queueOf p).isEmpty
  let s1 := { s with
    nextBatch := s.nextBatch + 1
    batches := s.batches ++
      [Batch.mk s.nextBatch qs p o q0.rule q0.policy (s.batchCost qs) .queued none false false none false false none false] }
  (if wasEmpty then s1.tagHead p .newlyActive else s1).tollStat p

/-- BATCH_ADMISSION (R261): checks 1 and 2, the policer, then the queue. -/
def State.admitBatch (s : State) (qs : List Nat) (o : Origin) : State :=
  let p := (s.cue (qs.headD 0)).part
  match qs.find? fun i => !s.check1 p (s.cue i) with
  | some i => s.finishCues qs 7 5 (some i)
  | none =>
    match s.firstBusy qs (s.cktsAfter fun _ => true) with
    | some i => s.finishCues qs 7 4 (some i)
    | none =>
      let c := s.batchCost qs
      let x := s.tollPart p
      match s.police p c with
      | .pass => s.enqueue qs p o
      | .deduct => (s.setToll p { x with policer := x.policer - 1000 * c }).enqueue qs p o
      | .counted => (s.count (Reg.TOL_PCNT p) 16 16 1).enqueue qs p o
      | .aborted => ((s.count (Reg.TOL_PCNT p) 16 16 1).err Reg.TOL_ERRSTAT 0).finishCues qs 6 0 none

/-- The run's cues split into batches (R61): LINK ends a batch where it is 0, on the 1,024th cue and at the run's end. -/
def State.splitBatches (s : State) : List Nat → List Nat → List (List Nat)
  | acc, [] => if acc.isEmpty then [] else [acc.reverse]
  | acc, q :: qs =>
    if (s.cue q).link && decide (acc.length < 1023) then s.splitBatches (q :: acc) qs
    else (q :: acc).reverse :: s.splitBatches [] qs

/-- CUE_SUBMISSION (R60, R62): the run's cues cleared and PENDING, their partition decided, and each batch admitted. -/
def State.submitRun (s : State) (q n : Nat) (part : Option Nat) (o : Origin) : State :=
  let qs := List.range' q n
  let s1 := s.each qs fun s i =>
    let s := ({ s with origins := Store.set Origin.dropped s.origins i o })
    let s := match part with
      | some p => s.wrf (Reg.CUE_W0 i) 16 6 p
      | none => s
    ((s.wr (Reg.CUE_W3 i) 1#32).wr (Reg.CUE_W6 i) 0#32).wr (Reg.CUE_W7 i) 0#32
  s1.each (s1.splitBatches [] qs) fun s b => s.admitBatch b o

/-- How many completion entries a run needs beyond its result entry (R247): each cue with NOTIFY = 1 or that ends a batch. -/
def State.runEntries (s : State) (q n : Nat) : Nat :=
  ((s.splitBatches [] (List.range' q n)).map fun b =>
    (b.filter fun i => (s.cue i).notify || b.getLast? == some i).length).sum

/-- A release (R264) of the eligible head with the smallest finish tag; ties go to the lower partition. -/
def State.bestHead (s : State) : Option (Nat × HeadTag) :=
  (List.range 64).foldl (fun best p =>
    match (s.tollPart p).head with
    | none => best
    | some h =>
      if s.shaperOpen p then
        match best with
        | none => some (p, h)
        | some (_, g) => if sdiff 48 h.finish g.finish < 0 then some (p, h) else best
      else best) none

/-- A batch taken out of its partition's queue, the next one becoming head (R270). -/
def State.dequeue (s : State) (b : Batch) : State := ((s.dropBatch b.id).tagHead b.part .successor).tollStat b.part

/-! ## Commands -/

/-- BATCH_RELEASE (R264). -/
def State.batchRelease (s : State) : State :=
  if s.releaseBlocked || s.batches.any (·.phase == .solving) then s
  else match s.bestHead with
    | none => s
    | some (p, h) =>
      match s.batch h.batch with
      | none => s
      | some b =>
        let x := s.tollPart p
        let level := if s.shapes p then x.shaper - 1000 * b.cost else x.shaper
        let s1 := s.setToll p { x with fLast := h.finish, head := none, shaper := level }
        let s2 := { s1 with vtime := tagMax s1.vtime h.finish, solveStart := some ⟨b.id, s1.words, s1.cells, s1.commits, s1.batches, s1.alts, [], [], [], [], false⟩ }
        let s3 := (s2.setBatch { b with phase := .solving }).when h.waited (·.count (Reg.TOL_PCNT p) 0 16 1)
        ((s3.wrBit Reg.WHL_STAT 0 true).tagHead p .successor).tollStat p

/-- SHAPER_FILL (R267): SHRATE / 1,000 WU per microsecond, capped at SHBURST; a head in debt may become eligible. -/
def State.shaperFill (s : State) : State :=
  s.each (List.range 64) fun s p =>
    if s.shapes p then
      let x := s.tollPart p
      let cap : Int := 1000 * s.rdf (Reg.TOL_SHAPE p) 16 16
      let up : Int := x.shaper + s.rdf (Reg.TOL_SHAPE p) 0 16
      (s.setToll p { x with shaper := min cap up }).tagHead p .waited
    else s

/-- POLICER_FILL (R269): PORATE / 1,000 WU per microsecond, up to POBURST. -/
def State.policerFill (s : State) : State :=
  s.each (List.range 64) fun s p =>
    let x := s.tollPart p
    s.setToll p { x with policer := min (1000 * s.rdf (Reg.TOL_POLICE p) 16 16) (x.policer + s.rdf (Reg.TOL_POLICE p) 0 16) }

end Sys2Proof.Machine
end

