-- ==== Sys2Proof/Machine/Solver.lean ====
section
/-! DEFINITION. The Wheelwright (chapter 4): the projected fabric (R89), disturbance (R91 to R96), the route search of R100, the
choice of a solution, dependencies (R106), and what happens to held batches when the fabric changes (R107, R108). -/

namespace Sys2Proof.Machine

/-! ## Order of the held solutions -/

/-- `x` placed in a list ordered by `key`. -/
def insertBy {α : Type} (key : α → Nat) (x : α) : List α → List α
  | [] => [x]
  | y :: ys => if key x < key y then x :: y :: ys else y :: insertBy key x ys

/-- A list in order of `key`, equal keys in list order. -/
def sortBy {α : Type} (key : α → Nat) (xs : List α) : List α := xs.foldl (fun acc x => insertBy key x acc) []

/-- Where a batch stands in commit order: by instant, then by solve order; unplaced batches after all placed ones (R89). -/
def Batch.rank (b : Batch) : Nat :=
  let o := (b.sol.map (·.order)).getD 0
  match b.phase with
  | .placed tc => tc * 2 ^ 64 + o
  | .committing tc => tc * 2 ^ 64 + o
  | _ => 2 ^ 200 + o

/-- A change of the fabric that is to come: a held or committing batch, or a protection commit. -/
inductive Coming where
  | batch (b : Batch)
  | protection (c : Commit)
deriving DecidableEq, Repr

/-- Its place in commit order. -/
def Coming.rank : Coming → Nat
  | .batch b => b.rank
  | .protection c => c.tc * 2 ^ 64

/-- Whether a batch has a route: held, or past its commit instant and not yet closed. -/
def Batch.hasRoute (b : Batch) : Bool :=
  match b.phase with
  | .placed _ => true
  | .committing _ => true
  | .solved => b.sol.isSome
  | _ => false

/-- The changes to come, other than batch `skip`, in the order in which they commit. -/
def State.coming (s : State) (skip : Nat) : List Coming :=
  sortBy Coming.rank
    (((s.batches.filter fun b => b.id != skip && b.hasRoute).map Coming.batch) ++
      (s.commits.filter fun c => c.kind == .protection).map Coming.protection)

/-- A cell of the applied fabric, CIR_CELLST, under a list of changes, the last one winning (R89). -/
def State.projCell (s : State) (ds : List CellChange) (c : Nat) : CellChange :=
  ds.foldl (fun acc d => if d.cell = c then d else acc) ⟨c, s.bit (Reg.CIR_CELLST c) 0, s.bit (Reg.CIR_CELLST c) 4, false⟩

/-- A cell as its tile holds it, under a list of changes. -/
def State.nowCell (s : State) (ds : List CellChange) (c : Nat) : CellChange :=
  ds.foldl (fun acc d => if d.cell = c then d else acc) ⟨c, (s.cell c).cross, (s.cell c).band, false⟩

/-- The cells a path changes, given what each cell stands at. -/
def pathDelta (at_ : Nat → CellChange) (band : Bool) (p : PathRec) : List CellChange :=
  p.cells.filterMap fun k =>
    let c := at_ k.1
    if c.cross = k.2 ∧ c.band = band then none else some ⟨k.1, k.2, band, k.2 != c.cross⟩

/-- The alternates in force at instant `tc` (R82, R133). -/
def State.altBefore (s : State) (tc k : Nat) : Option AltRec :=
  let held := (s.batches.filter fun b => b.phase != .queued && (match b.phase with
    | .placed t => decide (t < tc)
    | .committing _ => true
    | _ => false)).flatMap fun b => (b.sol.map (·.alts)).getD []
  ((s.alts ++ held).reverse).find? (·.wkg == k)

/-- The circuits after a change. -/
def State.comingCkts (s : State) (cs : List Ckt) : Coming → List Ckt
  | .batch b => s.afterCues b.cues cs
  | .protection c => cs.map fun k => if c.switches.contains k.inp then { k with activep := !k.activep } else k

/-- The cells a change will set, over the changes `ds` and circuits `cs` that come before it. A protection commit not yet at its arm point
sets what its alternates ask for (R85). -/
def State.comingDelta (s : State) (ds : List CellChange) (cs : List Ckt) : Coming → List CellChange
  | .batch b => (b.sol.map (·.delta)).getD []
  | .protection c =>
    if c.phase == .placed then
      c.switches.flatMap fun k => match cs.find? (·.inp == k), (s.altBefore c.tc k).bind (·.path) with
        | some x, some p => pathDelta (s.projCell ds) x.band p
        | _, _ => []
    else c.delta

/-- The projected fabric seen by batch `id`: the changes to come and the circuits they leave (R89). -/
def State.proj (s : State) (id : Nat) : List CellChange × List Ckt :=
  (s.coming id).foldl (fun acc k => (acc.1 ++ s.comingDelta acc.1 acc.2 k, s.comingCkts acc.2 k)) ([], s.ckts)

/-- The projected changes seen by batch `id`. -/
def State.projDelta (s : State) (id : Nat) : List CellChange := (s.proj id).1

/-- The circuits in the projected fabric seen by batch `id`. -/
def State.projCkts (s : State) (id : Nat) : List Ckt := (s.proj id).2

/-! ## Targets, policy and needed paths -/

/-- The target circuits of a batch, by working input (R91). -/
def State.targetsOf (s : State) : List Nat → List Ckt → List Nat
  | [], _ => []
  | i :: is, cs =>
    let q := s.cue i
    let es := s.cuePattern q
    q.targets es cs ++ s.targetsOf is (q.apply es cs)

/-- The policy a batch is solved under: its own, or its partition's ceiling (R95). -/
def State.policyOf (s : State) (b : Batch) : Nat := min b.policy (s.rdf (Reg.WHL_PARTCFG b.part) 0 2)

/-- Bit `q` of WHL_WINSHARE[n]. -/
def State.winShare (s : State) (n q : Nat) : Bool :=
  if q < 32 then s.bit (Reg.WHL_WINSHLO n) q else s.bit (Reg.WHL_WINSHHI n) (q - 32)

/-- Whether a batch may disturb a circuit of partition `q` (Table 4-1). -/
def State.mayDisturb (s : State) (b : Batch) (q : Nat) : Bool :=
  match s.policyOf b with
  | 0 => false
  | 1 => q == b.part || (b.rule == 2 && s.winShare (s.rdf (Reg.CIR_PARTCTL b.part) 1 3) q)
  | _ => true

/-- The circuits of `cs1` whose path is new or moved against `cs0` (R99). -/
def neededPaths (cs0 cs1 : List Ckt) : List Ckt :=
  cs1.filter fun c => !cs0.any fun d => d.feed == c.feed && d.out == c.out && d.band == c.band

/-- The circuits RECALL cues of a batch leave unchanged, which are never disturbed (R94). -/
def State.recallKept (s : State) : List Nat → List Ckt → List Nat
  | [], _ => []
  | i :: is, cs =>
    let q := s.cue i
    let es := s.cuePattern q
    (if q.op = 4 then (cs.filter fun c => c.owner == q.part && es.any c.sameAs).map (·.inp) else []) ++
      s.recallKept is (q.apply es cs)

/-- R97: the circuits, reserved protect inputs included, that use the two inputs or the two outputs of a port pair have one band. -/
def pairsPure (cs : List Ckt) : Bool :=
  cs.all fun c => cs.all fun d =>
    let shareIn := (c.inp :: c.peer.toList).any fun x => (d.inp :: d.peer.toList).any fun y => x / 2 == y / 2
    !(shareIn || c.out / 2 == d.out / 2) || c.band == d.band

/-! ## Trying an assignment of cell states -/

/-- What a solve works from. -/
structure SolveCtx where
  batch : Batch
  /-- The projected changes and circuits. -/
  delta0 : List CellChange
  cs0 : List Ckt
  /-- The circuits after the batch. -/
  cs1 : List Ckt
  targets : List Nat
  kept : List Nat
  /-- The circuits that a REPROTECT names: no lit cell of theirs changes but for a return of the feed (Table 3-5). -/
  reprot : List Nat

/-- The context in which batch `b` is solved. -/
def State.solveCtx (s : State) (b : Batch) : SolveCtx :=
  let cs0 := s.projCkts b.id
  ⟨b, s.projDelta b.id, cs0, s.afterCues b.cues cs0, s.targetsOf b.cues cs0, s.recallKept b.cues cs0,
    (b.cues.map s.cue).filterMap fun q => if q.op = 5 then some q.inp else none⟩

/-- The projected state of a cell. -/
def State.ctxCross (s : State) (x : SolveCtx) : Nat → Bool := fun c => (s.projCell x.delta0 c).cross

/-- A cell's state under an assignment laid over `st`. -/
def assigned (asg : List (Nat × Bool)) (st : Nat → Bool) (c : Nat) : Bool :=
  match asg.find? (·.1 == c) with
  | some p => p.2
  | none => st c

/-- No cell is given both states. -/
def consistent (asg : List (Nat × Bool)) : Bool := asg.all fun p => asg.all fun q => p.1 != q.1 || p.2 == q.2

/-- The cells of the circuits' paths under `st`, with the band each wants. -/
def litCells (st : Nat → Bool) (cs : List Ckt) : List (Nat × Bool) :=
  cs.flatMap fun c => (pathCells st c.feed).map fun k => (k, c.band)

/-- The circuits an assignment disturbs (R91): those that exist before and after, are no target, and have a changed cell on
their path before or after. -/
def disturbedBy (st st1 : Nat → Bool) (cs0 cs1 : List Ckt) (targets : List Nat) : List Ckt :=
  cs1.filter fun c => !targets.contains c.inp && (cs0.any fun d => d.inp == c.inp && d.out == c.out) &&
    ((pathCells st c.feed).any (fun k => st k != st1 k) || (pathCells st1 c.feed).any fun k => st k != st1 k)

/-- The circuits whose cells an assignment may change: those on a new or moved path, and those with a changed cell on their path. -/
def rerouted (st st1 : Nat → Bool) (x : SolveCtx) : List Ckt :=
  let moved := neededPaths x.cs0 x.cs1
  moved ++ (disturbedBy st st1 x.cs0 x.cs1 []).filter fun c => !moved.contains c

/-- The cells an assignment changes, in state or, on a path it changes, in band. -/
def State.deltaOf (s : State) (x : SolveCtx) (asg : List (Nat × Bool)) : List CellChange :=
  let st := s.ctxCross x
  let st1 := assigned asg st
  let lit := litCells st1 (rerouted st st1 x)
  ((asg.map (·.1)) ++ lit.map (·.1)).eraseDups.filterMap fun c =>
    let p := s.projCell x.delta0 c
    let b := ((lit.find? (·.1 == c)).map (·.2)).getD p.band
    if st1 c = p.cross ∧ b = p.band then none else some ⟨c, st1 c, b, st1 c != p.cross⟩

/-- No pinned cell changes, and none lies where a path newly runs (R99). -/
def State.sparesPinned (s : State) (x : SolveCtx) (asg : List (Nat × Bool)) : Bool :=
  let st := s.ctxCross x
  let st1 := assigned asg st
  asg.all (fun p => p.2 == st p.1 || !s.pinned p.1) && (s.deltaOf x asg).all (fun d => !s.pinned d.cell) &&
    (neededPaths x.cs0 x.cs1).all (fun c => (pathCells st1 c.feed).all fun k => !s.pinned k) &&
    (disturbedBy st st1 x.cs0 x.cs1 []).all fun c =>
      (pathCells st1 c.feed).all fun k => !s.pinned k || (pathCells st c.feed).contains k

/-- Whether an assignment is a solution within the batch's policy (R91 to R99); `quiet` asks that it disturb nothing. -/
def State.accepts (s : State) (x : SolveCtx) (quiet : Bool) (asg : List (Nat × Bool)) : Bool :=
  let st := s.ctxCross x
  let st1 := assigned asg st
  let dist := disturbedBy st st1 x.cs0 x.cs1 x.targets
  consistent asg &&
    x.cs1.all (fun c => trace st1 c.feed == c.out) &&
    s.sparesPinned x asg &&
    consistent (litCells st1 x.cs1) &&
    (disturbedBy st st1 x.cs0 (x.cs1.filter fun c => x.reprot.contains c.inp && !(neededPaths x.cs0 x.cs1).contains c) []).isEmpty &&
    (if quiet then dist.isEmpty
     else dist.all fun c => s.mayDisturb x.batch c.owner && !x.kept.contains c.inp)

/-! ## The search of R100 -/

/-- The cells fixed by the circuits `cs` under `st`, with their bands. -/
def fixedCells (st : Nat → Bool) (cs : List Ckt) : List (Nat × Bool) := litCells st cs

/-- One stage of the search: positions reached, each with the cell states that lead there (last stage first). -/
def State.searchStage (s : State) (fixed : List (Nat × Bool)) (st : Nat → Bool) (band : Bool) (g : Nat)
    (front : List (Nat × List Bool)) : List (Nat × List Bool) :=
  front.foldl (fun acc p =>
    let c := cellAt g (p.1 / 2)
    let add := fun (acc : List (Nat × List Bool)) (b : Bool) =>
      let y := onward g (throughCell b p.1)
      if acc.any (·.1 == y) then acc else acc ++ [(y, b :: p.2)]
    if s.pinned c || fixed.any (fun f => f.1 == c && f.2 != band) then acc
    else if fixed.any (·.1 == c) then add acc (st c)
    else add (add acc (st c)) (!st c)) []

/-- A route from IN `k` to OUT `j` in band `band` past the fixed and blocked cells (route_exists of R100, with its route). -/
def State.findRoute (s : State) (fixed : List (Nat × Bool)) (st : Nat → Bool) (band : Bool) (k j : Nat) : Option (List Bool) :=
  ((((List.range 19).foldl (fun front g => s.searchStage fixed st band g front) [(k, [])]).find? (·.1 == j)).map
    fun p => p.2.reverse)

/-- The circuits `cs` placed one after another past `fixed`, or the first that has no route. -/
def State.placeAll (s : State) (st : Nat → Bool) : List (Nat × Bool) → List (Nat × Bool) → List Ckt → Except Ckt (List (Nat × Bool))
  | _, asg, [] => .ok asg
  | fixed, asg, c :: cs =>
    match s.findRoute fixed (assigned asg st) c.band c.feed c.out with
    | none => .error c
    | some r =>
      let cells := (PathRec.mk c.inp c.feed r).cells
      s.placeAll st (fixed ++ cells.map fun p => (p.1, c.band)) (asg ++ cells) cs

/-- The `k`-th order of a list: the first is its own, and the orders of fewer than n! are all different. -/
def nthOrder {α : Type} : Nat → Nat → List α → List α
  | 0, _, xs => xs
  | n + 1, k, xs =>
    let i := k % xs.length
    match xs[i]? with
    | none => []
    | some x => x :: nthOrder n (k / xs.length) (xs.eraseIdx i)

/-- The EFFORT + 1 placement orders tried on `f`: the first success, or what the first order could not place (R101). -/
def tryOrders {α : Type} (effort : Nat) (need : List Ckt) (f : List Ckt → Except Ckt α) : Except Ckt α :=
  (List.range' 1 effort).foldl (fun best k =>
    match best with
    | .ok a => .ok a
    | .error c => match f (nthOrder need.length k need) with
      | .ok a => .ok a
      | .error _ => .error c) (f need)

/-- The Wheelwright's own search for a route that disturbs nothing (R96, R100, R101): every circuit whose path is not new or moved keeps
its cells; failing that, target circuits that keep their ports may be routed anew, but not those of a REPROTECT. -/
def State.quietSearch (s : State) (x : SolveCtx) : Except Ckt (List (Nat × Bool)) :=
  let st := s.ctxCross x
  let need := neededPaths x.cs0 x.cs1
  let loose := x.cs1.filter fun c => !need.contains c && x.targets.contains c.inp && !x.reprot.contains c.inp
  let fixed := fixedCells st (x.cs1.filter fun c => !need.contains c)
  let fixed' := fixedCells st (x.cs1.filter fun c => !need.contains c && !loose.contains c)
  let e := s.rdf Reg.WHL_CTRL 0 4
  match tryOrders e need (s.placeAll st fixed []) with
  | .ok a => .ok a
  | .error c => if loose.isEmpty then .error c else
    match tryOrders e need fun o => s.placeAll st fixed' [] (o ++ loose) with
    | .ok a => .ok a
    | .error _ => .error c

/-- Its search with disturbance (R94, R96, R101): the new and moved paths first, past the circuits it may not disturb; then each circuit
they meet is routed anew. -/
def State.looseSearch (s : State) (x : SolveCtx) : Except Ckt (List (Nat × Bool)) :=
  let st := s.ctxCross x
  let need := neededPaths x.cs0 x.cs1
  let rest := x.cs1.filter fun c => !need.contains c
  let soft := rest.filter fun c => s.mayDisturb x.batch c.owner && !x.kept.contains c.inp && !x.reprot.contains c.inp
  let hard := fixedCells st (rest.filter fun c => !soft.contains c)
  tryOrders (s.rdf Reg.WHL_CTRL 0 4) need fun o =>
    match s.placeAll st hard [] o with
    | .error c => .error c
    | .ok a =>
      let st1 := assigned a st
      let lit := litCells st1 need
      let hit := fun (c : Ckt) => (pathCells st c.feed).any fun k => st1 k != st k || lit.any fun f => f.1 == k && f.2 != c.band
      match s.placeAll st (hard ++ lit ++ fixedCells st (soft.filter fun c => !hit c)) a (soft.filter hit) with
      | .ok b => .ok b
      | .error _ => .error (o.headD ⟨0, 0, false, 0, none, false, false, false⟩)

/-! ## A full permutation (the guaranteed success of R101 under FREE) -/

/-- One loop of the looping algorithm: from input `x` in half 0, alternate over output pairs and input pairs. -/
def loopFrom (perm : List Nat) : Nat → Nat → List (Nat × Bool) → List (Nat × Bool)
  | 0, _, col => col
  | n + 1, x, col =>
    if col.any (·.1 == x) then col
    else
      let y := perm.getD x 0 ^^^ 1
      let x1 := (perm.findIdx? (· == y)).getD 0
      loopFrom perm n (x1 ^^^ 1) ((x, false) :: (x1, true) :: col)

/-- Which half network each input of a permutation uses. -/
def loopColours (perm : List Nat) : List (Nat × Bool) :=
  (List.range perm.length).foldl (fun col x => loopFrom perm perm.length x col) []

/-- The half an input uses. -/
def colourOf (col : List (Nat × Bool)) (x : Nat) : Bool := ((col.find? (·.1 == x)).map (·.2)).getD false

/-- Cell states that realise a permutation of 2^n positions in the Beneš network between stages `g` and `18 - g`, whose first
position is `base`; the added stages 8 and 9 stay BAR. -/
def benes : Nat → Nat → Nat → List Nat → List (Nat × Bool)
  | 0, _, _, _ => []
  | 1, _, base, perm => [(cellAt 8 (base / 2), false), (cellAt 9 (base / 2), false), (cellAt 10 (base / 2), perm.getD 0 0 == 1)]
  | n + 1, g, base, perm =>
    let col := loopColours perm
    let half := 2 ^ n
    let ins := (List.range half).map fun i => (cellAt g (base / 2 + i), colourOf col (2 * i))
    let outs := (List.range half).map fun j =>
      (cellAt (18 - g) (base / 2 + j), colourOf col ((perm.findIdx? (· == 2 * j)).getD 0))
    let sub := fun (b : Bool) => (List.range half).map fun i =>
      let x := if colourOf col (2 * i) == b then 2 * i else 2 * i + 1
      perm.getD x 0 / 2
    ins ++ outs ++ benes n (g + 1) base (sub false) ++ benes n (g + 1) (base + half) (sub true)

/-- The circuits' feeds and outputs completed to a full permutation of the 512 positions. -/
def fullPerm (cs : List Ckt) : List Nat :=
  let freeOut := (List.range 512).filter fun j => !cs.any (·.out == j)
  let freeIn := (List.range 512).filter fun k => !cs.any (·.feed == k)
  (List.range 512).map fun k =>
    match cs.find? (·.feed == k) with
    | some c => c.out
    | none => freeOut.getD ((freeIn.findIdx? (· == k)).getD 0) 0

/-- Every cell of the fabric carries one band and none is pinned (R101). -/
def State.freeCertain (s : State) (x : SolveCtx) : Bool :=
  s.policyOf x.batch == 2 && (List.range 4864).all (fun c => !s.pinned c) &&
    x.cs1.all fun c => x.cs1.all fun d => c.band == d.band

/-! ## Commit instants (R63, R114, R123) -/

/-- The value congruent to `low` modulo 2^bits nearest to `now` (R63, R126). -/
def nearValue (bits low now : Nat) : Nat := (now + sdiff bits low now : Int).toNat

/-- The largest number of cells of one tile that change state, at least 1 (C_max). -/
def Solution.cMax (x : Solution) : Nat :=
  (List.range 64).foldl (fun m t => max m ((x.delta.filter fun d => d.flip && tileOf d.cell == t).length)) 1

/-- Cell steps of a solution (R135). -/
def Solution.steps (x : Solution) : Nat := (x.delta.filter (·.flip)).length

/-- The first whole nanosecond at or after the present instant. -/
def State.nsUp (s : State) : Nat := (s.now + (nsUnit - 1)) / nsUnit

/-- T_reach (R114). -/
def State.reach (s : State) (x : Solution) : Nat := roundUp 4 (s.nsUp + 456 + 4 * x.cMax)

/-- The first instant on the grid at or after `t` that no commit holds. -/
def State.firstFree (s : State) : Nat → Nat → Nat
  | 0, t => t
  | n + 1, t => if s.commits.any (·.tc == t) then s.firstFree n (t + 4) else t

/-- The full seconds of a TIMED batch: those chosen at t_acc, before then those TIME_SEC would give now (R63). -/
def State.fullSecs (s : State) (b : Batch) : Nat := b.secs.getD (nearValue 16 (s.cue (b.cues.headD 0)).timeSec (secOf s.ns))

/-- The commit instant a TIMED batch asks for, on the 4 ns grid (R63). -/
def State.timedInstant (s : State) (b : Batch) : Nat :=
  roundUp 4 (s.fullSecs b * 1000000000 + (s.cue (b.cues.headD 0)).timeNs)

/-- A guard-window schedule: base, period and length in nanoseconds (R123, R126). -/
structure Schedule where
  base : Nat
  per : Nat
  len : Nat
deriving DecidableEq, Repr

/-- Schedule `n`. -/
def State.schedule (s : State) (n : Nat) : Schedule :=
  ⟨nearValue 32 (s.rd (Reg.LMP_WINSEC n)).toNat (secOf s.ns) * 1000000000 + s.rdf (Reg.LMP_WINNS n) 0 30,
   (s.rd (Reg.LMP_WINPER n)).toNat, (s.rd (Reg.LMP_WINLEN n)).toNat⟩

/-- O_k. -/
def Schedule.opens (w : Schedule) (k : Nat) : Nat := w.base + k * w.per

/-- The last window that has opened by `t`. -/
def Schedule.index (w : Schedule) (t : Nat) : Nat := if t ≤ w.base then 0 else (t - w.base) / w.per

/-- The opening of the window that is open at `t`. -/
def Schedule.openAt (w : Schedule) (t : Nat) : Option Nat :=
  let o := w.opens (w.index t)
  if o ≤ t ∧ t < o + w.len then some o else none

/-- The earliest instant of window `k` at or after `t` that no commit holds and whose occupancy fits (R123): `tail` is what the
job occupies after its T_c. -/
def State.fitWindow (s : State) (w : Schedule) (t tail k : Nat) : Option Nat :=
  let o := w.opens k
  let tc := s.firstFree (s.commits.length + 1) (max (roundUp 4 t) (roundUp 4 o + 200))
  if tc + tail ≤ o + w.len then some tc else none

/-- The first window, from `k` on, that can hold the job. -/
def State.findWindow (s : State) (w : Schedule) (t tail : Nat) : Nat → Nat → Option (Nat × Nat)
  | 0, _ => none
  | n + 1, k => match s.fitWindow w t tail k with
    | some tc => some (tc, w.opens k)
    | none => s.findWindow w t tail n (k + 1)

/-- No window of the schedule can hold a job of length `j` (R125). -/
def Schedule.tooShort (w : Schedule) (j : Nat) : Bool :=
  (List.range 4).all fun k => decide (w.len < j + (4 - w.opens k % 4) % 4)

/-! ## Choosing a solution -/

/-- A candidate's routes as an assignment of cell states. -/
def candidateAsg (c : Candidate) : List (Nat × Bool) :=
  c.routes.flatMap fun r => (PathRec.mk 0 r.input.val r.cross).cells

/-- The alternate of a protected circuit in the projected fabric. -/
def State.projAlt (s : State) (x : SolveCtx) (wkg : Nat) : Option AltRec :=
  let held := ((s.coming x.batch.id).filterMap fun c => match c with
    | .batch b => b.sol.map (·.alts)
    | .protection _ => none).flatten
  ((s.alts ++ held).reverse).find? (·.wkg == wkg)

/-- Whether a path can serve as the alternate of `c`: it feeds the output from the inactive input and changes no cell of another
circuit, crosses no pinned cell and no cell of the other band (R82). -/
def State.altFits (s : State) (st1 : Nat → Bool) (cs1 : List Ckt) (c : Ckt) (p : PathRec) : Bool :=
  let fixed := fixedCells st1 (cs1.filter fun d => d.inp != c.inp)
  some p.input == c.other && p.output == c.out &&
    p.cells.all fun k => !s.pinned k.1 && fixed.all fun f => f.1 != k.1 || (f.2 == c.band && st1 k.1 == k.2)

/-- The alternates a solution re-solves (R82): those of protected circuits it names, disturbs or has changed, and those whose
alternate no longer fits. -/
def State.newAlts (s : State) (x : SolveCtx) (asg : List (Nat × Bool)) (found : List Candidate) : List AltRec :=
  let st := s.ctxCross x
  let st1 := assigned asg st
  let changed := disturbedBy st st1 x.cs0 x.cs1 []
  x.cs1.filterMap fun c =>
    match c.other with
    | none => none
    | some o =>
      let old := (s.projAlt x c.inp).bind (·.path)
      let touched := x.targets.contains c.inp || changed.contains c ||
        old.any fun p => p.cells.any fun k => st k.1 != st1 k.1
      if !touched && old.any (s.altFits st1 x.cs1 c) then none
      else
        let offered := found.flatMap fun f => f.alts.filterMap fun a =>
          if a.1.val = c.inp then some (PathRec.mk c.inp a.2.input.val a.2.cross) else none
        match offered.find? (s.altFits st1 x.cs1 c) with
        | some p => some ⟨c.inp, some p⟩
        | none =>
          let fixed := fixedCells st1 (x.cs1.filter fun d => d.inp != c.inp)
          some ⟨c.inp, (s.findRoute fixed st1 c.band o c.out).map fun r => ⟨c.inp, o, r⟩⟩

/-- The ports whose occupancy a batch changes: inputs, then outputs. -/
def portChange (cs0 cs1 : List Ckt) : List Nat × List Nat :=
  ((List.range 512).filter fun k => inUsed cs0 k != inUsed cs1 k,
   (List.range 512).filter fun j => outUsed cs0 j != outUsed cs1 j)

/-- The ports whose occupancy admitted batch `b` changes. -/
def State.batchPorts (s : State) (b : Batch) : List Nat × List Nat :=
  let cs0 := s.cktsAfter fun x => decide (x.id < b.id)
  portChange cs0 (s.afterCues b.cues cs0)

/-- Whether a batch names one of the ports. -/
def State.namesPort (s : State) (b : Batch) (ps : List Nat × List Nat) : Bool :=
  b.cues.any fun i =>
    let q := s.cue i
    let es := s.cuePattern q
    (q.namedIn es).any ps.1.contains || (q.namedOut es).any ps.2.contains

/-- The cells of a solution's delta. -/
def Solution.cells (x : Solution) : List Nat := x.delta.map (·.cell)

/-- The cells of a solution's new and moved paths. -/
def Solution.pathCells (x : Solution) : List Nat := x.paths.flatMap fun p => p.cells.map (·.1)

/-- Alternates in force once the alternates `new` are installed (R82). -/
def mergeAlts (old new : List AltRec) : List AltRec := new.foldl (fun as a => as.filter (·.wkg != a.wkg) ++ [a]) old

/-- Whether two lists meet. -/
def meets (xs ys : List Nat) : Bool := xs.any ys.contains

/-- R106: whether a solution `sol` made in context `x` depends on batch `a`, held as `now` holds it: it names a port that `a` changes, or
their deltas and new paths meet, or its delta meets the path of a circuit that `a` may not disturb. -/
def State.dependsOn (s : State) (now : State) (x : SolveCtx) (sol : Solution) (a : Batch) : Bool :=
  match a.sol with
  | none => false
  | some y =>
    let st := s.ctxCross x
    let kept := now.recallKept a.cues (now.cktsAfter fun b => decide (b.id < a.id))
    now.namesPort x.batch (now.batchPorts a) || meets sol.cells y.cells || meets sol.cells y.pathCells ||
      meets y.cells sol.pathCells ||
      x.cs0.any fun c => (!now.mayDisturb a c.owner || kept.contains c.inp) && meets sol.cells (pathCells st c.feed)

/-- Whether held batch `a` depends on batch `id`, directly or through others; `fuel` bounds the chain. -/
def State.leadsTo (s : State) : Nat → Batch → Nat → Bool
  | 0, _, _ => false
  | n + 1, a, id =>
    let deps := (a.sol.map (·.deps)).getD []
    deps.contains id || (s.batches.filter fun b => deps.contains b.id).any fun b => State.leadsTo s n b id

/-- The solution of a batch from an assignment, tested for dependencies against the solutions `now` holds. -/
def State.makeSolution (s now : State) (x : SolveCtx) (asg : List (Nat × Bool)) (found : List Candidate) : Solution :=
  let st := s.ctxCross x
  let st1 := assigned asg st
  let dist := disturbedBy st st1 x.cs0 x.cs1 x.targets
  let delta := s.deltaOf x asg
  let paths := (neededPaths x.cs0 x.cs1 ++ dist).map fun c => pathUnder st1 c.inp c.feed
  let old := (x.cs0.filter fun c => x.targets.contains c.inp || dist.any fun d => d.inp == c.inp).map fun c =>
    pathUnder st c.inp c.feed
  let alts := s.newAlts x asg found
  let sol : Solution :=
    { delta := delta
      paths := paths
      old := old
      tiles := ((delta.map (·.cell) ++ (paths ++ old ++ alts.filterMap (·.path)).flatMap fun p => p.cells.map (·.1)).map
        tileOf).eraseDups
      alts := alts
      disturbed := dist.map fun c => (c.inp, c.owner)
      deps := []
      order := s.nextSolve }
  { sol with deps := (now.heldBatches.filter fun a =>
      a.id != x.batch.id && !now.leadsTo now.batches.length a x.batch.id && s.dependsOn now x sol a).map (·.id) }

/-- The instant a batch could take on its own, by its rule (R106). -/
def State.ownInstant (s : State) (b : Batch) (sol : Solution) : Nat :=
  match b.phase with
  | .placed tc => tc
  | _ =>
    let t := s.reach sol
    match b.rule with
    | 0 => t
    | 1 => s.timedInstant b
    | _ =>
      let w := s.schedule (s.rdf (Reg.CIR_PARTCTL b.part) 1 3)
      ((s.findWindow w t (400 + 4 * sol.cMax + 8 * sol.tiles.length) (4 * (s.commits.length + 3)) (w.index (t - 200))).map (·.1)).getD t

/-- A solution binds its batch to nothing: no held solution it depends on is unplaced, or placed later than the batch's own instant
(R106). -/
def State.unbound (now : State) (b : Batch) (sol : Solution) : Bool :=
  let own := now.ownInstant b sol
  sol.deps.all fun id => match now.batches.find? (·.id == id) with
    | some a => match a.phase with
      | .placed tc => decide (tc ≤ own)
      | .committing _ => true
      | _ => false
    | none => true

/-- The assignment chosen (R96, R101, R106): nothing changes where no path is new or moved; else one that disturbs nothing, a candidate or
the Wheelwright's own; only when there is none, one that disturbs within policy, and under FREE the full permutation. Among those of one
kind, the first that binds the batch to nothing is preferred. -/
def State.chooseAsg (s now : State) (x : SolveCtx) (found : List Candidate) : Except Ckt (List (Nat × Bool)) :=
  let cands := found.map candidateAsg
  let best := fun (as : List (List (Nat × Bool))) => match as.find? fun a => now.unbound x.batch (s.makeSolution now x a found) with
    | some a => some a
    | none => as.head?
  let full := benes 9 0 0 (fullPerm x.cs1)
  if (neededPaths x.cs0 x.cs1).isEmpty then .ok []
  else match s.quietSearch x with
    | .ok a => .ok ((best (cands.filter (s.accepts x true) ++ [a])).getD a)
    | .error c =>
      match best (cands.filter (s.accepts x true)) with
      | some a => .ok a
      | none =>
        let own := (match s.looseSearch x with
          | .ok a => [a]
          | .error _ => []) ++ (if s.freeCertain x then [full] else [])
        match best (((cands ++ own).filter (s.accepts x false))) with
        | some a => .ok a
        | none => .error c

/-- The first cue of a batch after which circuits that remain at its end share a port pair in two bands (R97, R102). -/
def State.firstImpure (s : State) (final : List Ckt) : List Nat → List Ckt → Option Nat
  | [], _ => none
  | i :: is, cs =>
    let q := s.cue i
    let cs' := q.apply (s.cuePattern q) cs
    if pairsPure (cs'.filter fun c => final.any c.sameAs) then s.firstImpure final is cs' else some i

/-- The last cue of a batch that gives circuit `c` its path (R102). -/
def State.cueFor (s : State) (c : Ckt) : List Nat → List Ckt → Option Nat
  | [], _ => none
  | i :: is, cs =>
    let q := s.cue i
    let es := s.cuePattern q
    let cs' := q.apply es cs
    let has := fun (ds : List Ckt) => ds.any fun d => d.inp == c.inp && d.feed == c.feed && d.out == c.out && d.band == c.band
    match s.cueFor c is cs' with
    | some j => some j
    | none => if has cs' && (!has cs || q.op == 0) then some i else none

/-- The outcome of a solve: a solution, or a status of Table 3-7 with the cue that caused it (R102). `s` is the fabric as it stood when the
solve started, `now` as it stands. -/
def State.solve (s now : State) (b : Batch) (found : List Candidate) : Except (Nat × Option Nat) Solution :=
  let x := s.solveCtx b
  if !pairsPure x.cs1 then .error (7, some ((s.firstImpure x.cs1 b.cues x.cs0).getD (b.cues.headD 0)))
  else
    match s.chooseAsg now x found with
    | .ok a => .ok (s.makeSolution now x a found)
    | .error c => .error (if s.policyOf b = 2 then 7 else 3, s.cueFor c b.cues x.cs0)

/-- The state with the fabric of a solve as it stood when it started (R107). -/
def State.asSolved (s : State) (r : SolveRun) : State :=
  { s with words := r.words, cells := r.cells, commits := r.commits, batches := r.held, alts := r.alts }

/-- A solution formed at the end of solve `r` meets an event of R107 that fell during it: a batch it would depend on ended, a port it names
changed, or its policy narrowed. -/
def State.metDuring (s : State) (r : SolveRun) (b : Batch) (sol : Solution) : Bool :=
  let v := s.asSolved r
  r.named || r.ended.any (v.dependsOn s (v.solveCtx b) sol) || (List.range 64).any fun q => v.mayDisturb b q && !s.mayDisturb b q

end Sys2Proof.Machine
end

