-- ==== Sys2Proof/Machine/Lamp.lean ====
section
/-! DEFINITION. The Lamplighter (chapter 5): its status words, the ends of batches and what they do to others (R67, R107, R129),
placement (R114, R123 to R125, R135), the arm point (R117), protection (R84, R85, R133) and the closing of commits (R122, R131). -/

namespace Sys2Proof.Machine

/-! ## Status -/

/-- A host or calibration commit that holds a slot (R115). -/
def Commit.holdsSlot (c : Commit) : Bool := c.kind != .protection && (c.phase == .armed || c.phase == .go)

/-- A commit that counts as armed for LMP_ARMTIME: it holds a slot, host, calibration or protection. -/
def Commit.armed (c : Commit) : Bool := c.phase == .armed || c.phase == .go

/-- A tile that is powered and not fenced, by MTX_ISLSTAT. -/
def State.tileLive (s : State) (t : Nat) : Bool := s.bit (Reg.MTX_ISLSTAT t) 0 && !s.bit (Reg.MTX_ISLSTAT t) 1

/-- TBOK is clear in some tile that is powered and not fenced (R13). -/
def State.tbBad (s : State) : Bool := (List.range 64).any fun t => s.tileLive t && !s.bit (Reg.MTX_ISLSTAT t) 2

/-- The thermal block of R136. -/
def State.thermalBlock (s : State) : Bool := s.bit Reg.LMP_STAT 1

/-- Step 3 of an entry into P2 has been reached (Table 15-4). -/
def State.enteringP2 (s : State) : Bool := s.change.any fun c => c.req.target == 2 && decide (3 ≤ c.step)

/-- Order 4 of Table 5-1 for host batches: HOLD, or the module entering or in P2. -/
def State.commitsHeld (s : State) : Bool := s.bit Reg.LMP_CTRL 8 || s.pstate == 2 || s.enteringP2

/-- Order 4 for a commit: HOLD stops host batches alone (Table 5-6), P2 calibration commits as well. -/
def State.holdsBack (s : State) (c : Commit) : Bool := if c.kind == .host then s.commitsHeld else s.pstate == 2 || s.enteringP2

/-- A batch is past its arm point. -/
def State.pastArm (s : State) (b : Batch) : Bool :=
  s.commits.any fun c => c.batches.contains b.id && (c.phase == .go || c.phase == .applied)

/-- LMP_STAT, LMP_ARMTIME, WHL_STAT and TOL_STAT.RELBLK brought up to date. -/
def State.lampStat (s : State) : State :=
  let n := (s.commits.filter Commit.holdsSlot).length
  let first := (sortBy Commit.tc (s.commits.filter Commit.armed)).head?
  let tb := s.batches.any (·.tbWait) && s.tbBad
  let thr := s.batches.any fun b => b.waited && b.phase == .solved
  let holding := (s.bit Reg.LMP_CTRL 8 || s.pstate == 2) && s.batches.any fun b => !s.pastArm b
  (((s.wr Reg.LMP_STAT (pack [(16, 4, n), (3, 1, tb.toNat), (2, 1, thr.toNat), (1, 1, s.thermalBlock.toNat),
      (0, 1, holding.toNat)])).wr Reg.LMP_ARMTIME (match first with
        | some c => pack [(31, 1, 1), (0, 30, nsecOf c.tc)]
        | none => 0#32)).wr Reg.WHL_STAT
    (pack [(16, 9, s.heldBatches.length), (0, 1, (s.solveStart.isSome || s.batches.any (·.stale)).toNat)])).wrBit Reg.TOL_STAT 31
      s.relBlk

/-! ## Commits and batches -/

/-- The commit at instant `tc`. -/
def State.commitAt (s : State) (tc : Nat) : Option Commit := s.commits.find? (·.tc == tc)

/-- The state with commit `c` in place of the one at its instant. -/
def State.setCommit (s : State) (c : Commit) : State :=
  { s with commits := s.commits.map fun x => if x.tc = c.tc then c else x }

/-- The state without the commit at `tc`. -/
def State.dropCommit (s : State) (tc : Nat) : State := { s with commits := s.commits.filter fun x => x.tc != tc }

/-- The batches of a commit, in solve order. -/
def State.commitBatches (s : State) (c : Commit) : List Batch :=
  sortBy Batch.rank (s.batches.filter fun b => c.batches.contains b.id)

/-- A host commit's delta and involved tiles as its batches' solutions give them. -/
def State.recompute (s : State) (c : Commit) : Commit :=
  let sols := (s.commitBatches c).filterMap (·.sol)
  { c with delta := sols.flatMap (·.delta),
           involved := (sols.flatMap (·.tiles) ++ c.factors.map tileOf).eraseDups }

/-- Batch `id` taken out of its commit; the commit goes when it was the last one. -/
def State.leaveCommit (s : State) (id : Nat) : State :=
  match s.commits.find? fun c => c.batches.contains id with
  | none => s
  | some c =>
    let rest := c.batches.filter (· != id)
    if rest.isEmpty then s.dropCommit c.tc else s.setCommit (s.recompute { c with batches := rest })

/-- A batch that is to end without a commit: its state and status, and the cue that caused it. -/
structure Ending where
  id : Nat
  state : Nat
  status : Nat
  cause : Option Nat
deriving DecidableEq, Repr

/-- Check 2 of an admitted batch against the circuits that the batches admitted before it leave (R107). -/
def State.recheck (s : State) (b : Batch) : Option Nat :=
  s.firstBusy b.cues (s.cktsAfter fun x => decide (x.id < b.id))

/-- One batch ended: out of its commit and queue, its cues final and its COMPLETE entries posted. -/
def State.endOne (s : State) (b : Batch) (e : Ending) : State :=
  let s1 := (s.leaveCommit b.id).finishCues b.cues e.state e.status e.cause
  ({ s1 with solveStart := match s1.solveStart with
      | some r => if r.batch = b.id then none else some { r with ended := b :: r.ended }
      | none => none }).dequeue b

/-- Held batches whose solution an event reaches are marked for re-solving (R107). -/
def State.markStale (s : State) (hit : Batch → Solution → Bool) : State :=
  { s with batches := s.batches.map fun b =>
      match b.sol with
      | some x => if hit b x && !s.pastArm b then { b with stale := true } else b
      | none => b }

/-- The batch being solved, where it is one of `ids`, names a port that an event changed (R107). -/
def State.noteNamed (s : State) (ids : List Nat) : State :=
  { s with solveStart := s.solveStart.map fun (r : SolveRun) => { r with named := r.named || ids.contains r.batch } }

/-- The ends of the listed batches and of every batch that R107 fails with them. `fuel` bounds how many end. -/
def State.endBatches : Nat → State → List Ending → State
  | 0, s, _ => s
  | _, s, [] => s
  | n + 1, s, e :: es =>
    match s.batch e.id with
    | none => State.endBatches n s es
    | some b =>
      let ports := s.batchPorts b
      let s1 := s.endOne b e
      let named := s1.batches.filter fun x => decide (b.id < x.id) && s1.namesPort x ports && !s1.pastArm x
      let fails := named.filterMap fun x => (s1.recheck x).map fun i => Ending.mk x.id 7 4 (some i)
      let s2 := (s1.markStale fun x y => y.deps.contains b.id || named.any fun z => z.id == x.id).noteNamed (named.map (·.id))
      State.endBatches n s2 (es ++ fails)

/-- Batches ended, with the status words brought up to date. -/
def State.finish (s : State) (es : List Ending) : State :=
  if s.fatalOn then s else (State.endBatches (s.batches.length + es.length + 1) s es).lampStat

/-- A batch failed as a whole: CAUSE on its first cue unless another is named (R67). -/
def State.failBatch (s : State) (b : Batch) (status : Nat) (cause : Option Nat := none) : State :=
  s.finish [⟨b.id, 7, status, some (cause.getD (b.cues.headD 0))⟩]

/-- Whether a batch names the circuit whose working input is IN `k`. -/
def State.namesCkt (s : State) (b : Batch) (k : Nat) : Bool :=
  (s.targetsOf b.cues (s.projCkts b.id)).contains k

/-- Whether an event reaches a solution of batch `b` (R85, R107): it changes `cells`, and circuits `ckts`; `near` are cells that the
delta alone must not meet (the paths of a circuit about to switch). -/
def State.reaches (s : State) (cells near ckts : List Nat) (b : Batch) (x : Solution) : Bool :=
  meets cells x.cells || meets cells x.pathCells || meets near x.cells || ckts.any (s.namesCkt b)

/-- Whether a batch's T_rs has passed (R108). -/
def State.pastRs (s : State) (b : Batch) : Bool :=
  match b.phase with
  | .placed tc => decide (tc < s.ns + 500)
  | _ => false

/-- Whether an event that falls now falls at or after a batch's T_rs (R108, Table 4-2). -/
def State.atRs (s : State) (b : Batch) : Bool :=
  match b.phase with
  | .placed tc => decide (tc ≤ s.ns + 500)
  | _ => false

/-- An invalidating event of R107 that falls now: the held batches it reaches are re-solved, or fail with STALE when it falls at
or after T_rs and before T_arm (Table 4-2). A protection commit does not reach a batch at or after its T_rs (R85). The batch
being solved meets the event when its solution is held. -/
def State.invalidateBy (s : State) (protection : Bool) (hit : Batch → Solution → Bool) : State :=
  let s1 := s.markStale fun b x => hit b x && !s.atRs b
  let dead := if protection then [] else s.batches.filter fun b => s.atRs b && !s.pastArm b && b.sol.any (hit b)
  ((s1.finish (dead.map fun b => ⟨b.id, 7, 10, some (b.cues.headD 0)⟩)).count Reg.WHL_STALECNT 0 32 dead.length).lampStat

/-- R107 for an event that changes the listed cells and circuits (see `reaches`). -/
def State.invalidate (s : State) (protection : Bool) (cells near ckts : List Nat) : State :=
  let s1 := s.invalidateBy protection (s.reaches cells near ckts)
  { s1 with solveStart := s1.solveStart.map fun (r : SolveRun) =>
      { r with changed := r.changed ++ cells, near := r.near ++ near, ckts := r.ckts ++ ckts } }

/-! ## Placement -/

/-- A deferral (R124): STATUS DEFERRED, DEFCNT of the cues and of the schedule. -/
def State.defer (s : State) (b : Batch) (n : Nat) : State :=
  (s.each b.cues fun s q => (s.wrf (Reg.CUE_W3 q) 8 4 1).count (Reg.CUE_W7 q) 16 8 1).count (Reg.LMP_WINSTAT n) 16 16 1

/-- The bucket level of R135. -/
def State.bucket (s : State) : Int := sfld (s.rd Reg.LMP_THRSTAT) 0 16

/-- Cell steps taken from the bucket; RATE 0xFFFF keeps it full (R135). -/
def State.takeSteps (s : State) (n : Nat) : State :=
  if s.rdf Reg.LMP_THRSTAT 16 16 = 0xFFFF then s
  else s.wrf Reg.LMP_THRSTAT 0 16 (code 16 (max (-32768) (s.bucket - n)))

/-- The bucket lets an IMMEDIATE or WINDOW batch of `n` steps be placed. -/
def State.bucketAllows (s : State) (n : Nat) : Bool := decide (0 ≤ s.bucket) && decide ((n : Int) ≤ s.bucket)

/-- A batch placed at `tc`: it joins the host commit there or opens one. -/
def State.placeAt (s : State) (b : Batch) (tc : Nat) (window : Option Nat) : State :=
  let s1 := s.setBatch { b with phase := .placed tc, waited := false, heldBack := false, tbWait := false, lastWindow := window }
  match s1.commitAt tc with
  | some c =>
    let mine := (b.sol.map (·.tiles)).getD []
    let s2 := s1.setCommit (s1.recompute { c with batches := c.batches ++ [b.id], resident := c.resident.filter fun t => !mine.contains t })
    (if c.phase = .armed ∧ !s2.commitsHeld then s2.setCueStates b.cues 3 else s2).lampStat
  | none =>
    let c : Commit := { Commit.new tc .host with batches := [b.id] }
    { s1 with commits := s1.commits ++ [s1.recompute c] }.lampStat

/-- A batch that waits for the bucket, counted once in LMP_THRCNT. -/
def State.waitBucket (s : State) (b : Batch) : State :=
  if b.waited then s else ((s.setBatch { b with waited := true }).count Reg.LMP_THRCNT 0 32 1).lampStat

/-- The earliest instant the batches it depends on allow (R106). -/
def State.depFloor (s : State) (x : Solution) : Nat :=
  s.batches.foldl (fun m b => if x.deps.contains b.id then
    match b.phase with
    | .placed tc => max m tc
    | _ => m
    else m) 0

/-- Some batch it depends on has no instant yet. -/
def State.depsOpen (s : State) (x : Solution) : Bool :=
  s.batches.any fun b => x.deps.contains b.id && b.phase == .solved

/-- A commit at `tc` has its arm point at or after B0 of a pending device-time step (R314). -/
def State.stepBlocks (s : State) (tc : Nat) : Bool := s.stepReq.any fun r => decide (r.b0 + 200 ≤ tc)

/-- Placement waits: for a batch it depends on, for a re-solve, for TBOK, or for HOLD or P2 to end (R106, Table 5-1, R68). -/
def State.waits (s : State) (b : Batch) (x : Solution) : Bool :=
  s.depsOpen x || b.stale || (b.tbWait && s.tbBad) || (b.heldBack && (s.commitsHeld || s.stepReq.isSome)) || s.pstate == 2 ||
    s.fatalOn

/-- BATCH_PLACEMENT (R63, R114, R123, R124, R135): the batch takes its commit instant by its rule, waits, is deferred, or fails.
Each placement takes its steps from the bucket, and one that is lost gives none back (DESIGN CHOICE, log entry 106). -/
def State.place (s : State) (b : Batch) : State :=
  match b.phase, b.sol with
  | .solved, some x =>
    let floor := s.depFloor x
    let reach := s.reach x
    match b.rule with
    | 0 =>
      if s.thermalBlock then s.failBatch b 8
      else if s.waits b x then s
      else if !s.bucketAllows x.steps then s.waitBucket b
      else
        let tc := s.firstFree (s.commits.length + 1) (max reach (roundUp 4 floor))
        if s.stepBlocks tc then s else (s.takeSteps x.steps).placeAt b tc none
    | 1 =>
      let b := { b with secs := some (s.fullSecs b) }
      let s := s.setBatch b
      let tc := s.timedInstant b
      if s.stepBlocks (max tc reach) then (if s.thermalBlock then s.failBatch b 8 else s)
      else if tc < reach ∨ tc < floor ∨ (s.commitAt tc).any (·.kind != .host) then s.failBatch b 2
      else if s.thermalBlock then s.failBatch b 8
      else if s.waits b x then s
      else (s.takeSteps x.steps).placeAt b tc none
    | _ =>
      let n := s.rdf (Reg.CIR_PARTCTL b.part) 1 3
      let w := s.schedule n
      let tail := 400 + 4 * x.cMax + 8 * x.tiles.length
      if !s.bit (Reg.LMP_WINCTL n) 0 || w.tooShort (200 + tail) then s.failBatch b 6
      else if s.thermalBlock then s.failBatch b 8
      else if s.waits b x then s
      else if !s.bucketAllows x.steps then s.waitBucket b
      else
        let t := max reach floor
        match s.findWindow w t tail (4 * (s.commits.length + 3)) (w.index (t - 200)) with
        | none => s
        | some (tc, o) =>
          if s.stepBlocks tc then s else
          let open_ := w.openAt s.ns
          let deferred := open_.any (fun k => decide (k < o)) || b.lastWindow.any fun k => decide (k < o)
          (((s.when deferred (·.defer b n)).takeSteps x.steps)).placeAt b tc (some o)
  | _, _ => s

end Sys2Proof.Machine
end

