-- ==== Sys2Proof/Machine/Commit.lean ====
section
/-! DEFINITION. Aborts (R128, R129), protection commits (R84, R85, R133), the arm point (R117), and the closing of a commit with its
journal entry, cue states, circuit table, disturbance reports and partial outcome (R87, R103, R122, R131). -/

namespace Sys2Proof.Machine

/-! ## Access to a cell's loop -/

/-- A cell's loop and drivers beside their registers. -/
def State.coo (s : State) (c : Nat) : CooRec := Store.get CooRec.zero s.coos c

/-- The state with that record changed. -/
def State.setCoo (s : State) (c : Nat) (x : CooRec) : State := { s with coos := Store.set CooRec.zero s.coos c x }

/-- A tile's record. -/
def State.tileRec (s : State) (t : Nat) : TileRec := Store.get TileRec.zero s.tiles t

/-- The state with that record changed. -/
def State.setTileRec (s : State) (t : Nat) (x : TileRec) : State := { s with tiles := Store.set TileRec.zero s.tiles t x }

/-- Word `w` of the COO cell block of cell `c`. -/
def cooWord (c w : Nat) : Nat := Reg.COO_CELL_W0 (tileOf c) (localOf c) + 4 * w

/-- Word `w` of the DRV cell block of cell `c`. -/
def drvWord (c w : Nat) : Nat := Reg.DRV_CELL_W0 (tileOf c) (localOf c) + 4 * w

/-- The heater code in force of cell `c`. -/
def State.hcode (s : State) (c : Nat) : Nat := s.rdf (cooWord c 13) 16 14

/-- The Pockels base of cell `c`. -/
def State.pbase (s : State) (c : Nat) : Int := sfld (s.rd (cooWord c 13)) 0 16

/-- The state with the heater output code of cell `c` set. -/
def State.setHcode (s : State) (c h : Nat) : State := s.wrf (cooWord c 13) 16 14 h

/-- The state with the Pockels base of cell `c` set. -/
def State.setPbase (s : State) (c : Nat) (y : Int) : State := s.wrf (cooWord c 13) 0 16 (code 16 y)

/-! ## Back to SOLVED -/

/-- The placed batches that depend on batch `id`, directly or through others, return to SOLVED with it: none may commit before it (R106). -/
def State.unplaceDependents (s : State) (id : Nat) : State :=
  (s.batches.filter fun b => (match b.phase with
      | .placed _ => !s.pastArm b
      | _ => false) && s.leadsTo s.batches.length b id).foldl (fun s b =>
    ((s.leaveCommit b.id).setCueStates b.cues 2).setBatch { b with phase := .solved }) s

/-- A placed batch returned to SOLVED under order 2, 3 or 4 of Table 5-1: a TIMED batch fails with TOO_LATE, unless HOLD or P2 held
it back (R68); the others wait to be placed again. -/
def State.unplace (s : State) (b : Batch) (held : Bool) : State :=
  if b.rule = 1 && !held then s.failBatch b 2
  else (((s.leaveCommit b.id).setCueStates b.cues 2 |>.setBatch
    { b with phase := .solved, heldBack := held, tbWait := !held }).unplaceDependents b.id).lampStat

/-- Every batch of a host commit returned to SOLVED. -/
def State.unplaceAll (s : State) (c : Commit) (held : Bool) : State :=
  (s.commitBatches c).foldl (fun s b => match s.batch b.id with
    | some b => s.unplace b held
    | none => s) s

/-! ## Aborts -/

/-- What an abort finds: done with a result (STATUS, FSTATE, FSTATUS), or waiting for the batch's final state. -/
inductive AbortFound where
  | done (status fstate fstatus : Nat)
  | later
deriving DecidableEq, Repr

/-- The LMP_ABORTRES [14:0] layout. -/
def abortWord (status fstate fstatus : Nat) : Word := pack [(12, 3, fstate), (8, 4, fstatus), (0, 4, status)]

/-- The admitted batch that holds cue `q`. -/
def State.batchOfCue (s : State) (q : Nat) : Option Batch := s.batches.find? fun b => b.cues.contains q

/-- An abort of cue `q`'s batch, by a requester confined to partition `part` (`none`: no confinement) (R128, Table 5-4). -/
def State.abortCue (s : State) (q : Nat) (part : Option Nat) : State × AbortFound :=
  if part.any fun p => (s.cue q).part != p then (s, .done 5 (s.cueState q) (s.rdf (Reg.CUE_W3 q) 8 4))
  else match s.batchOfCue q with
    | some b =>
      if s.pastArm b || s.fatalOn then (s, .later)
      else (s.finish [⟨b.id, 6, 0, none⟩], .done 0 6 0)
    | none => (s, .done 2 (s.cueState q) (s.rdf (Reg.CUE_W3 q) 8 4))

/-- An abort's result delivered: to LMP_ABORTRES, as an ABORT result entry (Table 10-6), or as an NGCP response. -/
def State.abortResult (s : State) (sink : AbortSink) (q : Nat) (w : Word) : State :=
  match sink with
  | .register => s.wr Reg.LMP_ABORTRES (putBit w 31 true)
  | .ring cq _ htag =>
    s.postCq cq [pack [(28, 3, 2), (0, 16, q)], pack [(16, 16, htag), (0, 15, w.toNat)], 0#32, 0#32, 0#32, 0#32, 0#32, 0#32]
  | .session n seq src => s.ngcpAnswer n seq 4 0 src (beBytes 4 w.toNat)

/-- An abort made for a sink, answered now or when the batch's final state is known. -/
def State.abortFor (s : State) (q : Nat) (part : Option Nat) (sink : AbortSink) : State :=
  match s.abortCue q part with
  | (s1, .done a b c) => s1.abortResult sink q (abortWord a b c)
  | (s1, .later) => { s1 with aborts := s1.aborts ++ [⟨q, sink⟩] }

/-- The aborts that waited for cue `q`'s batch, answered with TOO_LATE and its final state. -/
def State.settleAborts (s : State) (qs : List Nat) : State :=
  let due := s.aborts.filter fun a => qs.contains a.cue
  { s with aborts := s.aborts.filter fun a => !qs.contains a.cue }.each due fun s a =>
    s.abortResult a.sink a.cue (abortWord 2 (s.cueState a.cue) (s.rdf (Reg.CUE_W3 a.cue) 8 4))

/-! ## Protection -/

/-- The protection record of the circuit on IN `k`. -/
def State.prot (s : State) (k : Nat) : ProtRec := Store.get ⟨0, none, false⟩ s.prots k

/-- The state with that record changed. -/
def State.setProt (s : State) (k : Nat) (x : ProtRec) : State := { s with prots := Store.set ⟨0, none, false⟩ s.prots k x }

/-- INMAP.LIGHT of IN `k`. -/
def State.lit (s : State) (k : Nat) : Bool := s.bit (Reg.CIR_INMAP k) 30

/-- Protection is blocked: CRIT, P2, a fatal state, or step 6 of an entry into P2 or P3 (R84, R133). -/
def State.protBlocked (s : State) : Bool :=
  s.thermalBlock || s.pstate == 2 || s.fatalOn || s.change.any fun c => (c.req.target == 2 || c.req.target == 3) && decide (6 ≤ c.step)

/-- The hold-off of the circuit on IN `k` has expired. -/
def State.holdoffOver (s : State) (k : Nat) : Bool := !(s.prot k).holdoff.any fun t => decide (s.ns < t)

/-- The conditions of R84 for a circuit, but for the block. -/
def State.switchable (s : State) (c : Ckt) : Bool :=
  match c.other with
  | none => false
  | some o => s.darkIn.contains c.feed && s.lit o && c.protok && !c.lockout && s.bit Reg.CIR_CTRL 8 && s.holdoffOver c.inp

/-- The tile that monitors IN `k` (R40). -/
def inputTile (k : Nat) : Nat := k / 8

/-- An EVENT to the MGMT PF0s and a partition's functions. -/
def State.eventBoth (s : State) (code part tile gen : Nat) (data : List Word) : State :=
  let e := eventEntry code part tile gen data s.ns
  (s.eventMgmt e).eventPart e part

/-- Whether a batch involves a circuit: it names it, or its delta meets the circuit's active path or its alternate (R85). -/
def State.involves (s : State) (b : Batch) (c : Ckt) : Bool :=
  s.namesCkt b c.inp || b.sol.any fun x =>
    meets x.cells (pathCells s.cross c.feed) ||
      (s.alts.find? (·.wkg == c.inp)).any fun a => a.path.any fun p => meets x.cells (p.cells.map (·.1))

/-- The latest instant of a host batch that involves the circuit and whose T_rs has passed (R85, R133). -/
def State.lateInvolved (s : State) (c : Ckt) : Nat :=
  s.batches.foldl (fun m b => match b.phase with
    | .placed tc => if tc ≤ s.ns + 500 && s.involves b c then max m (tc + 4) else m
    | .committing tc => if s.ns < tc && s.involves b c then max m (tc + 4) else m
    | _ => m) 0

/-- A switch of circuit `c` placed as a protection commit, or joining one not yet at its arm point; held batches that involve
the circuit are invalidated (R84, R85, R107, R133). -/
def State.placeSwitch (s : State) (c : Ckt) : State :=
  let floor := max (s.nsUp + 340) (s.lateInvolved c)
  let alt := ((s.alts.find? (·.wkg == c.inp)).bind (·.path)).toList
  let s1 := s.invalidate true (alt.flatMap fun p => (pathDelta (s.nowCell []) c.band p).map (·.cell))
    (pathCells s.cross c.feed ++ alt.flatMap fun p => p.cells.map (·.1)) [c.inp]
  let lost := (c.inp, inputTile c.feed)
  match s1.commits.find? fun k => k.kind == .protection && k.phase == .placed && decide (floor ≤ k.tc ∨ s1.lateInvolved c ≤ k.tc) with
  | some k => s1.setCommit { k with switches := k.switches ++ [c.inp], lost := k.lost ++ [lost] }
  | none =>
    let tc := s1.firstFree (s1.commits.length + 1) (roundUp 4 floor)
    { s1 with commits := s1.commits ++ [{ Commit.new tc .protection with switches := [c.inp], lost := [lost] }] }

/-- A switch of the circuit is already on its way. -/
def State.switching (s : State) (k : Nat) : Bool := s.commits.any fun c => c.kind == .protection && c.switches.contains k

/-- PROTECTION_SWITCH_DECISION (R84) for one circuit, with BOTHLOS raised once when both inputs are dark. -/
def State.decideSwitch (s : State) (c : Ckt) : State :=
  match c.other with
  | none => s
  | some o =>
    let dark := !s.lit c.feed && !s.lit o
    let r := s.prot c.inp
    let s1 := if dark && !r.bothLos then
        (s.setProt c.inp { r with wkg := c.inp, bothLos := true }).eventBoth 0x04 c.owner (inputTile c.feed) 0
          [pack [(0, 9, c.inp), (16, 9, c.peer.getD 0)]]
      else if !dark && r.bothLos then s.setProt c.inp { r with bothLos := false }
      else s
    if s1.switchable c && !s1.protBlocked && !s1.switching c.inp then s1.placeSwitch c else s1

/-- The decision for every protected circuit. -/
def State.decideProtection (s : State) : State := (s.ckts.filter fun c => c.peer.isSome).foldl State.decideSwitch s

/-- The decision for the circuits that use IN `k`. -/
def State.decideFor (s : State) (k : Nat) : State :=
  (s.ckts.filter fun c => c.inp == k || c.peer == some k).foldl State.decideSwitch s

/-- The changes that commit before instant `tc`. -/
def State.deltaBefore (s : State) (tc : Nat) : List CellChange :=
  (sortBy Commit.tc (s.commits.filter fun c => decide (c.tc < tc) && c.phase == .go)).flatMap (·.delta)

/-- The circuits as they will stand at instant `tc`, after every commit with an earlier one (R133). -/
def State.cktsBefore (s : State) (tc : Nat) : List Ckt :=
  ((s.coming s.nextBatch).filter fun k => decide (k.rank < tc * 2 ^ 64)).foldl s.comingCkts s.ckts

/-- A protection commit's switches judged again at its arm point (R133): those that still hold, with their paths. -/
def State.judge (s : State) (c : Commit) : List (Ckt × PathRec) :=
  let cs := s.cktsBefore c.tc
  c.switches.filterMap fun k =>
    match cs.find? (·.inp == k), (s.altBefore c.tc k).bind (·.path) with
    | some x, some p => if s.switchable { x with protok := true } && some p.input == x.other then some (x, p) else none
    | _, _ => none

/-! ## The arm point -/

/-- The generation number after `g` (R112). -/
def nextGen (g : Word) : Word := if g = 0xFFFFFFFF#32 then 1#32 else g + 1#32

/-- A set of tiles as two mask words. -/
def tileMask (ts : List Nat) (half : Nat) : Word :=
  ts.foldl (fun w t => if t / 32 = half then putBit w (t % 32) true else w) 0#32

/-- W3 of a journal entry when it is opened. -/
def State.journalW3 (s : State) (c : Commit) : Word :=
  match c.kind with
  | .host =>
    let b := (s.commitBatches c).head?
    pack [(22, 6, (b.map (·.part)).getD 0), (0, 16, (b.map fun b => b.cues.headD 0).getD 0)]
  | .protection =>
    let k := c.switches.headD 0
    pack [(28, 2, 1), (22, 6, ((s.ckt k).map (·.owner)).getD 0), (0, 16, k)]
  | .calibration => pack [(28, 2, 2)]

/-- A journal entry's words written from W0. -/
def State.putJournal (s : State) (i : Nat) (ws : List Word) : State :=
  (ws.zip (List.range 8)).foldl (fun s p => s.wr (Reg.LMP_JOURNAL i p.2) p.1) s

/-- The thermal band a tile runs in: COO_STAT.TBAND. -/
def State.tileBand (s : State) (t : Nat) : Nat := s.rdf (Reg.COO_STAT t) 16 3

/-- The interval a commit occupies, in ns (R123). -/
def Commit.occupancy (c : Commit) : Nat × Nat :=
  let cm := (List.range 64).foldl (fun m t => max m ((c.delta.filter fun d => d.flip && tileOf d.cell == t).length)) 1
  (c.tc - 200, c.tc + 400 + 4 * cm + 8 * c.involved.length)

/-- The windows of the enabled schedules in which a commit's occupancy falls, in any part, are used (R127; protection commits count:
DEDUCED, log entry 107). -/
def State.markWindows (s : State) (c : Commit) : State :=
  let o := c.occupancy
  { s with winUsed := s.winUsed ++ ((List.range 8).filter fun n => s.bit (Reg.LMP_WINCTL n) 0).flatMap fun n =>
      let w := s.schedule n
      let i := w.index o.1
      ([w.opens i, w.opens (i + 1)].filter fun a => decide (a ≤ o.2) && decide (o.1 < a + w.len)).map fun a => (n, a) }

/-- The checks of Table 5-1 passed: generation number assigned, journal entry opened, GO sent (R112, R117, R118, R119). -/
def State.armGo (s : State) (c : Commit) : State :=
  let g := nextGen (s.rd Reg.LMP_GEN)
  let i := s.rdf Reg.LMP_JHEAD 0 8
  let s1 := (((s.markWindows c).wr Reg.LMP_GEN g).wrf Reg.LMP_JHEAD 0 8 (i + 1)).putJournal i
    [g, wd (nsecOf c.tc), wd (secOf c.tc), s.journalW3 c, tileMask c.involved 0, tileMask c.involved 1, 0#32, 0#32]
  (s1.setCommit { c with phase := .go, gen := g.toNat, journal := i, going := c.involved.filter s.tileLive,
                         bands := c.involved.map fun t => (t, s.tileBand t + 8 * s.rdf (Reg.DRV_PECTL t) 0 1) }).lampStat

/-- Residency is missing in an involved tile that is powered and not fenced (order 3 of Table 5-1). -/
def State.notResident (s : State) (c : Commit) : Bool :=
  c.involved.any fun t => s.tileLive t && !c.resident.contains t

/-- HOLD or P2 withheld the sending of some of a commit's set-points: order 4 decides it, not order 3. -/
def State.withheld (s : State) (c : Commit) : Bool :=
  s.holdsBack c && (c.phase == .placed || (s.commitBatches c).any fun b => s.cueState (b.cues.headD 0) != 3)

/-- ARM_POINT of a protection commit (R133). -/
def State.armProtection (s : State) (c : Commit) : State :=
  let good := s.judge c
  if good.isEmpty || s.thermalBlock || s.tbBad then s.dropCommit c.tc
  else
    let ds := s.deltaBefore c.tc
    let delta := good.flatMap fun p => pathDelta (s.nowCell ds) p.1.band p.2
    let tiles := ((delta.map (·.cell) ++ good.flatMap fun p => p.2.cells.map (·.1)).map tileOf).eraseDups
    (s.takeSteps (delta.filter (·.flip)).length).armGo
      { c with switches := good.map (·.1.inp), delta := delta, involved := tiles }

/-- ARM_POINT (R117, Table 5-1). -/
def State.arm (s : State) (c : Commit) : State :=
  match c.kind with
  | .protection => s.armProtection c
  | _ =>
    if s.thermalBlock then
      s.finish ((s.commitBatches c).map fun b => ⟨b.id, 7, 8, some (b.cues.headD 0)⟩) |>.dropCommit c.tc |>.lampStat
    else if s.tbBad then (s.unplaceAll c false).dropCommit c.tc |>.lampStat
    else if !s.withheld c && s.notResident c then
      ((s.unplaceAll c false).dropCommit c.tc).lampStat.err Reg.LMP_ERRSTAT 1
    else if s.stepBlocks c.tc || s.holdsBack c then (s.unplaceAll c true).dropCommit c.tc |>.lampStat
    else s.armGo c

/-! ## Closing a commit (R122, R131) -/

/-- The tiles on the old and new paths of the circuits a cue targets. -/
def cueTiles (targets : List Nat) (sols : List Solution) : List Nat :=
  (sols.flatMap fun x => ((x.paths ++ x.old).filter fun p => targets.contains p.owner).flatMap fun p =>
    p.cells.map fun k => tileOf k.1).eraseDups

/-- The cues of a commit with APPLIED, in commit order (R131): all their tiles applied, and no unapplied earlier cue names a port
they name or was to free it. `ports` are those ports of the unapplied cues so far. -/
def State.appliedCues (s : State) (applied : List Nat) (sols : List Solution) :
    List Nat → List Ckt → List Nat × List Nat → List (Nat × Bool)
  | [], _, _ => []
  | i :: is, cs, ports =>
    let q := s.cue i
    let es := s.cuePattern q
    let ok := (cueTiles (q.targets es cs) sols).all applied.contains &&
      !meets (q.namedIn es) ports.1 && !meets (q.namedOut es) ports.2
    let moved := portChange cs (q.apply es cs)
    let ports' := if ok then ports else (ports.1 ++ q.namedIn es ++ moved.1, ports.2 ++ q.namedOut es ++ moved.2)
    (i, ok) :: s.appliedCues applied sols is (if ok then q.apply es cs else cs) ports'

/-- PROTOK of every circuit as the alternates in force give it. -/
def withProtok (alts : List AltRec) (cs : List Ckt) : List Ckt :=
  cs.map fun c => { c with protok := c.peer.isSome && alts.any fun a => a.wkg == c.inp && a.path.isSome }

/-- The reports of one batch's disturbance (R103): log, DISTRCV and one DISTURB event per other victim partition. The log takes the circuits
in the order of the solution's list (DESIGN CHOICE, log entry 104). -/
def State.reportDisturbance (s : State) (b : Batch) (gen : Nat) : State :=
  let ds := (b.sol.map (·.disturbed)).getD []
  let s1 := ds.foldl (fun s d =>
    let i := s.rdf Reg.WHL_DISTHEAD 0 8
    let s := ((s.wr (Reg.WHL_DISTLOG_W0 i) (wd gen)).wr (Reg.WHL_DISTLOG_W1 i)
      (pack [(24, 6, b.part), (16, 6, d.2), (0, 9, d.1)])).wrf Reg.WHL_DISTHEAD 0 8 (i + 1)
    if d.2 = b.part then s else s.count (Reg.WHL_PARTSTAT d.2) 16 16 1) s
  ((ds.map (·.2)).eraseDups.filter (· != b.part)).foldl (fun s p =>
    s.eventBoth 0x05 p noTile gen [pack [(24, 6, b.part), (0, 10, satN 10 (ds.filter (·.2 == p)).length)]]) s1

/-- PROTLOST (Table 10-9) for the circuit on IN `k`. -/
def State.protLost (s : State) (c : Ckt) : State := s.eventBoth 0x03 c.owner noTile 0 [pack [(0, 9, c.inp)]]

/-- The alternates of a host commit that lie in a tile that did not apply (R131). -/
def lostAlts (applied : List Nat) (sols : List Solution) : List Nat :=
  (sols.flatMap (·.alts)).filterMap fun a =>
    if a.path.any fun p => p.cells.any fun k => !applied.contains (tileOf k.1) then some a.wkg else none

/-- The circuits for which a host commit found no alternate (R82). -/
def unfound (sols : List Solution) : List Nat :=
  (mergeAlts [] (sols.flatMap (·.alts))).filterMap fun a => if a.path.isNone then some a.wkg else none

/-- The couplers of inputs that have light or a circuit closed (R216). -/
def State.shutCouplers (s : State) : State := { s with couplers := s.couplers.filter fun k => !inUsed s.ckts k && !s.lit k }

/-- The hold-offs after the applied cues of a commit (R423): carried where the protect input is kept, else none runs. -/
def State.carryHoldoffs (s : State) (qs : List Nat) (cs : List Ckt) : State :=
  (qs.foldl (fun (acc : State × List Ckt) i =>
    let q := acc.1.cue i
    let es := acc.1.cuePattern q
    let cs' := q.apply es acc.2
    let moved := q.carries acc.2
    let old := moved.map fun m => (m.2, acc.1.prot m.1)
    let s1 := ((q.targets es acc.2).eraseDups).foldl (fun (s : State) k => s.setProt k ⟨0, none, false⟩) acc.1
    (old.foldl (fun (s : State) p => s.setProt p.1 { p.2 with wkg := if p.2 == ⟨0, none, false⟩ then 0 else p.1 }) s1, cs')) (s, cs)).1

/-- The ports whose occupancy the unapplied cues of a partial commit would have changed (R107). -/
def State.unappliedPorts (s : State) (marks : List (Nat × Bool)) : List Nat × List Nat :=
  portChange (s.afterCues ((marks.filter (·.2)).map (·.1)) s.ckts) (s.afterCues (marks.map (·.1)) s.ckts)

/-- A host commit closed: the final state of its cues, the circuit table, the disturbance reports, COMPLETE entries. -/
def State.closeHost (s : State) (c : Commit) (applied : List Nat) (partly : Bool) : State :=
  let bs := s.commitBatches c
  let sols := bs.filterMap (·.sol)
  let qs := bs.flatMap (·.cues)
  let marks := if partly then s.appliedCues applied sols qs s.ckts ([], []) else qs.map (·, true)
  let done := (marks.filter (·.2)).map (·.1)
  let gone := (if partly then lostAlts applied sols else []) ++ unfound sols
  let alts := s.alts.filter fun a => !gone.contains a.wkg
  let s0 := { s with alts := alts }
  let cs := withProtok alts (s0.afterCues done s0.ckts)
  let s1 := (s0.putCkts cs c.gen).carryHoldoffs done s.ckts
  let s2 := bs.foldl (fun s b =>
    let n := satN 10 ((b.sol.map (·.disturbed.length)).getD 0)
    b.cues.foldl (fun s q =>
      (((s.wr (Reg.CUE_W3 q) (cueW3 (if partly then 5 else 4) 0 false (partly && marks.contains (q, true)))).wr
        (Reg.CUE_W6 q) (wd c.gen)).wrf (Reg.CUE_W7 q) 0 10 n)) (s.reportDisturbance b c.gen)) s1
  let s3 := (cs.filter fun k => k.peer.isSome && gone.contains k.inp).foldl State.protLost s2
  let s4 := bs.foldl (fun s b => s.completeBatch b.cues (some c.tc)) s3
  let s5 := { s4 with batches := s4.batches.filter fun b => !c.batches.contains b.id }
  let ports := s.unappliedPorts marks
  let later := s5.batches.filter fun x => partly && (bs.any fun b => decide (b.id < x.id)) && s5.namesPort x ports
  let fails := later.filterMap fun x => (s5.recheck x).map fun i => Ending.mk x.id 7 4 (some i)
  let s6 := if partly then
      ((s5.invalidateBy false fun x _ => later.contains x).noteNamed (later.map (·.id))).invalidate false (c.delta.map (·.cell)) [] []
    else s5
  (s6.finish fails).settleAborts qs

/-- The alternate of protected circuit `c` solved anew by the Wheelwright's own search, in the fabric as the tiles hold it (R82). -/
def State.resolveAlt (s : State) (c : Ckt) : AltRec :=
  let fixed := fixedCells s.cross (s.ckts.filter fun d => d.inp != c.inp)
  let o := c.other.getD 0
  ⟨c.inp, (s.findRoute fixed s.cross c.band o c.out).map fun r => PathRec.mk c.inp o r⟩

/-- The alternates that a switch of the circuit on IN `k` leaves unfit, its own among them, solved anew (R82, R423); a circuit left without
one loses PROTOK, and PROTLOST is raised. -/
def State.refitAlts (s : State) (k gen : Nat) : State :=
  let cs := s.ckts
  let unfit := cs.filter fun c => c.peer.isSome && (c.inp == k ||
    (s.alts.find? (·.wkg == c.inp)).any fun a => a.path.any fun p => !s.altFits s.cross cs c p)
  let fresh := unfit.map s.resolveAlt
  let s1 := { s with alts := mergeAlts s.alts fresh }
  let s2 := s1.putCkts (withProtok s1.alts cs) gen
  (unfit.filter fun c => fresh.any fun a => a.wkg == c.inp && a.path.isNone).foldl State.protLost s2

/-- A protection commit closed (R87, R131): each switch recorded, or lost where a tile of its alternate did not apply; the alternates
that the switch leaves unfit are solved anew, and a partial commit invalidates what its cells reach (R82, R107, R423). -/
def State.closeProtection (s : State) (c : Commit) (applied : List Nat) : State :=
  c.switches.foldl (fun s k =>
    match s.ckt k, (s.alts.find? (·.wkg == k)).bind (·.path) with
    | some x, some p =>
      let whole := c.delta.all fun d => !(p.cells.any (·.1 == d.cell)) || applied.contains (tileOf d.cell)
      if whole then
        let y := { x with activep := !x.activep }
        let hold := s.rdf Reg.CIR_CTRL 0 8
        let s2 := (s.putCkts (y :: without s.ckts k) c.gen).setProt k
          { wkg := k, holdoff := if hold = 0 then none else some (s.ns + hold * 10000), bothLos := (s.prot k).bothLos }
        let s3 := s2.eventBoth 0x02 x.owner (((c.lost.find? fun l => l.1 == k).map fun l => l.2).getD (inputTile x.feed)) c.gen
          [pack [(0, 9, k), (16, 1, y.activep.toNat)]]
        s3.refitAlts k c.gen
      else
        let others := s.alts.filter (·.wkg != k)
        let s1 := { s with alts := others }
        ((s1.putCkts (withProtok others s1.ckts) c.gen).protLost x).invalidate false (c.delta.map (·.cell)) [] [k]
    | _, _ => s) s

/-- JOURNAL_CLOSE (R44, R122, R131): the end of the CIR_FSSEQ bracket of a commit. Where another applied commit has reported by then, the
number turns even and at once odd again for that one's update (DESIGN CHOICE, log entry 100). -/
def State.closeCommit (s : State) (c : Commit) : State :=
  let applied := c.involved.filter fun t => c.stepped.contains t && c.reported.contains t
  let partly := applied.length != c.involved.length
  let s0 := if s.fsOpen then s else s.fsTick
  let w3 := (s0.journalW3 c) ||| pack [(31, 1, 1), (30, 1, partly.toNat)]
  let s1 := ((s0.wr (Reg.LMP_JOURNAL c.journal 3) w3).wr (Reg.LMP_JOURNAL c.journal 6) (tileMask applied 0)).wr
    (Reg.LMP_JOURNAL c.journal 7) (tileMask applied 1)
  let s2 := match c.kind with
    | .host => s1.closeHost c applied partly
    | .protection => s1.closeProtection c applied
    | .calibration => s1
  let late := c.involved.filter fun t => c.stepped.contains t && !c.reported.contains t && s.tileLive t
  let s2 := { s2 with lateReports := (s2.lateReports ++ late).eraseDups }
  let s3 := ((((s2.dropCommit c.tc).wr Reg.CIR_FSGEN (wd c.gen)).refreshMaps).shutCouplers).fsTick
  let s4 := if s3.commits.any fun k => k.phase == .applied && !k.reported.isEmpty then s3.fsTick else s3
  ((s4.when partly (·.err Reg.LMP_ERRSTAT 3)).decideProtection).lampStat

end Sys2Proof.Machine
end

