-- ==== Sys2Proof/Machine/Monitor.lean ====
section
/-! DEFINITION. Access to a tile's converters and monitor channels, and the staleness of a channel (R189, R202, R204). -/

namespace Sys2Proof.Machine

/-- A tile's converters. -/
def State.mon (s : State) (t : Nat) : MonRec := Store.get MonRec.zero s.mons t

/-- The state with them changed. -/
def State.setMon (s : State) (t : Nat) (x : MonRec) : State := { s with mons := Store.set MonRec.zero s.mons t x }

/-- A channel. -/
def State.chan (s : State) (t ch : Nat) : ChanRec := Store.get ChanRec.zero s.chans (92 * t + ch)

/-- The state with it changed. -/
def State.setChan (s : State) (t ch : Nat) (x : ChanRec) : State :=
  { s with chans := Store.set ChanRec.zero s.chans (92 * t + ch) x }

/-- The sequences in force. -/
def State.seqLive (s : State) (t : Nat) : List Word := (List.range 92).map fun i => s.rdLive (Reg.MON_SEQ t i)

/-- The first enabled entry of a channel, by converter and then entry. -/
def firstEntry (ws : List Word) (ch : Nat) : Option Nat :=
  (List.range 92).find? fun i => let w := ws.getD i 0#32; wbit w 31 && fld w 0 7 == ch

/-- The enabled entries of a channel, by converter and then entry. -/
def entriesOf (ws : List Word) (ch : Nat) : List Nat :=
  (List.range 92).filter fun i => let w := ws.getD i 0#32; wbit w 31 && fld w 0 7 == ch

/-- ADCa self-calibrates or has failed self-calibration: it converts nothing (R204). -/
def State.adcOut (s : State) (t a : Nat) : Bool := s.bit (Reg.MON_CTRL t) (8 + a) || s.bit (Reg.MON_STAT t) (24 + a)

/-- STALE of a channel (R202). -/
def State.stale (s : State) (t ch : Nat) : Bool :=
  (decide (ch < 76) && (s.cell (cellOf t ch)).mode == 2) || decide (64 ≤ (s.chan t ch).dry) ||
    (firstEntry (s.seqLive t) ch).any fun i => s.adcOut t (i / 23)

/-- STALE and WASSTALE of a live block brought up to date. -/
def State.noteStale (s : State) (t ch : Nat) : State :=
  let a := Reg.TAL_LIVE_W7 t ch
  let w := putBit (s.rd a) 31 (s.stale t ch)
  s.wr a (if wbit w 31 then putBit w 30 true else w)

/-- A tile's analog domain powered: every converter calibrates before its first conversion, and its channels then owe the TIA's invalid
samples (R204, Table 8-3). -/
def State.powerMon (s : State) (t : Nat) : State :=
  (((s.wrf (Reg.MON_CTRL t) 8 4 0xF).wrf (Reg.MON_STAT t) 16 4 0).wrf (Reg.MON_STAT t) 24 4 0).setMon t
    { MonRec.zero with powerUp := [0, 1, 2, 3] }

end Sys2Proof.Machine
end

