-- ==== Sys2Proof/Machine/Cooper.lean ====
section
/-! DEFINITION. The Cooper (chapter 6) and what a commit does to a cell's drive (R153, R154, R166 to R173, R222): the loop's
arithmetic, tables, control law, lock band, offload, trace ring, and the stepping of cells at a commit instant. -/

namespace Sys2Proof.Machine

/-! ## Arithmetic (R139) -/

/-- sat32. -/
def satI32 (x : Int) : Int := clampI (-2147483648) 2147483647 x

/-- MULSH(K, x, SH). -/
def mulsh (k x : Int) (sh : Nat) : Int := satI32 ((k * x + if sh = 0 then 0 else (2 : Int) ^ (sh - 1)) / (2 : Int) ^ sh)

/-- A word read as signed. -/
def sInt (w : Word) : Int := w.toInt

/-- A signed number as a word. -/
def ofI (x : Int) : Word := BitVec.ofInt 32 x

/-- The first quadrant of SIN[i] = round(32,767 × sin(2π i / 64)) (R144). -/
def sinQuarter : List Int :=
  [0, 3212, 6393, 9512, 12539, 15446, 18204, 20787, 23170, 25329, 27245, 28898, 30273, 31356, 32137, 32609, 32767]

/-- SIN[i]. -/
def sin64 (i : Nat) : Int :=
  let j := i % 32
  let v := sinQuarter.getD (if j ≤ 16 then j else 32 - j) 0
  if i % 64 < 32 then v else -v

/-- One more term of the sine series at angle `a`, in units of 2^-64, from term `n` on. -/
def sinSeries (a : Int) : Nat → Int → Nat → Int
  | 0, _, _ => 0
  | k + 1, t, n => t + sinSeries a k (-(t * a / 2 ^ 64 * a / 2 ^ 64) / ((n + 1) * (n + 2))) (n + 2)

/-- sin(2π p / m) in units of 2^-64, by quadrant. -/
def sinTurn (p m : Nat) : Int :=
  let q := 4 * (p % m) / m
  let r : Nat := 4 * (p % m) % m
  let a : Int := 28976077832308491369 * (if q % 2 = 0 then r else m - r) / m
  let v := sinSeries a 12 a 1
  if q < 2 then v else -v

/-! ## Factors in force -/

/-- N in force in tile `t` (R140). -/
def State.cycleN (s : State) (t : Nat) : Nat := fld (s.rdLive (Reg.COO_CYCLE t)) 0 11

/-- The gain set word `w` that cell `c` uses under thermal band `tb` (R157). -/
def State.gain (s : State) (c tb w : Nat) : Word :=
  s.rdLive (Reg.COO_GAIN_W0 (tileOf c) (3 * tb + s.rdf (cooWord c 7) 8 2) + 4 * w)

/-- The halfword of the copy in force at byte offset `a`. -/
def State.liveHalf (s : State) (a : Nat) : Nat := fld (s.rdLive (a / 4 * 4)) (8 * (a % 4)) 16

/-- The byte of the copy in force at byte offset `a`. -/
def State.liveByte (s : State) (a : Nat) : Nat := fld (s.rdLive (a / 4 * 4)) (8 * (a % 4)) 8

/-! ## Phase-response and coupling tables (R149, R150) -/

/-- A lookup: the code, and −1, 0 or +1 as it clamped. -/
def lookup (e : Nat → Int) (org : Int) (sh : Nat) (phi : Int) : Int × Int :=
  let d := satI32 (phi - org)
  if d < 0 then (e 0, -1)
  else if 63 ≤ d / (2 : Int) ^ sh then (e 63, 1)
  else
    let i := (d / (2 : Int) ^ sh).toNat
    let f := d % (2 : Int) ^ sh
    (e i + (e (i + 1) - e i) * f / (2 : Int) ^ sh, 0)

/-- prt_p of cell `c` in band `b`. -/
def State.prtP (s : State) (c b : Nat) (phi : Int) : Int × Int :=
  let t := tileOf c
  let l := localOf c
  lookup (fun i => signed 16 (s.liveHalf (Reg.COO_PTAB t l 0 + 0x80 * b + 2 * i))) (sInt (s.rdLive (Reg.COO_HDR_W0 t l b)))
    (fld (s.rdLive (Reg.COO_HDR_W1 t l b)) 0 5) phi

/-- Entry `i` of the heater table of cell `c` in band `b`. -/
def State.hEntry (s : State) (c b i : Nat) : Int :=
  ((s.liveHalf (Reg.COO_HTAB (tileOf c) (localOf c) 0 + 0x80 * b + 2 * i) % 16384 : Nat) : Int)

/-- HORG and HSH. -/
def State.hHead (s : State) (c b : Nat) : Int × Nat :=
  (sInt (s.rdLive (Reg.COO_HDR_W2 (tileOf c) (localOf c) b)), fld (s.rdLive (Reg.COO_HDR_W3 (tileOf c) (localOf c) b)) 0 5)

/-- prt_h of cell `c` in band `b`. -/
def State.prtH (s : State) (c b : Nat) (phi : Int) : Int × Int :=
  lookup (s.hEntry c b) (s.hHead c b).1 (s.hHead c b).2 phi

/-- COO_HSCALE in force for thermal band `tb`, applied to a heater phase. -/
def State.hScaled (s : State) (c tb : Nat) (phi : Int) : Int :=
  mulsh (fld (s.rdLive (Reg.COO_HSCALE (tileOf c) tb)) 0 16) phi 14

/-- The segment of a table that holds code `h`: the first whose ends bracket it. -/
def bracketing (e : Nat → Int) (h : Int) : Option Nat :=
  (List.range 63).find? fun i => (decide (e i ≤ h) && decide (h ≤ e (i + 1))) || (decide (e (i + 1) ≤ h) && decide (h ≤ e i))

/-- The phase at which the heater table of band `b` gives code `h`, by inverse interpolation; an end of the table where none of
its segments reaches `h`. -/
def State.hInverse (s : State) (c b : Nat) (h : Int) : Int :=
  let e := s.hEntry c b
  let org := (s.hHead c b).1
  let step := (2 : Int) ^ (s.hHead c b).2
  match bracketing e h with
  | some i => satI32 (org + i * step + if e (i + 1) = e i then 0 else ((h - e i) * step).tdiv (e (i + 1) - e i))
  | none => if (decide (h < e 0)) == (decide (e 0 ≤ e 63)) then org else satI32 (org + 63 * step)

/-- nc(i) of R150 for a neighbour. -/
def State.ncTerm (s : State) (c b i d : Nat) : Int :=
  let h := s.hcode d
  let a := Reg.COO_NCTAB (tileOf c) (localOf c) 0 + 0x40 * b + 16 * i
  let e := fun k => signed 8 (s.liveByte (a + k))
  let x := h / 1024
  let v : Int := if x = 15 then e 15 * 1024 else e x * 1024 + (e (x + 1) - e x) * (h % 1024 : Nat)
  satI32 (v / 1024 * (2 : Int) ^ fld (s.rdLive (Reg.COO_HDR_W1 (tileOf c) (localOf c) b)) 8 5)

/-- NC of cell `c` in band `b`, saturating. -/
def State.ncSum (s : State) (c b : Nat) : Int :=
  ((neighbours c).zip (List.range 4)).foldl (fun v p => match p.1 with
    | some d => satI32 (v + s.ncTerm c b p.2 d)
    | none => v) 0

/-! ## Trace ring (R160) -/

/-- A record of value `v` of probe `p` written for local cell `l`. -/
def State.traceWrite (s : State) (t l p : Nat) (v : Word) : State :=
  let st := s.rd (Reg.COO_TRSTAT t)
  let x := s.tileRec t
  if wbit st 30 then s
  else
    let i := fld st 0 11
    let w1 := pack [(29, 3, p), (22, 7, l), (0, 22, x.cycle)]
    let s1 := { s with traceMem := Store.set 0#32 (Store.set 0#32 s.traceMem (4096 * t + 2 * i) v) (4096 * t + 2 * i + 1) w1 }
    let left := x.tracePost - 1
    let s2 := s1.wrf (Reg.COO_TRSTAT t) 0 11 (i + 1)
    if wbit st 31 then (s2.setTileRec t { x with tracePost := left }).wrBit (Reg.COO_TRSTAT t) 30 (left == 0) else s2

/-- The records of the selected probes, in probe order, when cell `c` is the traced cell of a running trace. -/
def State.traceCell (s : State) (c : Nat) (vals : List Word) : State :=
  let t := tileOf c
  let ctl := s.rd (Reg.COO_TRCTL t)
  if wbit ctl 31 && fld ctl 24 7 == localOf c then
    (vals.zip (List.range 8)).foldl (fun s v => if wbit ctl (16 + v.2) then s.traceWrite t (localOf c) v.2 v.1 else s) s
  else s

/-- The trace of tile `t` triggers: POST further records, then it stops. -/
def State.traceFire (s : State) (t : Nat) : State :=
  let ctl := s.rd (Reg.COO_TRCTL t)
  if wbit ctl 31 && !s.bit (Reg.COO_TRSTAT t) 31 then
    ((s.wrBit (Reg.COO_TRSTAT t) 31 true).setTileRec t { s.tileRec t with tracePost := fld ctl 0 11 }).wrBit
      (Reg.COO_TRSTAT t) 30 (fld ctl 0 11 == 0)
  else s

/-- The trace of a cell's tile triggers if the cell is traced and bit `b` of COO_TRTRIG asks for it. -/
def State.traceFireCell (s : State) (c b : Nat) : State :=
  let t := tileOf c
  if s.bit (Reg.COO_TRTRIG t) b && s.rdf (Reg.COO_TRCTL t) 24 7 == localOf c then s.traceFire t else s

/-! ## Lock band and status (R152) -/

/-- HELD and OOB of COO_STAT. -/
def State.cooStat (s : State) (t : Nat) : State :=
  let cells := (List.range 76).map (cellOf t)
  let held := (cells.filter fun c => (s.coo c).lastHeld).length
  let oob := (cells.filter fun c => (s.cell c).mode == 0 && !s.bit (cooWord c 7) 31).length
  s.wr (Reg.COO_STAT t) (put (put (s.rd (Reg.COO_STAT t)) 8 8 held) 0 8 oob)

/-- INBAND of a cell evaluated on a non-held cycle with error `e`. -/
def State.judgeBand (s : State) (c : Nat) (e thr : Int) : State :=
  let x := s.coo c
  let inside := decide ((e.natAbs : Int) ≤ thr)
  let i := if inside then x.inRun + 1 else 0
  let o := if inside then 0 else x.outRun + 1
  let s1 := s.setCoo c { x with inRun := min i 4, outRun := min o 4 }
  if 4 ≤ i then s1.wrBit (cooWord c 7) 31 true
  else if 4 ≤ o && s1.bit (cooWord c 7) 31 then
    let s2 := (s1.wrBit (cooWord c 7) 31 false).traceFireCell c 1
    if (s2.cell c).mode = 0 then (s2.count (cooWord c 14) 16 16 1).err (Reg.COO_ERRSTAT (tileOf c)) 1 else s2
  else s1

/-! ## The control law (R145 to R148) -/

/-- Whether a cycle of sums is observable (R145). -/
def State.observable (s : State) (c : Nat) (m : CycleSums) : Bool :=
  decide (s.rdf (cooWord c 0) 16 16 * (if m.len = 0 then s.cycleN (tileOf c) else m.len) ≤ m.s0.natAbs)

/-- The target in force of a cell in band `b`. -/
def State.target (s : State) (c b : Nat) (cross : Bool) : Int := sInt (s.rdLive (cooWord c (3 + 2 * b + cross.toNat)))

/-- A Pockels code as the law gives it: phiP and the lookup of it, from FB, Hmod and NC as they stand (R148). -/
def State.phiP (s : State) (c : Nat) : Int :=
  let r := s.cell c
  let x := s.coo c
  satI32 (satI32 (satI32 (s.target c r.band.toNat r.cross - sInt (s.rd (cooWord c 12))) - x.nc) + x.fb)

/-- PSAT recorded for a Pockels lookup. -/
def State.notePsat (s : State) (c : Nat) (sat : Int) : State :=
  ((s.setCoo c { s.coo c with psat := sat }).wrBit (cooWord c 7) 30 (sat != 0)).when (sat != 0) (·.err (Reg.COO_ERRSTAT (tileOf c)) 2)

/-- HSAT recorded for a heater lookup. -/
def State.noteHsat (s : State) (c : Nat) (sat : Int) : State :=
  (s.wrBit (cooWord c 7) 29 (sat != 0)).when (sat != 0) (·.err (Reg.COO_ERRSTAT (tileOf c)) 3)

/-- The Pockels driver of a cell takes a law entry: not during a passage, and not in a tile that fades or is cut (R166, R173). -/
def State.lawEntry (s : State) (c : Nat) (y : Int) : State :=
  let s1 := s.setCoo c { s.coo c with pcode := y }
  if (s.coo c).passage.any (·.1 ≤ 40) || s.bit (Reg.DRV_STAT (tileOf c)) 24 || s.bit (Reg.DRV_STAT (tileOf c)) 25 then s1
  else s1.setPbase c y

/-- The feedback part of the law on an observed cycle: ERR, the integrator of the band in force, FB (R147). Answers e. -/
def State.feedback (s : State) (c tb : Nat) (m : CycleSums) : State × Int :=
  let x := s.coo c
  let g := s.gain c tb
  let ia := cooWord c (9 + (s.cell c).band.toNat)
  let e := mulsh (sInt (s.rdLive (cooWord c 2))) (satI32 ((m.s1 * 512).tdiv m.s0)) (fld (s.rdLive (cooWord c 1)) 16 5)
  let di := mulsh (sInt (g 1)) e (fld (g 6) 8 5)
  let imax : Int := fld (g 4) 0 31
  let i := if x.psat != 0 && di.sign == x.psat then sInt (s.rd ia) else clampI (-imax) imax (satI32 (sInt (s.rd ia) + di))
  let fb := satI32 (mulsh (sInt (g 0)) e (fld (g 6) 0 5) + i)
  (((s.wr ia (ofI i)).wr (cooWord c 8) (ofI e)).setCoo c { x with fb := fb }, e)

/-- The values of Table 6-2 for a law that found the sums `m`, error `e` and command `phi`. -/
def State.probes (s : State) (c tb : Nat) (m : CycleSums) (held : Bool) (e phi : Int) : List Word :=
  let g := s.gain c tb
  [ofI (satI32 m.s0), ofI (satI32 m.s1), if held then 0x80000000#32 else ofI e, ofI (mulsh (sInt (g 0)) e (fld (g 6) 0 5)),
    s.rd (cooWord c (9 + (s.cell c).band.toNat)), ofI phi, s.rd (cooWord c 11), ofI (s.coo c).nc]

/-- The records of a t_law at which no law ran for the traced cell (R160): a held cycle's. -/
def State.traceIdle (s : State) (c tb : Nat) : State :=
  let x := s.coo c
  s.traceCell c (s.probes c tb (x.ended.getD x.cur) true (sInt (s.rd (cooWord c 8))) (s.phiP c))

/-- The law of one cell for the cycle sums `m` (R147). At S0 = 0 the division of R145 has no value: the cycle is held, and OBS follows
R145 (DESIGN CHOICE, log entry 108). -/
def State.law (s : State) (c tb : Nat) (m : CycleSums) : State :=
  let t := tileOf c
  let r := s.cell c
  let b := r.band.toNat
  let g := s.gain c tb
  let obs := s.observable c m
  let held := m.bad || !obs || m.s0 == 0
  let sF := if r.mode = 4 then (s.wr (cooWord c 11) 0#32).wr (cooWord c 12) 0#32 else s
  let f := if held then (sF, sInt (sF.rd (cooWord c 8))) else sF.feedback c tb m
  let hcmd := sInt (f.1.rd (cooWord c 11))
  let hmod := sInt (f.1.rd (cooWord c 12))
  let hm := satI32 (hmod + mulsh (sInt (g 3)) (satI32 (hcmd - hmod)) (fld (g 6) 24 5))
  let dim := if obs then 0 else min 16 ((s.coo c).dimRun + 1)
  let s1 := (f.1.wr (cooWord c 12) (ofI hm)).setCoo c { f.1.coo c with nc := f.1.ncSum c b, lastHeld := held, dimRun := dim, ended := none, postLaw := false }
  let phi := s1.phiP c
  let p := s1.prtP c b phi
  let s2 := ((s1.notePsat c p.2).lawEntry c p.1).noteHsat c (s1.prtH c b (s1.hScaled c tb hcmd)).2
  let s3 := (s2.wrBit (cooWord c 7) 28 obs).when held (·.count (cooWord c 14) 0 16 1)
  let s4 := s3.traceCell c (s3.probes c tb m held f.2 phi)
  (if held then s4 else s4.judgeBand c f.2 (fld (g 5) 0 31)).cooStat t

/-! ## Offload and heater targets (R151, R172) -/

/-- The heater code of a cell's Hcmd queued as its newest target. -/
def State.queueHeater (s : State) (c tb : Nat) : State :=
  let h := s.prtH c (s.cell c).band.toNat (s.hScaled c tb (sInt (s.rd (cooWord c 11))))
  (s.setCoo c { s.coo c with htarget := some (h.1.toNat % 16384) }).noteHsat c h.2

/-- The largest `k` up to `n` for which `ok` holds, when `ok` holds up to a bound; 0 when it holds nowhere. -/
def largestOk (ok : Nat → Bool) : Nat → Nat → Nat → Nat
  | 0, lo, _ => lo
  | f + 1, lo, hi => if hi ≤ lo + 1 then lo else
      let m := (lo + hi) / 2
      if ok m then largestOk ok f m hi else largestOk ok f lo m

/-- The offload step of a cell in RUN or DARK (R151). -/
def State.offload (s : State) (c tb : Nat) : State :=
  let b := (s.cell c).band.toNat
  let ia := cooWord c (9 + b)
  let g := s.gain c tb
  let i := sInt (s.rd ia)
  let h := sInt (s.rd (cooWord c 11))
  let d := mulsh (sInt (g 2)) i (fld (g 6) 16 5)
  let fits := fun (k : Int) => (s.prtH c b (s.hScaled c tb (satI32 (h + k)))).2 == 0
  let part : Int := if fits d then d else d.sign * largestOk (fun k => fits (d.sign * k)) 33 0 d.natAbs
  let s1 := (s.wr ia (ofI (satI32 (i - part)))).wr (cooWord c 11) (ofI (satI32 (h + part)))
  (((s1.setCoo c { s1.coo c with postTick := false }).queueHeater c tb).when (part != d) (·.noteHsat c 1))

/-! ## Circuits across cells, loop states and gain classes (R138, R154) -/

/-- The cells the circuits `cs` cross under the cell states `st`, once for each input that carries one. -/
def loads (cs : List Ckt) (st : Nat → Bool) : List Nat := cs.flatMap fun k => pathCells st k.feed

/-- The gain class of a cell under `ls`: SINGLE, DOUBLE or DARK. -/
def classOf (ls : List Nat) (c : Nat) : Nat := match ls.count c with
  | 0 => 2
  | 1 => 0
  | _ => 1

/-- The state a cell not in CAL, HOLD, FENCED or REST is in: FAULT, RUN or DARK (Table 6-1). -/
def State.naturalMode (s : State) (ls : List Nat) (c : Nat) : Nat :=
  if s.bit (drvWord c 1) 31 then 4 else if ls.contains c then 0 else 1

/-- FREEZE or P2 holds the loops of tile `t` (Table 6-1): in P2 from step 6 of Table 15-4 until the exit. -/
def State.heldTile (s : State) (t : Nat) : Bool := s.bit (Reg.COO_CTRL t) 0 || s.pstate == 2

/-- The loops of tile `t` stand in HOLD, or have not left it since. -/
def State.frozen (s : State) (t : Nat) : Bool := s.heldTile t || s.bit (Reg.COO_STAT t) 24

/-- The state a cell that leaves FENCED or REST takes: HOLD in a frozen tile, else by its circuits and heater (Table 6-1). -/
def State.returnMode (s : State) (ls : List Nat) (c : Nat) : Nat := if s.frozen (tileOf c) then 3 else s.naturalMode ls c

/-! ## Staged factors (R158, R173, R222) -/

/-- The words of the factors of cell `c` and the bits of each that are staged. -/
def factorWords (c : Nat) : List (Nat × Word) :=
  let t := tileOf c
  let l := localOf c
  (cooWord c 0, 0x00003F1F#32) :: ((List.range 6).map fun k => (cooWord c (k + 1), 0xFFFFFFFF#32)) ++
    ((List.range 168).map fun k => (Reg.COO_PTAB t l k, 0xFFFFFFFF#32)) ++ [(drvWord c 0, 0x00000130#32)]

/-- A staged factor of cell `c` differs from the one in force. -/
def State.isStaged (s : State) (c : Nat) : Bool := (factorWords c).any fun p => s.rd p.1 &&& p.2 != s.rdLive p.1 &&& p.2

/-- STAGED of every cell counted in ASY_STAT. -/
def State.countStaged (s : State) : State :=
  s.wrf Reg.ASY_STAT 0 13 ((List.range 4864).filter fun c => s.bit (cooWord c 7) 27).length

/-- STAGED and SPANSTG of cell `c`, and STAGEDCNT, brought up to date. -/
def State.markStaged (s : State) (c : Nat) : State :=
  let span := s.rd (drvWord c 0) &&& 0x130#32 != s.rdLive (drvWord c 0) &&& 0x130#32
  ((s.wrBit (cooWord c 7) 27 (s.isStaged c)).wrBit (drvWord c 1) 27 span).countStaged

/-- The staged copy of cell `c` brought into force, spans as words only. -/
def State.forceFactors (s : State) (c : Nat) : State := s.each (factorWords c) fun s p => s.wrLive p.1 (s.rd p.1)

/-- The spans shown as in force by the DRV status word. -/
def State.showSpans (s : State) (c : Nat) : State :=
  let w := s.rdLive (drvWord c 0)
  (s.wrf (drvWord c 1) 26 1 (fld w 8 1)).wrf (drvWord c 1) 24 2 (fld w 4 2)

/-- The staged copy of cell `c` and the copy in force written together, while every cell is in REST (R158). -/
def State.loadFactors (s : State) (c : Nat) : State := ((s.forceFactors c).showSpans c).wrBit (cooWord c 7) 27 false

/-! ## The commit instant (R120, R153, R154, R168 to R173, R222) -/

/-- The circuits as commit `k` leaves them. -/
def State.cktsOf (s : State) (k : Commit) : List Ckt :=
  match k.kind with
  | .host => s.afterCues ((s.commitBatches k).flatMap (·.cues)) s.ckts
  | .protection => s.ckts.map fun x => if k.switches.contains x.inp then { x with activep := !x.activep } else x
  | .calibration => s.ckts

/-- The loads as commit `k` leaves them. -/
def State.loadsOf (s : State) (k : Commit) : List Nat :=
  loads (s.cktsOf k) fun c => ((k.delta.find? (·.cell == c)).map (·.cross)).getD (s.cross c)

/-- The schedules whose windows may carry factors of lit cells, and the one every circuit across cell `c` waits for (R222 case 4). -/
def State.windowCarries (s : State) (c n : Nat) : Bool :=
  wbit (s.rd Reg.ASY_CTRL) (24 + n) &&
    s.ckts.all fun k => !(pathCells s.cross k.feed).contains c || s.rdf (Reg.CIR_PARTCTL k.owner) 1 3 == n

/-- The staged factors of cell `c` come into force at commit `k`, which takes the loads from `before` to `after` (R222): those that the commit
was given, only on a cell that is dark, or whose circuits all wait for a schedule whose open window holds T_c (case 4). -/
def State.factorsDue (s : State) (k : Commit) (before after : List Nat) (c : Nat) : Bool :=
  let stepped := k.delta.any (·.cell == c) || classOf after c != s.rdf (cooWord c 7) 8 2
  let dark := !before.contains c && !after.contains c
  let carried := k.factors.contains c && (dark || (List.range 8).any fun n => s.windowCarries c n && ((s.schedule n).openAt k.tc).isSome)
  s.bit (cooWord c 7) 27 && decide (s.saveUntil ≤ s.ns) && !s.calCells.any (·.cell == c) && match k.kind with
    | .calibration => carried
    | .host => dark || stepped || carried
    | .protection => false

/-- Commit `k` steps cell `c`: in state, band, gain class or factors (R153). -/
def State.stepsCell (s : State) (k : Commit) (before after : List Nat) (c : Nat) : Bool :=
  k.delta.any (·.cell == c) || classOf after c != s.rdf (cooWord c 7) 8 2 || s.factorsDue k before after c

/-- The cells that commit `k` steps (R153). -/
def State.stepsOf (s : State) (k : Commit) : List Nat :=
  let before := loads s.ckts s.cross
  let after := s.loadsOf k
  (k.involved.flatMap fun t => (List.range 76).map (cellOf t)).filter (s.stepsCell k before after)

/-- The cells of tile `t` whose law results and ticks that fall now are postponed (R153). -/
def State.postponed (s : State) (t : Nat) : List Nat :=
  s.settling.flatMap (·.2) ++ (s.commits.filter fun k => k.phase == .go && k.involved.contains t).flatMap s.stepsOf

/-- A band change of tile `t` that falls now is postponed (R119). -/
def State.postponesBand (s : State) (t : Nat) : Bool :=
  s.commits.any fun k => k.involved.contains t && (k.phase == .go || s.settling.any fun p => p.1 == k.tc)

/-- The waveform of a step (Table 7-1); 0 runs no segment. -/
def waveOf (old new : CellRec) : Nat :=
  if old.cross != new.cross then (if new.cross then 1 else 2) + (if new.band then 2 else 0)
  else if old.band != new.band then (if new.band then 5 else 6)
  else 0

/-- PE[i] of a segment. -/
def State.preEmphasis (s : State) (t : Nat) (g : Segment) (i : Nat) : Int :=
  let a := Reg.DRV_WAVE t g.bank g.band (g.wave - 1) + 2 * i
  mulsh (signed 16 (fld (s.rd (a / 4 * 4)) (8 * (a % 4)) 16)) g.delta 14

/-- The dither term of cell `c` at instant `t` (in units of `now`) (R167). -/
def State.dither (s : State) (c t : Nat) : Int :=
  let k := fld (s.rdLive (cooWord c 0)) 0 5
  let m := 50000 * nsUnit
  let u := (((t : Int) - (s.tileRec (tileOf c)).epoch) % (m : Int)).toNat
  roundDiv (fld (s.rdLive (cooWord c 1)) 0 16 * sinTurn (k * u) m) (2 ^ 64)

/-- The driver adds dither to cell `c`'s code (R167): in RUN, DARK and FAULT, but not in a fade and not in a Pockels span passage. -/
def State.ditherOn (s : State) (c : Nat) : Bool :=
  let m := (s.cell c).mode
  (m == 0 || m == 1 || m == 4) && !s.bit (Reg.DRV_STAT (tileOf c)) 24 && !(s.coo c).passage.any (·.1 ≤ 40)

/-- Zero drive is held on a cell in CAL (R213): by the Tinker, and in a full calibration during the rest-error interval, 2 ms from the
source's settling, and until the cell's stage begins (Table 9-3). -/
def State.zeroDrive (s : State) (x : CalRec) : Bool :=
  x.tinker || s.fullcal.any fun (f : FullCal) => !f.settledAt.any (fun t => decide (t + 2000000 ≤ s.ns)) ||
    decide (s.rdf Reg.ASY_STAT 21 5 < x.cell / 256)

/-- What takes the place of the dither term in CAL (R213): −base at zero drive; else the probe offset and tone that the Assayer chose for
the visit, which the spec leaves to it: free values. -/
def State.probeTerm (s : State) (c t : Nat) : Int :=
  match s.calCells.find? (·.cell == c) with
  | some x => if s.zeroDrive x then -(s.pbase c) else Config.probeOffset x.seed t + Config.probeTone x.seed t
  | none => 0

/-- The output of the Pockels driver of cell `c` at instant `t` (ns) before the clamp (R165, R213). -/
def State.pockelsSum (s : State) (c t : Nat) : Int :=
  let pe := match (s.coo c).seg with
    | some g => if g.tc ≤ t ∧ t ≤ g.tc + 396 then s.preEmphasis (tileOf c) g ((t - g.tc) / 4) else 0
    | none => 0
  s.pbase c + pe + (if s.ditherOn c then s.dither c (t * nsUnit) else if (s.cell c).mode = 2 then s.probeTerm c t else 0)

/-- The Pockels output y (R165). -/
def State.pockelsOut (s : State) (c t : Nat) : Int := sat16 (s.pockelsSum c t)

/-- The arm outputs V_U and V_L at code `y` and the span in force, in units of 0.1 V / 32,768 (R163). -/
def State.armOutputs (s : State) (c : Nat) (y : Int) : Int × Int :=
  let span : Int := if s.bit (drvWord c 1) 26 then 18 else 9
  (y * span, -(y * span))

/-- The clamped samples among `n` sample instants from instant `t` on. -/
def State.clampsIn (s : State) (c t n : Nat) : Nat :=
  ((List.range n).filter fun i => s.pockelsSum c (t + 4 * i) != s.pockelsOut c (t + 4 * i)).length

/-- The clamped samples among the sample instants number `i` up to number `j` (4 ns each), the terms standing as they do: those of a
segment and of CAL one by one, the rest by the 12,500 of a dither period. -/
def State.clampsBetween (s : State) (c i j : Nat) : Nat :=
  let peak := (s.pbase c).natAbs + if s.ditherOn c then fld (s.rdLive (cooWord c 1)) 0 16 else 0
  if (s.cell c).mode = 2 then s.clampsIn c (4 * i) (j - i)
  else
    let e := match (s.coo c).seg with
      | some g => min j (max i (g.tc / 4 + 100))
      | none => i
    let n := j - e
    s.clampsIn c (4 * i) (e - i) + if peak ≤ 32767 then 0 else
      (if n < 12500 then 0 else n / 12500 * s.clampsIn c (4 * e) 12500) + s.clampsIn c (4 * e) (n % 12500)

/-- The clamped samples up to now counted in PCLAMPCNT, before a term of the output changes (R165). -/
def State.settleClamps (s : State) (c : Nat) : State :=
  let i := (s.coo c).counted
  let j := (s.ns + 3) / 4
  if j ≤ i then s
  else
    let k := s.clampsBetween c i j
    let s1 := s.setCoo c { s.coo c with counted := j }
    if k = 0 then s1 else (s1.count (drvWord c 3) 16 16 k).err (Reg.DRV_ERRSTAT (tileOf c)) 3

/-- A cell enters loop state `m` (R138): its clamped samples so far are counted, and leaving HOLD clears its override (R179). -/
def State.toMode (s : State) (c m : Nat) : State :=
  let s1 := s.settleClamps c
  let a := drvWord c 2
  (if (s.cell c).mode = 3 ∧ m ≠ 3 then s1.wr a (s1.rd a &&& 0x3FFFFFFF#32) else s1).setMode c m

/-- A cell left HOLD: its loop state, and the Cooper's codes back (R179). -/
def State.thaw (s : State) (ls : List Nat) (c : Nat) : State := (s.toMode c (s.naturalMode ls c)).setPbase c (s.coo c).pcode

/-- INBAND of a cell goes to 0 without a law (R152): the trace may trigger (R160). -/
def State.dropBand (s : State) (c : Nat) : State :=
  if s.bit (cooWord c 7) 31 then (s.wrBit (cooWord c 7) 31 false).traceFireCell c 1 else s

/-- The stages of a span passage: Pockels, heater, or both (Table 7-3). -/
def passageStages (p h : Bool) : List Nat := (if p then [16, 40] else []) ++ (if h then [2000, 4000] else [])

/-- Cell `c`'s staged factors are in force: counted for AUTOSAVE, off the factory set, and the quality record is theirs. -/
def State.ownNow (s : State) (c : Nat) : State :=
  { s with
    sinceSave := if s.sinceSave.contains c then s.sinceSave else c :: s.sinceSave
    ownFactors := if s.ownFactors.contains c then s.ownFactors else c :: s.ownFactors
    extOld := s.extOld.filter fun (p : Nat × Nat) => p.1 / 2 != c }

/-- A span of cell `c` would change with its staged factors. -/
def State.spanMoves (s : State) (c : Nat) : Bool := s.rdLive (drvWord c 0) &&& 0x130#32 != s.rd (drvWord c 0) &&& 0x130#32

/-- The post-commit Pockels code of cell `c` at commit `k`, and how its lookup clamped: from the new target, band and factors, with FB,
Hmod and NC as they stand (R153). -/
def State.postCode (s : State) (k : Commit) (before after : List Nat) (c : Nat) : Int × Int :=
  let s1 := match k.delta.find? (·.cell == c) with
    | some d => s.setCell c { s.cell c with cross := d.cross, band := d.band }
    | none => s
  let s2 := if s.factorsDue k before after c && !(s.spanMoves c && (before.contains c || after.contains c)) then s1.forceFactors c else s1
  s2.prtP c (s2.cell c).band.toNat (s2.phiP c)

/-- The timed entries of commit `k` written or rewritten for those of `cells` that it steps (R153, R166). -/
def State.timeCodes (s : State) (k : Commit) (cells : List Nat) : State :=
  let before := loads s.ckts s.cross
  let after := s.loadsOf k
  let xs := (cells.filter (s.stepsCell k before after)).map fun c => (c, s.postCode k before after c)
  s.setCommit { k with codes := (k.codes.filter fun p => !xs.any (·.1 == p.1)) ++ xs }

/-- The timed entries of tile `t`'s resident set-points computed again after laws of `cells`, before T_arm. -/
def State.retime (s : State) (t : Nat) (cells : List Nat) : State :=
  (s.commits.filter fun (k : Commit) => (k.phase == .placed || k.phase == .armed) && k.resident.contains t).foldl
    (fun (s : State) k => s.timeCodes k cells) s

/-- At T_arm the timed entries of commit `tc` are fixed: those not computed before are computed now (R166). -/
def State.fixCodes (s : State) (tc : Nat) : State :=
  match s.commitAt tc with
  | some k => if k.phase == .go then
      s.timeCodes k ((k.involved.flatMap fun t => (List.range 76).map (cellOf t)).filter fun c => !k.codes.any (·.1 == c))
    else s
  | none => s

/-- The factors of cell `c` brought into force at a commit: with the passage stages their spans need. `lit` says the cell carries
a circuit before or after T_c, which withholds a set that changes a span (R173). -/
def State.takeFactors (s : State) (c tb : Nat) (lit : Bool) : State × List Nat :=
  let old := s.rdLive (drvWord c 0)
  let new := s.rd (drvWord c 0)
  let p := fld old 8 1 != fld new 8 1
  let h := fld old 4 2 != fld new 4 2
  if (p || h) && lit then (s.err (Reg.DRV_ERRSTAT (tileOf c)) 4, [])
  else
    let rest := (s.cell c).mode == 6
    let s1 := (s.forceFactors c).when rest (·.showSpans c)
    let s2 := (if h then s1.queueHeater c tb else s1).ownNow c
    (s2.markStaged c, if rest then [] else passageStages p h)

/-- Hcmd re-expressed in the heater table in force as the phase that gives the current hcode; Hmod keeps its difference. -/
def State.reexpress (s : State) (c : Nat) : State :=
  let h := sInt (s.rd (cooWord c 11))
  let m := sInt (s.rd (cooWord c 12))
  let n := s.hInverse c (s.cell c).band.toNat (((s.coo c).htarget.getD (s.hcode c) : Nat) : Int)
  (s.wr (cooWord c 11) (ofI n)).wr (cooWord c 12) (ofI (satI32 (m + satI32 (n - h))))

/-- The drive of a stepped cell at T_c: base and pre-emphasis, or the start of a span passage (R166, R169, R173). A heater passage in
progress goes on through a later step that does not restart it. -/
def State.stepDrive (s : State) (c tc band : Nat) (old : CellRec) (stages : List Nat) (y : Int) : State :=
  let t := tileOf c
  let x := s.coo c
  let base := s.pbase c
  let pPass := stages.contains 40
  let kept := if stages.contains 4000 then [] else x.passage.filter fun (p : Nat × Nat) => 40 < p.1
  let pass := sortBy Prod.snd (kept ++ stages.map fun n => (n, tc + n))
  let s1 := if stages.contains 4000 then s.setHcode c 0 else s
  if pPass then (s1.setPbase c 0).setCoo c { x with passage := pass, passTc := tc, passCode := y, seg := none, pcode := y }
  else
    let w := if s.bit (Reg.DRV_CTRL t) 0 || !stages.isEmpty then 0 else waveOf old (s.cell c)
    let g := if w = 0 then none else some (Segment.mk tc (band / 8) (band % 8) w (y - base))
    let s2 := (s1.setPbase c y).setCoo c { x with passage := pass, passTc := tc, passCode := y, seg := g, pcode := y }
    if w = 0 then s2 else s2.count (drvWord c 3) 0 16 1

/-- One cell of commit `k` stepped at T_c: its timed entry, factors, band, gain class, drive; its cycle is held (R146, R153, R154). -/
def State.stepCell (s0 : State) (k : Commit) (before after : List Nat) (c : Nat) : State :=
  let t := tileOf c
  let s := s0.settleClamps c
  let p := ((k.codes.find? (·.1 == c)).map (·.2)).getD (s.postCode k before after c)
  let old := s.cell c
  let band := ((k.bands.find? (·.1 == t)).map (·.2)).getD 0
  let due := s.factorsDue k before after c
  let s1 := match k.delta.find? (·.cell == c) with
    | some d => s.setCell c { old with cross := d.cross, band := d.band, gen := k.gen }
    | none => s
  let s2 := s1.wrf (cooWord c 7) 8 2 (classOf after c)
  let f := if due then s2.takeFactors c (band % 8) (before.contains c || after.contains c) else (s2, [])
  let hChanged := f.2.contains 4000 || (due && fld (s.rdLive (drvWord c 0)) 4 2 != fld (f.1.rdLive (drvWord c 0)) 4 2)
  let forced := due && !f.1.bit (cooWord c 7) 27
  let s3 := if (old.band != (f.1.cell c).band || forced) && !hChanged then f.1.reexpress c else f.1
  let x := s3.coo c
  let s4 := (s3.setCoo c { x with cur := { x.cur with bad := true } }).notePsat c p.2
  let s5 := if old.mode = 5 ∨ old.mode = 6 then s4 else s4.stepDrive c k.tc band old f.2 p.1
  (if old.mode = 0 ∨ old.mode = 1 then s5.toMode c (s5.naturalMode after c) else s5).traceFireCell c 2

/-- A tile may step at T_c: powered, not fenced, and its drive neither fading nor cut (R118, R166). -/
def State.tileSteps (s : State) (t : Nat) : Bool :=
  s.tileLive t && !s.bit (Reg.DRV_STAT t) 24 && !s.bit (Reg.DRV_STAT t) 25

/-- The commit instant of commit `k` (R120). -/
def State.applyCommit (s : State) (k : Commit) : State :=
  let s0 := s.raise k.tc
  let tiles := k.involved.filter fun t => k.going.contains t && s0.tileSteps t
  let ds := k.delta.filter fun d => tiles.contains (tileOf d.cell)
  let k1 := { k with phase := .applied, stepped := tiles, delta := ds, involved := tiles }
  let before := loads s0.ckts s0.cross
  let after := s0.loadsOf k1
  let cells := s0.stepsOf k1
  let s1 := cells.foldl (fun s c => s.stepCell { k with delta := ds } before after c) s0
  let s2 := { s1 with settling := s1.settling ++ [(k.tc, cells)] }
  let s3 := tiles.foldl State.cooStat (s2.setCommit { k with phase := .applied, stepped := tiles })
  let s4 := { s3 with
    alts := mergeAlts s3.alts (((s3.commitBatches k).filterMap Batch.sol).flatMap Solution.alts)
    batches := s3.batches.map fun (b : Batch) => if k.batches.contains b.id then { b with phase := .committing k.tc } else b }
  (s4.when (tiles.any fun t => !s4.bit (Reg.MTX_ISLSTAT t) 2) (·.err Reg.LMP_ERRSTAT 2)).lampStat

/-! ## Cells in CAL (R212, R214) -/

/-- The result of the most recent ASY_CMD made final (Table 9-9): shared status and result code. -/
def State.asyResult (s : State) (status result : Nat) : State :=
  { s with asyLast := 0 }.wr Reg.ASY_CMDRES (pack [(31, 1, 1), (8, 4, status), (0, 4, result)])

/-- Command `k` begun: its result is the one ASY_CMDRES waits for. -/
def State.asyBegin (s : State) (k : Nat) : State := { s with asyLast := k }.wr Reg.ASY_CMDRES 0#32

/-- Command `k` ended: its result is final in ASY_CMDRES where no later command took its place. -/
def State.asyFinish (s : State) (k status result : Nat) : State := if s.asyLast = k then s.asyResult status result else s

/-- A result code recorded in a cell's quality record for the band measured. -/
def State.qualResult (s : State) (c : Nat) (band : Bool) (res : Nat) : State :=
  s.wrf (Reg.ASY_QUAL_W0 c) (if band then 8 else 4) 4 res

/-- A cell released from CAL to the state it was taken from, its heater at the held code (R214); where the tile's loops were
frozen meanwhile it comes back in HOLD. STALE of its channel is noted before it falls (R202). -/
def State.leaveCal (s : State) (x : CalRec) : State :=
  let c := x.cell
  let s0 := (s.noteStale (tileOf c) (localOf c)).settleClamps c
  let s1 := { s0 with calCells := s0.calCells.filter fun (y : CalRec) => y.cell != c }
  if (s.cell c).mode = 2 then
    ((s1.setHcode c (s.coo c).calH).toMode c (if s.frozen (tileOf c) && x.prev != 6 then 3 else x.prev)).cooStat (tileOf c)
  else s1

/-- CALSRC_EN and CALSRC_BAND driven; a change restarts the settle allowance (R216). -/
def State.calSource (s : State) (en band : Bool) : State :=
  if s.calEn = en ∧ s.calBand = band then s
  else ({ s with calEn := en, calBand := band, calSettled := false }.send (.pin "CALSRC_EN" en)).send (.pin "CALSRC_BAND" band)

/-- BUSY, PHASE and FACTORY of ASY_STAT. -/
def State.asyStat (s : State) : State :=
  let bg := s.calCells.any fun x => !x.tinker
  let ph := if s.fullcal.isSome then 1 else if bg then 2 else if s.saving.isSome then 3 else 0
  ((s.wrBit Reg.ASY_STAT 31 (ph != 0)).wrf Reg.ASY_STAT 28 3 ph).wrBit Reg.ASY_STAT 26 (s.factory && decide (s.ownFactors.length < 4864))

/-- BUSY of TNK_STAT. -/
def State.tnkStat (s : State) : State := s.wrBit Reg.TNK_STAT 31 ((s.calCells.any (·.tinker)) || s.tink.isSome)

/-- The status words after cells have left CAL; CALSRC_EN falls, and the couplers close, when no cell is left in CAL for the Assayer (R216,
R232, R233). -/
def State.afterCal (s : State) : State :=
  (if s.calEn && s.fullcal.isNone && !s.calCells.any (fun x => !x.tinker) then { s.calSource false s.calBand with couplers := [] } else s).asyStat.tnkStat

/-- CELL_YIELD (R214): a cell in CAL that a held solution or alternate names is released, its measurement abandoned with result
YIELD for the band measured. -/
def State.yieldCell (s : State) (x : CalRec) : State :=
  let band := if s.fullcal.isSome then s.bit Reg.ASY_STAT 20 else x.band
  let s1 := s.leaveCal x
  if x.tinker then { s1 with tink := s1.tink.filter fun (k : TinkOp) => k.cell != x.cell }.afterCal
  else (((s1.qualResult x.cell band 7).count Reg.ASY_YIELDCNT 0 32 1).when x.commanded (·.asyFinish (16 + x.cell) 1 7)).afterCal

/-- A measurement commanded by CELLCAL and abandoned for a power entry or a fence: DEFERRED, and the cell waits for its next eligible
visit again (R221; DESIGN CHOICE, log entry 115). -/
def State.deferCal (s : State) (x : CalRec) : State :=
  if x.commanded then { s with deferredCal := (s.deferredCal.filter fun (p : Nat × Bool) => p.1 != x.cell) ++ [(x.cell, x.full)] }.asyFinish (16 + x.cell) 1 0
  else s

/-- The cells in the delta of an alternate of one of the circuits `cs` (R212). -/
def State.altCells (s : State) (cs : List Ckt) (a : AltRec) : List Nat :=
  a.path.toList.flatMap fun p => (pathDelta (s.nowCell []) ((cs.find? (·.inp == a.wkg)).any (·.band)) p).map (·.cell)

/-- The cells in CAL among those named are yielded. -/
def State.yieldCells (s : State) (cells : List Nat) : State :=
  (s.calCells.filter fun x => cells.contains x.cell).foldl State.yieldCell s

end Sys2Proof.Machine
end

