-- ==== Sys2Proof/Machine/CueCommands.lean ====
section
/-! DEFINITION. The meanings of the commands of chapters 2 to 5 and 11: the fabric state table, cues, patterns, partitions, light,
the Tollkeeper, the Wheelwright and the Lamplighter up to its arm point. -/

namespace Sys2Proof.Machine

/-- What a command answers. -/
abbrev Result := Host.Outcome State Fault Refusal

/-- The state a command answers with; `s` where it answers none. -/
def stateOf (s : State) (r : Result) : State :=
  match r with
  | .next t => t
  | _ => s

/-! ## The fabric state table -/

/-- TILE_STATE_REPORT (R43, R44, R122): inside the bracket of the commit the tile reports for, or in one of its own; a report
after T_c + 1,000 ns sets RPTLATE. -/
def execTileStateReport (tile : Fin 64) (s : State) : Result :=
  match (sortBy Commit.tc s.commits).find? fun c =>
      c.phase == .applied && c.involved.contains tile.val && !c.reported.contains tile.val with
  | some c =>
    if s.ns ≤ c.tc + 1000 then
      .next (((s.when (!s.fsOpen) State.fsTick).reportTile tile).refreshMaps.setCommit
        { c with reported := c.reported ++ [tile.val] })
    else .next ((s.reportAlone tile).err Reg.LMP_ERRSTAT 0)
  | none =>
    if s.lateReports.contains tile.val then
      .next (({ s with lateReports := s.lateReports.filter (· != tile.val) }.reportAlone tile).err Reg.LMP_ERRSTAT 0)
    else .next (s.reportAlone tile)

/-- FABRIC_SNAPSHOT (R46): SNAP reads 1 until the copy; a write during a copy is merged into it. -/
def execFabricSnapshot (v : Word) (s : State) : Result :=
  .next (s.when (wbit v 0) (·.wrBit Reg.CIR_FSCTRL 0 true))

/-- The live fabric state table copied to the snapshot (R46). -/
def State.snapshotFabric (s : State) : State :=
  (s.each (List.range 512) fun s k =>
      (s.wr (Reg.CIR_OUTMAP_SNAP k) (s.rd (Reg.CIR_OUTMAP k))).wr (Reg.CIR_INMAP_SNAP k) (s.rd (Reg.CIR_INMAP k))).each
    (List.range 4864) fun s c => s.wr (Reg.CIR_CELLST_SNAP c) (s.rd (Reg.CIR_CELLST c))

/-- FABRIC_SNAPSHOT_COPY (R46): taken when no update is in progress. -/
def execFabricSnapshotCopy (s : State) : Result :=
  if s.bit Reg.CIR_FSCTRL 0 && !s.fsOpen then
    .next ((s.snapshotFabric.wr Reg.CIR_FSSNAPSEQ (s.rd Reg.CIR_FSSEQ)).wrBit Reg.CIR_FSCTRL 0 false)
  else .next s

/-- The map word of a port: CIR_OUTMAP of an output, CIR_INMAP of an input. -/
def mapWord (out : Bool) (k : Nat) : Nat := if out then Reg.CIR_OUTMAP k else Reg.CIR_INMAP k

/-- The owner partition of a port. -/
def State.portOwner (s : State) (out : Bool) (k : Nat) : Nat := if out then s.outOwner k else s.inOwner k

/-- OVERPOWER_CHANGE (R53, R185): OVER follows the comparator; an OVER event when it sets. -/
def execOverpowerChange (out : Bool) (port : Fin 512) (high : Bool) (s : State) : Result :=
  let a := mapWord out port
  let s1 := s.wrBit a 29 high
  .next (if high && !s.bit a 29 then
    s1.eventBoth 0x06 (s.portOwner out port) (inputTile port) 0 [pack [(0, 9, port), (16, 1, out.toNat)]]
  else s1)

/-! ## Cues, patterns and partitions -/

/-- One word of the cue table written by a host: the cue keeps its content while it is PENDING, SOLVED or ARMED (R59). -/
def State.writeCueWord (s : State) (q w : Nat) (v : Word) : State :=
  if s.cueBusy q then s.err Reg.CIR_ERRSTAT 0 else s.writeReg (Reg.CUE_W0 q + 4 * w) v

/-- A list of words written at consecutive positions from `i`. -/
def State.writeWords (f : State → Nat → Word → State) : State → Nat → List Word → State
  | s, _, [] => s
  | s, i, v :: vs => State.writeWords f (f s i v) (i + 1) vs

/-- CUE_WRITE (R21, R58, R59): the words from word `word` of cue `cue` on; a granule's other cue is judged by itself. -/
def execCueWrite (cue : Fin 65536) (word : Fin 8) (vals : List Word) (s : State) : Result :=
  .next (State.writeWords (fun s i v => if i < 524288 then s.writeCueWord (i / 8) (i % 8) v else s) s (8 * cue + word) vals)

/-- Pattern `n` is named by a RECALL cue in PENDING, SOLVED or ARMED (R79). -/
def State.patBusy (s : State) (n : Nat) : Bool :=
  s.batches.any fun b => b.cues.any fun i => let q := s.cue i; q.op == 4 && q.inp % 256 == n

/-- One word of the pattern store written by a host (R79). -/
def State.writePatWord (s : State) (n j : Nat) (v : Word) : State :=
  if s.patBusy n then s.err Reg.CIR_ERRSTAT 1 else s.writeReg (Reg.PAT n j) v

/-- PATTERN_WRITE (R76, R79). -/
def execPatternWrite (pat : Fin 256) (word : Fin 512) (vals : List Word) (s : State) : Result :=
  .next (State.writeWords (fun s i v => if i < 131072 then s.writePatWord (i / 512) (i % 512) v else s) s (512 * pat + word) vals)

/-- PATTERN_CAPTURE (R80): GO starts a capture, or is refused with PATBUSY and clears. A write without GO while a capture runs sets PART, PAT
and ALL, which that capture then takes (DESIGN CHOICE, log entry 99). -/
def execPatternCapture (v : Word) (s : State) : Result :=
  let s1 := s.wrMask Reg.CIR_PATCAP 0x40003FFF#32 v
  .next (if wbit v 31 then
    if s1.patBusy (fld v 0 8) then (s1.wrBit Reg.CIR_PATCAP 31 false).err Reg.CIR_ERRSTAT 1
    else s1.wrBit Reg.CIR_PATCAP 31 true
  else s1)

/-- The pattern word of the circuit that ends at OUT `j`: by its working input, whichever input is active (R80). -/
def captureWord (cs : List Ckt) (j : Nat) : Word :=
  match cs.find? (·.out == j) with
  | some c => pack [(31, 1, 1), (28, 1, c.band.toNat), (25, 1, c.peer.isSome.toNat), (16, 9, c.peer.getD 0), (0, 9, c.inp)]
  | none => 0#32

/-- PATTERN_CAPTURE_DONE (R80): the circuits of PART, or all, into pattern PAT; GO clears. -/
def execPatternCaptureDone (s : State) : Result :=
  let w := s.rd Reg.CIR_PATCAP
  let n := fld w 0 8
  let cs := s.ckts.filter fun c => wbit w 30 || c.owner == fld w 8 6
  if wbit w 31 then
    let s1 := s.each (List.range 512) fun s j => s.wr (Reg.PAT n j) (captureWord cs j)
    .next ({ s1 with poisoned := s1.poisoned.filter fun a => !(decide (Reg.PAT n 0 ≤ a) && decide (a < Reg.PAT (n + 1) 0)) }.wrBit
      Reg.CIR_PATCAP 31 false)
  else .next s

/-- IN `k` is in use under R74: a circuit's working or reserved protect input, or named by a cue of an admitted batch. -/
def State.inBusy (s : State) (k : Nat) : Bool :=
  inUsed s.ckts k || s.batches.any fun b => b.cues.any fun i => let q := s.cue i; (q.namedIn (s.cuePattern q)).contains k

/-- OUT `k` is in use under R74. -/
def State.outBusy (s : State) (k : Nat) : Bool :=
  outUsed s.ckts k || s.batches.any fun b => b.cues.any fun i => let q := s.cue i; (q.namedOut (s.cuePattern q)).contains k

/-- PORT_OWNERSHIP_WRITE (R74): owner changes of ports in use refused with OWNBUSY; the other fields take effect. -/
def execPortOwnershipWrite (port : Fin 512) (v : Word) (s : State) : Result :=
  let a := Reg.CIR_PORTOWN port
  let badIn := fld v 0 6 != s.inOwner port && s.inBusy port
  let badOut := fld v 8 6 != s.outOwner port && s.outBusy port
  let v1 := if badIn then put v 0 6 (s.inOwner port) else v
  let v2 := if badOut then put v1 8 6 (s.outOwner port) else v1
  let s1 := s.writeReg a v2
  .next (s1.when (badIn || badOut) (·.err Reg.CIR_ERRSTAT 2))

/-- Whether two ranges of blocks overlap. -/
def rangesMeet (b1 n1 b2 n2 : Nat) : Bool := decide (b1 < b2 + n2) && decide (b2 < b1 + n1) && n1 != 0 && n2 != 0

/-- PARTITION_RANGE_WRITE (R75): refused with CFGERR past the table's end or, for partitions 1 to 63, over another's range. -/
def execPartitionRangeWrite (part : Fin 64) (pat : Bool) (v : Word) (s : State) : Result :=
  let reg := fun (p : Nat) => if pat then Reg.CIR_PARTPAT p else Reg.CIR_PARTCUE p
  let b := fld v 0 8
  let n := fld v 8 9
  let clash := (List.range 64).any fun p =>
    p != 0 && p != part.val && rangesMeet b n (s.rdf (reg p) 0 8) (s.rdf (reg p) 8 9)
  if 256 < b + n || (part.val != 0 && clash) then .next (s.err Reg.CIR_ERRSTAT 3)
  else .next (s.wrMask (reg part) 0x0001FFFF#32 v)

/-- PARTITION_CONTROL_WRITE (R72, R74): WINSEL and EN; it moves no light and drops no admitted cue. -/
def execPartitionControlWrite (part : Fin 64) (v : Word) (s : State) : Result :=
  .next (s.wrMask (Reg.CIR_PARTCTL part) 0x0000000F#32 v)

/-! ## Light -/

/-- The light run of a port monitor. -/
def State.lightRun (s : State) (out : Bool) (k : Nat) : LightRun := Store.get ⟨0, 0⟩ s.lightRuns (k + 512 * out.toNat)

/-- The state with a port monitor's run changed. -/
def State.setLightRun (s : State) (out : Bool) (k : Nat) (r : LightRun) : State :=
  { s with lightRuns := Store.set ⟨0, 0⟩ s.lightRuns (k + 512 * out.toNat) r }

/-- LOSS_OF_LIGHT (R83, R84): declared after 4 consecutive valid samples below LOSTHR; LIGHT clears and, for an input,
protection is evaluated. -/
def execLossOfLight (out : Bool) (port : Fin 512) (s : State) : Result :=
  if 4 ≤ (s.lightRun out port).below then
    let s1 := s.wrBit (mapWord out port) 30 false
    .next (if out then s1 else { s1 with darkIn := (port.val :: s1.darkIn).eraseDups }.decideFor port)
  else .next s

/-- LIGHT_REGAINED (R83, R84, R216): after 4 consecutive valid samples at or above LOSTHR + 1.0 dB. -/
def execLightRegained (out : Bool) (port : Fin 512) (s : State) : Result :=
  if 4 ≤ (s.lightRun out port).above then
    let s1 := s.wrBit (mapWord out port) 30 true
    .next (if out then s1 else ({ s1 with darkIn := s1.darkIn.filter (· != port.val) }.shutCouplers).decideFor port)
  else .next s

/-- HOLDOFF_EXPIRY (R84). -/
def execHoldoffExpiry (input : Fin 512) (s : State) : Result :=
  match (s.prot input).holdoff with
  | some t => .next (((s.raise t).setProt input { s.prot input with holdoff := none }).decideFor input)
  | none => .next s

/-! ## Tollkeeper and Wheelwright -/

/-- BATCH_RELEASE (R264). -/
def execBatchRelease (s : State) : Result := .next s.batchRelease.lampStat

/-- A batch is solved under its partition's ceiling (R95). -/
def State.clamps (s : State) (b : Batch) : Bool := decide (s.policyOf b < b.policy)

/-- CLAMP counts a batch once (R95). -/
def State.noteClamp (s : State) (b : Batch) (clamps : Bool) : State :=
  s.when (clamps && !b.clamped) (·.count (Reg.WHL_PARTSTAT b.part) 0 16 1)

/-- A re-solved batch keeps its instant, so a batch it now depends on must not stand later or be unplaced (R106, R108). -/
def State.boundLate (s : State) (b : Batch) (x : Solution) : Bool :=
  match b.phase with
  | .placed _ => !s.unbound b x
  | _ => false

/-- SOLVE_COMPLETE (R95 to R107), against the fabric as it stood when the solve started: the solution held, or the batch failed; the solve time recorded. -/
def execSolveComplete (found : List Candidate) (ns : Nat) (s : State) : Result :=
  match s.solveStart with
  | none => .next s
  | some r =>
    if s.fatalOn then .next s else
    match s.batch r.batch with
    | none => .next { s with solveStart := none }
    | some b =>
      let v := s.asSolved r
      let s1 := ({ s with solveStart := none }.wr Reg.WHL_SOLVEMAX (wd (max ns (s.rd Reg.WHL_SOLVEMAX).toNat))).noteClamp b (v.clamps b)
      match v.solve s b found with
      | .error (st, cue) => .next (s1.failBatch b st cue)
      | .ok x =>
        let s2 := { s1 with nextSolve := s1.nextSolve + 1 }
        let b2 := { b with phase := .solved, sol := some x, stale := s.reaches r.changed r.near r.ckts b x || s.metDuring r b x, clamped := b.clamped || v.clamps b }
        .next (((s2.setBatch b2).setCueStates b.cues 2).yieldCells (x.cells ++ x.pathCells ++
          x.alts.flatMap (s2.altCells (s2.afterCues b.cues s2.ckts)))).lampStat

/-- RESOLVE_COMPLETE (R108): by T_rs the solution is replaced, or the batch fails. -/
def execResolveComplete (batch : Nat) (found : List Candidate) (s : State) : Result :=
  match s.batch batch with
  | none => .next s
  | some b =>
    if b.stale && !s.pastRs b && !s.fatalOn then
      let s0 := s.noteClamp b (s.clamps b)
      match s.solve s b found with
      | .error (st, cue) => .next (s0.failBatch b st cue)
      | .ok x =>
        if s.boundLate b x then .next ((s0.failBatch b 10).count Reg.WHL_STALECNT 0 32 1) else
        let s1 := ({ s0 with nextSolve := s.nextSolve + 1 }.setBatch
          { b with sol := some x, stale := false, clamped := b.clamped || s.clamps b }).count Reg.WHL_RESOLVECNT 0 32 1
        let s2 := match s1.commits.find? fun c => c.batches.contains b.id with
          | some c => s1.setCommit { s1.recompute c with resident := c.resident.filter fun t => !x.tiles.contains t }
          | none => s1
        .next (s2.yieldCells (x.cells ++ x.pathCells ++ x.alts.flatMap (s2.altCells (s2.afterCues b.cues s2.ckts)))).lampStat
    else .next s

/-- RESOLVE_DEADLINE (R108): T_rs passes with a re-solve incomplete. -/
def execResolveDeadline (batch : Nat) (s : State) : Result :=
  match s.batch batch with
  | none => .next s
  | some b =>
    match b.phase with
    | .placed tc =>
      if b.stale then .next (((s.raise (tc - 500)).failBatch b 10).count Reg.WHL_STALECNT 0 32 1) else .next s
    | _ => .next s

/-- The held batches whose policy is narrower in `s1` than in `s` are invalidated (R107). -/
def State.narrowed (s s1 : State) : State :=
  (s1.invalidateBy false fun b _ => (List.range 64).any fun q => s.mayDisturb b q && !s1.mayDisturb b q)

/-- WINSHARE_WRITE (R94, R107). -/
def execWinshareWrite (n : Fin 8) (hi : Bool) (v : Word) (s : State) : Result :=
  .next (s.narrowed (s.wr (if hi then Reg.WHL_WINSHHI n else Reg.WHL_WINSHLO n) v))

/-- POLICY_CEILING_WRITE (R95, R107): POLMAX 3 is reserved (R5). -/
def execPolicyCeilingWrite (part : Fin 64) (v : Word) (s : State) : Result :=
  if fld v 0 2 = 3 then .next s else .next (s.narrowed (s.wrf (Reg.WHL_PARTCFG part) 0 2 (fld v 0 2)))

/-! ## Lamplighter -/

/-- BATCH_PLACEMENT (R114, R123). -/
def execBatchPlacement (batch : Nat) (s : State) : Result :=
  match s.batch batch with
  | some b => .next (s.place b)
  | none => .next s

/-- Whether a waiting commit's instant is still reachable (R116). -/
def State.reachable (s : State) (c : Commit) : Bool :=
  let cm := ((s.commitBatches c).filterMap (·.sol)).foldl (fun m x => max m x.cMax) 1
  decide (s.ns + 456 + 4 * cm ≤ c.tc)

/-- A batch whose waiting commit is no longer reachable: placed again, or failed with TOO_LATE (R116). -/
def State.rePlace (s : State) (b : Batch) : State :=
  if b.rule = 1 then s.failBatch b 2
  else
    let b1 := { b with phase := .solved }
    (((s.leaveCommit b.id).setBatch b1).unplaceDependents b.id).place b1

/-- An earlier commit waits to start sending, at an instant still reachable (R116). -/
def State.sendsBefore (s : State) (c : Commit) : Bool :=
  s.commits.any fun k => k.phase == .placed && k.kind != .protection && decide (k.tc < c.tc) && !s.holdsBack k && s.reachable k

/-- SETPOINT_SENDING (R115, R116): sending starts, in the order of the commit instants, and the batches become ARMED, unless HOLD or P2
withholds it or all 8 slots are held. The set-points of a batch that joined a commit already armed follow. -/
def execSetpointSending (tc : Nat) (s : State) : Result :=
  match s.commitAt tc with
  | none => .next s
  | some c =>
    let s1 := s.raise (min tc (max s.ns (tc - 1000)))
    if (c.phase != .placed && c.phase != .armed) || c.kind == .protection || s.fatalOn then .next s
    else if s1.holdsBack c then .next s1
    else if c.phase == .armed then .next ((s1.commitBatches c).foldl (fun s b => s.setCueStates b.cues 3) s1)
    else if s1.sendsBefore c then .next s1
    else if 8 ≤ (s1.commits.filter Commit.holdsSlot).length then .next s1
    else if c.kind == .host && !s1.reachable c then .next ((s1.commitBatches c).foldl (fun (s : State) b => match s.batch b.id with
      | some b => s.rePlace b
      | none => s) s1)
    else .next (((s1.commitBatches c).foldl (fun s b => s.setCueStates b.cues 3) (s1.setCommit { c with phase := .armed })).lampStat)

/-- SETPOINT_ARRIVAL (R115, R153): residency acknowledged by a tile that is powered and not fenced; its cells' post-commit codes are
computed. -/
def execSetpointArrival (tc : Nat) (tile : Fin 64) (s : State) : Result :=
  match s.commitAt tc with
  | some c =>
    if c.phase == .armed && c.involved.contains tile.val && s.tileLive tile then
      let c1 := { c with resident := tile.val :: c.resident }
      .next ((s.setCommit c1).timeCodes c1 ((List.range 76).map (cellOf tile)))
    else .next s
  | none => .next s

/-- ARM_POINT (R117, R133, R166). A batch whose re-solve is incomplete has failed with STALE by then. -/
def execArmPoint (tc : Nat) (s : State) : Result :=
  match s.commitAt tc with
  | some c =>
    if (c.phase == .placed || c.phase == .armed) && !s.fatalOn then
      let s1 := s.raise (tc - 200)
      let late := (s1.commitBatches c).filter (·.stale)
      let s2 := (s1.finish (late.map fun b => ⟨b.id, 7, 10, some (b.cues.headD 0)⟩)).count Reg.WHL_STALECNT 0 32 late.length
      match s2.commitAt tc with
      | some c2 => .next ((s2.arm c2).fixCodes tc)
      | none => .next s2
    else .next s
  | none => .next s

/-- JOURNAL_CLOSE (R122). The alternates that a switch solves anew take their cells from the Assayer (R214). -/
def execJournalClose (tc : Nat) (s : State) : Result :=
  match s.commitAt tc with
  | some c =>
    .next (if c.phase == .applied && !s.fatalOn then
      let t := (s.raise (tc + 1000)).closeCommit c
      if c.kind = .protection then t.yieldCells (t.alts.flatMap (t.altCells t.ckts)) else t
    else s)
  | none => .next s

/-- TIMED_DEADLINE_PASS (R63, R68). -/
def execTimedDeadlinePass (batch : Nat) (s : State) : Result :=
  match s.batch batch with
  | some b =>
    if b.rule == 1 && b.sol.isSome && !s.pastArm b then .next ((s.raise (s.timedInstant b)).failBatch b 2) else .next s
  | none => .next s

/-- GUARD_WINDOW_CLOSE (R127): the open window of an enabled schedule closes. -/
def execGuardWindowClose (n : Fin 8) (s : State) : Result :=
  if s.bit (Reg.LMP_WINCTL n) 0 && s.bit (Reg.LMP_WINSTAT n) 0 then
    let w := s.schedule n
    let o := w.opens (w.index s.ns)
    .next { (s.raise (o + w.len)).wrf (Reg.LMP_WINSTAT n) 0 2 (2 * (s.winUsed.contains (n.val, o)).toNat) with
      winUsed := s.winUsed.filter fun p => p.1 != n.val || decide (o < p.2) }
  else .next s

/-- The rules of a schedule field (R126): reserved encodings leave it unchanged. LEN is judged against PER when it is written; a PER lowered
later leaves it in force (DESIGN CHOICE, log entry 105). -/
def State.scheduleFieldOk (s : State) (n word : Nat) (v : Word) : Bool :=
  match word with
  | 1 => decide (fld v 0 30 < 1000000000)
  | 2 => decide (2000 ≤ v.toNat)
  | 3 => decide (600 ≤ v.toNat) && decide (v.toNat + 1000 ≤ (s.rd (Reg.LMP_WINPER n)).toNat)
  | _ => true

/-- WINDOW_SCHEDULE_WRITE (R126): fields only while EN = 0; word 4 is WINCTL. -/
def execWindowScheduleWrite (n : Fin 8) (word : Fin 5) (v : Word) (s : State) : Result :=
  if word.val = 4 then
    let s1 := s.wrMask (Reg.LMP_WINCTL n) 1#32 v
    .next (s1.wrf (Reg.LMP_WINSTAT n) 0 1 (wbit v 0 && ((s1.schedule n).openAt s1.ns).isSome).toNat)
  else if s.bit (Reg.LMP_WINCTL n) 0 || !s.scheduleFieldOk n word v then .next s
  else .next (s.wr (Reg.LMP_WINSEC n + 4 * word) (if word.val = 1 then v &&& 0x3FFFFFFF#32 else v))

/-- LMP_ABORT (R128, R129): from a requester with full access, reported in LMP_ABORTRES, which speaks of the most recent write alone. -/
def execLmpAbort (_rq : Requester) (v : Word) (s : State) : Result :=
  .next (({ s with aborts := s.aborts.filter fun (a : PendingAbort) => a.sink != AbortSink.register }.wr Reg.LMP_ABORTRES 0#32).abortFor (fld v 0 16)
    none .register)

/-- LMP_HOLD_WRITE (Table 5-6). -/
def execLmpHoldWrite (v : Word) (s : State) : Result := .next (s.wrMask Reg.LMP_CTRL 0x100#32 v).lampStat

/-- THROTTLE_BUCKET_FILL (R135). -/
def execThrottleBucketFill (s : State) : Result :=
  let rate := s.rdf Reg.LMP_THRSTAT 16 16
  let level := if rate = 0xFFFF then 4864 else min 4864 (s.bucket + rate)
  .next (s.wrf Reg.LMP_THRSTAT 0 16 (code 16 level)).lampStat

/-! ## Tollkeeper buckets -/

/-- SHAPER_FILL (R267). -/
def execShaperFill (s : State) : Result := .next s.shaperFill

/-- POLICER_FILL (R269). -/
def execPolicerFill (s : State) : Result := .next s.policerFill

/-- A write of TOL_PCTL (R268, R269): SHEN, POEN and POACT take the word's bits, and SHCLR, which reads 0, sets a negative level to 0; a
head that its shaper held may become eligible. -/
def State.writePctl (s : State) (p : Nat) (v : Word) : State :=
  let s1 := s.wrMask (Reg.TOL_PCTL p) 0xE0000000#32 v
  let x := s1.tollPart p
  let s2 := if wbit v 0 && decide (x.shaper < 0) then s1.setToll p { x with shaper := 0 } else s1
  if s.shaperOpen p then s2 else s2.tagHead p .waited

/-- SHAPER_CONTROL_WRITE (R268): TOL_SHAPE (`shape`), where the level is kept but cut to a lower burst, or TOL_PCTL. -/
def execShaperControlWrite (part : Fin 64) (shape : Bool) (v : Word) (s : State) : Result :=
  if shape then
    let s1 := s.writeReg (Reg.TOL_SHAPE part) v
    let x := s1.tollPart part
    .next (s1.setToll part { x with shaper := min x.shaper (1000 * s1.rdf (Reg.TOL_SHAPE part) 16 16) })
  else .next (s.writePctl part v)

/-- SHAPER_DEBT_CLEAR (R268): the write of TOL_PCTL, a whole word, whose SHCLR clears the debt. -/
def execShaperDebtClear (part : Fin 64) (v : Word) (s : State) : Result := .next (s.writePctl part v)

end Sys2Proof.Machine
end

