-- ==== Sys2Proof/Machine/HostCommands.lean ====
section
/-! DEFINITION. The meanings of the commands of chapter 10: links, functions, rings, SUBMIT entries, interrupts, DMA errors, bus
mastering and function resets. -/

namespace Sys2Proof.Machine

/-! ## Links and functions -/

/-- PERST_DEASSERT (R236): link `link` starts training, when the bifurcation of Table 10-1 has it. -/
def execPerstDeassert (link : Fin 4) (s : State) : Result :=
  let split := s.rdf (Reg.HIF_LINKCFG 0) 8 2
  let links := if split = 0 then 1 else if split = 1 then 2 else 4
  .next (if link.val < links then { s with training := (link.val :: s.training).eraseDups } else s)

/-- PCIE_LINK_UP (R236, Table 10-14). -/
def execPcieLinkUp (link : Fin 4) (width : Fin 32) (speed : Fin 16) (flit : Bool) (s : State) : Result :=
  let w := s.rd (Reg.HIF_LINKCFG link)
  .next ({ s with training := s.training.filter (· != link.val) }.wr (Reg.HIF_LINKCFG link)
    (putBit (put (put (putBit w 31 true) 16 5 width) 12 4 speed) 11 flit))

/-- The rings of a function's range. -/
def State.fnRings (s : State) (g : Nat) : List Nat :=
  List.range' (s.rdf (Reg.HIF_FNCFG_W1 g) 16 15) (s.rdf (Reg.HIF_FNCFG_W1 g) 0 16)

/-- Whether a function has an enabled ring. -/
def State.hasRingOn (s : State) (g : Nat) : Bool := (s.fnRings g).any s.ringOn

/-- A write of FNCFG W1: ignored with CFGERR where ranges of two functions would overlap or an enabled ring would lie outside
its owner's range (R241). -/
def State.writeRingRange (s : State) (g : Nat) (v : Word) : State :=
  let b := fld v 16 15
  let n := fld v 0 16
  let clash := (List.range 68).any fun h =>
    h != g && rangesMeet b n (s.rdf (Reg.HIF_FNCFG_W1 h) 16 15) (s.rdf (Reg.HIF_FNCFG_W1 h) 0 16)
  let outside := (List.range' (s.rdf (Reg.HIF_FNCFG_W1 g) 16 15) (s.rdf (Reg.HIF_FNCFG_W1 g) 0 16)).any fun r =>
    s.ringOn r && !(decide (b ≤ r) && decide (r < b + n))
  if clash || outside then s.err Reg.HIF_ERRSTAT 0 else s.wrMask (Reg.HIF_FNCFG_W1 g) 0x7FFFFFFF#32 v

/-- A write of a function's event-ring selection; an EVRING outside the own range is reserved (R5, Table 10-15). -/
def State.writeEventRing (s : State) (g : Nat) (v : Word) : State :=
  s.wrMask (Reg.HIF_FNCFG_W2 g) (if s.ownsRing g (fld v 0 15) then 0x80007FFF#32 else 0x80000000#32) v

/-- A write of FNCFG W0: BOUND and PART of a VF, refused with CFGERR while it has an enabled ring (R238); RO for PF0. -/
def State.writeBinding (s : State) (g : Nat) (v : Word) : State :=
  let a := Reg.HIF_FNCFG_W0 g
  let change := (v ^^^ s.rd a) &&& 0x803F0000#32 != 0#32
  if g % 17 = 0 then s.wrMask a 0x40000000#32 v
  else if change && s.hasRingOn g then (s.wrMask a 0x40000000#32 v).err Reg.HIF_ERRSTAT 0
  else s.wrMask a 0xC03F0000#32 v

/-- The EVENT entries owed since a wake, once a MGMT function has an enabled event ring (R347, R359). -/
def State.payOwed (s : State) : State :=
  if s.owed.isEmpty || s.mgmtFns.all fun g => (s.eventRing g).isNone then s
  else s.owed.foldl (fun s e => s.eventMgmt e) { s with owed := [] }

/-- FUNCTION_CONFIG_WRITE (R238, R241); W3 is read-clear and takes no write. -/
def execFunctionConfigWrite (link : Fin 4) (f : Fin 17) (word : Fin 4) (v : Word) (s : State) : Result :=
  let g := fnIndex link f
  .next (match word.val with
    | 0 => s.writeBinding g v
    | 1 => s.writeRingRange g v
    | 2 => (s.writeEventRing g v).payOwed
    | _ => s)

/-! ## Ring configuration (R242, R256) -/

/-- STATE and ERR of a ring's descriptor. -/
def State.setRingState (s : State) (r st e : Nat) : State := s.wrf (Reg.RING_W5 r) 24 8 (16 * st + e)

/-- The completion space reserved on CQ `r` given up: the cues that hold it post nothing. -/
def State.dropOrigins (s : State) (r : Nat) : State :=
  { s with
    origins := s.origins.filter fun p => match p.2 with
      | .ring cq _ _ => cq != r
      | _ => true
    heldCq := s.heldCq.filter fun p => p.1 != r
    aborts := s.aborts.filter fun a => match a.sink with
      | .ring cq _ _ => cq != r
      | _ => true }

/-- Every enabled SUBMIT ring that names `r` as its CQ halts with NOCQ. -/
def State.haltNocq (s : State) (r : Nat) : State :=
  s.each ((List.range 32768).filter fun q => s.ringOn q && s.ringType q == 0 && s.cqOf q == r) fun s q => s.setRingState q 3 3

/-- EN of ring `r` cleared, what it held discarded (R242). -/
def State.ringOff (s : State) (r : Nat) : State :=
  ((s.wrBit (Reg.RING_W2 r) 31 false).setRingState r 0 0).setRing r RingRec.empty

/-- An enabled ring disabled by a write (R242, R256): a COMPLETE ring's reserved entries count as lost and the SUBMIT rings that
name it halt. -/
def State.disableRing (s : State) (r : Nat) : State :=
  if s.ringType r = 1 then
    let n := (s.ring r).reserved
    let s1 := match s.ringOwner r with
      | some g => s.count (Reg.HIF_FNCFG_W3 g) 0 16 n
      | none => s
    (((s1.when (n != 0) (·.err Reg.HIF_ERRSTAT 4)).ringOff r).dropOrigins r).haltNocq r
  else s.ringOff r

/-- Vendor ID, Device ID and class code of a function of number `f` (Table 10-2). -/
def cfgIdentity (f : Nat) : Nat × Nat × Nat := (0x1F7A, if f = 0 then 0x5120 else 0x5121, 0x088000)

/-- MSI-X vectors of a function (Table 10-2). -/
def msixSize (g : Nat) : Nat := if g % 17 = 0 then 64 else 8

/-- Whether an enabling write `v` of ring `r` is refused (R242). -/
def State.enableRefused (s : State) (r : Nat) (v : Word) : Bool :=
  match s.ringOwner r with
  | none => true
  | some g =>
    let cq := fld v 0 15
    (fld v 29 2 == 0 && !(s.ringOn cq && s.ringType cq == 1 && s.ownsRing g cq)) || decide (msixSize g ≤ fld v 16 8)

/-- A W2 write (R242): configures or enables a disabled ring, disables an enabled one; any other is ignored with CFGERR. -/
def State.writeRingW2 (s : State) (r : Nat) (v : Word) : State :=
  match s.ringOn r, wbit v 31 with
  | false, false => s.writeReg (Reg.RING_W2 r) v
  | false, true =>
    if s.enableRefused r v then s.err Reg.HIF_ERRSTAT 0
    else ((((s.writeReg (Reg.RING_W2 r) v).wr (Reg.RING_W4 r) 0#32).setRingState r 1 0).wr (Reg.RING_W6 r) 0#32).setRing r
      RingRec.empty
  | true, false => s.disableRing r
  | true, true => s.err Reg.HIF_ERRSTAT 0

/-- A write of W0, W1 or W3 of a ring descriptor: ignored with CFGERR while EN = 1 (R242). -/
def State.writeRingWord (s : State) (r w : Nat) (v : Word) : State :=
  if w = 2 then s.writeRingW2 r v
  else if w < 4 ∧ s.ringOn r then s.err Reg.HIF_ERRSTAT 0
  else s.writeReg (Reg.RING_W0 r + 4 * w) v

/-- RING_CONFIGURE (R242). -/
def execRingConfigure (ring : Fin 32768) (v : Word) (s : State) : Result := .next (s.writeRingW2 ring (putBit v 31 false))

/-- RING_ENABLE (R242, R255). -/
def execRingEnable (ring : Fin 32768) (v : Word) (s : State) : Result := .next (s.writeRingW2 ring (putBit v 31 true)).payOwed

/-- RING_DISABLE (R242, R256): only EN takes effect. -/
def execRingDisable (ring : Fin 32768) (v : Word) (s : State) : Result :=
  .next (if s.ringOn ring then s.disableRing ring else s.writeRingW2 ring (putBit v 31 false))

/-! ## Doorbells and SUBMIT entries -/

/-- SUBMIT fetching and processing is stopped: an entry into P3 has begun (Table 15-4), the module is not up (R376), or a fatal state
is in force (R395). -/
def State.submitStopped (s : State) : Bool :=
  (s.change.any fun c => c.req.target == 3) || !s.bit Reg.BOOT_STAT 31 || s.fatalOn

/-- The fetch read for the entries of SUBMIT ring `r` not yet fetched: up to 16, when no read of the ring is outstanding (R245). -/
def State.issueFetch (s : State) (r : Nat) : State :=
  let x := s.ring r
  let want := min 16 (s.ringUsed r - x.fetched.length)
  let i := s.ringCi r + x.fetched.length
  let g := s.ringOwner r
  if want = 0 || x.asked != 0 || s.submitStopped || s.rdf (Reg.RING_W5 r) 28 4 != 1 || !g.any s.dmaOk then s
  else (s.setRing r { x with asked := want }).send (.fetch (g.getD 0 / 17) r i want (s.entryAddr r i))

/-- Every running SUBMIT ring fetches what it has outstanding. -/
def State.fetchAll (s : State) : State :=
  ((List.range 32768).filter fun r => s.ringOn r && s.ringType r == 0).foldl State.issueFetch s

/-- What a doorbell write does to ring `r`'s host-owned index (R243). -/
def State.ringDoorbell (s : State) (r : Nat) (v : Word) : State :=
  let n := fld v 0 16
  if !s.ringOn r then s.err Reg.HIF_ERRSTAT 1
  else if s.ringType r = 0 then
    if sub16 n (s.ringCi r) ≤ s.ringSize r then (s.wrf (Reg.RING_W4 r) 16 16 n).issueFetch r else s.err Reg.HIF_ERRSTAT 1
  else if sub16 (s.ringPi r) n ≤ s.ringUsed r then s.wrf (Reg.RING_W4 r) 0 16 n
  else s.err Reg.HIF_ERRSTAT 1

/-- SUBMIT_FETCH (R245): the entries of the outstanding read, as many as it asked for, join the ring's entries in index order; the next
read follows while entries wait. -/
def execSubmitFetch (ring : Fin 32768) (entries : List (List Word)) (s : State) : Result :=
  let x := s.ring ring
  .next (if s.ringOn ring && s.ringType ring == 0 && s.rdf (Reg.RING_W5 ring) 28 4 != 3 then
    (s.setRing ring { x with fetched := x.fetched ++ entries.take x.asked, asked := 0 }).issueFetch ring
  else s)

/-- The link of ring `r`. -/
def State.ringLink (s : State) (r : Nat) : Option Nat := (s.ringOwner r).map (· / 17)

/-- The turn of SUBMIT ring `r` at its link's ring engine: of the running rings of the link with entries fetched, it comes first after the
ring served last (R245; the order of the rings in the round is DEDUCED, log entry 120). -/
def State.turn (s : State) (r : Nat) : Bool :=
  let last := Store.get 32767 s.served ((s.ringLink r).getD 0)
  let after := fun (q : Nat) => (q + 32767 - last) % 32768
  s.rings.all fun (p : Nat × RingRec) => p.1 == r || p.2.fetched.isEmpty || !s.ringOn p.1 || s.ringType p.1 != 0 ||
    s.rdf (Reg.RING_W5 p.1) 28 4 != 1 || s.ringLink p.1 != s.ringLink r || decide (after r < after p.1)

/-- A SUBMIT entry's reserved bits are 0 and its OPC is 0, 1 or 2 (check 1 of R246). -/
def entrySound (e : List Word) : Bool :=
  let w0 := e.getD 0 0#32
  let w1 := e.getD 1 0#32
  decide (fld w0 0 4 ≤ 2) && fld w0 4 4 == 0 && fld w0 9 7 == 0 && fld w1 29 3 == 0 && (e.drop 2).all (· == 0#32)

/-- A SUBMIT result entry without its PHASE (Table 10-6). -/
def resultEntry (e : List Word) (res : Nat) : List Word :=
  let w0 := e.getD 0 0#32
  let w1 := e.getD 1 0#32
  [pack [(28, 3, 1), (0, 16, fld w1 0 16)], pack [(16, 16, fld w0 16 16), (0, 4, res)], 0#32, wd (fld w1 16 13),
   0#32, 0#32, 0#32, 0#32]

/-- Free entries of CQ `cq` that no reservation holds. -/
def State.cqRoom (s : State) (cq : Nat) : Nat := s.ringFree cq - (s.ring cq).reserved

/-- `k` entries of CQ `cq` reserved. -/
def State.reserve (s : State) (cq k : Nat) : State := s.setRing cq { s.ring cq with reserved := (s.ring cq).reserved + k }

/-- Ring `r` past the entry at its head: CI advanced, STATE RUN. -/
def State.entryDone (s : State) (r : Nat) : State :=
  ((s.wrf (Reg.RING_W4 r) 0 16 (s.ringCi r + 1)).wrf (Reg.RING_W5 r) 28 4 1).setRing r
    { s.ring r with fetched := (s.ring r).fetched.drop 1 }

/-- The entry at the head waits for completion space (R246, R247). -/
def State.cqWait (s : State) (r : Nat) : State := s.wrf (Reg.RING_W5 r) 28 4 2

/-- The entry at the head ended with a result: one CQ entry reserved and used, or the ring waits for it. -/
def State.entryResult (s : State) (r : Nat) (e : List Word) (res : Nat) : State :=
  let cq := s.cqOf r
  if s.cqRoom cq = 0 then s.cqWait r
  else ((s.entryDone r).reserve cq 1).postCq cq (resultEntry e res)

/-- Whether function `g` may name the run: MGMT functions any cue, others their partition's range (R246). -/
def State.runInRange (s : State) (g q n : Nat) : Bool :=
  s.isMgmtFn g || (s.fnPart g).any fun p => s.cuesInRange p q n

/-- A CUES entry (R246, R247): refused with its result, left waiting, or its run submitted. -/
def State.cuesEntry (s : State) (r : Nat) (e : List Word) : State :=
  let w0 := e.getD 0 0#32
  let w1 := e.getD 1 0#32
  let q := fld w1 0 16
  let n := fld w1 16 13
  let g := (s.ringOwner r).getD 0
  let cq := s.cqOf r
  let ack := wbit w0 8
  if !entrySound e || n = 0 || decide (4096 < n) || decide (65536 < q + n) || (List.range' q n).any s.cuePoisoned then s.entryResult r e 3
  else if !s.runInRange g q n then s.entryResult r e 2
  else if (List.range' q n).any s.cueBusy then s.entryResult r e 1
  else
    let need := 1 + s.runEntries q n
    if s.ringSize cq < need then s.entryResult r e 4
    else if s.cqRoom cq < need then s.cqWait r
    else
      let s1 := (s.entryDone r).reserve cq (if ack then need else need - 1)
      let s2 := if ack then s1.postCq cq (resultEntry e 0) else s1
      s2.submitRun q n (s.fnPart g) (.ring cq g (fld w0 16 16))

/-- A NOP entry, or one whose OPC is reserved (R246). -/
def State.nopEntry (s : State) (r : Nat) (e : List Word) : State :=
  if !entrySound e then s.entryResult r e 3
  else if wbit (e.getD 0 0#32) 8 then s.entryResult r e 0
  else if s.cqRoom (s.cqOf r) = 0 then s.cqWait r
  else s.entryDone r

/-- An ABORT entry (R128, R129, R246). -/
def State.abortEntry (s : State) (r : Nat) (e : List Word) : State :=
  let q := fld (e.getD 1 0#32) 0 16
  let g := (s.ringOwner r).getD 0
  let cq := s.cqOf r
  if !entrySound e then s.entryResult r e 3
  else if s.cqRoom cq = 0 then s.cqWait r
  else ((s.entryDone r).reserve cq 1).abortFor q (s.fnPart g) (.ring cq g (fld (e.getD 0 0#32) 16 16))

/-- The entry at the head of SUBMIT ring `r`, when the ring runs and has its turn, or waits for completion space, processed by its OPC if
`want` admits it; a ring that goes on running fetches what it has outstanding. -/
def State.processHead (s : State) (r : Nat) (want : Nat → Bool) : State :=
  let st := s.rdf (Reg.RING_W5 r) 28 4
  match (s.ring r).fetched with
  | [] => s
  | e :: _ =>
    let op := fld (e.getD 0 0#32) 0 4
    if s.ringOn r && s.ringType r == 0 && ((st == 1 && s.turn r) || st == 2) && !s.submitStopped && want op then
      let s1 := { s with served := Store.set 32767 s.served ((s.ringLink r).getD 0) r }
      (match op with
      | 1 => s1.cuesEntry r e
      | 2 => s1.abortEntry r e
      | _ => s1.nopEntry r e).issueFetch r
    else s

/-- NOP (R246): the head entry when its OPC is NOP or reserved. -/
def execNop (ring : Fin 32768) (s : State) : Result := .next (s.processHead ring fun op => op != 1 && op != 2)

/-- CUES (R246, R60, R261). -/
def execCues (ring : Fin 32768) (s : State) : Result := .next (s.processHead ring (· == 1)).lampStat

/-- ABORT (R246, R129). -/
def execAbort (ring : Fin 32768) (s : State) : Result := .next (s.processHead ring (· == 2))

/-- CQ_SPACE_FREED (R246): a ring in CQWAIT takes up its entry again. -/
def execCqSpaceFreed (ring : Fin 32768) (s : State) : Result :=
  .next (if s.rdf (Reg.RING_W5 ring) 28 4 == 2 then s.processHead ring (fun _ => true) else s)

/-! ## Interrupts, DMA errors and device power -/

/-- INTERRUPT_TIMER (R254). -/
def execInterruptTimer (ring : Fin 32768) (s : State) : Result :=
  let x := s.ring ring
  let w := s.rd (Reg.RING_W3 ring)
  .next (if x.timing && x.unsignalled != 0 && fld w 0 16 != 0 && fld w 16 16 != 0 then
    let g := (s.ringOwner ring).getD 0
    (s.setRing ring { x with unsignalled := 0, timing := false }).msixSend g (s.rdf (Reg.RING_W2 ring) 16 8)
  else s)

/-- DMA_ERROR_COMPLETION (R255): the ring halts, CI at the last entry processed. -/
def execDmaErrorCompletion (ring : Fin 32768) (poisoned : Bool) (s : State) : Result :=
  .next (if s.ringOn ring then
    ((s.setRingState ring 3 (if poisoned then 2 else 1)).setRing ring { s.ring ring with fetched := [], asked := 0 }).err Reg.HIF_ERRSTAT 2
  else s)

/-- POISONED_WRITE (R255): discarded, with POISON set. -/
def execPoisonedWrite (_a : Access) (s : State) : Result := .next (s.err Reg.HIF_ERRSTAT 3)

/-- The image's host section is in force: APPLY has ended, and the start has not failed (R365). -/
def State.hostReady (s : State) : Bool := decide (3 ≤ s.rdf Reg.BOOT_STAT 20 4) && s.rdf Reg.BOOT_STAT 20 4 != 10

/-- BUS_MASTER_ENABLE (R256), a configuration request: until the image's host section is in force it is answered with Configuration Request
Retry Status (R236). In D0 the held COMPLETE entries of the function's rings are written, and its SUBMIT rings fetch again. -/
def execBusMasterEnable (link : Fin 4) (f : Fin 17) (s : State) : Result :=
  let g := fnIndex link f
  if !s.hostReady then .next (s.send (.retry link f))
  else
    let s1 := { s with bme := (g :: s.bme).eraseDups }
    .next (if (s.cfg g).d3hot then s1
      else
        let mine := s.heldCq.filter fun p => s.ownsRing g p.1
        let s2 := mine.foldl (fun (t : State) p => t.postCq p.1 p.2) { s1 with heldCq := s.heldCq.filter fun p => !s.ownsRing g p.1 }
        ((s2.fnRings g).filter fun r => s2.ringOn r && s2.ringType r == 0).foldl State.issueFetch s2)

/-! ## Function resets (R257, R258) -/

/-- The batches submitted through function `g`. -/
def State.fnBatches (s : State) (g : Nat) : List Batch :=
  s.batches.filter fun b => match b.origin with
    | .ring _ f _ => f == g
    | _ => false

/-- A function's rings and streams disabled, its reserved and held completions discarded, its configuration space with Bus Master Enable
reset, and its batches aborted where FLRABORT asks for it (R257). -/
def State.resetFn (s : State) (g : Nat) : State :=
  let rings := (s.fnRings g).filter s.ringOn
  let s1 := s.each rings fun s r => if s.ringType r = 1 then (s.ringOff r).dropOrigins r else s.ringOff r
  let s2 := s1.each ((List.range 64).filter fun i => s.ownsRing g (s.rdf (Reg.HIF_CRSTREAM_W0 i) 0 15)) fun s i =>
    s.wrBit (Reg.HIF_CRSTREAM_W0 i) 31 false
  let s3 := { s2 with bme := s2.bme.filter (· != g) }.setCfg g FnCfg.zero
  if s.bit (Reg.HIF_FNCFG_W0 g) 30 then
    s3.finish (((s3.fnBatches g).filter fun b => !s3.pastArm b).map fun b => ⟨b.id, 6, 0, none⟩)
  else s3

/-- STREAM_ENABLE (R252): W0 of a stream; enabling needs an enabled TELEMETRY ring. -/
def execStreamEnable (stream : Fin 64) (v : Word) (s : State) : Result :=
  let r := fld v 0 15
  .next (if wbit v 31 && !(s.ringOn r && s.ringType r == 3) then s.err Reg.HIF_ERRSTAT 0
    else s.writeReg (Reg.HIF_CRSTREAM_W0 stream) v)

end Sys2Proof.Machine
end

