-- ==== Sys2Proof/Machine/CooperCommands.lean ====
section
/-! DEFINITION. The meanings of the commands of chapters 6 and 7 and of the commit instant: loops, offload, freeze, staged factors,
the trace ring, heaters, fades, overrides, waveforms, and what follows a commit in the tiles. -/

namespace Sys2Proof.Machine

/-- The cells of a tile. -/
def tileCells (t : Nat) : List Nat := (List.range 76).map (cellOf t)

/-- COO_STAT.TBAND of tile `t`. -/
def State.tband (s : State) (t : Nat) : Nat := s.rdf (Reg.COO_STAT t) 16 3

/-! ## Samples and cycles -/

/-- N and SYNC as written come into force at a cycle boundary (R140). -/
def State.takeCycle (s : State) (t : Nat) : State :=
  let a := Reg.COO_CYCLE t
  if s.rdLive a = s.rd a then s else s.wrLive a (s.rd a)

/-- A sample of a cell's channel delivered to the Cooper (R144, R146): the `N`-th of its cycle ends the cycle, by the N in force when the
cycle began. -/
def State.cooSample (s : State) (c : Nat) (d : Int) (valid : Bool) : State :=
  let x := s.coo c
  let w := s.rdLive (cooWord c 0)
  let cur : CycleSums := if x.cnt = 0 then { x.cur with len := s.cycleN (tileOf c) } else x.cur
  let m : CycleSums := if valid then { cur with s0 := cur.s0 + d, s1 := cur.s1 + d * sin64 (fld w 0 5 * x.n + fld w 8 6) }
    else { cur with bad := true }
  if cur.len ≤ x.cnt + 1 then
    (s.takeCycle (tileOf c)).setCoo c { x with cur := CycleSums.zero, cnt := 0, n := x.n + 1, ended := some m }
  else s.setCoo c { x with cur := m, cnt := x.cnt + 1, n := x.n + 1 }

/-- The sums the law of cell `c` runs on: a finished cycle; one cut short of samples, which is held; none in P1 where the
converters delivered nothing (R159). -/
def State.lawSums (s : State) (c : Nat) : Option CycleSums :=
  let x := s.coo c
  match x.ended with
  | some m => some m
  | none => if s.pstate = 1 ∧ x.cnt = 0 then none else some { x.cur with bad := true }

/-- The law of a cell at t_law, or postponed; samples clamped in the cycle are counted first. A cycle without samples in P1 leaves nothing
behind but a step made since its end. -/
def State.lawAt (s0 : State) (tb : Nat) (late : List Nat) (c : Nat) : State :=
  let s := s0.settleClamps c
  let x := s.coo c
  match s.lawSums c with
  | none => if x.cur.bad && decide (x.passTc + 2000 ≤ s.ns) then s.setCoo c { x with cur := CycleSums.zero } else s
  | some m =>
    let s1 := if x.ended.isNone then s.setCoo c { x with cur := CycleSums.zero, cnt := 0, ended := some m } else s
    if late.contains c then s1.setCoo c { s1.coo c with postLaw := true } else s1.law c tb m

/-- The heater codes of cells in RUN and DARK that a thermal band change still owes recomputed (R157). -/
def State.payBand (s : State) (t : Nat) : State :=
  ((tileCells t).filter fun c => (s.coo c).bandOwed && ((s.cell c).mode == 0 || (s.cell c).mode == 1)).foldl
    (fun s c => (s.setCoo c { s.coo c with bandOwed := false }).queueHeater c (s.tband t)) s

/-- A thermal band brought into force in a tile: gain sets, HSCALE and every hcode follow (R157), that of a cell whose loop is frozen or
stopped once it returns (R138). -/
def State.takeBand (s : State) (t b : Nat) : State :=
  let s0 := if s.tband t = b then s else { s with calCells := s.calCells.map fun (x : CalRec) => if tileOf x.cell = t then { x with moved := true } else x }
  let s1 := (s0.setTileRec t { s0.tileRec t with tband := none }).wrf (Reg.COO_STAT t) 16 3 b
  (((tileCells t).filter fun c => (s.cell c).mode != 4).foldl (fun s c => s.setCoo c { s.coo c with bandOwed := true }) s1).payBand t

/-- A pending thermal band taken, unless a commit postpones it (R119, R157). -/
def State.pendingBand (s : State) (t : Nat) : State :=
  match (s.tileRec t).tband with
  | some b => if s.postponesBand t || s.fatalOn then s else s.takeBand t b
  | none => s

/-- Gain sets and COO_HSCALE written since the last t_law come into force (R157). -/
def State.takeGains (s : State) (t : Nat) : State :=
  s.each (((List.range 8).map (Reg.COO_HSCALE t)) ++ (List.range 192).map fun k => Reg.COO_GAIN_W0 t 0 + 4 * k) fun s a =>
    if s.rdLive a = s.rd a then s else s.wrLive a (s.rd a)

/-- The cells of a tile leave HOLD: neither FREEZE nor P2 holds them (Table 6-1, R338). -/
def State.thawTile (s : State) (t : Nat) : State :=
  if s.bit (Reg.COO_STAT t) 24 && !s.heldTile t then
    let ls := loads s.ckts s.cross
    let held := (tileCells t).filter fun c => (s.cell c).mode == 3
    (held.foldl (fun s c => s.thaw ls c) s).wrBit (Reg.COO_STAT t) 24 false
  else s

/-- CONTROL_LAW (R140, R146, R147, R157, R159, R160): the law instant of a tile. Where no cell of the tile is sampled, a written N or
SYNC comes into force here. -/
def execControlLaw (tile : Fin 64) (s : State) : Result :=
  let t := tile.val
  if s.tileLive t then
    let s1 := (((s.takeGains t).pendingBand t).thawTile t).payBand t
    let late := s1.postponed t
    let run := (tileCells t).filter fun c => (s1.cell c).mode == 0 || (s1.cell c).mode == 1 || (s1.cell c).mode == 4
    let s2 := run.foldl (fun s c => s.lawAt (s.tband t) late c) s1
    let traced := cellOf t (s1.rdf (Reg.COO_TRCTL t) 24 7)
    let s3 := if run.contains traced && (s1.lawSums traced).isSome then s2 else s2.traceIdle traced (s2.tband t)
    let s4 := s3.setTileRec t { s3.tileRec t with cycle := (s3.tileRec t).cycle + 1 }
    let still := (tileCells t).all fun c => (s4.coo c).cnt == 0
    .next (((if still then s4.takeCycle t else s4).retime t run).cooStat t)
  else .next s

/-- HEATER_OFFLOAD (R151): the offload tick of a tile. -/
def execHeaterOffload (tile : Fin 64) (s : State) : Result :=
  let t := tile.val
  if s.tileLive t then
    let late := s.postponed t
    .next (((tileCells t).filter fun c => (s.cell c).mode == 0 || (s.cell c).mode == 1).foldl (fun s c =>
      if late.contains c then s.setCoo c { s.coo c with postTick := true } else s.offload c (s.tband t)) s)
  else .next s

/-- CYCLE_TRIGGER (R140, R319): under SYNC the epoch is the trigger instant, and the cycle it cuts short is held. -/
def execCycleTrigger (tile : Fin 64) (s : State) : Result :=
  let t := tile.val
  if wbit (s.rdLive (Reg.COO_CYCLE t)) 16 then
    let s1 := (tileCells t).foldl (fun s c =>
      let x := s.coo c
      let cut : Option CycleSums := if x.cnt = 0 then x.ended else some { x.cur with bad := true }
      s.setCoo c { x with cur := CycleSums.zero, cnt := 0, n := 0, ended := cut }) s
    .next (s1.setTileRec t { s1.tileRec t with epoch := s.now, cycle := 0 })
  else .next s

/-- THERMAL_BAND_ARRIVAL (R119, R157): in force at the tile's next t_law, or at T_c + 400 ns. -/
def execThermalBandArrival (tile : Fin 64) (band : Fin 8) (s : State) : Result :=
  .next (if s.fatalOn then s else s.setTileRec tile { s.tileRec tile with tband := some band })

/-! ## Register writes of the COO window -/

/-- FREEZE_WRITE (Table 6-6): RUN, DARK and FAULT cells enter HOLD; a clear takes effect at the next t_law. -/
def execFreezeWrite (tile : Fin 64) (v : Word) (s : State) : Result :=
  let t := tile.val
  let s1 := s.wrMask (Reg.COO_CTRL t) 1#32 v
  .next (if wbit v 0 then
    (((tileCells t).filter fun c => (s.cell c).mode == 0 || (s.cell c).mode == 1 || (s.cell c).mode == 4).foldl
      (fun s c => s.toMode c 3) s1).wrBit (Reg.COO_STAT t) 24 true |>.cooStat t
  else s1)

/-- LOOP_STATE_WRITE (R162): IO, IC or HCMD, in CAL or HOLD only. -/
def execLoopStateWrite (tile : Fin 64) (cell : Fin 76) (word : Fin 3) (v : Word) (s : State) : Result :=
  let c := cellOf tile cell
  .next (if (s.cell c).mode = 2 ∨ (s.cell c).mode = 3 then s.wr (cooWord c (9 + word)) v else s.err (Reg.COO_ERRSTAT tile) 0)

/-- The BAR0 offset of offset `o` in a tile's window. -/
def tileAddr (t o : Nat) : Nat := 0x2000000 + 0x40000 * t + o

/-- The local cell whose staged factors hold the word at offset `o` of a tile window. -/
def factorCell (o : Nat) : Option Nat :=
  if 0x800 ≤ o ∧ o < 0x1B00 ∧ (o - 0x800) % 0x40 < 0x1C then some ((o - 0x800) / 0x40)
  else if 0x1C00 ≤ o ∧ o < 0x10000 ∧ (o - 0x1C00) / 0x300 < 76 ∧ (o - 0x1C00) % 0x300 < 0x2A0 then some ((o - 0x1C00) / 0x300)
  else if 0x10100 ≤ o ∧ o < 0x105C0 ∧ o % 16 = 0 then some ((o - 0x10100) / 16)
  else none

/-- Whether N is an odd multiple of 32. -/
def oddN (n : Nat) : Bool := n / 32 % 2 == 1

/-- TONE `k` for cell `c` is refused (R142): a neighbour of its tile has it, or it is odd where N allows only even tones. -/
def State.toneRefused (s : State) (c k : Nat) : Bool :=
  ((neighbours c).filterMap id).any (fun d => tileOf d == tileOf c && s.rdf (cooWord d 0) 0 5 == k) ||
    (k % 2 == 1 && oddN (s.rdf (Reg.COO_CYCLE (tileOf c)) 0 11))

/-- A write of a factor word at offset `o` of a tile window: the staged copy changes (R158); a refused TONE is ignored (R142). -/
def State.writeFactor (s : State) (t o : Nat) (v : Word) : State :=
  match factorCell o with
  | none => s
  | some l =>
    let c := cellOf t l
    let a := tileAddr t o
    let bad := o == 0x800 + 0x40 * l && fld v 0 5 != 0 && s.toneRefused c (fld v 0 5)
    ((s.writeReg a (if bad then put v 0 5 (s.rdf a 0 5) else v)).markStaged c).when bad (·.err (Reg.COO_ERRSTAT t) 0)

/-- FACTOR_WRITE (R142, R158): `offset` from the tile window's base. -/
def execFactorWrite (tile : Fin 64) (offset : Nat) (v : Word) (s : State) : Result := .next (s.writeFactor tile offset v)

/-- CYCLE_CONFIG_WRITE (R140, R142): N and SYNC, in force from the next cycle boundary. -/
def execCycleConfigWrite (tile : Fin 64) (v : Word) (s : State) : Result :=
  let t := tile.val
  let a := Reg.COO_CYCLE t
  let bad := oddN (fld v 0 11) && fld v 0 11 % 32 == 0 && (tileCells t).any fun c => s.rdf (cooWord c 0) 0 5 % 2 == 1
  .next ((s.writeReg a (if bad then put v 0 11 (s.rdf a 0 11) else v)).when bad (·.err (Reg.COO_ERRSTAT t) 0))

/-! ## Trace -/

/-- TRACE_ENABLE (R160): EN from 0 to 1 restarts the ring at record 0. -/
def execTraceEnable (tile : Fin 64) (v : Word) (s : State) : Result :=
  let t := tile.val
  let a := Reg.COO_TRCTL t
  let s1 := s.writeReg a v
  .next (if !s.bit a 31 && s1.bit a 31 then (s1.wr (Reg.COO_TRSTAT t) 0#32).setTileRec t { s1.tileRec t with tracePost := 0 } else s1)

/-- TRACE_TRIGGER (R160): by SWTRIG, or by a cause that COO_TRTRIG enables. -/
def execTraceTrigger (tile : Fin 64) (cause : TraceCause) (s : State) : Result :=
  let t := tile.val
  .next (match cause with
    | .software => s.traceFire t
    | .inbandLoss => if s.bit (Reg.COO_TRTRIG t) 1 then s.traceFire t else s
    | .commit => if s.bit (Reg.COO_TRTRIG t) 2 then s.traceFire t else s)

/-- The word COO_TRDATA reads; the read advances TRADDR (R160). -/
def State.readTrace (s : State) (t : Nat) : Word × State :=
  let i := s.rdf (Reg.COO_TRADDR t) 0 12
  (Store.get 0#32 s.traceMem (4096 * t + i), s.wrf (Reg.COO_TRADDR t) 0 12 (i + 1))

end Sys2Proof.Machine
end

