-- ==== Sys2Proof/Machine/DriverCommands.lean ====
section
/-! DEFINITION. The meanings of the commands of chapter 7 and of the commit instant: heaters, faults, fades, overrides, waveforms,
the step at T_c, and the postponed applications and span passages that follow it. -/

namespace Sys2Proof.Machine

/-! ## Heaters (R171, R172, R174 to R176) -/

/-- The output code after one update toward target `h` under the slew limit (R172); 0 is no limit. -/
def slewTo (slew old h : Nat) : Nat :=
  if slew = 0 then h else if old ≤ h then min h (old + slew) else max h (old - slew)

/-- The heater code the Assayer probes a cell in CAL with: its own choice, a free value, but 0 for zero drive, and
within 256 codes of the held one while a neighbour carries a circuit (R213, R215, R227). -/
def State.probeTarget (s : State) (c : Nat) : Nat :=
  let h := (s.coo c).calH
  let v := min (Config.freeNat (s.fresh + localOf c)) 16383
  if s.calCells.any fun x => x.cell == c && s.zeroDrive x then 0
  else if ((neighbours c).filterMap id).any (fun d => (loads s.ckts s.cross).contains d) then min (h + 256) (max (h - 256) v)
  else v

/-- The target a cell's heater moves toward at an update instant: its queue in RUN and DARK, the probe in CAL, HOVR under HOE in
HOLD, and 0 in FAULT; none where the code is held (Table 7-5). -/
def State.heaterTarget (s : State) (c : Nat) : Option Nat :=
  match (s.cell c).mode with
  | 0 | 1 => (s.coo c).htarget
  | 2 => some (s.probeTarget c)
  | 3 => let w := s.rd (drvWord c 2); if wbit w 30 then some (fld w 16 14) else none
  | 4 => some 0
  | _ => none

/-- The commanded current is at least 0.5 mA (R171, R174). -/
def readable (hspan h : Nat) : Bool := decide (16384 ≤ h * (if hspan = 0 then 5 else if hspan = 1 then 10 else 20))

/-- A resistance reading taken: HRES, and the runs of readings out of band in one direction (R174). -/
def State.takeReading (s : State) (c res : Nat) : State :=
  let x := s.coo c
  let o := if 1600 < res then min 8 (x.openRun + 1) else 0
  let k := if res < 160 then min 8 (x.shortRun + 1) else 0
  (s.setCoo c { x with openRun := o, shortRun := k }).wrf (drvWord c 1) 0 12 (min res 0xFFF)

/-- The reading of a cell's load at an update instant, where the commanded current is at least 0.5 mA (R174); one that the command does not
give is a free value. -/
def State.readHeater (s : State) (readings : List HeaterReading) (c : Nat) : State :=
  if readable (s.rdf (drvWord c 1) 24 2) (s.hcode c) then
    match readings.find? fun (r : HeaterReading) => r.cell.val == localOf c with
    | some r => s.takeReading c r.res
    | none => s.takeReading c (Config.freeNat (s.fresh + 76 + localOf c))
  else s

/-- One update instant of a cell's heater; supervision is suspended in a heater span passage (R173). -/
def State.updateHeater (s : State) (readings : List HeaterReading) (c : Nat) : State :=
  let x := s.coo c
  if x.passage.any fun (k : Nat × Nat) => 40 < k.1 then s
  else
    let s1 := match s.heaterTarget c with
      | some h => s.setHcode c (slewTo (s.rdf (Reg.DRV_HSLEW (tileOf c)) 0 14) (s.hcode c) h)
      | none => s
    s1.readHeater readings c

/-- A fade's codes after `k` of `len` updates: linear toward 0 from those at T_fd (R178). -/
def State.rampCell (s : State) (k len c : Nat) : State :=
  let x := s.coo c
  (s.setPbase c ((x.fadeP * ((len - k : Nat) : Int)).tdiv len)).setHcode c (x.fadeH * (len - k) / len)

/-- HEATER_UPDATE (R172, R174, R178): an update instant of a tile. -/
def execHeaterUpdate (tile : Fin 64) (readings : List HeaterReading) (s : State) : Result :=
  let t := tile.val
  if !s.tileLive t then .next s
  else match (s.tileRec t).fade with
    | some f =>
      let k := min f.len (f.count + 1)
      .next (((tileCells t).foldl (fun s c => (s.rampCell k f.len c).readHeater readings c)
        (s.setTileRec t { s.tileRec t with fade := some { f with count := k } })).drawMany 152)
    | none => .next (((tileCells t).foldl (fun s c => s.updateHeater readings c) s).drawMany 152)

/-- DRV_STAT.FAULTS. -/
def State.countFaults (s : State) (t : Nat) : State :=
  s.wrf (Reg.DRV_STAT t) 0 7 ((tileCells t).filter fun c => s.bit (drvWord c 1) 31).length

/-- HEATER_FAULT (R175): declared after 8 consecutive readings out of band in one direction. -/
def execHeaterFault (tile : Fin 64) (cell : Fin 76) (s : State) : Result :=
  let t := tile.val
  let c := cellOf t cell
  let x := s.coo c
  if (8 ≤ x.openRun || 8 ≤ x.shortRun) && !s.bit (drvWord c 1) 31 then
    let isOpen := decide (8 ≤ x.openRun)
    let back := if (s.cell c).mode = 3 ∧ s.bit (drvWord c 2) 31 then s.setPbase c x.pcode else s
    let s1 := (back.setHcode c 0).setCoo c { x with htarget := none, openRun := 0, shortRun := 0 }
    let w := s1.rd (drvWord c 1)
    let s2 := (s1.wr (drvWord c 1) (putBit (putBit (putBit w 31 true) 30 isOpen) 29 (!isOpen))).count (drvWord c 1) 16 8 1
    let s3 := match s2.calCells.find? (·.cell == c) with
      | some r => (({ s2 with calCells := s2.calCells.filter (·.cell != c) }).when (!r.tinker) (·.qualResult c r.band 8)).when
          (r.commanded) (·.asyFinish (16 + c) 0 8)
      | none => s2
    let s4 := ((s3.toMode c 4).countFaults t).err (Reg.DRV_ERRSTAT t) (if isOpen then 1 else 2)
    .next (({ s4 with tink := s4.tink.filter fun (k : TinkOp) => k.cell != c }.invalidate false [c] [] []).cooStat t).afterCal
  else .next s

/-- A write of the DRV status word of a cell: FCLR clears a fault of a cell in FAULT (R176). -/
def State.clearFault (s : State) (c : Nat) (v : Word) : State :=
  if wbit v 28 && s.bit (drvWord c 1) 31 && (s.cell c).mode == 4 then
    let s1 := s.wr (drvWord c 1) (s.rd (drvWord c 1) &&& 0x1FFFFFFF#32)
    let s2 := (s1.wr (cooWord c 11) 0#32).wr (cooWord c 12) 0#32
    ((s2.toMode c (s2.naturalMode (loads s2.ckts s2.cross) c)).countFaults (tileOf c)).cooStat (tileOf c)
  else s

/-- HEATER_FAULT_CLEAR (R156, R176). -/
def execHeaterFaultClear (tile : Fin 64) (cell : Fin 76) (v : Word) (s : State) : Result := .next (s.clearFault (cellOf tile cell) v)

/-! ## Fades (R178) -/

/-- A commit of the tile lies between its T_arm and its T_c + 400 ns. -/
def State.commitNear (s : State) (t : Nat) : Bool := s.postponesBand t

/-- The fade of a tile begins: dither and segments stop, timed entries are discarded. -/
def State.startFade (s : State) (t len : Nat) : State :=
  let s1 := (tileCells t).foldl (fun s0 c =>
    let s := s0.settleClamps c
    s.setCoo c { s.coo c with seg := none, passage := [], fadeP := s.pbase c, fadeH := s.hcode c }) s
  let s2 := { s1 with commits := s1.commits.map fun (k : Commit) =>
    if k.phase == CommitPhase.placed || k.phase == CommitPhase.armed then { k with resident := k.resident.filter (· != t) } else k }
  (s2.setTileRec t { s2.tileRec t with fade := some ⟨0, len⟩ }).wrBit (Reg.DRV_STAT t) 24 true

/-- FADE_START (R178): `len` µs, or DRV_FADE.LEN; at the first instant at which no commit of the tile is near. -/
def execFadeStart (tile : Fin 64) (len : Option Nat) (s : State) : Result :=
  let t := tile.val
  .next (if s.commitNear t || (s.tileRec t).fade.isSome then s else s.startFade t (len.getD (s.rdf (Reg.DRV_FADE t) 0 16)))

/-- The outputs of a tile at zero and its output stages off: every cell in REST, where it is BAR, with INBAND 0 (R51, R152, R177). -/
def State.restTile (s : State) (t : Nat) : State :=
  (tileCells t).foldl (fun s c =>
    let s1 := (((s.toMode c 6).setPbase c 0).setHcode c 0).dropBand c
    let x := { s1.coo c with seg := none, passage := [], htarget := none, cur := CycleSums.zero, cnt := 0, ended := none }
    (s1.setCoo c { x with postLaw := false, postTick := false, inRun := 0, outRun := 0, lastHeld := false }).setCell c { s1.cell c with mode := 6, cross := false }) s |>.cooStat t

/-- FADE_END (R178). -/
def execFadeEnd (tile : Fin 64) (s : State) : Result :=
  let t := tile.val
  if (s.tileRec t).fade.isSome then
    .next (((s.setTileRec t { s.tileRec t with fade := none }).restTile t).wrBit (Reg.DRV_STAT t) 24 false)
  else .next s

/-! ## Overrides and waveforms -/

/-- A write of the DRV override word of cell `c` (R179). -/
def State.writeOverride (s : State) (c : Nat) (v : Word) : State :=
  if (s.cell c).mode = 3 then
    (s.wr (drvWord c 2) v).setPbase c (if wbit v 31 then sfld v 0 16 else (s.coo c).pcode)
  else if wbit v 31 || wbit v 30 then s.err (Reg.DRV_ERRSTAT (tileOf c)) 0
  else s.wr (drvWord c 2) v

/-- DRIVE_OVERRIDE_WRITE (R179). -/
def execDriveOverrideWrite (tile : Fin 64) (cell : Fin 76) (v : Word) (s : State) : Result :=
  .next (s.writeOverride (cellOf tile cell) v)

/-- A write of the waveform store at offset `o` of a tile window: the active bank is closed to it (R170), but not before T_dr (R375). -/
def State.writeWave (s : State) (t o : Nat) (v : Word) : State :=
  if 0x11000 ≤ o ∧ o < 0x19000 then
    if (o - 0x11000) / 0x4000 = s.rdf (Reg.DRV_PECTL t) 0 1 ∧ s.rd (Reg.BOOT_TIME 5) ≠ 0xFFFFFFFF#32 then s.err (Reg.DRV_ERRSTAT t) 0
    else s.writeReg (tileAddr t o) v
  else s

/-- WAVEFORM_WRITE (R170): `offset` from the tile window's base. -/
def execWaveformWrite (tile : Fin 64) (offset : Nat) (v : Word) (s : State) : Result := .next (s.writeWave tile offset v)

/-- WAVEFORM_BANK_SELECT (R170): for commits whose T_arm follows. -/
def execWaveformBankSelect (tile : Fin 64) (v : Word) (s : State) : Result := .next (s.wrMask (Reg.DRV_PECTL tile) 1#32 v)

/-! ## The commit instant and after -/

/-- COMMIT_INSTANT (R120, R153): a commit past its arm point is applied by its tiles. -/
def execCommitInstant (tc : Nat) (s : State) : Result :=
  match s.commitAt tc with
  | some k => if k.phase == .go then .next (s.applyCommit k) else .next s
  | none => .next s

/-- What was postponed for a cell applied (R153), and its segment of that commit at its end (R169); a loop that has frozen or stopped
meanwhile runs no law (R138). -/
def State.applyPostponed (s0 : State) (tc c : Nat) : State :=
  let s := s0.settleClamps c
  let x := s.coo c
  let tb := s.tband (tileOf c)
  let m := (s.cell c).mode
  let s1 := s.setCoo c { x with seg := x.seg.filter fun (g : Segment) => g.tc != tc }
  let s2 := match x.ended with
    | some sums => if x.postLaw && (m == 0 || m == 1 || m == 4) then s1.law c tb sums else s1.setCoo c { s1.coo c with postLaw := false }
    | none => s1.setCoo c { s1.coo c with postLaw := false }
  if x.postTick then (if (s2.cell c).mode = 0 ∨ (s2.cell c).mode = 1 then s2.offload c tb
    else s2.setCoo c { s2.coo c with postTick := false }) else s2

/-- POSTPONED_APPLICATION (R119, R153): at T_c + 400 ns. -/
def execPostponedApplication (tc : Nat) (s : State) : Result :=
  match s.settling.find? (·.1 == tc) with
  | some p =>
    let s1 := { (s.raise (tc + 400)) with settling := s.settling.filter (·.1 != tc) }
    let s2 := p.2.foldl (fun s c => s.applyPostponed tc c) s1
    let tiles := ((s2.commitAt tc).map (·.involved)).getD ((p.2.map tileOf).eraseDups)
    .next (tiles.foldl State.pendingBand (((p.2.map tileOf).eraseDups).foldl (fun s t => s.retime t p.2) s2))
  | none => .next s

/-- One stage of a span passage of cell `c` (Table 7-3), at its instant. A fenced tile holds its codes (R177). -/
def State.passStage (s0 : State) (c k inst : Nat) (rest : List (Nat × Nat)) : State :=
  let s := (s0.raise inst).settleClamps c
  let x := s.coo c
  let s1 := s.setCoo c { x with passage := rest }
  let w := s1.rdLive (drvWord c 0)
  if k = 16 then s1.wrf (drvWord c 1) 26 1 (fld w 8 1)
  else if k = 40 then (if (s.cell c).mode = 5 then s1 else s1.setPbase c x.passCode)
  else if k = 2000 then s1.wrf (drvWord c 1) 24 2 (fld w 4 2)
  else s1

/-- SPAN_PASSAGE_STAGE (R173): the next stage of a cell's passage. -/
def execSpanPassageStage (cell : Fin 4864) (s : State) : Result :=
  match (s.coo cell).passage with
  | p :: rest => .next (s.passStage cell p.1 p.2 rest)
  | [] => .next s

end Sys2Proof.Machine
end

