-- ==== Sys2Proof/Machine/AssayerCommands.lean ====
section
/-! DEFINITION. The Assayer and the Tinker (chapter 9): taking and releasing cells, measurements, full and background calibration,
calibration commits, bank saves, rest errors and rest-trim writes; and the opening of a guard window (R123, R222 case 4). -/

namespace Sys2Proof.Machine

/-! ## Time stamps -/

/-- A stamp: seconds + 1, or 0. -/
def State.stamp (s : State) (k : Nat) : Nat := Store.get 0 s.stamps k

/-- The state with stamp `k` set to now. -/
def State.stampNow (s : State) (k : Nat) : State := { s with stamps := Store.set 0 s.stamps k (secOf s.ns + 1) }

/-- At least `n` seconds have passed since stamp `k`, or it was never set. -/
def State.sinceStamp (s : State) (k n : Nat) : Bool := s.stamp k == 0 || decide (s.stamp k + n ≤ secOf s.ns + 1)

/-- Whole hours since stamp `k`, saturating at 16 bits; 0 where it was never set. -/
def State.hoursSince (s : State) (k : Nat) : Nat := if s.stamp k = 0 then 0 else satN 16 ((secOf s.ns + 1 - s.stamp k) / 3600)

/-! ## Taking cells (R212) -/

/-- The thermal level is THROTTLE or above (R231). -/
def State.throttled (s : State) : Bool := decide (2 ≤ s.rdf Reg.THM_STAT 28 2)

/-- A held solution has the cell in its delta or on one of its new or moved paths. -/
def State.heldNames (s : State) (c : Nat) : Bool :=
  s.heldBatches.any fun b => b.sol.any fun x => x.cells.contains c || x.pathCells.contains c

/-- An installed alternate has the cell in its delta. -/
def State.altNames (s : State) (c : Nat) : Bool :=
  s.alts.any fun a => (s.altCells s.ckts a).contains c

/-- The Assayer is asked to stop, or has stopped, for an entry in progress (step 4 of Table 15-4). -/
def State.calStopped (s : State) : Bool := s.change.any fun k => (k.req.target == 1 || k.req.target == 2 || k.req.target == 3) && decide (4 ≤ k.step)

/-- The conditions of R212 but for the count per tile. -/
def State.eligible (s : State) (c : Nat) : Bool :=
  ((s.cell c).mode == 1 || ((s.cell c).mode == 6 && s.fullcal.isSome)) && !s.heldNames c && !s.altNames c && !s.pinned c && !s.calStopped

/-- At most MAXCAL + 1 cells of a tile are in CAL outside a full calibration. -/
def State.calRoom (s : State) (t : Nat) : Bool :=
  decide ((s.calCells.filter fun x => tileOf x.cell == t).length < s.rdf Reg.ASY_CTRL 8 2 + 1)

/-- A cell taken into CAL for the Assayer or the Tinker, in `band`, from MODE `prev`. -/
def CalRec.new (cell : Nat) (tinker full band : Bool) (prev : Nat) : CalRec where
  cell := cell
  tinker := tinker
  full := full
  band := band
  prev := prev
  commanded := false
  retried := false
  moved := false
  seed := 0

/-- A cell taken into CAL: its codes are held, its probe terms drawn, and its channel goes stale (R202, R213). -/
def State.takeCal (s : State) (x : CalRec) : State :=
  let c := x.cell
  let s1 := s.toMode c 2
  (({ s1.draw with calCells := s1.calCells ++ [{ x with seed := s1.fresh }] }.setCoo c { s1.coo c with calH := s1.hcode c }).noteStale (tileOf c)
    (localOf c)).cooStat (tileOf c)

/-! ## Commands (R219, R221, R225) -/

/-- A command refused: PORT_BUSY and CMDERR. -/
def State.asyRefuse (s : State) : State := (s.asyResult 4 0).err Reg.ASY_ERRSTAT 0

/-- A full calibration started: HOLD, every eligible cell into CAL, the source on for band O (Table 9-3). -/
def State.startFull (s : State) (boot : Bool) : State :=
  let s1 := ({ s with fullcal := some ⟨boot, false, [], none, []⟩ }.wrBit Reg.LMP_CTRL 8 true).lampStat
  let s2 := ((List.range 4864).filter s1.eligible).foldl (fun s c =>
    s.takeCal (CalRec.new c false true false (s1.cell c).mode)) s1
  ((s2.wr Reg.ASY_STAT (s2.rd Reg.ASY_STAT &&& 0xFC0FFFFF#32)).calSource true false).asyStat

/-- FULLCAL (R219): refused when any circuit exists, any batch is held, or at CRIT; and while one runs or outside P0 (R231). -/
def execFullcal (s : State) : Result :=
  if !s.ckts.isEmpty || !s.heldBatches.isEmpty || s.thermalBlock || s.fullcal.isSome || s.pstate != 0 then .next s.asyRefuse
  else .next ((s.asyBegin 1).startFull false)

/-- The input that probe light enters to reach cell `c` (R216): the first one, without light or a circuit, whose light crosses the cell
(DESIGN CHOICE, log entry 116). -/
def State.probeInput (s : State) (c : Nat) : Option Nat :=
  (List.range 512).find? fun k => !inUsed s.ckts k && !s.lit k && (pathCells s.cross k).contains c

/-- The coupler of port pair `i`: the first input of the pair that carries no circuit and no light (R220). -/
def State.pairCoupler (s : State) (i : Nat) : Option Nat :=
  [2 * i, 2 * i + 1].find? fun k => !inUsed s.ckts k && !s.lit k

/-- The couplers opened once the source has settled: in a full calibration one per port pair, else one for each cell that is probed. -/
def State.openCouplers (s : State) : State :=
  { s with couplers := if s.fullcal.isSome then (List.range 256).filterMap s.pairCoupler
      else (s.calCells.filter fun x => !x.tinker && !x.retried).filterMap fun x => s.probeInput x.cell }

/-- Light for a measurement outside a full calibration (R216, R221): the source on, unless SRC is AMBIENT; the coupler opens where the source
has settled before. -/
def State.probeLight (s : State) (band : Bool) : State :=
  if s.rdf Reg.ASY_CTRL 10 2 = 1 then s
  else
    let s1 := s.calSource true band
    if s1.calSettled then s1.openCouplers else s1

/-- A cell measured at once, or deferred to its next eligible visit (R221). -/
def State.cellcal (s : State) (c : Nat) (full : Bool) : State :=
  if s.eligible c && s.calRoom (tileOf c) && s.pstate == 0 && s.fullcal.isNone then
    (((s.asyBegin (16 + c)).takeCal { CalRec.new c false full (s.cell c).band (s.cell c).mode with commanded := true }).probeLight
      (s.cell c).band).asyStat
  else { s with deferredCal := (s.deferredCal.filter fun (p : Nat × Bool) => p.1 != c) ++ [(c, full)] }.asyResult 1 0

/-- CELLCAL (R221). -/
def execCellcal (cell : Fin 4864) (full : Bool) (s : State) : Result := .next (s.cellcal cell full)

/-- The word of a staged factor address, in force, that a bank keeps: every factor word and quality record (Table 9-5). -/
def bankAddr (a : Nat) : Bool :=
  (decide (Reg.ASY_QUAL_W0 0 ≤ a) && decide (a < Reg.ASY_QUAL_W0 4864)) ||
    (decide (0x2000000 ≤ a) && decide (a < 0x3000000) && (factorCell (a % 0x40000)).isSome)

/-- AGE of a cell's quality record: the hours loaded with it, and those since. -/
def State.qualAge (s : State) (c : Nat) : Nat := satN 16 (s.rdf (Reg.ASY_QUAL_W1 c) 0 16 + s.hoursSince (14592 + c))

/-- The copy of step 1 of R225: the factors in force, and the quality records with the AGE they show. -/
def State.bankCopy (s : State) : List (Nat × Word) :=
  (s.live.filter fun p => bankAddr p.1) ++ (s.words.filter fun p => bankAddr p.1 && decide (p.1 < 0x2000000)).map fun p =>
    if p.1 % 8 = 4 then (p.1, put p.2 0 16 (s.qualAge ((p.1 - Reg.ASY_QUAL_W0 0) / 8))) else p

/-- The extinction of the factors in force of a cell in a band, as measured; 0 where no measurement gave them (R211). -/
def State.extInForce (s : State) (c : Nat) (band : Bool) : Nat :=
  match s.extOld.find? fun (p : Nat × Nat) => p.1 == 2 * c + band.toNat with
  | some p => p.2
  | none => s.rdf (Reg.ASY_QUAL_W0 c) (if band then 22 else 12) 10

/-- The median TEMP of the photonic die's sensors, in 0.1 °C. -/
def State.dieTemp (s : State) : Int :=
  let xs := ((List.range' 64 64).filter fun i => s.bit (Reg.THM_SENS i) 31).map fun i => sfld (s.rd (Reg.THM_SENS i)) 0 16
  if xs.isEmpty then 0 else (5 * median2 xs).tdiv 16

/-- The words of a cell's record in a bank, by address, without the reserved ones (Table 9-5). -/
def recordAddrs (c : Nat) : List Nat :=
  (List.range 168).map (Reg.COO_PTAB (tileOf c) (localOf c)) ++ (List.range 7).map (cooWord c) ++ [drvWord c 0, Reg.ASY_QUAL_W0 c, Reg.ASY_QUAL_W1 c]

/-- The body of a bank: 4,864 records of 0x300 bytes (Table 9-5). -/
def bankBody (copy : List (Nat × Word)) : List Word :=
  (List.range 4864).flatMap fun c => (recordAddrs c).map (fun a => Store.get (resetWord a) copy a) ++ List.replicate 14 0xFFFFFFFF#32

/-- The header of a bank before its TAG (Table 9-4). -/
def State.bankHead (s : State) (r : SaveRun) (gen : Nat) : List Word :=
  [0x4E474342#32, 1#32, wd gen, s.rd (Reg.SEC_UID 0), 0x390000#32, r.temp, r.time, wd r.ok]

/-- The internal address of bank `i`'s region, as the image names it. -/
def State.bankBase (s : State) (i : Nat) : Nat :=
  norBase + ((s.image.map fun m => (nvmArea m i).1).getD 0x2000000)

/-- The header sector of bank `i` erased: it holds no valid bank (R225 step 3). -/
def State.eraseHead (s : State) (i : Nat) : State :=
  { s.eraseMem (s.bankBase i) 0x1000 with bankOwn := (i :: s.bankOwn).eraseDups }

/-- Bank `i` programmed: the region erased, the body, and the header with its TAG (R224, R225). -/
def State.storeBank (s : State) (i gen : Nat) (r : SaveRun) : State :=
  let body := bankBody r.copy
  let head := s.bankHead r gen
  let s1 := (s.eraseHead i).eraseMem (s.bankBase i) 0x400000
  (s1.putMem (s.bankBase i + 0x1000) body).putMem (s.bankBase i) (head ++ (List.range 8).map (Config.bankTag (head ++ body)))

/-- GEN of banks A and B. -/
def State.bankGen (s : State) (i : Nat) : Nat := (s.rd (Reg.ASY_BANKGEN i)).toNat

/-- The newest valid GEN, and the bank a save targets: the invalid one, or the one with the lower GEN (R225). -/
def State.saveTarget (s : State) : Nat × Nat :=
  let a := s.bankGen 0
  let b := s.bankGen 1
  if a = 0xFFFFFFFF then (if b = 0xFFFFFFFF then 0 else b, 0)
  else if b = 0xFFFFFFFF then (a, 1)
  else (max a b, if a ≤ b then 0 else 1)

/-- No save is in progress; a NOR command that waited behind it no longer does (R386). -/
def State.noSave (s : State) : State :=
  { s with saving := none, flash := s.flash.map fun (f : FlashOp) => { f with behind := false } }

/-- A save in progress is interrupted (Table 9-6): nothing is lost in steps 1 and 2, whose copy ends at `saveUntil`; from step 3 on the target
has no valid header. -/
def State.dropSave (s : State) : State :=
  let s1 := s.noSave
  if s.saving.isSome && decide (s.saveUntil ≤ s.ns) then s1.eraseHead s.saveTarget.2 else s1

/-- The GEN a save would give: the newest valid GEN + 1. -/
def State.saveGen (s : State) : Nat :=
  if s.bankGen 0 = 0xFFFFFFFF ∧ s.bankGen 1 = 0xFFFFFFFF then 0 else s.saveTarget.1 + 1

/-- A save started (R225 step 1). -/
def State.startSave (s : State) : State :=
  let ok := ((List.range 4864).filter fun c => s.extInForce c false != 0 || s.extInForce c true != 0).length
  { s with saving := some ⟨s.bankCopy, BitVec.ofInt 32 s.dieTemp, wd (secOf s.ns), ok, s.flash.isSome⟩, saveUntil := s.ns + 20000000 }.asyStat

/-- A save under AUTOSAVE: refused with CMDERR for want of a generation (R225). -/
def State.autosave (s : State) : State := if s.saveGen = 0xFFFFFFFF then s.err Reg.ASY_ERRSTAT 0 else s.startSave

/-- SAVE (R225): refused while a save runs, or for want of a generation. -/
def execSave (s : State) : Result :=
  if s.saving.isSome || s.saveGen == 0xFFFFFFFF then .next s.asyRefuse else .next (s.asyBegin 3).startSave

/-- Every cell in CAL for the Assayer released (R214). -/
def State.releaseCal (s : State) : State := (s.calCells.filter fun x => !x.tinker).foldl State.leaveCal s

/-- A full calibration's end: cells released, couplers closed, source off; HOLD cleared when `hold`. -/
def State.stopFull (s : State) (hold : Bool) : State :=
  let s1 := ({ s.releaseCal with couplers := [], fullcal := none }.calSource false false)
  ((s1.when hold (·.wrBit Reg.LMP_CTRL 8 false)).afterCal).lampStat

/-- CAL_ABORT (ASY_CMD OP ABORT): a full calibration, or the cells of CELLCAL commands, abandoned with their held codes. -/
def execCalAbort (s : State) : Result :=
  if s.fullcal.isSome then .next ((s.stopFull true).asyResult 0 0)
  else .next (({ (s.calCells.filter fun (x : CalRec) => x.commanded).foldl State.leaveCal s with deferredCal := [] }.afterCal).asyResult 0 0)

/-! ## Light (R216, R220) -/

/-- CALSRC_SETTLED (R216, R220): 5 ms after a change the couplers open. -/
def execCalsrcSettled (s : State) : Result :=
  if s.calEn && !s.calSettled then
    .next { s.openCouplers with calSettled := true, fullcal := s.fullcal.map fun (f : FullCal) => { f with settledAt := some s.ns } }
  else .next s

/-! ## Background visits (R221) -/

/-- The next cell in order that a background visit may take. -/
def State.nextVisit (s : State) : Option Nat :=
  let due := fun c => s.eligible c && s.calRoom (tileOf c) &&
    (s.sinceStamp c (s.rd Reg.ASY_BGPER).toNat || s.deferredCal.any (·.1 == c))
  ((List.range 4864).map fun i => (s.bgNext + i) % 4864).find? due

/-- Background work runs: P0 after UP, below THROTTLE, no full calibration. -/
def State.background (s : State) : Bool := s.pstate == 0 && s.bit Reg.BOOT_STAT 31 && !s.throttled && s.fullcal.isNone && !s.calStopped

/-- BACKGROUND_VISIT (R221): TRIM, or FULL after QFAIL or for a CELLCAL of KIND FULL. -/
def execBackgroundVisit (cell : Fin 4864) (s : State) : Result :=
  let c := cell.val
  let cmd := s.deferredCal.find? (·.1 == c)
  if s.background && (s.bit Reg.ASY_CTRL 0 || cmd.isSome) && s.nextVisit == some c then
    let band := (s.cell c).band
    let last := s.rdf (Reg.ASY_QUAL_W0 c) (if band then 8 else 4) 4
    let full := last == 6 || cmd.any (·.2)
    let s1 := ({ s with deferredCal := s.deferredCal.filter (·.1 != c), bgNext := (c + 1) % 4864 }.stampNow c).takeCal
      (CalRec.new c false full band 1)
    .next ((s1.probeLight band).asyStat)
  else .next s

/-! ## Measurements (R211, R217) -/

/-- The level after differs from the level before by more than 1.0 dB. -/
def levelMoved (a b : Nat) : Bool := decide (10 * a ^ 10 < b ^ 10) || decide (10 * b ^ 10 < a ^ 10)

/-- The Pockels code span for π rad that the table in force of cell `c` in a band gives, by its mean slope (R217; DESIGN CHOICE, log
entry 117). -/
def State.halfWave (s : State) (c : Nat) (band : Bool) : Nat :=
  let a := Reg.COO_PTAB (tileOf c) (localOf c) 0 + 0x80 * band.toNat
  let e := fun (i : Nat) => signed 16 (s.liveHalf (a + 2 * i))
  (e 63 - e 0).natAbs * 2 ^ 27 / (63 * 2 ^ fld (s.rdLive (Reg.COO_HDR_W1 (tileOf c) (localOf c) band.toNat)) 0 5)

/-- BANDCHK (R217): the measured span differs by more than 20 % from the reference. -/
def State.wrongBand (s : State) (c : Nat) (band : Bool) (span : Nat) : Bool :=
  let r := s.halfWave c band
  decide (6 * r < 5 * span) || decide (5 * span < 4 * r)

/-- The result code of a measurement (Table 9-1); `full`: in a full calibration, `moved`: the thermal band changed. -/
def State.judgeMeasured (s : State) (full moved : Bool) (c : Nat) (band : Bool) (m : Measured) : Nat :=
  let w := s.rd Reg.ASY_PWIN
  let q := s.rd Reg.ASY_QLIM
  if m.heaterFault then 8
  else if full && m.dualLit then 10
  else if moved then 4
  else if m.levelBefore < fld w 0 16 then 2
  else if fld w 16 16 < m.levelBefore then 3
  else if levelMoved m.levelBefore m.levelAfter then 4
  else if s.wrongBand c band m.halfWave then 5
  else if fld q 16 10 ≤ m.ext ∧ m.phase ≤ fld q 0 8 ∧ s.extInForce c band ≤ m.ext + 10 then 1
  else 6

/-- A neighbour of cell `c` carries a circuit (R215). -/
def State.litBeside (s : State) (c : Nat) : Bool :=
  let ls := loads s.ckts s.cross
  ((neighbours c).filterMap id).any fun d => ls.contains d

/-- The factor words that a measurement of cell `c` in a band may stage, with the bits of each (R210, R215, Table 9-2): a TRIM the dither's,
the targets, and PORG and HORG; a FULL all of the band's tables too, but beside a lit neighbour not the heater's and the coupling tables. -/
def measuredWords (c : Nat) (band full lit : Bool) : List (Nat × Word) :=
  let t := tileOf c
  let l := localOf c
  let b := band.toNat
  let all := fun (a : Nat) => (a, 0xFFFFFFFF#32)
  let table := fun (o n : Nat) => (List.range n).map fun k => all (Reg.COO_PTAB t l 0 + o + 4 * k)
  let dither := [(cooWord c 0, if full then 0x3F1F#32 else 0x3F00#32), (cooWord c 1, 0x1FFFFF#32), all (cooWord c 2), all (cooWord c (3 + 2 * b)),
    all (cooWord c (4 + 2 * b)), all (Reg.COO_HDR_W0 t l b)]
  if !full then dither ++ [all (Reg.COO_HDR_W2 t l b)]
  else dither ++ table (0x80 * b) 32 ++ [(Reg.COO_HDR_W1 t l b, if lit then 0x1F#32 else 0x1F1F#32), (drvWord c 0, 0x130#32)] ++
    if lit then [] else table (0x100 + 0x80 * b) 32 ++ table (0x200 + 0x40 * b) 16 ++
      [all (Reg.COO_HDR_W2 t l b), (Reg.COO_HDR_W3 t l b, 0x1F#32)]

/-- One measured word written to its staged copy; a TONE that R142 refuses is ignored. -/
def State.stageWord (s : State) (c : Nat) (q : Nat × Word) (v : Word) : State :=
  let bad := q.1 == cooWord c 0 && wbit q.2 0 && (fld v 0 5 == 0 || s.toneRefused c (fld v 0 5))
  (s.wrMask q.1 (if bad then q.2 &&& 0xFFFFFFE0#32 else q.2) v).when (bad && fld v 0 5 != 0) (·.err (Reg.COO_ERRSTAT (tileOf c)) 0)

/-- The measured factors written to the staged copy of their cell (R210, R218); stage 0 of a full calibration keeps what they replace. -/
def State.stageMeasured (s : State) (c : Nat) (band full : Bool) (fs : List (Nat × Word)) : State :=
  let words := measuredWords c band full (s.litBeside c)
  (fs.foldl (fun (s : State) p => match words.find? fun (q : Nat × Word) => q.1 == tileAddr (tileOf c) p.1 with
    | some q => { s.stageWord c q p.2 with fullcal := s.fullcal.map fun (f : FullCal) => if c < 256 then { f with undo := (q.1, s.rd q.1) :: f.undo } else f }
    | none => s) s).markStaged c

/-- A measurement's outcome recorded: quality figures, counters and error bits (R211, R217). -/
def State.recordMeasured (s : State) (c : Nat) (band full : Bool) (res : Nat) (m : Measured) : State :=
  let s1 := s.qualResult c band res
  match res with
  | 1 =>
    let k := 2 * c + band.toNat
    let kept := if s1.extOld.any fun (p : Nat × Nat) => p.1 == k then s1.extOld else (k, s1.extInForce c band) :: s1.extOld
    let s2 := (({ s1 with extOld := kept }.wrf (Reg.ASY_QUAL_W0 c) (if band then 22 else 12) 10 (satN 10 m.ext)).wrf (Reg.ASY_QUAL_W1 c)
      (if band then 24 else 16) 8 (satN 8 m.phase)).wrf (Reg.ASY_QUAL_W1 c) 0 16 0
    ((s2.stageMeasured c band full m.factors).stampNow (14592 + c)).count Reg.ASY_CALCNT 0 32 1
  | 6 => s1.err Reg.ASY_ERRSTAT 2
  | 8 => s1
  | _ => (s1.count Reg.ASY_SKIPCNT 0 32 1).err Reg.ASY_ERRSTAT 1

/-- The shared status of a result (Table 9-1). -/
def resultStatus (res : Nat) : Nat := if res = 1 ∨ res = 6 ∨ res = 8 then 0 else if res = 7 then 1 else 9

/-- MEASUREMENT_COMPLETE (R211, R214, R217, R221): of a cell of the stage in progress in a full calibration, and not before the source in use
has settled. The cell is released, but in a full calibration, which holds its cells to the end; under PROBE_AMBIENT a dark probe is retried
with the couplers closed. -/
def execMeasurementComplete (cell : Fin 4864) (m : Measured) (s : State) : Result :=
  let c := cell.val
  match s.calCells.find? fun x => x.cell == c && !x.tinker with
  | none => .next s
  | some x =>
    let full := s.fullcal.isSome
    let band := if full then s.bit Reg.ASY_STAT 20 else x.band
    let res := s.judgeMeasured full x.moved c band m
    if (s.calEn && !s.calSettled && !x.retried) || (full && c / 256 != s.rdf Reg.ASY_STAT 21 5) then .next s
    else if !full && res == 2 && s.rdf Reg.ASY_CTRL 10 2 == 2 && !x.retried then
      .next { s with couplers := [], calCells := s.calCells.map fun (y : CalRec) => if y.cell = c then { y with retried := true } else y }
    else
      let s1 := s.recordMeasured c band x.full res m
      .next (if full then s1 else ((s1.leaveCal x).when x.commanded (·.asyFinish (16 + c) (resultStatus res) res)).afterCal)

/-! ## Calibration commits (R222, R223) -/

/-- A calibration commit of the cells `cs` placed at `tc`. -/
def State.placeCal (s : State) (cs : List Nat) (tc : Nat) : State :=
  let k : Commit := { Commit.new tc .calibration with factors := cs, involved := (cs.map tileOf).eraseDups }
  { s with lastCalCommit := tc, commits := s.commits ++ [k] }.lampStat

/-- The staged cells outside CAL that no commit already carries. -/
def State.stagedCells (s : State) : List Nat :=
  (List.range 4864).filter fun c => s.bit (cooWord c 7) 27 && !s.calCells.any (·.cell == c) && !s.commits.any (·.factors.contains c)

/-- Cells given to the host commit at `tc`. -/
def State.ride (s : State) (tc : Nat) (cs : List Nat) : State :=
  match s.commitAt tc with
  | some k => s.setCommit (s.recompute { k with factors := k.factors ++ cs })
  | none => s

/-- A host commit involving tile `t` that is already armed. -/
def State.armedHost (s : State) (t : Nat) : Option Commit :=
  s.commits.find? fun k => k.kind == .host && k.phase == .armed && k.involved.contains t

/-- The staged factors of dark cells: they ride an armed host commit of their tile, or take a calibration commit at the first
reachable instant at least CCPER after the previous one. -/
def State.placeDark (s : State) (cs : List Nat) : State :=
  let rode := cs.filter fun c => (s.armedHost (tileOf c)).isSome
  let rest := cs.filter fun c => (s.armedHost (tileOf c)).isNone
  let s1 := rode.foldl (fun s c => match s.armedHost (tileOf c) with
    | some k => s.ride k.tc [c]
    | none => s) s
  if rest.isEmpty then s1
  else
    let t := max (s1.ns + 460) (s1.lastCalCommit + s1.rdf Reg.ASY_CTRL 16 8 * 100000)
    s1.placeCal rest (s1.firstFree (s1.commits.length + 1) (roundUp 4 t))

/-- CALIBRATION_COMMIT_PLACEMENT (R223): in P0. -/
def execCalibrationCommitPlacement (s : State) : Result :=
  let ls := loads s.ckts s.cross
  let cs := s.stagedCells.filter fun c => !ls.contains c
  .next (if s.pstate != 0 || cs.isEmpty then s else s.placeDark cs)

/-- Schedule `n`'s window that opened at `o` opens now: staged factors of lit cells whose circuits all wait for this schedule ride the first
host commit of the window, or take a calibration commit that fits in it, of as many tiles as fit; the others wait for the next window
(R123, R223). -/
def State.openWindow (s : State) (n o : Nat) : State :=
  let w := s.schedule n
  let s1 := s.wrBit (Reg.LMP_WINSTAT n) 0 true
  let ls := loads s.ckts s.cross
  let cs := s.stagedCells.filter fun c => ls.contains c && s.windowCarries c n
  if cs.isEmpty || s.pstate != 0 then s1
  else
    let hosts := sortBy Commit.tc (s.commits.filter fun k => k.kind == .host && (k.phase == .placed || k.phase == .armed) &&
      decide (o + 200 ≤ k.tc) && decide (k.tc < o + w.len))
    match hosts.head? with
    | some k => s1.ride k.tc cs
    | none =>
      let ts := (cs.map tileOf).eraseDups
      let fits := fun (k : Nat) => s1.fitWindow w (s1.ns + 460) (404 + 8 * k) (w.index o)
      match ((List.range ts.length).map fun i => ts.length - i).find? fun k => (fits k).isSome with
      | some k => match fits k with
        | some tc => s1.placeCal (cs.filter fun c => (ts.take k).contains (tileOf c)) tc
        | none => s1
      | none => s1

/-- GUARD_WINDOW_OPEN (R123, R127): the window shows as open at its opening instant. -/
def execGuardWindowOpen (n : Fin 8) (s : State) : Result :=
  if !s.bit (Reg.LMP_WINCTL n) 0 || s.bit (Reg.LMP_WINSTAT n) 0 then .next s
  else
    let w := s.schedule n
    let i := w.index s.ns
    let o := if s.ns < w.opens i + w.len then w.opens i else w.opens (i + 1)
    .next ((s.raise o).openWindow n o)

/-! ## Full calibration (R220) -/

/-- The cells of the stage in progress that found no light. -/
def State.darkInStage (s : State) (g : Nat) (band : Bool) : Nat :=
  ((List.range 256).filter fun w =>
    let r := s.rdf (Reg.ASY_QUAL_W0 (cellAt g w)) (if band then 8 else 4) 4
    r == 2 || r == 3).length

/-- What stage 0 staged in the band in progress taken back: an abandoned band keeps its factors. -/
def State.unstage (s : State) (f : FullCal) : State :=
  (List.range 256).foldl (fun (s : State) w => s.markStaged (cellAt 0 w)) (f.undo.foldl (fun (s : State) p => s.wr p.1 p.2) s)

/-- The next measurements of the cells in CAL begin: no thermal band has changed during them. -/
def State.stillCal (s : State) : State := { s with calCells := s.calCells.map fun (x : CalRec) => { x with moved := false } }

/-- The band in progress ends: zero drive and band C follows band O, and then the cells are released and the calibration commit is placed. -/
def State.endBand (s : State) (f : FullCal) (band : Bool) : State :=
  if !band then
    (({ s with fullcal := some { f with settledAt := none, undo := [] } }.stillCal).wr Reg.ASY_STAT (put (putBit (s.rd Reg.ASY_STAT) 20 true) 21 5 0)).calSource
      true true
  else
    let s1 := { ((s.releaseCal).calSource false false) with couplers := [], fullcal := some { f with ended := true, undo := [] } }
    let cs := s1.stagedCells
    if cs.isEmpty then s1 else s1.placeCal cs (s1.firstFree (s1.commits.length + 1) (roundUp 4 (s1.ns + 500000)))

/-- A full calibration over: HOLD cleared, the command's result, and a save under AUTOSAVE. -/
def State.closeFull (s : State) (f : FullCal) : State :=
  let s1 := ({ s with fullcal := none, abandoned := f.abandoned }.wrBit Reg.LMP_CTRL 8 false).asyStat.lampStat
  let s2 := if f.boot then s1 else s1.asyFinish 1 (if f.abandoned.isEmpty then 0 else 9) 0
  if s2.bit Reg.ASY_CTRL 3 && s2.saving.isNone then s2.autosave else s2

/-- FULLCAL_STAGE_COMPLETE (R220, Table 9-3). -/
def execFullcalStageComplete (s : State) : Result :=
  match s.fullcal with
  | none => .next s
  | some f =>
    if f.ended then .next (s.closeFull f)
    else
      let g := s.rdf Reg.ASY_STAT 21 5
      let band := s.bit Reg.ASY_STAT 20
      if g = 0 ∧ 128 ≤ s.darkInStage 0 band then
        .next ((s.unstage f).endBand { f with abandoned := f.abandoned ++ [band] } band)
      else if g < 18 then .next (s.stillCal.wrf Reg.ASY_STAT 21 5 (g + 1))
      else .next (s.endBand f band)

/-! ## Bank saves (R225) -/

/-- The time of the save that just ended; the cells whose factors have changed since are none. -/
def State.noteSave (s : State) : State := { s with lastSave := secOf s.ns, sinceSave := [] }

/-- No save is in progress. -/
def State.endSave (s : State) : State := { s.noSave with saveUntil := 0 }

/-- SAVE_COMPLETE (R225 step 5): read-back verifies, or SAVEFAIL; a save fails while debug is open (R385). A save behind a NOR command waits
for it (R386). -/
def execSaveComplete (readBackOk : Bool) (s : State) : Result :=
  match s.saving with
  | none => .next s
  | some r =>
    let t := s.saveTarget.2
    let g := s.saveGen
    let s1 := s.endSave.eraseHead t
    if r.behind then .next s
    else if readBackOk && !s.bit Reg.SEC_OTPSTAT 29 then
      .next ((((s1.storeBank t g r).noteSave.wr (Reg.ASY_BANKGEN t) (wd g)).asyStat).asyFinish 3 0 0)
    else
      .next ((((s1.wr (Reg.ASY_BANKGEN t) 0xFFFFFFFF#32).asyStat).asyFinish 3 0 0).err Reg.ASY_ERRSTAT 3)

/-- AUTOSAVE (R225): 256 cells and an hour since the previous save; refused with CMDERR for want of a generation. -/
def execAutosave (s : State) : Result :=
  .next (if s.bit Reg.ASY_CTRL 3 && s.saving.isNone && decide (256 ≤ s.sinceSave.length) && decide (s.lastSave + 3600 ≤ secOf s.ns)
    then s.autosave else s)

/-! ## Rest trims (R227 to R230) -/

/-- RESTERR of a cell in 0.1 mrad; none where it was not measured. -/
def State.restErr (s : State) (c : Nat) : Option Int :=
  let v := s.rdf (Reg.TNK_CELL_W1 c) 16 16
  if v = 0x8000 then none else some (signed 16 v)

/-- THR in 0.1 mrad. -/
def State.trimThr (s : State) : Nat := 10 * s.rdf Reg.TNK_CTRL 24 8

/-- |RESTERR| exceeds THR. -/
def State.trimOut (s : State) (c : Nat) : Bool := (s.restErr c).any fun e => decide (s.trimThr < e.natAbs)

/-- No host light reaches the cell: both inputs that feed its input positions are dark (R228). -/
def State.noHostLight (s : State) (c : Nat) : Bool :=
  (List.range 512).all fun k => !s.lit k || !(pathCells s.cross k).contains c

/-- The conditions of R228 for a write operation on a cell already in CAL; `first` for the first one of a visit. -/
def State.trimAllowed (s : State) (c : Nat) (first : Bool) : Bool :=
  let ls := loads s.ckts s.cross
  let w := s.rd (Reg.TNK_CELL_W0 c)
  s.bit Reg.TNK_CTRL 0 && s.trimOut c && s.noHostLight c && ((neighbours c).filterMap id).all (fun d => !ls.contains d) &&
    (!first || s.sinceStamp (9728 + c) (3600 * s.rdf Reg.TNK_CTRL 16 8)) && !wbit w 31 && !wbit w 29 && !s.bit Reg.TNK_STAT 30 &&
    !s.heldNames c && !s.altNames c && !s.pinned c && s.background

/-- REST_ERROR_MEASUREMENT (R212, R227): an eligible cell, at most once per 24 h. -/
def execRestErrorMeasurement (cell : Fin 4864) (s : State) : Result :=
  let c := cell.val
  if s.eligible c && s.calRoom (tileOf c) && s.background && s.sinceStamp (4864 + c) 86400 then
    .next (((s.stampNow (4864 + c)).takeCal (CalRec.new c true false (s.cell c).band 1)).tnkStat)
  else .next s

/-- RESTERR recorded; a reading that failed R217 keeps the previous one. -/
def State.recordRest (s : State) (c : Nat) (err : Option (BitVec 16)) : State :=
  match err with
  | some e => (s.wrf (Reg.TNK_CELL_W1 c) 16 16 e.toNat).stampNow (19456 + c)
  | none => s

/-- REST_ERROR_MEASURED (R227): the cell is released, or kept for a write operation; a full calibration keeps its cells, and reads them within
2 ms from the settling of the source (Table 9-3). -/
def execRestErrorMeasured (cell : Fin 4864) (err : Option (BitVec 16)) (s : State) : Result :=
  let c := cell.val
  match s.calCells.find? (·.cell == c) with
  | none => .next s
  | some x =>
    if x.tinker then
      let s1 := s.recordRest c err
      .next (if s1.trimAllowed c true && s1.tink.isNone then s1 else (s1.leaveCal x).afterCal)
    else if s.fullcal.any (fun (f : FullCal) => f.settledAt.any fun t => decide (s.ns ≤ t + 2000000)) && (s.cell c).band == s.bit Reg.ASY_STAT 20 then
      .next (s.recordRest c err)
    else .next s

/-- One write operation counted: WRCNT, WARN and EOL with their counts and events (R229, R230). -/
def State.countWrite (s : State) (c : Nat) : State :=
  let a := Reg.TNK_CELL_W0 c
  let n := s.rdf a 0 15 + 1
  let s1 := s.wrf a 0 15 n
  let warn := decide (s.rdf Reg.TNK_WARN 0 15 ≤ n) && !s.bit a 30
  let s2 := if warn then ((s1.wrBit a 30 true).wrf Reg.TNK_CNT 0 13 (s1.rdf Reg.TNK_CNT 0 13 + 1)).err Reg.TNK_ERRSTAT 1 else s1
  if n = 20000 then ((s2.wrBit a 31 true).wrf Reg.TNK_STAT 16 13 (s2.rdf Reg.TNK_STAT 16 13 + 1)).err Reg.TNK_ERRSTAT 2 else s2

/-- TINKER_WRITE_OPERATION (R228, R229): counted and logged before any pulse; at most 3 in a visit. -/
def execTinkerWriteOperation (cell : Fin 4864) (s : State) : Result :=
  let c := cell.val
  let t : TinkOp := (s.tink.filter (·.cell == c)).getD ⟨c, 0, 0, false, false⟩
  let mine := s.calCells.any fun x => x.cell == c && x.tinker
  if mine && s.tink.all (·.cell == c) && !t.active && decide (t.ops < 3) && s.trimAllowed c (t.ops == 0) then
    .next ((({ s with tink := some { t with ops := t.ops + 1, pulses := 0, logged := false, active := true } }.stampNow (9728 + c)).countWrite c).tnkStat)
  else .next s

/-- TNK_CELL W0 of cell `c` appended to the wear log, without WARN, which TNK_WARN decides. -/
def State.logWear (s : State) (c : Nat) : State :=
  { s with wearLog := s.wearLog ++ [(c, s.rd (Reg.TNK_CELL_W0 c) &&& 0xA0007FFF#32)] }

/-- WEAR_LOG_PROGRAMMED (R229 step 1). -/
def execWearLogProgrammed (s : State) : Result :=
  match s.tink with
  | some t => .next (if t.active && !t.logged then { s.logWear t.cell with tink := some { t with logged := true } } else s)
  | none => .next s

/-- A write visit over: the cell released, its time recorded. -/
def State.endVisit (s : State) (c : Nat) : State :=
  let s1 : State := { s with tink := none }.stampNow (9728 + c)
  (match s1.calCells.find? fun (x : CalRec) => x.cell == c && x.tinker with
    | some x => s1.leaveCal x
    | none => s1).afterCal

/-- The cell marked STUCK, in the wear log too (DESIGN CHOICE, log entry 118). -/
def State.markStuck (s : State) (c : Nat) : State :=
  (((s.wrBit (Reg.TNK_CELL_W0 c) 29 true).logWear c).wrf Reg.TNK_CNT 16 13 (s.rdf Reg.TNK_CNT 16 13 + 1)).err Reg.TNK_ERRSTAT 0

/-- An operation of the visit `t` ended. -/
def State.endOperation (s : State) (t : TinkOp) : State :=
  if !s.trimOut t.cell then s.endVisit t.cell
  else if t.ops = 3 then (s.markStuck t.cell).endVisit t.cell
  else { s with tink := some { t with active := false } }

/-- TRIM_PULSE_REMEASURE (R229 steps 2 and 3). -/
def execTrimPulseRemeasure (cell : Fin 4864) (err : BitVec 16) (s : State) : Result :=
  match s.tink with
  | none => .next s
  | some t =>
    if t.cell = cell.val ∧ t.active ∧ t.logged then
      let s1 := s.recordRest t.cell (some err)
      let t1 := { t with pulses := t.pulses + 1 }
      if 4 * err.toInt.natAbs ≤ s.trimThr ∨ 16 ≤ t1.pulses then .next (s1.endOperation t1)
      else .next { s1 with tink := some t1 }
    else .next s

/-- WARN of every cell, and WARNCELLS, by TNK_WARN as it stands: WRCNT ≥ WARNCNT (Table 9-12); the event where a cell newly shows it. -/
def State.refreshWarn (s : State) : State :=
  let n := s.rdf Reg.TNK_WARN 0 15
  let warned := (List.range 4864).filter fun c => decide (n ≤ s.rdf (Reg.TNK_CELL_W0 c) 0 15)
  let new := warned.any fun c => !s.bit (Reg.TNK_CELL_W0 c) 30
  let s1 := (List.range 4864).foldl (fun (t : State) c => let w := decide (n ≤ t.rdf (Reg.TNK_CELL_W0 c) 0 15)
    if t.bit (Reg.TNK_CELL_W0 c) 30 = w then t else t.wrBit (Reg.TNK_CELL_W0 c) 30 w) s
  (s1.wrf Reg.TNK_CNT 0 13 warned.length).when new (·.err Reg.TNK_ERRSTAT 1)

/-- A write of TNK_CLR (R229). -/
def State.clearStuck (s : State) (v : Word) : State :=
  let c := fld v 0 13
  if wbit v 31 && decide (c < 4864) && s.bit (Reg.TNK_CELL_W0 c) 29 then
    ((s.wrBit (Reg.TNK_CELL_W0 c) 29 false).logWear c).wrf Reg.TNK_CNT 16 13 (s.rdf Reg.TNK_CNT 16 13 - 1)
  else s

/-- STUCK_CLEAR (R229). -/
def execStuckClear (v : Word) (s : State) : Result := .next (s.clearStuck v)

end Sys2Proof.Machine
end

