-- ==== Sys2Proof/Machine/MonitorCommands.lean ====
section
/-! DEFINITION. Monitor conversion and the Tallyman (chapter 8): frames, sequences, invalid samples, urgent conversions, window
comparators, self-calibration, the loss-of-light comparison (R83, R186), live blocks and snapshots. -/

namespace Sys2Proof.Machine

/-- The mode in force (R205). -/
def State.modef (s : State) (t : Nat) : Nat := s.rdf (Reg.MON_STAT t) 0 2

/-! ## Sequences (R189, R190) -/

/-- A set of 92 entries meets R189 for RUN: all enabled, every channel named exactly once. -/
def seqSound (ws : List Word) : Bool :=
  ws.all (fun w => wbit w 31) && (List.range 92).all fun ch => ws.countP (fun w => fld w 0 7 == ch) == 1

/-- The staged sequences. -/
def State.seqStaged (s : State) (t : Nat) : List Word := (List.range 92).map fun i => s.rd (Reg.MON_SEQ t i)

/-- SEQPEND. -/
def State.showSeq (s : State) (t : Nat) : State := s.wrBit (Reg.MON_STAT t) 4 (s.seqStaged t != s.seqLive t)

/-- A write of MON_SEQ: the staged copy (R189). -/
def State.writeSeq (s : State) (t i : Nat) (v : Word) : State := (s.writeReg (Reg.MON_SEQ t i) v).showSeq t

/-- The frame in progress is converted: free running, or in a burst (R205). -/
def State.converting (s : State) (t : Nat) : Bool :=
  s.tileLive t && (!s.bit (Reg.MON_CTRL t) 5 || s.modef t == 0 || s.bit (Reg.MON_STAT t) 8)

/-- Cell channels are converted in this frame: every frame but in P1, where one control cycle in 2^P1DIV is (R206, R337). -/
def State.cellFrames (s : State) (t : Nat) : Bool :=
  s.pstate != 1 || (s.tileRec t).cycle % 2 ^ s.rdf Reg.PWR_CTRL 8 4 == 0

/-! ## Invalid samples and staleness (R194, R195, R202) -/

/-- INVREM of a channel. -/
def State.invrem (s : State) (t ch : Nat) : Nat := s.rdf (Reg.MON_CHCFG t ch) 24 7

/-- A new cause of `n` invalid samples (R195). -/
def State.invalidateChan (s : State) (t ch n : Nat) : State := s.wrf (Reg.MON_CHCFG t ch) 24 7 (max n (s.invrem t ch))

/-! ## The Tallyman (R197 to R200) -/

/-- A live block's 64-bit sum at its low word. -/
def State.sum64 (s : State) (a : Nat) : Nat := (s.rd a).toNat + 2 ^ 32 * (s.rd (a + 4)).toNat

/-- The state with a 64-bit sum written. -/
def State.putSum (s : State) (a : Nat) (x : Int) : State :=
  let n := code 64 x
  (s.wr a (wd n)).wr (a + 4) (wd (n / 2 ^ 32))

/-- The formatted value of a sample (R197): signed for cell channels. -/
def talValue (cellCh align : Bool) (d : BitVec 16) : Int :=
  (if cellCh then d.toInt else (d.toNat : Int)) * if align then 65536 else 1

/-- A valid sample accumulated (R198). -/
def State.accumulate (s : State) (t ch : Nat) (d : BitVec 16) : State :=
  let a := Reg.TAL_LIVE_W0 t ch
  let c := decide (ch < 76)
  if s.bit (a + 28) 29 then s
  else
    let v := talValue c (wbit (s.rdLive (Reg.MON_CHCFG t ch)) 12) d
    let q : Int := if c then d.toInt * d.toInt else (d.toNat : Int) * d.toNat
    let num := fun (w : Word) => if c then w.toInt else (w.toNat : Int)
    let n := (s.rd (a + 16)).toNat
    let mn := if n = 0 then v else min v (num (s.rd (a + 20)))
    let mx := if n = 0 then v else max v (num (s.rd (a + 24)))
    let s1 := (((s.putSum a (s.sum64 a + v)).putSum (a + 8) (s.sum64 (a + 8) + q)).wr (a + 16) (wd (n + 1))).wr (a + 20) (BitVec.ofInt 32 mn)
    (s1.wr (a + 24) (BitVec.ofInt 32 mx)).when (n + 1 == 0xFFFFFFFF) (·.wrBit (a + 28) 29 true)

/-- An invalid or missing sample counted in INVCNT (R196). -/
def State.countInvalid (s : State) (t ch : Nat) : State := s.count (Reg.TAL_LIVE_W7 t ch) 0 24 1

/-- A live block cleared (R199): WASSTALE takes the current STALE. -/
def State.clearBlock (s : State) (t ch : Nat) : State :=
  let a := Reg.TAL_LIVE_W0 t ch
  let s1 := (List.range 7).foldl (fun s k => s.wr (a + 4 * k) 0#32) s
  s1.wr (a + 28) (pack [(31, 1, (s.stale t ch).toNat), (30, 1, (s.stale t ch).toNat)])

/-! ## Window comparators (R203) -/

/-- A valid or urgent sample compared, in any mode but RUN, on a channel with WINEN. -/
def State.windowTest (s : State) (t ch : Nat) (d : BitVec 16) : State :=
  if s.modef t = 0 ∨ !s.bit (Reg.MON_CHCFG t ch) 15 then s
  else
    let w := s.rd (Reg.MON_WIN t ch)
    let c := decide (ch < 76)
    let x : Int := if c then d.toInt else d.toNat
    let lo : Int := if c then sfld w 0 16 else fld w 0 16
    let hi : Int := if c then sfld w 16 16 else fld w 16 16
    let out := decide (x < lo) || decide (hi < x)
    let s1 := s.setChan t ch { s.chan t ch with outside := out }
    if out && !(s.chan t ch).outside then
      ((s1.wrBit (Reg.MON_WINHIT t (ch / 32)) (ch % 32) true).wr (Reg.MON_WINLAST t)
        (pack [(8, 1, (decide (hi < x)).toNat), (0, 7, ch)])).errCores (Reg.MON_ERRSTAT t) 1
    else s1

/-! ## Port power and loss of light (R83, R186) -/

/-- ⌊1000·log10 x⌋: the largest `p` with 10^p ≤ x^1000. -/
def log1000 (x : Nat) : Nat := largestOk (fun p => 10 ^ p ≤ x ^ 1000) 13 0 5200

/-- The band a port is expected to carry (R186). -/
def State.portBand (s : State) (out : Bool) (k : Nat) : Bool :=
  if out then (s.ckts.find? (·.out == k)).any (·.band)
  else match s.ckt k with
    | some c => c.band
    | none => (s.ckts.find? fun c => c.peer == some k).any (·.band)

/-- P of a port channel's sample, in 0.01 dBm. -/
def State.portPower (s : State) (t ch : Nat) (d : BitVec 16) : Int :=
  let i := ch - 76
  let out := decide (84 ≤ ch)
  let w1 := s.rd (Reg.MON_PORTCAL_W1 t i)
  let x : Int := (d.toNat : Int) - sfld (s.rd (Reg.MON_PORTCAL_W0 t i)) 0 16
  (log1000 (max x 1).toNat : Int) + (if s.portBand out (8 * t + i % 8) then sfld w1 16 16 else sfld w1 0 16) -
    1000 * (fld (s.rdLive (Reg.MON_CHCFG t ch)) 0 2 : Nat)

/-- The light run of a port monitor after a valid sample. -/
def State.lightSample (s : State) (t ch : Nat) (d : BitVec 16) : State :=
  let out := decide (84 ≤ ch)
  let k := 8 * t + (ch - 76) % 8
  let p := s.portPower t ch d
  let thr : Int := 10 * sfld (s.rd (Reg.CIR_PORTOWN k)) 20 12
  let r := s.lightRun out k
  s.setLightRun out k ⟨if p < thr then min 4 (r.below + 1) else 0, if thr + 100 ≤ p then min 4 (r.above + 1) else 0⟩

/-! ## Samples -/

/-- A sample of a channel: INVREM falls, a valid one is accumulated and compared. `first` is the one of the first enabled entry,
which also goes to the Cooper and the loss-of-light test. -/
def State.sample (s : State) (t ch : Nat) (first : Bool) (d : BitVec 16) : State :=
  let valid := s.invrem t ch == 0
  let s1 := s.wrf (Reg.MON_CHCFG t ch) 24 7 (s.invrem t ch - 1)
  let s2 := if valid then ((s1.accumulate t ch d).windowTest t ch d).setChan t ch { (s1.windowTest t ch d).chan t ch with dry := 0 }
    else s1.countInvalid t ch
  if !first then s2
  else if ch < 76 then s2.cooSample (cellOf t ch) d.toInt valid
  else if valid then s2.lightSample t ch d else s2

/-- The entry of channel `ch` that a sample belongs to: the first one, or the next of its further ones, where the frame has not converted it
yet (R190). -/
def State.entryDue (s : State) (t ch : Nat) (second : Bool) : Option Nat :=
  let es := (entriesOf (s.seqLive t) ch)
  let done := (s.mon t).got.map (·.1)
  (if second then es.tail else es.take 1).find? fun i => !done.contains i

/-- Entry `i` converts in the frame in progress: its converter does, and has not given entry 22's slot to an urgent conversion (R192). -/
def State.entryRuns (s : State) (t i : Nat) : Bool :=
  !s.adcOut t (i / 23) && !(i % 23 == 22 && (s.mon t).urgent.contains (i / 23))

/-- MONITOR_SAMPLE (R190, R192): the conversion of a channel's first or a further entry, of a converter that converts, in a converted
frame. -/
def execMonitorSample (tile : Fin 64) (ch : Fin 92) (second : Bool) (code : BitVec 16) (s : State) : Result :=
  let t := tile.val
  match s.entryDue t ch second with
  | none => .next s
  | some i =>
    if s.converting t && s.entryRuns t i && (decide (76 ≤ ch.val) || s.cellFrames t) then
      .next ((s.setMon t { s.mon t with got := (i, s.invrem t ch == 0) :: (s.mon t).got }).sample t ch (!second) code)
    else .next s

/-! ## Frame boundaries -/

/-- The frame that ends: a channel whose first entry was not converted has a missing sample; frames without a valid sample are counted. -/
def State.endFrameChan (s : State) (t ch : Nat) : State :=
  if decide (ch < 76) && !s.cellFrames t then s
  else
    let es := entriesOf (s.seqLive t) ch
    let got := (s.mon t).got.filter fun p => es.contains p.1
    let x := s.chan t ch
    let s1 := if got.any (·.2) then s.setChan t ch { x with dry := 0 } else s.setChan t ch { x with dry := min 64 (x.dry + 1) }
    if !got.any (fun p => es.head? == some p.1) then (s1.countInvalid t ch).when (decide (ch < 76)) (·.cooSample (cellOf t ch) 0 false) else s1

/-- The configuration of a channel that changed since the last boundary takes effect (R194, R197, R199). -/
def State.takeConfig (s : State) (t ch : Nat) : State :=
  let a := Reg.MON_CHCFG t ch
  let old := s.rdLive a
  let new := s.rd a
  let g := fld old 0 2 != fld new 0 2
  let b := wbit old 8 != wbit new 8
  let al := wbit old 12 != wbit new 12
  if g || b || al then
    let s1 := (s.wrLive a (put (put (put old 0 2 (fld new 0 2)) 8 1 (fld new 8 1)) 12 1 (fld new 12 1))).when al (·.clearBlock t ch)
    ((s1.when g (·.invalidateChan t ch 6)).when b (·.invalidateChan t ch 12)).when (g || b) (·.wrBit (Reg.TAL_LIVE_W7 t ch) 28 true)
  else s

/-- A SEQAPPLY that waits is carried out, or refused in RUN (R189): newly named channels owe 2 invalid samples. -/
def State.takeSequence (s : State) (t : Nat) : State :=
  if s.bit (Reg.MON_CTRL t) 4 then
    let s1 := s.wrBit (Reg.MON_CTRL t) 4 false
    if s.modef t = 0 && !seqSound (s.seqStaged t) then s1.err (Reg.MON_ERRSTAT t) 0
    else
      let old := s.seqLive t
      let s2 := (List.range 92).foldl (fun s i => s.wrLive (Reg.MON_SEQ t i) (s.rd (Reg.MON_SEQ t i))) s1
      let new := s2.seqLive t
      (((List.range 92).filter fun ch => (firstEntry new ch).isSome && firstEntry new ch != firstEntry old ch).foldl
        (fun s ch => s.invalidateChan t ch 2) s2).showSeq t
  else s

/-- MODE takes effect; on entry to a mode other than RUN every window comparator starts inside (R203, R205). A change to RUN on a
sequence in force that breaks R189 is refused: MODE reads the mode in force again. -/
def State.takeMode (s : State) (t : Nat) : State :=
  let m := s.rdf (Reg.MON_CTRL t) 0 2
  if m = s.modef t then s
  else if m = 0 && !seqSound (s.seqLive t) then (s.wrf (Reg.MON_CTRL t) 0 2 (s.modef t)).err (Reg.MON_ERRSTAT t) 0
  else
    let s1 := s.wrf (Reg.MON_STAT t) 0 2 m
    if m = 0 then s1 else (List.range 92).foldl (fun s ch => s.setChan t ch { s.chan t ch with outside := false }) s1

/-- The burst in progress advanced, and a requested one started (R205). -/
def State.takeBurst (s : State) (t : Nat) : State :=
  let x := s.mon t
  let left := x.burstLeft - 1
  if s.bit (Reg.MON_STAT t) 8 && left != 0 then s.setMon t { x with burstLeft := left }
  else if x.burstReq && !s.bit (Reg.MON_STAT t) 8 then
    (s.setMon t { x with burstReq := false, burstLeft := s.rdf (Reg.MON_CTRL t) 16 16 }).wrBit (Reg.MON_STAT t) 8 true
  else (s.setMon t { x with burstLeft := 0 }).wrBit (Reg.MON_STAT t) 8 false

/-- FRAME_BOUNDARY (R188 to R205): missing samples of the frame that ends, then what takes effect at the boundary. -/
def execFrameBoundary (tile : Fin 64) (s : State) : Result :=
  let t := tile.val
  if !s.tileLive t then .next s
  else
    let chs := List.range 92
    let s1 := if s.converting t then chs.foldl (fun s ch => s.endFrameChan t ch) s else s
    let s2 := ((s1.setMon t { s1.mon t with got := [], urgent := [] }).takeSequence t).takeMode t
    let s3 := chs.foldl (fun s ch => s.takeConfig t ch) s2
    let s4 := (chs.filter fun ch => s3.bit (Reg.TAL_CLR t (ch / 32)) (ch % 32)).foldl (fun s ch => s.clearBlock t ch) s3
    let s5 := (List.range 3).foldl (fun s i => s.wr (Reg.TAL_CLR t i) 0#32) s4
    .next (chs.foldl (fun s ch => s.noteStale t ch) (s5.takeBurst t))

/-! ## Register writes of the MON window -/

/-- SEQUENCE_APPLY (R189). -/
def State.askSequence (s : State) (t : Nat) : State :=
  if s.modef t = 0 && !seqSound (s.seqStaged t) then s.err (Reg.MON_ERRSTAT t) 0 else s.wrBit (Reg.MON_CTRL t) 4 true

/-- SEQUENCE_APPLY: a write of SEQAPPLY. -/
def execSequenceApply (tile : Fin 64) (s : State) : Result := .next (s.askSequence tile)

/-- A write of MON_CHCFG (R194, R203): the window comparator of a channel starts inside when WINEN is set. -/
def State.writeChcfg (s : State) (t ch : Nat) (v : Word) : State :=
  let a := Reg.MON_CHCFG t ch
  let s1 := s.writeReg a v
  if !s.bit a 15 && s1.bit a 15 then s1.setChan t ch { s1.chan t ch with outside := false } else s1

/-- CHANNEL_CONFIG_WRITE (R194). -/
def execChannelConfigWrite (tile : Fin 64) (ch : Fin 92) (v : Word) (s : State) : Result := .next (s.writeChcfg tile ch v)

/-- The RW fields of MON_CTRL written (R205): a change to RUN is refused when the sequence in force breaks R189. -/
def State.writeMode (s : State) (t : Nat) (v : Word) : State :=
  let a := Reg.MON_CTRL t
  let bad := fld v 0 2 == 0 && s.rdf a 0 2 != 0 && !seqSound (s.seqLive t)
  let v1 := (if bad then put v 0 2 (s.rdf a 0 2) else v) &&& 0xFFFF0023#32
  (s.writeReg a v1).when bad (·.err (Reg.MON_ERRSTAT t) 0)

/-- MONITOR_MODE_WRITE (R205). -/
def execMonitorModeWrite (tile : Fin 64) (v : Word) (s : State) : Result := .next (s.writeMode tile v)

/-- A write of MON_URGREQ (R191): a GO while a request waits is ignored. -/
def State.writeUrgent (s : State) (t : Nat) (v : Word) : State :=
  if wbit v 31 && s.bit (Reg.MON_URGSTAT t) 29 then s.err (Reg.MON_ERRSTAT t) 0
  else
    let s1 := s.writeReg (Reg.MON_URGREQ t) (putBit v 31 false)
    if wbit v 31 then s1.wr (Reg.MON_URGSTAT t) (pack [(29, 1, 1)]) else s1

/-- URGENT_REQUEST (R191). -/
def execUrgentRequest (tile : Fin 64) (v : Word) (s : State) : Result := .next (s.writeUrgent tile v)

/-- The converter and channel of the register request that waits (R191). -/
def State.urgentTarget (s : State) (t : Nat) : Option (Nat × Nat) :=
  let w := s.rd (Reg.MON_URGREQ t)
  if s.bit (Reg.MON_URGSTAT t) 29 then
    if wbit w 26 then (firstEntry (s.seqLive t) (fld w 0 7)).map fun i => (i / 23, fld w 0 7) else some (fld w 24 2, fld w 0 7)
  else none

/-- An urgent sample of channel `ch` (R193): its window comparator, the Tallyman when `tal`; answers whether it was valid. -/
def State.urgentSample (s : State) (t ch : Nat) (tal : Bool) (d : BitVec 16) : State × Bool :=
  let valid := s.invrem t ch == 0
  let s1 := (s.wrf (Reg.MON_CHCFG t ch) 24 7 (s.invrem t ch - 1)).windowTest t ch d
  (if tal then (if valid then s1.accumulate t ch d else s1.countInvalid t ch) else s1, valid)

/-- URGENT_CONVERSION (R191 to R193): at `slot` of a converter, before any entry from there on; one per converter and frame. The Assayer's
requests, this one or one that waits since a frame before, are served before the register's. Entry 22 has its missing sample at the frame's
end. -/
def execUrgentConversion (tile : Fin 64) (adc : Fin 4) (slot : Fin 23) (assayer : Option (Fin 92)) (code : BitVec 16) (s : State) :
    Result :=
  let t := tile.val
  let x := s.mon t
  let queue := (x.asyWait ++ (assayer.map fun (ch : Fin 92) => (adc.val, ch.val)).toList)
  let late := x.got.any fun p => p.1 / 23 == adc.val && decide (slot.val ≤ p.1 % 23)
  if s.adcOut t adc || !s.tileLive t then .next s
  else if x.urgent.contains adc.val || late then .next (s.setMon t { x with asyWait := queue })
  else
    let s1 := s.setMon t { x with urgent := adc.val :: x.urgent, asyWait := queue.eraseP fun p => p.1 == adc.val }
    match queue.find? fun p => p.1 == adc.val with
    | some p => .next (s1.urgentSample t p.2 false code).1
    | none => match s.urgentTarget t with
      | some (a, ch) =>
        if a = adc.val then
          let r := s1.urgentSample t ch (s.bit (Reg.MON_URGREQ t) 30) code
          .next (r.1.wr (Reg.MON_URGSTAT t) (pack [(31, 1, 1), (30, 1, r.2.toNat)]))
        else .next s
      | none => .next s

/-- A write of the SCAL bits (R204): ignored in RUN. -/
def State.startScal (s : State) (t : Nat) (v : Word) : State :=
  if fld v 8 4 = 0 then s
  else if s.modef t = 0 then s.err (Reg.MON_ERRSTAT t) 0
  else s.wr (Reg.MON_CTRL t) (s.rd (Reg.MON_CTRL t) ||| (v &&& 0xF00#32))

/-- SELF_CALIBRATION_COMMAND (R204). -/
def execSelfCalibrationCommand (tile : Fin 64) (v : Word) (s : State) : Result := .next (s.startScal tile v)

/-- ADC_CALIBRATION_DONE (R204, Table 8-3): of a converter that calibrates. -/
def execAdcCalibrationDone (tile : Fin 64) (adc : Fin 4) (ok : Bool) (s : State) : Result :=
  let t := tile.val
  let a := adc.val
  if s.bit (Reg.MON_CTRL t) (8 + a) then
    let x := s.mon t
    let n := if x.powerUp.contains a then 16 else 2
    let s1 := (s.wrBit (Reg.MON_CTRL t) (8 + a) false).setMon t { x with powerUp := x.powerUp.filter (· != a) }
    let mine := (List.range 92).filter fun ch => (firstEntry (s.seqLive t) ch).any fun i => i / 23 == a
    let s2 := mine.foldl (fun s ch => s.invalidateChan t ch n) s1
    .next (if ok then (s2.wrBit (Reg.MON_STAT t) (16 + a) true).wrBit (Reg.MON_STAT t) (24 + a) false
      else (s2.wrBit (Reg.MON_STAT t) (24 + a) true).err (Reg.MON_ERRSTAT t) 2)
  else .next s

/-- CONVERSION_TRIGGER (R205): ignored in RUN, without ONESHOT, and during a burst. -/
def execConversionTrigger (tile : Fin 64) (s : State) : Result :=
  let t := tile.val
  .next (if s.bit (Reg.MON_CTRL t) 5 && s.modef t != 0 && !s.bit (Reg.MON_STAT t) 8 then s.setMon t { s.mon t with burstReq := true }
    else s)

/-! ## Snapshots and clears (R199, R200) -/

/-- A snapshot asked for; it merges into one that waits. -/
def State.askSnapshot (s : State) (t : Nat) (clr : Bool) : State :=
  s.setMon t { s.mon t with snapWait := some (clr || (s.mon t).snapWait == some true) }

/-- A write of TAL_SNAP. -/
def State.writeSnap (s : State) (t : Nat) (v : Word) : State :=
  let s1 := s.wrMask (Reg.TAL_SNAP t) 1#32 v
  if wbit v 31 then (s1.wrBit (Reg.TAL_SNAP t) 31 true).askSnapshot t (wbit v 0) else s1

/-- SNAPSHOT_REQUEST (R200). -/
def execSnapshotRequest (tile : Fin 64) (v : Word) (s : State) : Result := .next (s.writeSnap tile v)

/-- SNAPSHOT_TRIGGER (R200): with TRIGEN; one that merges sets SNAPMISS. -/
def execSnapshotTrigger (tile : Fin 64) (s : State) : Result :=
  let t := tile.val
  let w := s.rd (Reg.TAL_CTRL t)
  .next (if wbit w 0 then
    (s.askSnapshot t (wbit w 1)).when (s.mon t).snapWait.isSome (·.err (Reg.TAL_ERRSTAT t) 1)
  else s)

/-- A frame of 781.25 ns in the units of `now`. -/
abbrev frameUnit : Nat := 3125 * 2 ^ 26

/-- TALLY_SNAPSHOT (R200): at the frame boundary that has come. -/
def execTallySnapshot (tile : Fin 64) (s : State) : Result :=
  let t := tile.val
  match (s.mon t).snapWait with
  | none => .next s
  | some clr =>
    let b := s.now / frameUnit * frameUnit / nsUnit
    let chs := List.range 92
    let s1 := chs.foldl (fun s ch => s.noteStale t ch) s
    let s2 := chs.foldl (fun s ch => (List.range 8).foldl (fun s k =>
      s.wr (Reg.TAL_SNAPBLK_W0 t ch + 4 * k) (s.rd (Reg.TAL_LIVE_W0 t ch + 4 * k))) s) s1
    let s3 := if clr then chs.foldl (fun s ch => s.clearBlock t ch) s2 else s2
    let s4 := ((s3.wr (Reg.TAL_SNAPLO t) (wd (nsecOf b))).wr (Reg.TAL_SNAPHI t) (wd (secOf b))).bump (Reg.TAL_SNAPSEQ t)
    .next ((s4.wrBit (Reg.TAL_SNAP t) 31 false).setMon t { s4.mon t with snapWait := none })

/-- A write of TAL_CLR (R199). -/
def State.writeClr (s : State) (t i : Nat) (v : Word) : State :=
  let a := Reg.TAL_CLR t i
  s.wr a (s.rd a ||| (if i = 2 then v &&& 0x0FFFFFFF#32 else v))

/-- CHANNEL_CLEAR (R199). -/
def execChannelClear (tile : Fin 64) (word : Fin 3) (v : Word) (s : State) : Result := .next (s.writeClr tile word v)

end Sys2Proof.Machine
end

