-- ==== Sys2Proof/Machine/TimeCommands.lean ====
section
/-! DEFINITION. Device time (chapter 14): the timekeeper's tick, increments and adjustments, steps, compare units and their triggers,
the PTP engine's measurements and the servo's states, and the 1PPS pins. -/

namespace Sys2Proof.Machine

/-- A TIME event (R328). -/
def State.timeEvent (s : State) (kind st unit : Nat) (w5 : Word) : State :=
  s.eventMgmt (eventEntry 0x13 0 noTile 0 [pack [(0, 4, kind), (4, 4, st), (16, 6, unit)], w5] s.ns)

/-- The first beat boundary at least `d` ns from now (chapter 1, The time bus). -/
def State.beatAfter (s : State) (d : Nat) : Nat := (s.now + d * nsUnit + (1024 * nsUnit - 1)) / (1024 * nsUnit) * 1024

/-! ## The count (R309 to R312) -/

/-- Written increments and a written adjustment whose boundary has come take effect (R310, R311). -/
def State.takeIncr (s : State) : State :=
  let due := fun (p : Nat × Word) => decide (p.1 ≤ s.ns)
  let s1 := match (s.incrAt.filter due).getLast? with
    | some p => { s.wrLive Reg.TIM_INCR p.2 with incrAt := s.incrAt.filter fun q => !due q }
    | none => s
  if s1.adjAt.any (· ≤ s1.ns) then
    { (s1.wrLive Reg.TIM_ADJINCR (s1.rd Reg.TIM_ADJINCR)).wrBit Reg.TIM_STAT 30 true with adjAt := none }
  else s1

/-- One tick of the timekeeper (R309, R311): device time advances by the increment in force, modulo 2^48 s. -/
def State.tick (s : State) : State :=
  let s1 := s.takeIncr
  let wrap := fun (t : Nat) => t % (2 ^ 48 * 1000000000 * nsUnit)
  if s1.bit Reg.TIM_STAT 30 then
    let n := (s1.rd Reg.TIM_ADJCNT).toNat - 1
    ({ s1 with now := wrap (s1.now + (s1.rdLive Reg.TIM_ADJINCR).toNat) }.wr Reg.TIM_ADJCNT (wd n)).wrBit Reg.TIM_STAT 30 (n != 0)
  else { s1 with now := wrap (s1.now + (s1.rdLive Reg.TIM_INCR).toNat) }

/-- A written TIM_INCR takes effect at its own boundary; a reserved value is ignored (R5, R310). -/
def State.writeIncr (s : State) (v : Word) : State :=
  let s1 := s.writeReg Reg.TIM_INCR v
  if s1.rd Reg.TIM_INCR = s.rd Reg.TIM_INCR then s1 else { s1 with incrAt := s.incrAt ++ [(s.beatAfter 100, v)] }

/-- INCREMENT_WRITE (R310). -/
def execIncrementWrite (v : Word) (s : State) : Result := .next (s.writeIncr v)

/-- A write of TIM_ADJCNT (R311): it starts or restarts an adjustment. -/
def State.writeAdj (s : State) (v : Word) : State :=
  let s1 := (s.wr Reg.TIM_ADJCNT v).wrBit Reg.TIM_STAT 30 false
  { s1 with adjAt := if v = 0#32 then none else some (s.beatAfter 100) }

/-- ADJUSTMENT_START (R311). -/
def execAdjustmentStart (v : Word) (s : State) : Result := .next (s.writeAdj v)

/-- ADJUSTMENT_END (R311): the ticks that remain run out and the timekeeper returns to TIM_INCR. -/
def execAdjustmentEnd (s : State) : Result :=
  let s1 := s.takeIncr
  .next (if s1.bit Reg.TIM_STAT 30 then
    ({ s1 with
      now := (s1.now + (s1.rd Reg.TIM_ADJCNT).toNat * (s1.rdLive Reg.TIM_ADJINCR).toNat) % (2 ^ 48 * 1000000000 * nsUnit) }.wr
        Reg.TIM_ADJCNT 0#32).wrBit
      Reg.TIM_STAT 30 false
  else s1)

/-! ## Steps (R313 to R315, R320) -/

/-- A step requested. -/
def State.askStep (s : State) (op : Nat) : State :=
  if s.stepReq.isSome then s.err Reg.TIM_ERRSTAT 0
  else { s with stepReq := some ⟨op, s.beatAfter 2048⟩ }.wrBit Reg.TIM_STAT 31 true

/-- A write of TIM_STEPCTL: any is ignored with CFGERR while a step is pending; a reserved OP asks for nothing (R313). -/
def State.writeStepctl (s : State) (v : Word) : State :=
  if s.stepReq.isSome ∨ fld v 28 4 = 1 ∨ fld v 28 4 = 2 then s.askStep (fld v 28 4) else s

/-- SET (R313). -/
def execSet (s : State) : Result := .next (s.askStep 1)

/-- STEP (R313). -/
def execStep (s : State) : Result := .next (s.askStep 2)

/-- The time a step leads to, in the units of `now`, modulo 2^48 s (R309, R313). -/
def State.stepTarget (s : State) (op : Nat) : Nat :=
  if op = 1 then
    (((s.rdf Reg.TIM_SETSECHI 0 16 * 2 ^ 32 + (s.rd Reg.TIM_SETSECLO).toNat) * 1000000000) + s.rdf Reg.TIM_SETNS 0 30 / 4 * 4) * nsUnit
  else (((s.now : Int) + (sInt (s.rd Reg.TIM_STEP &&& 0xFFFFFFFC#32)) * (nsUnit : Int)) % ((2 ^ 48 * 1000000000 * nsUnit : Nat) : Int)).toNat

/-! ## Compare units (R316 to R320) -/

/-- The target of unit `u`, in ns. -/
def State.cmpTarget (s : State) (u : Nat) : Nat :=
  (s.rdf (Reg.TIM_CMP_W2 u) 0 16 * 2 ^ 32 + (s.rd (Reg.TIM_CMP_W1 u)).toNat) * 1000000000 + s.rdf (Reg.TIM_CMP_W0 u) 0 30

/-- The state with the target of unit `u` set. -/
def State.setTarget (s : State) (u t : Nat) : State :=
  let sec := secOf t % 2 ^ 48
  ((s.wrf (Reg.TIM_CMP_W0 u) 0 30 (nsecOf t)).wr (Reg.TIM_CMP_W1 u) (wd sec)).wrf (Reg.TIM_CMP_W2 u) 0 16 (sec / 2 ^ 32)

/-- D = now − T in ns, with the seconds difference a signed 48-bit value (R317). -/
def State.cmpDiff (s : State) (u : Nat) : Int :=
  sdiff 48 (secOf s.ns) (secOf (s.cmpTarget u)) * 1000000000 + ((nsecOf s.ns : Int) - nsecOf (s.cmpTarget u))

/-- Unit `u` is taken by an enabled guard-window schedule (R126, R316). -/
def State.cmpTaken (s : State) (u : Nat) : Bool := decide (48 ≤ u) && s.bit (Reg.LMP_WINCTL ((u - 48) / 2)) 0

/-- The effects of a trigger of unit `u` in the tiles routed to it (R319). -/
def State.driveTriggers (s : State) (u : Nat) : State :=
  ((List.range 64).foldl (fun s t =>
    let w := s.rd (Reg.TIM_TILESEL t)
    let tile := Fin.ofNat 64 t
    let s1 := if wbit w 31 && fld w 24 6 == u then stateOf s (execConversionTrigger tile s) else s
    let s2 := if wbit w 23 && fld w 16 6 == u then stateOf s1 (execSnapshotTrigger tile s1) else s1
    if wbit w 15 && fld w 8 6 == u then stateOf s2 (execCycleTrigger tile s2) else s2) s).send (.trigger u)

/-- The target after now on a unit's grid. -/
def nextOnGrid (t per now : Nat) : Nat := if now < t then t else t + ((now - t) / per + 1) * per

/-- A tile has a trigger routed to unit `u` (R319). -/
def State.routed (s : State) (u : Nat) : Bool :=
  (List.range 64).any fun t =>
    let w := s.rd (Reg.TIM_TILESEL t)
    (wbit w 31 && fld w 24 6 == u) || (wbit w 23 && fld w 16 6 == u) || (wbit w 15 && fld w 8 6 == u)

/-- Unit `u` armed or advanced: whether its target is less than 2,048 ns ahead, so that it reaches the tiles late (R319). -/
def State.noteAhead (s : State) (u : Nat) : State :=
  let near := s.bit (Reg.TIM_CMP_W0 u) 31 && decide (-2048 < s.cmpDiff u) && decide (s.cmpDiff u < 0)
  { s with lateUnits := s.lateUnits.filter (· != u) ++ if near then [u] else [] }

/-- A firing of unit `u` (R318 to R320): `arming` for one past its target when armed; `late` also for a target that reached the tiles
late. -/
def State.fireUnit (s : State) (u : Nat) (arming skip : Bool) : State :=
  let per := (s.rd (Reg.TIM_CMP_W3 u)).toNat
  let t := s.cmpTarget u
  let f := s.rdf (Reg.TIM_CMP_W2 u) 16 8
  let late := arming || (!skip && s.lateUnits.contains u && s.routed u)
  let s1 := ((s.wrBit (Reg.TIM_CMP_W2 u) 31 late).wrBit (Reg.TIM_CMP_W2 u) 30 skip).wrf (Reg.TIM_CMP_W2 u) 16 8 (f + 1)
  let s2 := if per = 0 then s1.wrBit (Reg.TIM_CMP_W0 u) 31 false
    else s1.setTarget u (if arming || skip then nextOnGrid t per s.ns else t + per)
  let s3 := (((s2.noteAhead u).when late fun x => (x.err Reg.TIM_ERRSTAT 2).timeEvent 3 0 u 0#32)).when skip (·.err Reg.TIM_ERRSTAT 3)
  let s4 := s3.when (s.bit (Reg.TIM_CMP_W0 u) 30) (·.timeEvent 2 0 u 0#32)
  s4.driveTriggers u

/-- A write of TIM_CMP W0 to W3 (R316, R318). -/
def State.writeCmp (s : State) (u w : Nat) (v : Word) : State :=
  if s.cmpTaken u then s.err Reg.TIM_ERRSTAT 0
  else if w = 3 ∧ (v.toNat % 4 ≠ 0 ∨ (1 ≤ v.toNat ∧ v.toNat ≤ 4095)) then s
  else
    let s1 := s.writeReg (Reg.TIM_CMP_W0 u + 4 * w) v
    if w = 0 && s1.bit (Reg.TIM_CMP_W0 u) 31 && decide (0 ≤ s1.cmpDiff u) then s1.fireUnit u true false
    else if w = 0 then s1.noteAhead u else s1

/-- COMPARE_ARM (R318). -/
def execCompareArm (unit : Fin 64) (v : Word) (s : State) : Result := .next (s.writeCmp unit 0 v)

/-- COMPARE_FIRE (R317): an armed unit at its target. -/
def execCompareFire (unit : Fin 64) (s : State) : Result :=
  let u := unit.val
  if s.bit (Reg.TIM_CMP_W0 u) 31 && !s.cmpTaken u then .next ((s.raise (s.cmpTarget u)).fireUnit u false false) else .next s

/-- A unit re-evaluated at a step from `old` ns to now (R320). -/
def State.cmpStep (s : State) (old u : Nat) : State :=
  let t := s.cmpTarget u
  let per := (s.rd (Reg.TIM_CMP_W3 u)).toNat
  if !s.bit (Reg.TIM_CMP_W0 u) 31 || s.cmpTaken u then s
  else if old ≤ s.ns then (if 0 ≤ s.cmpDiff u then s.fireUnit u false true else s)
  else if per = 0 ∨ t ≤ s.ns then s
  else s.setTarget u (t - (t - s.ns - 1) / per * per)

/-- The cycle of cell `c` that its sample of the cut frame belongs to is held (R315). -/
def State.holdCut (s : State) (c : Nat) : State :=
  let x := s.coo c
  s.setCoo c (if x.cnt = 0 then { x with ended := x.ended.map fun (y : CycleSums) => { y with bad := true } }
    else { x with cur := { x.cur with bad := true } })

/-- The frame in progress of tile `t` is cut (R315): what it has not converted is missing, and every cell's cycle is held. -/
def State.cutFrame (s : State) (t : Nat) : State :=
  let held := (List.range 76).filter fun ch => (entriesOf (s.seqLive t) ch).head?.any fun i => (s.mon t).got.any (·.1 == i)
  let s1 := (List.range 92).foldl (fun s ch => s.endFrameChan t ch) (held.foldl (fun s ch => s.holdCut (cellOf t ch)) s)
  s1.setMon t { s1.mon t with got := [], urgent := [] }

/-- The Coopers at a step (R315): E moves by the step, and the frame in progress is cut. -/
def State.tilesStep (s : State) (old : Nat) : State :=
  (List.range 64).foldl (fun s t =>
    let x := s.tileRec t
    let s1 := s.setTileRec t { x with epoch := x.epoch + ((s.now : Int) - old) }
    if s1.converting t then s1.cutFrame t else s1) s

/-- A guard window that a step lands inside opens at T_st, and one that it leaves is no longer open (R315). -/
def State.windowsStep (s : State) : State :=
  (List.range 8).foldl (fun s n =>
    if !s.bit (Reg.LMP_WINCTL n) 0 then s
    else match (s.schedule n).openAt s.ns with
      | some o => if s.bit (Reg.LMP_WINSTAT n) 0 then s else s.openWindow n o
      | none => s.wrBit (Reg.LMP_WINSTAT n) 0 false) s

/-- T_st waits for a commit: one past its arm point and not yet past T_c + 400 ns, one with its arm point before B0, and a protection
commit (R314). -/
def State.stepWaits (s : State) (b0 : Nat) (k : Commit) : Bool :=
  match k.phase with
  | .placed | .armed => k.kind == .protection || decide (k.tc < b0 + 200)
  | .go => true
  | .applied => s.settling.any fun p => p.1 == k.tc

/-- STEP_APPLY (R314, R315, R320): T_st, once every commit allowed to proceed is past T_c + 400 ns. The commits whose arm point is at or
after B0 go back to SOLVED, and every batch that waits is placed against the new time. -/
def execStepApply (s : State) : Result :=
  match s.stepReq with
  | none => .next s
  | some r =>
    if s.commits.any (s.stepWaits r.b0) then .next s
    else
      let back := s.commits.filter fun k => k.phase == .placed || k.phase == .armed
      let s0 := ((back.foldl (fun s c => (s.unplaceAll c true).dropCommit c.tc) s).lampStat).raise (max r.b0 (s.beatAfter 0))
      let new := s0.stepTarget r.op
      let d : Int := ((new : Int) - s0.now) / (nsUnit : Int)
      let s1 := ({ s0 with now := new, stepReq := none }.wrBit Reg.TIM_STAT 31 false).wr Reg.TIM_LASTSTEP (ofI (satI32 d))
      let s2 := ((s1.tilesStep s0.now).windowsStep).timeEvent 1 0 0 (ofI (satI32 d))
      let s3 := (List.range 64).foldl (fun s u => s.cmpStep s0.ns u) s2
      let wait := s3.batches.filter fun b => b.phase == .solved && b.sol.isSome
      .next (wait.foldl (fun s b => match s.batch b.id with
        | some x => s.place x
        | none => s) s3)

/-! ## The servo (R323 to R325) -/

/-- The servo enters state `st`: HOLDOVER follows, and a TIME event (R324). -/
def State.servoTo (s : State) (st : Nat) : State :=
  if s.rdf Reg.TIM_STAT 16 2 = st then s
  else
    let s1 := (s.wrf Reg.TIM_STAT 16 2 st).wrBit Reg.PTH_STAT 30 (st == 0 || st == 3)
    let s2 := { s1 with ptp := { s1.ptp with inRun := 0, outRun := 0 } }
    (s2.when (st == 3) (·.err Reg.TIM_ERRSTAT 1)).timeEvent 0 st 0 (s.rd Reg.TIM_OFFSET)

/-- HOLDOVER entered from ACQUIRING or LOCKED. -/
def State.enterHoldover (s : State) : State :=
  let st := s.rdf Reg.TIM_STAT 16 2
  if st = 1 ∨ st = 2 then s.servoTo 3 else s

/-- One measurement of offset `ps` (ps) taken by the servo: the runs of |offset| against CLRTHR and the states they lead to. A path
in HOLDOVER whose grandmaster is the copied one goes straight to LOCKED after CLRN measurements within CLRTHR (R325). -/
def State.servoStep (s : State) (ps : Int) : State :=
  let w := s.rd Reg.TIM_HOCFG
  let inside := decide (ps.natAbs ≤ 1000 * fld w 0 12)
  let i := if inside then s.ptp.inRun + 1 else 0
  let o := if inside then 0 else s.ptp.outRun + 1
  let s1 := { s with ptp := { s.ptp with inRun := min i 16, outRun := min o 16 } }
  let n := fld w 12 4
  match s.rdf Reg.TIM_STAT 16 2 with
  | 0 => s1.servoTo 1
  | 1 => if n ≤ i then s1.servoTo 2 else s1
  | 2 => if n ≤ o then s1.servoTo 1 else s1
  | _ =>
    let same := s.epochHeld.any fun e => s.role e.1 == 3 && e.2.ptp.gm == s.ptp.gm
    if same && inside then (if n ≤ i then s1.servoTo 2 else s1) else s1.servoTo 1

/-- A write of TIM_CTRL: a change of SERVO returns the servo to FREERUN (Table 14-2). -/
def State.writeTimCtrl (s : State) (v : Word) : State :=
  let s1 := s.wrMask Reg.TIM_CTRL 7#32 v
  if s.bit Reg.TIM_CTRL 0 == wbit v 0 then s1 else s1.servoTo 0

/-- A signed value of ps in units of 2^-8 ns, saturating. -/
def toMeas (ps : Int) : Word := ofI (satI32 ((ps * 256).tdiv 1000))

/-- An exchange completed (R323): offsetFromMaster and meanPathDelay published. -/
def State.publish (s : State) (t1 t2 t3 t4 : Int) : State :=
  let off := ((t2 - t1) - (t4 - t3)).tdiv 2
  let mpd := ((t2 - t1) + (t4 - t3)).tdiv 2
  let s1 := ((s.wr Reg.TIM_OFFSET (toMeas off)).wr Reg.TIM_MPD (toMeas mpd)).bump Reg.TIM_MEASSEQ
  if s.bit Reg.TIM_CTRL 1 then s1 else s1.servoStep off

/-! ## PTP messages (R321, R322) -/

/-- The bytes `n` from offset `i` of a message as a number, most significant first. -/
def beNat (b : List Byte) (i n : Nat) : Nat := (List.range n).foldl (fun v k => 256 * v + (b.getD (i + k) 0#8).toNat) 0

/-- The 10-byte timestamp at offset 34 of a PTP message, in ps. -/
def ptpStamp (b : List Byte) : Int := ((beNat b 34 6 * 1000000000 + beNat b 40 4) * 1000 : Nat)

/-- The correctionField, in ps. -/
def ptpCorr (b : List Byte) : Int := (signed 64 (beNat b 8 8) * 1000) / 65536

/-- The attributes by which masters are compared (PRESUMED, log entry 41): priority1, which the alternate BMCA of G.8275.1 leaves out,
quality, variance, priority2, grandmaster identity, steps removed. -/
def masterRank (alternate : Bool) (info gm : List Byte) (steps : Nat) : Nat :=
  let b := (if alternate then info.drop 1 else info) ++ gm ++ beBytes 2 steps
  beNat b 0 b.length

/-- A PTP message taken by the engine on the ACTIVE path, with its ingress timestamp in ps. -/
def State.ptpMessage (s : State) (b : List Byte) (stamp : Int) : State :=
  let ty := beNat b 0 1 % 16
  let dom := beNat b 4 1
  let cfg := s.rd Reg.TIM_PTPCFG
  let src := (b.drop 20).take 10
  let x := s.ptp
  if ty = 2 ∨ ty = 3 ∨ ty = 10 then s.count Reg.TIM_PTPCNT 16 16 1
  else if dom ≠ fld cfg 0 8 ∨ (!wbit cfg 8 && (decide (dom < 24) || decide (43 < dom))) then s.count Reg.TIM_PTPCNT 0 16 1
  else match ty with
    | 11 =>
      let gm := (b.drop 53).take 8
      let info := (b.drop 47).take 6
      let steps := beNat b 61 2
      let alt := !wbit cfg 8
      if x.gm.isEmpty || src == x.parent || decide (masterRank alt info gm steps < masterRank alt x.info x.gm x.steps) then
        { s with ptp := { x with gm := gm, parent := src, info := info, steps := steps } }
      else s
    | 0 =>
      if src != x.parent then s
      else if beNat b 6 1 / 2 % 2 = 1 then
        { s with ptp := { x with syncSeq := beNat b 30 2, t1 := none, t2 := some (stamp - ptpCorr b) } }
      else { s with ptp := { x with syncSeq := beNat b 30 2, t1 := some (ptpStamp b), t2 := some (stamp - ptpCorr b) } }
    | 8 =>
      if src == x.parent && beNat b 30 2 == x.syncSeq && x.t2.isSome then
        { s with ptp := { x with t1 := some (ptpStamp b + ptpCorr b) } }
      else s
    | 9 =>
      match x.t1, x.t2, x.t3 with
      | some t1, some t2, some t3 =>
        if src == x.parent && (beNat b 30 2 + 1) % 65536 == x.reqSeq then
          { s with ptp := { x with t3 := none } }.publish t1 t2 t3 (ptpStamp b - ptpCorr b)
        else s
      | _, _, _ => s
    | _ => s

/-- INGRESS or EGRESS of port `k` in ps (R322). -/
def State.portComp (s : State) (k : Nat) (egress : Bool) : Int :=
  sInt (s.rd (if egress then Reg.TIM_PORTCOMP_W1 k else Reg.TIM_PORTCOMP_W0 k))

/-- A Delay_Req (R321) in the layout of the PTP standard, in network byte order: domain, port identity and sequenceId, the rest at the
standard's values (PRESUMED, log entry 122). -/
def delayReqMessage (domain : Nat) (port : List Byte) (seq : Nat) : List Byte :=
  beBytes 1 1 ++ beBytes 1 2 ++ beBytes 2 44 ++ beBytes 1 domain ++ beBytes 15 0 ++ port ++ beBytes 2 seq ++ beBytes 1 1 ++ beBytes 1 0x7F ++
    beBytes 10 0

/-- The port identity that port `k` sends, which the spec does not state: a free value. -/
def portIdentity (k : Nat) : List Byte := (List.range 8).map (fun i => Config.clockIdentity i) ++ beBytes 2 (k + 1)

/-- Where a Delay_Req goes (R321): the MAC address that MCAST names, or under the Default profile UDP port 319 of the group 224.0.1.129, which
IEEE 1588 assigns (PRESUMED, log entry 122). -/
def State.ptpGroup (s : State) : List Byte :=
  let cfg := s.rd Reg.TIM_PTPCFG
  if wbit cfg 8 then beBytes 4 0xE0000181 ++ beBytes 2 319
  else if wbit cfg 9 then beBytes 6 0x0180C200000E else beBytes 6 0x011B19000000

/-- DELAY_REQ_TRANSMIT (R321, R322, Table 13-4): on the ACTIVE path its egress timestamp is t3, and none leaves in a gap (R300); on a DOWN or
STANDBY path it is the Watchman's probe, with a sequenceId of the Watchman's own, a free value. -/
def execDelayReqTransmit (net : Fin 2) (landPs : Nat) (s : State) : Result :=
  let dom := s.rdf Reg.TIM_PTPCFG 0 8
  if s.role net = 3 ∧ s.inGap then .next s
  else if s.role net = 3 then
    .next ({ s with ptp := { s.ptp with t3 := some ((landPs : Int) + s.portComp net true), reqSeq := (s.ptp.reqSeq + 1) % 65536 } }.sendOn net
      (.delayReq net s.ptpGroup (delayReqMessage dom (portIdentity net) s.ptp.reqSeq)))
  else if s.role net = 1 ∨ s.role net = 2 then
    .next (s.draw.sendOn net (.delayReq net s.ptpGroup (delayReqMessage dom (portIdentity net) (s.freeNat % 65536))))
  else .next s

/-- PTP_TIMEOUT (R324): announce or Sync timeout; the master that was followed no longer stands before others. -/
def execPtpTimeout (s : State) : Result :=
  .next { s with ptp := { s.ptp with gm := [], parent := [], info := [], steps := 0, t1 := none, t2 := none, t3 := none } }.enterHoldover

/-! ## 1PPS (R326, R327) -/

/-- The first instant (ns) from now on whose nanoseconds equal PPSOFS mod 10^9 (R326). -/
def State.ppsEdge (s : State) : Nat :=
  s.ns + ((sInt (s.rd Reg.TIM_PPSOFS) - (s.ns : Int)) % 1000000000).toNat

/-- PPSOUT is driven (Table 19-11): at UP outside a cut, and in P3 but after SHUT. -/
def State.ppsDriven (s : State) : Bool :=
  if s.off then !(s.stopOwed && decide (3 ≤ s.rdf Reg.THM_STOPLOG_W0 28 3)) else s.bit Reg.BOOT_STAT 31

/-- PPSOUT_PULSE (R326): at its edge instant, at the active level of PPSOPOL, for PWIDTH ms. -/
def execPpsoutPulse (s : State) : Result :=
  let w := s.rd Reg.TIM_PPSCTL
  .next (if s.ppsDriven && wbit w 0 && !(wbit w 3 && s.rdf Reg.TIM_STAT 16 2 != 2) then
    (s.raise s.ppsEdge).send (.ppsPulse (!wbit w 1) (1000 * fld w 16 16)) else s)

/-- PPSIN_EDGE (R327): under SRC = PPS the servo takes its phase from the edge. -/
def execPpsinEdge (s : State) : Result :=
  let n := nsecOf s.ns
  let s1 := ((s.wr Reg.TIM_PPSINNS (wd n)).wr Reg.TIM_PPSINSEC (wd (secOf s.ns))).wrf Reg.TIM_STAT 0 16 (s.rdf Reg.TIM_STAT 0 16 + 1)
  let s2 := { s1 with ppsLast := s.ns }
  .next (if s.bit Reg.TIM_CTRL 1 then s2.servoStep (1000 * (if n ≤ 500000000 then (n : Int) else (n : Int) - 1000000000)) else s2)

/-- PPSIN_LOSS (R327). -/
def execPpsinLoss (s : State) : Result :=
  let s1 := (s.err Reg.TIM_ERRSTAT 4).timeEvent 4 0 0 0#32
  .next (if s.bit Reg.TIM_CTRL 1 then s1.enterHoldover else s1)

end Sys2Proof.Machine
end

