-- ==== Sys2Proof/Machine/Porter.lean ====
section
/-! DEFINITION. The Porter and the NGCP agent's acceptance (chapter 12): parsing (R276, R277), the classifier key (R278), the TCAM
lookup and its actions (R279 to R283), the limiter, and the checks an NGCP request passes before it reaches its session. -/

namespace Sys2Proof.Machine

/-! ## Parsing (R276, R277) -/

/-- What the Porter reads of a frame: the key's fields (Table 12-2), the offset of the NGCP or PTP message it found, and the UDP
Length of a message over UDP. -/
structure Parse where
  pstat : Nat
  l3 : Nat
  l4 : Nat
  nvlan : Nat
  frag : Bool
  kind : Nat
  etype : Nat
  otci : Nat
  itci : Nat
  sip : Nat
  dip : Nat
  sport : Nat
  dport : Nat
  sysid : Nat
  nver : Nat
  op : Nat
  proto : Nat
  session : Nat
  ptpdom : Nat
  dscp : Nat
  body : Nat
  udp : Option Nat
deriving DecidableEq, Repr

/-- Nothing reached. -/
def Parse.zero : Parse := ⟨0, 0, 0, 0, false, 0, 0, 0, 0, 0, 0, 0, 0, 0, 0, 0, 0, 0, 0, 0, 0, none⟩

/-- The NGCP EtherType and UDP port in force. -/
structure NgcpPorts where
  etype : Nat
  udp : Nat
deriving DecidableEq, Repr

/-- Goes on with `k` when the `n` header bytes at `o` are there: INCOMPLETE where they reach beyond byte 63, ERROR where the frame
ends before. -/
def Parse.need (p : Parse) (b : List Byte) (o n : Nat) (k : Parse) : Parse :=
  if 64 < o + n then { p with pstat := 1 } else if b.length < o + n then { p with pstat := 2 } else k

/-- The five bytes of an NGCP header at `o`. -/
def parseNgcp (b : List Byte) (o : Nat) (p : Parse) : Parse :=
  let p := { p with kind := 1 }
  let v := beNat b o 2
  p.need b o 5 { p with sysid := v % 4096, nver := v / 4096, session := beNat b (o + 2) 2, op := beNat b (o + 4) 1, body := o }

/-- The five bytes of a PTP header at `o`. -/
def parsePtp (b : List Byte) (o : Nat) (p : Parse) : Parse :=
  let p := { p with kind := 2 }
  p.need b o 5 { p with op := beNat b o 1 % 16, ptpdom := beNat b (o + 4) 1, body := o }

/-- The UDP header at `o` of an IP payload of `len` bytes. -/
def parseUdp (c : NgcpPorts) (v4 : Bool) (b : List Byte) (o len : Nat) (p : Parse) : Parse :=
  let p := { p with l4 := 1 }
  let n := beNat b (o + 4) 2
  let q := { p with sport := beNat b o 2, dport := beNat b (o + 2) 2, udp := some n }
  p.need b o 6 (
    if b.length < o + 8 ∨ n < 8 ∨ n ≠ len then { q with pstat := 2 }
    else if v4 ∧ q.dport = c.udp then parseNgcp b (o + 8) q
    else if v4 ∧ (q.dport = 319 ∨ q.dport = 320) then parsePtp b (o + 8) q
    else q)

/-- The one's complement sum of `n` 16-bit words at `o`, with its carries folded in. -/
def onesSum (b : List Byte) (o n : Nat) : Nat :=
  let s := (List.range n).foldl (fun x i => x + beNat b (o + 2 * i) 2) 0
  let t := s % 65536 + s / 65536
  t % 65536 + t / 65536

/-- The IPv4 header at `o`. -/
def parseIp4 (c : NgcpPorts) (b : List Byte) (o : Nat) (p : Parse) : Parse :=
  let p := { p with l3 := 1 }
  p.need b o 20 (
    let ihl := beNat b o 1 % 16
    let tl := beNat b (o + 2) 2
    let q := { p with sip := beNat b (o + 12) 4, dip := beNat b (o + 16) 4, proto := beNat b (o + 9) 1, dscp := beNat b (o + 1) 1 / 4 }
    if beNat b o 1 / 16 ≠ 4 ∨ ihl < 5 ∨ b.length < o + 4 * ihl ∨ onesSum b o (2 * ihl) ≠ 65535 ∨ tl < 4 * ihl ∨ b.length - o < tl then
      { q with pstat := 2 }
    else if beNat b (o + 6) 2 % 16384 ≠ 0 then { q with frag := true }
    else if q.proto = 17 then parseUdp c true b (o + 4 * ihl) (tl - 4 * ihl) q
    else { q with l4 := 2, kind := if q.proto = 1 then 4 else 0 })

/-- The IPv6 header at `o`. -/
def parseIp6 (c : NgcpPorts) (b : List Byte) (o : Nat) (p : Parse) : Parse :=
  let p := { p with l3 := 2 }
  p.need b o 40 (
    let len := beNat b (o + 4) 2
    let q := { p with sip := beNat b (o + 8) 16, dip := beNat b (o + 24) 16, proto := beNat b (o + 6) 1, dscp := beNat b o 2 / 64 % 64 }
    if beNat b o 1 / 16 ≠ 6 ∨ b.length - o < len + 40 then { q with pstat := 2 }
    else if q.proto = 17 then parseUdp c false b (o + 40) len q
    else { q with l4 := 2 })

/-- What follows the EtherType, at `o`. -/
def parseL3 (c : NgcpPorts) (b : List Byte) (o : Nat) (p : Parse) : Parse :=
  if p.etype = 0x0800 then parseIp4 c b o p
  else if p.etype = 0x86DD then parseIp6 c b o p
  else if p.etype = c.etype then parseNgcp b o p
  else if p.etype = 0x88F7 then parsePtp b o p
  else if p.etype = 0x0806 then { p with kind := 3 }
  else if p.etype = 0x888E then { p with kind := 5 }
  else p

/-- Whether an EtherType is a VLAN TPID. -/
def isTpid (t : Nat) : Bool := t == 0x8100 || t == 0x88A8

/-- A frame parsed (R276). -/
def parseFrame (c : NgcpPorts) (b : List Byte) : Parse :=
  let p := { Parse.zero with etype := beNat b 12 2 }
  Parse.zero.need b 0 14 (
    if !isTpid p.etype then parseL3 c b 14 p
    else p.need b 14 4 (
      let p := { p with nvlan := 1, otci := beNat b 14 2, etype := beNat b 16 2 }
      if !isTpid p.etype then parseL3 c b 18 p
      else p.need b 18 4 (
        let p := { p with nvlan := 2, itci := beNat b 18 2, etype := beNat b 20 2 }
        if isTpid p.etype then { p with pstat := 1 } else parseL3 c b 22 p)))

/-- The classifier key, words K0 to K15 (R278). -/
def Parse.key (p : Parse) (b : List Byte) (port : Nat) (pass macsec : Bool) : List Word :=
  let d := beNat b 0 6
  let m := beNat b 6 6
  [pack [(31, 1, port), (30, 1, pass.toNat), (28, 2, p.pstat), (26, 2, p.l3), (24, 2, p.l4), (22, 2, p.nvlan), (21, 1, p.frag.toNat),
      (20, 1, macsec.toNat), (16, 4, p.kind), (0, 16, p.etype)],
    wd d, pack [(16, 16, m), (0, 16, d / 2 ^ 32)], wd (m / 2 ^ 16), pack [(16, 16, p.otci), (0, 16, p.itci)]] ++
  (List.range 4).map (fun i => wd (p.sip / 2 ^ (32 * i))) ++ (List.range 4).map (fun i => wd (p.dip / 2 ^ (32 * i))) ++
  [pack [(16, 16, p.sport), (0, 16, p.dport)], pack [(20, 12, p.sysid), (16, 4, p.nver), (8, 8, p.op), (0, 8, p.proto)],
    pack [(16, 16, p.session), (8, 8, p.ptpdom), (2, 6, p.dscp)]]

/-! ## The TCAM (R279, R280) -/

/-- The valid entries of bank `k`, lowest first; one with an uncorrectable word counts as invalid (Table 18-2). VALID resets to 0, so they
are among the words listed. -/
def State.tcamValid (s : State) (k : Nat) : List Nat :=
  s.words.filterMap fun p =>
    let e := (p.1 - Reg.TCAM_ACT 0) / 0x100
    if Reg.TCAM_ACT 0 ≤ p.1 ∧ (p.1 - Reg.TCAM_ACT 0) % 0x100 = 0 ∧ e / 1024 = k ∧ wbit p.2 31 ∧ !s.poisoned.any fun a => a / 0x100 == p.1 / 0x100 then some e else none

/-- Whether a key matches entry `e`. -/
def State.tcamMatch (s : State) (key : List Word) (e : Nat) : Bool :=
  (List.range 16).all fun i => (key.getD i 0#32 ^^^ s.rd (Reg.TCAM_KEY e i)) &&& s.rd (Reg.TCAM_MASK e i) == 0#32

/-- The entry that wins in bank `k`. -/
def State.tcamFind (s : State) (key : List Word) (k : Nat) : Option Nat := (s.tcamValid k).find? (s.tcamMatch key)

/-- The bank in force. -/
def State.tcamBank (s : State) : Nat := s.rdf Reg.POR_BANK 16 1

/-! ## The management cores' queue and the limiter (R281) -/

/-- A frame offered to the management cores' receive queue of 256 frames. The cores take frames out at times of their own. -/
def State.toMgmt (s : State) (net : Nat) (b : List Byte) : State :=
  let n := s.mgmtQ - s.freeNat
  let s1 := s.draw
  if 256 ≤ n then { s1 with mgmtQ := n }.count Reg.POR_DROPCNT 16 16 1
  else { s1 with mgmtQ := n + 1 }.send (.toCores net b)

/-- A full limiter of the reset depth. -/
def Limiter.full : Limiter := ⟨64 * 1000000000, 0⟩

/-- The level of port `net`'s limiter now, at the rate and depth in force. -/
def State.limiterLevel (s : State) (net : Nat) : Nat :=
  let x := Store.get Limiter.full s.limiters net
  let w := s.rd (Reg.POR_PORTCFG net)
  min (fld w 8 8 * 1000000000) (x.level + fld w 16 16 * (s.ns - x.since))

/-- Port `net`'s limiter at a level. -/
def State.setLimiter (s : State) (net lvl : Nat) : State :=
  { s with limiters := Store.set Limiter.full s.limiters net ⟨lvl, s.ns⟩ }

/-- A write of POR_PORTCFG: the limiter has filled at the old rate until now. -/
def State.writePortcfg (s : State) (net : Nat) (v : Word) : State :=
  (s.setLimiter net (s.limiterLevel net)).writeReg (Reg.POR_PORTCFG net) v

/-- A frame offered to the management cores through port `net`'s limiter. -/
def State.limited (s : State) (net : Nat) (b : List Byte) : State :=
  let lvl := s.limiterLevel net
  if 1000000000 ≤ lvl then (s.setLimiter net (lvl - 1000000000)).toMgmt net b
  else ((s.setLimiter net lvl).count (Reg.POR_PCNT net 3) 0 32 1).err Reg.POR_ERRSTAT 3

/-! ## NGCP requests (R284, R285, R287) -/

/-- Whether a request's payload has the form Table 12-6 gives its operation. -/
def ngcpSound (op : Nat) (d : List Byte) : Bool :=
  let n := beNat d 4 2
  match op with
  | 1 => d.length == 8 && decide (4 ≤ n) && decide (n ≤ 256) && n % 4 == 0 && beNat d 6 2 == 0
  | 2 => decide (8 ≤ d.length) && d.length == 8 + n && decide (4 ≤ n) && n % 4 == 0 && beNat d 6 2 == 0
  | 3 => d.length == 8 && decide (beNat d 6 1 < 2) && beNat d 7 1 == 0
  | 4 => d.length == 4
  | _ => d.isEmpty

/-- Request `q` of session `n` answered: the kept response with its SEQ is sent again and DUPCNT increments, else `f` answers it (R291). -/
def State.answerOnce (s : State) (n : Nat) (q : NgcpReq) (f : State → State) : State :=
  match (s.session n).replies.find? fun p => p.1 == q.seq with
  | some r => (s.count (Reg.POR_SESS_W1 n) 16 16 1).transmit q.src r.2
  | none => f s

/-- The requests at the head of session `n` that their form lets none execute, answered with their STATUS. `fuel` bounds their number. -/
def State.answerBad : Nat → Nat → State → State
  | 0, _, s => s
  | fuel + 1, n, s =>
    match (s.session n).reqs with
    | q :: rest =>
      if q.verdict = 0 then s
      else State.answerBad fuel n ((s.setSession n { s.session n with reqs := rest }).answerOnce n q fun t =>
        t.ngcpAnswer n q.seq q.op q.verdict q.src [])
    | [] => s

/-- An NGCP request of session `n` accepted from port `net` (R284): its source becomes the session's peer, and it joins the session's
requests, in its turn answered with MALFORMED or OPNOTSUP or executed. `p` is the parse of the frame `b`. -/
def State.ngcpAccept (s : State) (net n : Nat) (b : List Byte) (p : Parse) : State :=
  let o := p.body
  let op := beNat b (o + 4) 1
  let flags := beNat b (o + 5) 1
  let len := beNat b (o + 6) 2
  let seq := beNat b (o + 8) 4
  let d := (b.drop (o + 16)).take len
  let src := (b.drop 6).take 6 ++ (if p.udp.isSome then [BitVec.ofNat 8 (p.sip / 2 ^ 24), BitVec.ofNat 8 (p.sip / 2 ^ 16),
    BitVec.ofNat 8 (p.sip / 2 ^ 8), BitVec.ofNat 8 p.sip, BitVec.ofNat 8 (p.sport / 2 ^ 8), BitVec.ofNat 8 p.sport] else [])
  if flags / 128 = 1 then s
  else if op = 5 ∧ flags / 32 % 2 = 1 then
    s.setSession n { s.session n with unacked := (s.session n).unacked.filter fun u => u.seq != seq }
  else
    let s1 := s.setSession n { s.session n with peer := some (net, src) }
    let badLen : Bool := match p.udp with
      | some u => len + 16 != u - 8
      | none => decide (b.length < o + 16 + len)
    let verdict := if beNat b o 2 / 4096 ≠ 1 ∨ flags % 32 ≠ 0 ∨ beNat b (o + 12) 4 ≠ 0 ∨ 1024 < len ∨ badLen = true then 1
      else if op = 0 ∨ op = 5 ∨ 6 < op then 6
      else if !ngcpSound op d then 1
      else if p.sysid = 4095 ∧ ¬ (op = 6 ∨ (op = 1 ∧ beNat d 0 4 = Reg.GEN_ID ∧ beNat d 4 2 = 4)) then 6 else 0
    let q : NgcpReq := { op := op, seq := seq, payload := d, verdict := verdict, net := net, src := src }
    let s2 := s1.setSession n { s1.session n with reqs := (s1.session n).reqs ++ [q] }
    s2.answerBad (s2.session n).reqs.length n

/-- A frame that arrived by an NGCP action of session `n` (R284): dropped and counted unless SYSID, SESSION and EN agree. -/
def State.ngcpFrame (s : State) (net n : Nat) (b : List Byte) (p : Parse) : State :=
  if p.kind ≠ 1 ∨ (p.sysid ≠ s.rdf Reg.POR_SYSID 0 12 ∧ p.sysid ≠ 4095) then s.count Reg.POR_NGCPCNT 24 8 1
  else if p.session ≠ n then (s.count Reg.POR_NGCPCNT 16 8 1).err Reg.POR_ERRSTAT 2
  else if !s.bit (Reg.POR_SESS_W0 n) 31 then s.count Reg.POR_NGCPCNT 8 8 1
  else s.ngcpAccept net n b p

/-! ## Actions (Table 12-4) in the roles of Table 13-1 -/

/-- The NGCP EtherType and port in force. -/
def State.ngcpPorts (s : State) : NgcpPorts := ⟨s.rdf Reg.POR_CTRL 16 16, s.rdf Reg.POR_CTRL 0 16⟩

/-- An NGCP frame on a path that takes no requests. -/
def State.standbyNgcp (s : State) : State := s.count Reg.PTH_CNT 24 8 1

/-- A frame held through a gap, or dropped where the 64 KiB buffer has no room (R300). -/
def State.holdFrame (s : State) (f : HeldFrame) : State :=
  if (s.gapFrames.map fun h => h.bytes.length).sum + f.bytes.length ≤ 65536 then { s with gapFrames := s.gapFrames ++ [f] }
  else (s.count Reg.PTH_CNT 16 8 1).wrBit Reg.PTH_ERRSTAT 5 true

/-- An NGCP or PTP frame processed on the ACTIVE path; PTP over the transport that PROFILE does not name is not taken (R321). -/
def State.takeFrame (s : State) (f : HeldFrame) : State :=
  let p := parseFrame s.ngcpPorts f.bytes
  if f.ptp then (if p.kind = 2 ∧ p.udp.isSome = s.bit Reg.TIM_PTPCFG 8 then s.ptpMessage (f.bytes.drop p.body) f.stamp else s)
  else s.ngcpFrame f.net f.sess f.bytes p

/-- An NGCP or PTP action on port `net`, by the port's role and the switch-over in progress (Table 13-1, R300, R307). -/
def State.pathFrame (s : State) (f : HeldFrame) : State :=
  match s.gap with
  | some g =>
    if !g.frozen && g.dest == f.net then s.holdFrame f
    else if s.role f.net = 3 && g.frozen && f.ptp then s.takeFrame f
    else if f.ptp || (s.role f.net == 3 && !g.frozen) then s
    else s.standbyNgcp
  | none => if s.role f.net = 3 then s.takeFrame f else if f.ptp then s else s.standbyNgcp

/-- Whether port `net` acts on MGMT and RECIRC: ACTIVE, unless a gap discards its frames, or STANDBY. -/
def State.actsOn (s : State) (net : Nat) : Bool :=
  s.role net == 2 || (s.role net == 3 && s.gap.all (·.frozen))

/-- The default action of port `net` (R281). -/
def State.defaultAct (s : State) (net : Nat) (b : List Byte) : State :=
  if s.rdf (Reg.POR_PORTCFG net) 0 2 = 1 ∧ s.actsOn net then s.limited net b else s

/-- A frame whose parse failed (R281). -/
def State.parseFailed (s : State) (net : Nat) (b : List Byte) (pstat : Nat) : State :=
  let s1 := (s.count (Reg.POR_PCNT net (pstat - 1)) 0 32 1).err Reg.POR_ERRSTAT 1
  if s.rdf (Reg.POR_PORTCFG net) 0 2 = 1 then s1.defaultAct net b
  else if s.bit (Reg.POR_PORTCFG net) 2 && s1.actsOn net then s1.limited net b
  else s1

/-- A parsed frame looked up in bank `k` and dispatched (R279 to R282); `again` is what a RECIRC action does. -/
def State.classify (s : State) (net : Nat) (b : List Byte) (pass macsec : Bool) (k : Nat) (stamp : Int)
    (again : State → Nat → State) : State :=
  let p := parseFrame s.ngcpPorts b
  if p.pstat ≠ 0 then s.parseFailed net b p.pstat
  else
    match s.tcamFind (p.key b net pass macsec) k with
    | none => (s.count (Reg.POR_PCNT net 2) 0 32 1).defaultAct net b
    | some e =>
      let s1 := s.count (Reg.TCAM_HITS e) 0 32 1
      let w := s.rd (Reg.TCAM_ACT e)
      match fld w 28 3 with
      | 1 => if s1.actsOn net then s1.toMgmt net b else s1
      | 2 => s1.pathFrame ⟨net, b, false, fld w 22 6, stamp⟩
      | 3 => s1.pathFrame ⟨net, b, true, 0, stamp⟩
      | 4 => if s1.actsOn net then again s1 (fld w 16 6) else s1
      | _ => s1

/-- A first pass (R279): the key enters the TCAM with the bank in force, whose epoch is pinned (R283). -/
def State.firstPass (s : State) (net : Nat) (b : List Byte) (macsec : Bool) (stamp : Int) : State :=
  s.classify net b false macsec s.tcamBank stamp fun t strip =>
    if 8 ≤ t.recirc.length then t.count Reg.POR_DROPCNT 0 16 1
    else { t with recirc := t.recirc ++ [⟨net, b, macsec, strip, t.tcamBank, t.rdf Reg.POR_BANK 0 16, stamp⟩] }

/-- A second pass (R282, R283). -/
def State.secondPass (s : State) (r : RecircRec) : State :=
  let s1 := if r.epoch = s.rdf Reg.POR_BANK 0 16 then s else s.count Reg.POR_STRADDLE 0 32 1
  s1.classify r.net (r.bytes.drop (2 * r.strip)) true r.macsec r.bank r.stamp fun t _ => t.count Reg.POR_DROPCNT 0 16 1

/-! ## Writes of the TCAM and the sessions (R283, R286) -/

/-- A write of entry words of the TCAM: ignored with CFGERR in the bank in force, and in the other while it drains. -/
def State.writeTcam (s : State) (a : Nat) (v : Word) : State :=
  let k := (a - Reg.TCAM_KEY 0 0) / 0x40000
  if k = s.tcamBank ∨ s.bit Reg.POR_BANK 30 then s.err Reg.POR_ERRSTAT 0 else s.writeReg a v

/-- A write of POR_BANK: SWAP (R283). -/
def State.writeBank (s : State) (v : Word) : State :=
  if !wbit v 31 then s
  else if s.bit Reg.POR_BANK 30 then s.err Reg.POR_ERRSTAT 0
  else
    let k := s.tcamBank
    let s1 := (s.wrf Reg.POR_BANK 16 1 (1 - k)).wrf Reg.POR_BANK 0 16 (s.rdf Reg.POR_BANK 0 16 + 1)
    s1.wrBit Reg.POR_BANK 30 (s.recirc.any fun r => r.bank == k)

/-- A write of POR_SESS W0: one that changes MGMT or PART while EN = 1 is ignored (R286). -/
def State.writeSess (s : State) (n w : Nat) (v : Word) : State :=
  if w ≠ 0 then s
  else
    let old := s.rd (Reg.POR_SESS_W0 n)
    if wbit old 31 && (old ^^^ v) &&& 0x403F0000#32 != 0#32 then s.err Reg.POR_ERRSTAT 0 else s.writeReg (Reg.POR_SESS_W0 n) v

end Sys2Proof.Machine
end

