-- ==== Sys2Proof/Machine/NetCommands.lean ====
section
/-! DEFINITION. The meanings of the commands of chapter 12 but NGCP READ and WRITE: link modes, frames, TCAM banks, sessions, SUBMIT,
ABORT, KEEPALIVE and the NOTIFY frames. -/

namespace Sys2Proof.Machine

/-! ## Ports (R274, R275) -/

/-- Whether RS-FEC is in force on port `k`: FEC = 1 in 25GBASE-R. -/
def State.fecOn (s : State) (k : Nat) : Bool := s.bit (netReg k 0) 4 && s.rdf (netReg k 0) 0 2 == 0

/-- The PCS of port `k` with the locks given; the link is up with block lock, and FEC lock where RS-FEC is in force. -/
def State.setLink (s : State) (k : Nat) (block fec : Bool) : State :=
  let f := fec && s.fecOn k
  let up := block && (f || !s.fecOn k)
  let was := s.bit (netReg k 1) 31
  let s1 := ((s.wrBit (netReg k 1) 31 up).wrBit (netReg k 1) 30 block).wrBit (netReg k 1) 29 f
  s1.when (was && !up) (·.err (netReg k 2) 0)

/-- A PATHSW record: PTH_SWLOG and the event of Table 13-5 (R306). `t` is T_fail in ns. -/
def State.pathEvent (s : State) (kind cause dest cyc w5 t : Nat) : State :=
  let w := pack [(28, 4, kind), (24, 4, cause), (16, 1, dest), (0, 12, cyc)]
  let s1 := (((s.wr Reg.PTH_SWLOG_W0 w).wr Reg.PTH_SWLOG_W1 (s.rd Reg.PTH_EPOCH)).wr Reg.PTH_SWLOG_W2 (wd (nsecOf t))).wr
    Reg.PTH_SWLOG_W3 (wd (secOf t))
  s1.eventMgmt (eventEntry 0x12 0 noTile 0 [w, wd w5] s.ns)

/-- No path is ACTIVE: BOTHDOWN and HOLDOVER (R302). -/
def State.bothDown (s : State) (k cause : Nat) : State :=
  (((s.wrBit Reg.PTH_ERRSTAT 4 true).enterHoldover).wrBit Reg.PTH_STAT 30 true).pathEvent 3 cause k 0 (s.rd Reg.PTH_EPOCH).toNat s.ns

/-- The role a single-mode path takes with its link: ACTIVE when it is up (R295). -/
def State.singleRole (s : State) (k : Nat) : State :=
  let m := s.rdf Reg.PTH_CTRL 0 2
  if m = k then
    let up := s.bit (netReg k 1) 31
    let s1 := s.wrf Reg.PTH_STAT (4 * k) 4 (if up then 3 else 1)
    s1.when (!up && s.role k == 3) (·.bothDown k 0)
  else s

/-- NET_LINK_CHANGE (R299): a powered PCS gains or loses lock. In BOOTFAIL NETA and NETB stay down (R373). -/
def execNetLinkChange (net : Fin 2) (blockLock fecLock : Bool) (s : State) : Result :=
  if s.role net = 0 ∨ s.bit Reg.BOOT_STAT 30 then .next s else .next ((s.setLink net blockLock fecLock).singleRole net)

/-- A write of NETx_CTRL (R274, R275): a change of MODE or FEC takes the link down, and measurements in flight are discarded; clearing
MSEN ends key agreement. -/
def State.writeNetCtrl (s : State) (k : Nat) (v : Word) : State :=
  let a := netReg k 0
  let s1 := s.writeReg a v
  let s2 := if s1.bit a 8 then s1
    else { s1 with replay := s1.replay.filter fun (p : Nat × Nat) => p.1 / 8 != k }.wrBit (netReg k 1) 28 false
  if (s1.rd a ^^^ s.rd a) &&& 0x13#32 = 0#32 then s2
  else
    let s3 := (s2.setLink k false false).singleRole k
    { s3 with ptp := { s3.ptp with t1 := none, t2 := none, t3 := none } }

/-- LINK_MODE_WRITE (R274). -/
def execLinkModeWrite (net : Fin 2) (v : Word) (s : State) : Result := .next (s.writeNetCtrl net v)

/-- Whether a frame may bypass the SecY: EAPOL, and PTP with MSBYPTP = 1 (R275). -/
def State.mayBypass (s : State) (k : Nat) (b : List Byte) : Bool :=
  let p := parseFrame s.ngcpPorts b
  p.etype == 0x888E || (s.bit (netReg k 0) 9 && (p.etype == 0x88F7 || (p.l4 == 1 && (p.dport == 319 || p.dport == 320))))

/-- The bytes the SecTAG (with its SCI), the ICV and the FCS add to a frame on the wire. -/
def wireExtra (x : SecyResult) : Nat := if x = .bypassed then 4 else 36

/-- Replay protection (R275, IEEE 802.1AE): the place in `State.replay` of the association that a frame of port `k` verified under, and its
packet number. -/
def packetOf (k : Nat) : SecyResult → Option (Nat × Nat)
  | .verified sc sa pn => some (8 * k + 2 * sc.val + sa.val, pn)
  | _ => none

/-- A verified frame's packet number lies below the replay window REPLAYWIN of its association (DEDUCED, log entry 121). -/
def State.replayed (s : State) (k : Nat) (x : SecyResult) : Bool :=
  (packetOf k x).any fun p => decide (p.2 + (s.rd (netReg k 3)).toNat < Store.get 1 s.replay p.1)

/-- The next packet number after a verified frame. -/
def State.notePacket (s : State) (k : Nat) (x : SecyResult) : State :=
  match packetOf k x with
  | some p => { s with replay := Store.set 1 s.replay p.1 (max (Store.get 1 s.replay p.1) (p.2 + 1)) }
  | none => s

/-- FRAME_RECEIVED (R274, R275, R279): `b` is the frame without SecTAG, ICV and FCS; `landPs` is the instant (ps) its timestamp point
crosses the lands. -/
def execFrameReceived (net : Fin 2) (b : List Byte) (fcsOk : Bool) (secy : SecyResult) (landPs : Nat) (s : State) : Result :=
  let k := net.val
  let n := b.length + wireExtra secy
  if s.role k = 0 || !s.bit (netReg k 1) 31 then .next s
  else
    let s1 := s.count (netReg k 4) 0 32 1
    if s.role k = 4 then .next s1
    else if 2048 < n then .next ((s1.count (netReg k 7) 0 32 1).err (netReg k 2) 2)
    else if !fcsOk then .next ((s1.count (netReg k 6) 0 32 1).err (netReg k 2) 1)
    else if n < 64 then .next s1
    else if beNat b 12 2 = 0x8808 then .next (s1.count (netReg k 8) 0 32 1)
    else
      let msen := s.bit (netReg k 0) 8
      if msen && (secy == .failed || s.replayed k secy || (secy == .bypassed && !s.mayBypass k b)) then
        .next ((s1.count (netReg k 9) 0 32 1).err (netReg k 2) 3)
      else
        let s2 := s1.when msen (·.notePacket k secy)
        if s.role k = 3 && s.gap.any (fun g => !g.frozen && g.dest != k) then .next s2
        else .next (s2.firstPass k b (msen && (packetOf k secy).isSome) ((landPs : Int) - s.portComp k false))

/-- RECIRCULATE (R282): the second pass of the frame held longest. DRAIN ends with the last frame pinned to the bank out of force. -/
def execRecirculate (s : State) : Result :=
  match s.recirc with
  | [] => .next s
  | r :: rest =>
    let s1 := ({ s with recirc := rest }).secondPass r
    .next (s1.wrBit Reg.POR_BANK 30 (s1.bit Reg.POR_BANK 30 && rest.any fun x => x.bank != s1.tcamBank))

/-- BANK_SWAP (R283). -/
def execBankSwap (v : Word) (s : State) : Result := .next (s.writeBank v)

/-- SESSION_WRITE (R286). -/
def execSessionWrite (n : Fin 64) (word : Fin 2) (v : Word) (s : State) : Result := .next (s.writeSess n word v)

/-! ## The requests of a session (R287 to R291) -/

/-- The request at the head of session `n`, of operation `op`: a kept response is sent again (R291); else `f` executes it, and REQCNT
counts it. The ill-formed requests behind it are answered after it. -/
def State.serve (s : State) (n op : Nat) (f : State → NgcpReq → State) : State :=
  let x := s.session n
  match x.reqs with
  | [] => s
  | q :: rest =>
    if q.op ≠ op ∨ q.verdict ≠ 0 then s
    else ((s.setSession n { x with reqs := rest }).answerOnce n q fun t => f (t.count (Reg.POR_SESS_W1 n) 0 16 1) q).answerBad
      rest.length n

/-- The partition a session is bound to; `none` for a management session. -/
def State.sessPart (s : State) (n : Nat) : Option Nat :=
  if s.bit (Reg.POR_SESS_W0 n) 30 then none else some (s.rdf (Reg.POR_SESS_W0 n) 16 6)

/-- Entries of the notification queue neither used nor reserved. -/
def State.notifyRoom (s : State) : Nat := 4096 - (s.notifyQueued + s.notifyReserved)

/-- The RESULT of an NGCP SUBMIT of `k` cues from `q` (R246, R289). -/
def State.sessionResult (s : State) (part : Option Nat) (q k : Nat) : Nat :=
  if k = 0 ∨ 4096 < k ∨ 65536 < q + k ∨ (List.range' q k).any s.cuePoisoned then 3
  else if !part.all (fun p => s.cuesInRange p q k) then 2
  else if (List.range' q k).any s.cueBusy then 1
  else if s.notifyRoom < s.runEntries q k then 4
  else 0

/-- An NGCP SUBMIT executed. -/
def State.sessionSubmit (s : State) (n : Nat) (r : NgcpReq) : State :=
  let q := beNat r.payload 0 2
  let k := beNat r.payload 2 2
  let part := s.sessPart n
  let res := s.sessionResult part q k
  let s1 := s.ngcpAnswer n r.seq 3 0 r.src (beBytes 1 res ++ beBytes 3 0)
  if res ≠ 0 then s1
  else { s1 with notifyReserved := s1.notifyReserved + s1.runEntries q k }.submitRun q k part (.session n (beNat r.payload 4 2))

/-- SUBMIT (R289): OPNOTSUP before UP (R376); not executed once an entry into P3 has begun, or in a fatal state. -/
def execSubmit (n : Fin 64) (s : State) : Result :=
  .next (if (s.change.any fun c => c.req.target == 3) || s.fatalOn then s
    else if s.bit Reg.BOOT_STAT 31 then (s.serve n 3 fun t r => t.sessionSubmit n r).lampStat
    else s.serve n 3 fun t r => t.ngcpAnswer n r.seq 3 6 r.src [])

/-- NGCP_ABORT (R289): OPNOTSUP before UP (R376); else the response follows when the abort result is final. -/
def execNgcpAbort (n : Fin 64) (s : State) : Result :=
  .next (s.serve n 4 fun t r =>
    if t.bit Reg.BOOT_STAT 31 then t.abortFor (beNat r.payload 0 2) (t.sessPart n) (.session n r.seq r.src) else t.ngcpAnswer n r.seq 4 6 r.src [])

/-- KEEPALIVE (R287). -/
def execKeepalive (n : Fin 64) (s : State) : Result :=
  .next (s.serve n 6 fun t r => t.ngcpAnswer n r.seq 6 0 r.src (beBytes 4 (t.rd Reg.GEN_ID).toNat ++ beBytes 4 (t.rd Reg.LMP_GEN).toNat))

/-! ## NOTIFY (R290) -/

/-- A NOTIFY frame sent to session `n`'s peer: ACKREQ, and its entries byte for byte (R285, R290). -/
def State.notifyFrame (s : State) (n seq : Nat) (es : List (List Word)) : State :=
  match (s.session n).peer with
  | some p => s.transmit p.2 (ngcpMessage (s.rdf Reg.POR_SYSID 0 12) n 5 0x40 seq 0 (es.flatMap leBytes))
  | none => s

/-- A NOTIFY frame of session `n` with the entries given, kept until it is acknowledged. -/
def State.sendNotify (s : State) (n : Nat) (es : List (List Word)) : State :=
  let x := s.session n
  (s.setSession n { x with unacked := x.unacked ++ [⟨x.nseq, es, 0⟩], nseq := (x.nseq + 1) % 2 ^ 32 }).notifyFrame n x.nseq es

/-- NOTIFY (R290): up to 16 entries to the source of the most recent accepted request. -/
def execNotify (n : Fin 64) (s : State) : Result :=
  let x := s.session n
  .next (if x.queue.isEmpty || x.peer.isNone || s.txNet.isNone then s
    else (s.setSession n { x with queue := x.queue.drop 16 }).sendNotify n (x.queue.take 16))

/-- NOTIFY_ACK (R290). -/
def execNotifyAck (n : Fin 64) (seq : Word) (s : State) : Result :=
  let x := s.session n
  .next (s.setSession n { x with unacked := x.unacked.filter fun u => u.seq != seq.toNat })

/-- NOTIFY_RETRANSMIT (R290): the frame unacknowledged longest goes out again, or is discarded after three retransmissions. -/
def execNotifyRetransmit (n : Fin 64) (s : State) : Result :=
  let x := s.session n
  .next (match x.unacked with
    | [] => s
    | u :: rest =>
      if 3 ≤ u.tries then (s.setSession n { x with unacked := rest }).count Reg.POR_NGCPCNT 0 8 1
      else (s.setSession n { x with unacked := rest ++ [{ u with tries := u.tries + 1 }] }).notifyFrame n u.seq u.entries)

end Sys2Proof.Machine
end

