-- ==== Sys2Proof/Machine/PathCommands.lean ====
section
/-! DEFINITION. The path units, the referee and the Watchman (chapter 13): roles, epochs, switch-overs, the tie-break, health rounds and
the commands of PTH_CMD. -/

namespace Sys2Proof.Machine

/-- The state with path `k` in role `r` (Table 13-1). -/
def State.setRole (s : State) (k r : Nat) : State := s.wrf Reg.PTH_STAT (4 * k) 4 r

/-- The path in role `r`. -/
def State.pathIn (s : State) (r : Nat) : Option Nat := [0, 1].find? fun k => s.role k == r

/-- Path `k` is a HEALTHY standby. -/
def State.readyStandby (s : State) (k : Nat) : Bool := s.role k == 2 && s.bit (Reg.PTH_HEALTH k) 31

/-- The result of a PTH_CMD command. -/
def State.pthResult (s : State) (r : Nat) : State := s.wr Reg.PTH_CMDRES (pack [(31, 1, 1), (0, 4, r)])

/-- A HEALTH record of path `k`. -/
def State.healthEvent (s : State) (k cause : Nat) : State := s.pathEvent 5 cause k 0 (s.rd (Reg.PTH_HEALTH k)).toNat s.ns

/-! ## The state copy (R297) -/

/-- The copy that path `k` holds as its last complete epoch. -/
def State.heldEpoch (s : State) (k : Nat) : Option EpochCopy := (s.epochHeld.find? fun p => p.1 == k).map (·.2)

/-- Path `k` takes the state of its last complete epoch; without one it knows no peer, response or NOTIFY frame. The notification
queue and the requests with the agent are shared and stay (R298). -/
def State.takeEpoch (s : State) (k : Nat) : State :=
  let old := match s.heldEpoch k with
    | some e => e.sess
    | none => []
  let s1 := (List.range 64).foldl (fun (s : State) n =>
    let x := Store.get SessRec.empty old n
    s.setSession n { s.session n with peer := x.peer, replies := x.replies, unacked := x.unacked }) s
  match s.heldEpoch k with
  | some e => { s1 with ptp := e.ptp }
  | none => s1

/-- LASTSEQ of session `n` (Table 13-2). -/
def State.lastSeq (s : State) (n : Nat) : Nat := ((s.session n).replies.map (·.1)).foldl max 0

/-- A session's requests that the agent has not executed. -/
def State.agentIdle (s : State) : Bool := s.sess.all fun p => p.2.reqs.isEmpty

/-- EPOCH_START (R297, R307): the state as it stands is copied under the next number; the final epoch of a planned switch waits for the
requests passed to the agent. -/
def execEpochStart (s : State) : Result :=
  let e : EpochCopy := ⟨((s.rd Reg.PTH_EPOCH).toNat + 1) % 2 ^ 32, s.ns, s.gap.isSome, s.sess, s.ptp⟩
  let can := (s.pathIn 3).isSome && (s.pathIn 2).isSome && s.gap.all fun g => g.frozen && s.agentIdle
  .next (if can then { s with epochNew := some e } else s)

/-- T_fail of a switch-over to path `to` (R300): the epoch in progress is discarded, the new path takes the last complete one, and GAP
and HOLDOVER are set. -/
def State.failOver (s : State) (dest kind cause : Nat) (cmd : Bool) : State :=
  let s1 := { s with epochNew := none, gapFrames := [], gap := some ⟨dest, kind, cause, s.ns, false, cmd⟩ }.takeEpoch dest
  (s1.enterHoldover.wrBit Reg.PTH_STAT 31 true).wrBit Reg.PTH_STAT 30 true

/-- EPOCH_END (R297): the END marker arrives at the standby; the final epoch of a planned switch is its T_fail (R307). -/
def execEpochEnd (s : State) : Result :=
  match s.epochNew, s.pathIn 2 with
  | some e, some k =>
    let s1 := { s with epochNew := none, epochHeld := (k, e) :: s.epochHeld.filter fun p => p.1 != k }.wr Reg.PTH_EPOCH (wd e.num)
    .next (match s.gap with
      | some g => if g.frozen && e.last then s1.failOver g.dest 1 4 g.cmd else s1
      | none => s1)
  | _, _ => .next s

/-- HEARTBEAT (R299): sent by a path unit that runs. -/
def execHeartbeat (path : Fin 2) (s : State) : Result := .next (if s.role path = 0 then s else s.send (.heartbeat path))

/-! ## Failure of the active path (R299, R302) -/

/-- A gap or a planned switch ends without T_up: frames held on the new path are discarded and counted (R302, R307). -/
def State.endGap (s : State) : State :=
  let s1 := (s.count Reg.PTH_CNT 16 8 s.gapFrames.length).when (!s.gapFrames.isEmpty) (·.wrBit Reg.PTH_ERRSTAT 5 true)
  { s1 with epochNew := none, gap := none, gapFrames := [] }.wrBit Reg.PTH_STAT 31 false

/-- A planned switch abandoned (R307): the old path stays ACTIVE, what was kept for T_up leaves on it, and the command returns
NOTREADY. -/
def State.abandonSwitch (s : State) : State := (s.endGap.pthResult 1).flushGap

/-- The standby of a planned switch fails by a cause of Table 13-3 that takes it DOWN (R307). -/
def State.standbyFails (s : State) (k cause : Nat) : State := ((s.setRole k 1).abandonSwitch).healthEvent k cause

/-- The new active path fails before T_up: a planned switch is abandoned (R307), else no path is ACTIVE, and a SWITCH command that waits
returns NOTREADY (R302). -/
def State.gapFails (s : State) (g : GapRec) (cause : Nat) : State :=
  if g.kind = 1 then s.standbyFails g.dest cause
  else
    let s1 := [0, 1].foldl (fun (s : State) k => if s.role k = 3 ∨ k = g.dest then s.setRole k 1 else s) s.endGap
    ((if g.cmd then s1.pthResult 1 else s1).bothDown g.dest cause).flushGap

/-- The code of a failure cause (Table 13-3). -/
def pathCauseCode : PathCause → Nat
  | .link => 0
  | .hb => 1
  | .gm => 2
  | .msec => 3

/-- Whether the conditions of a cause that the state shows hold of path `k` (Table 13-3). -/
def State.pathFailed (s : State) (k : Nat) : PathCause → Bool
  | .link => !(s.bit (netReg k 1) 30 && (s.bit (netReg k 1) 29 || !s.fecOn k))
  | .hb => true
  | .gm => s.bit Reg.PTH_CTRL 3 && s.bit (Reg.PTH_HEALTH (1 - k)) 4
  | .msec => s.bit Reg.PTH_CTRL 4 && s.bit (netReg k 0) 8 && !s.bit (netReg k 1) 28

/-- The active path `a` failed, outside a gap (R299). -/
def State.activeFails (s : State) (a : Nat) (cause : PathCause) (cmd : Bool) : State :=
  let c := pathCauseCode cause
  if s.readyStandby (1 - a) then s.failOver (1 - a) 0 c cmd
  else if c < 2 then
    let s1 := { s with epochNew := none, gap := none }.setRole a 1
    ((s1.when cmd (·.pthResult 1)).bothDown a c).flushGap
  else s.healthEvent a c

/-- ACTIVE_PATH_FAILURE (R299): the referee declares the active path failed, or the path that a gap makes active (R302), or before the final
END marker of a planned switch the link of its standby (R307). -/
def execActivePathFailure (cause : PathCause) (s : State) : Result :=
  match s.gap with
  | some g =>
    if g.frozen then
      match s.activePath with
      | some a => .next (if s.pathFailed a cause then s.activeFails a cause g.cmd
        else if s.pathFailed g.dest cause && cause == .link then s.standbyFails g.dest 0 else s)
      | none => .next s
    else
      .next (if s.pathFailed g.dest cause then
        (if pathCauseCode cause < 2 then s.gapFails g (pathCauseCode cause) else s.healthEvent g.dest (pathCauseCode cause))
      else s)
  | none =>
    match s.activePath with
    | some a => .next (if s.pathFailed a cause then s.activeFails a cause false else s)
    | none => .next s

/-! ## T_up (R300, R301) -/

/-- The resynchronising NOTIFY of every enabled session with a peer: a PATHSW entry with the session's LASTSEQ (R301). -/
def State.resync (s : State) (w : Word) (seqs : List (Nat × Nat)) : State :=
  seqs.foldl (fun (s : State) p =>
    if s.bit (Reg.POR_SESS_W0 p.1) 31 && (s.session p.1).peer.isSome then
      s.sendNotify p.1 [eventEntry 0x12 0 noTile 0 [w, s.rd Reg.PTH_EPOCH, 0#32, wd p.2] s.ns]
    else s) s

/-- LASTSEQ of every session. -/
def State.lastSeqs (s : State) : List (Nat × Nat) := (List.range 64).map fun n => (n, s.lastSeq n)

/-- The role the old active path takes at T_up: STANDBY after a planned switch, DOWN after a failure (R299, R307). -/
def oldRole (kind : Nat) : Nat := if kind = 1 then 2 else 1

/-- SWITCHOVER_UP (R300, R301): T_up, `gapCycles` hub cycles after T_fail and at most 2,048. -/
def execSwitchoverUp (gapCycles : Fin 4096) (s : State) : Result :=
  match s.gap with
  | none => .next s
  | some g =>
    if g.frozen then .next s
    else
      let cyc := min gapCycles.val 2048
      let seqs := s.lastSeqs
      let held := s.gapFrames
      let old := 1 - g.dest
      let s1 := if s.role old = 3 then s.setRole old (oldRole g.kind) else s
      let s2 := { s1 with gap := none, gapFrames := [] }.setRole g.dest 3
      let s3 := held.foldl State.takeFrame (s2.wrBit Reg.PTH_STAT 31 false).flushGap
      let s4 := (s3.wrBit Reg.PTH_ERRSTAT 1 true).count Reg.PTH_CNT 0 8 1
      let w := pack [(28, 4, g.kind), (24, 4, g.cause), (16, 1, g.dest), (0, 12, cyc)]
      let s5 := (s4.resync w seqs).pathEvent g.kind g.cause g.dest cyc (s.rd Reg.PTH_EPOCH).toNat g.start
      .next (s5.when g.cmd (·.pthResult 0))

/-! ## Heartbeat losses (R303) -/

/-- The winner of a tie: the path whose GM check alone passed in its most recent round, else the one PREF names. -/
def State.tieWinner (s : State) : Nat :=
  match s.bit (Reg.PTH_HEALTH 0) 4, s.bit (Reg.PTH_HEALTH 1) 4 with
  | true, false => 0
  | false, true => 1
  | _, _ => s.rdf Reg.PTH_CTRL 2 1

/-- TIEBREAK (R303): T_tb, both units having declared the other's heartbeat lost. A planned switch in progress ends with it. -/
def execTiebreak (s : State) : Result :=
  match s.pathIn 3, s.pathIn 2 with
  | some a, some b =>
    let cmd := s.gap.any (·.cmd)
    let s1 := ({ s with epochNew := none, gap := none }.wrBit Reg.PTH_ERRSTAT 2 true).wrBit Reg.PTH_ERRSTAT 3 true
    if s.gap.any (!·.frozen) then .next s
    else if s.tieWinner = a then
      let s2 := ((s1.setRole b 4).when cmd (·.pthResult 1)).flushGap
      .next (s2.pathEvent 2 1 a 0 (s.rd Reg.PTH_EPOCH).toNat s.ns)
    else .next ((s1.setRole a 4).failOver b 2 1 cmd)
  | _, _ => .next s

/-- STANDBY_HEARTBEAT_LOSS (R303): the standby becomes DOWN and the copy stops; a planned switch is abandoned (R307). -/
def execStandbyHeartbeatLoss (s : State) : Result :=
  match s.pathIn 3, s.pathIn 2, s.gap with
  | some _, some b, none => .next ((({ s with epochNew := none }).setRole b 1).healthEvent b 1)
  | some _, some b, some g =>
    .next (if g.frozen then s.standbyFails b 1 else s.gapFails g 1)
  | _, _, _ => .next s

/-! ## The Watchman (R296, R304, R305) -/

/-- COPY of path `k`: the last complete epoch it holds started no more than 2 × EPER ago. -/
def State.copyFresh (s : State) (k : Nat) : Bool :=
  (s.heldEpoch k).any fun e => decide (s.ns - e.start ≤ 2000 * s.rdf Reg.PTH_CTRL 16 16)

/-- The bits of PTH_HEALTH a round sets (Table 13-4); a check that is not required reads 1. COPY is required of a path that takes the
copy: a STANDBY beside an ACTIVE one. -/
def State.checkBits (s : State) (k : Nat) (c : PathChecks) : List Bool :=
  let ptp := s.bit Reg.PTH_WCTL 8
  let ms := s.bit (netReg k 0) 8 && s.bit Reg.PTH_CTRL 4
  let copy := s.role k == 2 && s.activePath.isSome
  [c.link && s.bit (netReg k 1) 31, c.hb, c.rx, c.tx || !ptp, c.gm || !ptp, c.msec || !ms, s.copyFresh k || !copy]

/-- NETx_STAT.MSUP of a port whose PCS runs: an SA is in use for transmit, which needs MSEN (R275, Table 12-10). Each port's MKA actor runs
at all times, whatever the path's role. -/
def State.noteMsup (s : State) (k : Nat) (c : PathChecks) : State :=
  if s.role k = 0 then s else s.wrBit (netReg k 1) 28 (c.msec && s.bit (netReg k 0) 8)

/-- A round on path `k`, when it is DOWN or STANDBY: its health word, and an event where HEALTHY changes. -/
def State.round (s : State) (k : Nat) (c : PathChecks) : State :=
  if s.role k = 1 ∨ s.role k = 2 then
    let a := Reg.PTH_HEALTH k
    let bits := s.checkBits k c
    let good := bits.all id
    let n := if good then satN 8 (s.rdf a 16 8 + 1) else 0
    let healthy := good && (s.bit a 31 || decide (s.rdf Reg.PTH_WCTL 12 4 ≤ n))
    let s1 := (s.wr a (pack ([(31, 1, healthy.toNat), (16, 8, n)] ++ bits.zipIdx.map fun p => (p.2, 1, p.1.toNat)))).when (!good)
      (·.count Reg.PTH_CNT 8 8 1)
    s1.when (healthy != s.bit a 31) (·.healthEvent k 0)
  else s

/-- Path `k` becomes ACTIVE where none is (R296, R302): it takes the last complete epoch it holds and resynchronises the peers. -/
def State.recover (s : State) (k : Nat) : State :=
  let s1 := (s.takeEpoch k).setRole k 3
  let w := pack [(28, 4, 4), (24, 4, 5), (16, 1, k)]
  (s1.resync w s1.lastSeqs).pathEvent 4 5 k 0 (s.rd Reg.PTH_EPOCH).toNat s.ns

/-- The roles that HEALTHY paths take after a round (R296, R302). -/
def State.assignRoles (s : State) : State :=
  if s.gap.isSome then s
  else
    let ok := [0, 1].filter fun k => (s.role k == 1 || s.role k == 2) && s.bit (Reg.PTH_HEALTH k) 31
    let s1 := match s.activePath, ok with
      | some _, _ => s
      | none, [] => s
      | none, [k] => s.recover k
      | none, _ => s.recover (s.rdf Reg.PTH_CTRL 2 1)
    if s1.activePath.isNone then s1
    else (ok.filter fun k => s1.role k == 1).foldl (fun (s : State) k => s.setRole k 2) s1

/-- The standby of a planned switch is no longer HEALTHY (R307). -/
def State.switchUnready (s : State) : Bool := s.gap.any fun g => g.kind == 1 && !s.bit (Reg.PTH_HEALTH g.dest) 31

/-- WATCHMAN_ROUND (R304, R305): one round on each path that is DOWN or STANDBY, and MSUP of every port as key agreement has it by now. A
single path needs no test to be ACTIVE (R295). A planned switch whose standby fails the round is abandoned (R307). -/
def execWatchmanRound (a b : PathChecks) (s : State) : Result :=
  let s1 := (((s.noteMsup 0 a).noteMsup 1 b).round 0 a).round 1 b
  let s2 := if s1.switchUnready then s1.abandonSwitch else s1
  .next (if s.rdf Reg.PTH_CTRL 0 2 = 2 then s2.assignRoles else s2)

/-! ## PTH_CMD (R303, R307) -/

/-- A planned switch (R307), refused with BUSY or NOTREADY, from T_frz on. -/
def State.planSwitch (s : State) : State :=
  match s.gap, s.pathIn 2 with
  | some _, _ => s.pthResult 2
  | none, some b =>
    if s.readyStandby b && s.activePath.isSome then
      { s with gap := some ⟨b, 1, 4, s.ns, true, true⟩ }.wr Reg.PTH_CMDRES 0#32
    else s.pthResult 1
  | none, none => s.pthResult 1

/-- A RELEASE of path `k` (R303). -/
def State.releasePath (s : State) (k : Nat) : State :=
  if s.role k = 4 then ((s.setRole k 1).healthEvent k 4).pthResult 0 else s.pthResult 3

/-- SWITCH (R307). -/
def execSwitch (s : State) : Result := .next s.planSwitch

/-- RELEASE (R303). -/
def execRelease (path : Fin 2) (s : State) : Result := .next (s.releasePath path)

/-- A write of PTH_CMD; a reserved OP sets CFGERR (Table 13-8). -/
def State.writePthCmd (s : State) (v : Word) : State :=
  match fld v 28 4 with
  | 1 => s.planSwitch
  | 2 => s.releasePath (fld v 0 1)
  | _ => s.wrBit Reg.PTH_ERRSTAT 0 true

/-- The roles at start-up and on wake from P3 (R295, R296), with MODE as the configuration image set it. -/
def State.startPaths (s : State) : State :=
  let m := s.rdf Reg.PTH_CTRL 0 2
  let role := fun k => if m = 2 ∨ m = k then 1 else 0
  let s1 := (s.setRole 0 (role 0)).setRole 1 (role 1)
  ((s1.wrBit Reg.PTH_STAT 30 true).singleRole 0).singleRole 1

end Sys2Proof.Machine
end

