-- ==== Sys2Proof/Machine/Start.lean ====
section
/-! DEFINITION. What resets, cuts and power-downs do to the whole machine: module resets and what is kept through them (R363, R364),
switching off every island but AON (R339, R358), the rails (R406 to R408), the retention image (R341), and the fatal declaration
(R395). -/

namespace Sys2Proof.Machine

/-! ## What survives -/

/-- The words kept through a module reset: THM_STOPLOG, the OTP's status, and what AON records of the start, the last fatal error and
the last dump (Table 17-1, R395, R400, R409). -/
def keptByReset (a : Nat) : Bool :=
  a == Reg.GEN_RSTCAUSE || a == Reg.SEC_OTPSTAT || a == Reg.DMP_STAT || a == Reg.DMP_NVMPTR ||
    (decide (Reg.THM_STOPLOG_W0 ≤ a) && decide (a ≤ Reg.THM_STOPLOG_W2)) || (decide (Reg.FLT_LAST_W0 ≤ a) && decide (a ≤ Reg.FLT_LAST_W2))

/-- The words held in AON and kept while every other island is off: those, the timekeeper's, the sequencer's, THM_RESUME and the hub
sensors (R341, R349, R362). -/
def keptInP3 (a : Nat) : Bool :=
  keptByReset a || a / 0x10000 == 9 || a / 0x1000 == 0xE0 || a == Reg.THM_RESUME || (decide (Reg.THM_SENS 128 ≤ a) && decide (a ≤ Reg.THM_SENS 135))

/-- The words of the retention image (Table 15-5). -/
def retainedWord (a : Nat) : Bool :=
  if a < 0x2000000 then
    a == Reg.CIR_CTRL || (decide (0x40100 ≤ a) && decide (a < 0x42000)) || a == Reg.WHL_CTRL || (decide (0x50020 ≤ a) && decide (a < 0x50200)) ||
      a == Reg.LMP_GEN || a == Reg.LMP_CTRL || (decide (0x60100 ≤ a) && decide (a < 0x60200) && decide (a % 32 < 20)) ||
      (decide (0x30100 ≤ a) && decide (a < 0x30900) && decide (a % 32 < 16)) ||
      [Reg.ASY_CTRL, Reg.ASY_PWIN, Reg.ASY_QLIM, Reg.ASY_BGPER, Reg.TNK_CTRL, Reg.TNK_WARN, Reg.POR_CTRL, Reg.POR_SYSID,
        Reg.POR_PORTCFG 0, Reg.POR_PORTCFG 1, Reg.PTH_CTRL, Reg.PTH_WCTL].contains a ||
      (decide (0x10100 ≤ a) && decide (a < 0x10540) && decide (a % 16 < 8)) || (decide (0xC0100 ≤ a) && decide (a < 0xC0300) && a % 8 == 0)
  else if a < 0x3000000 then
    let o := a % 0x40000
    o == 0 || o == 4 || (decide (0x20 ≤ o) && decide (o < 0x4C)) || (decide (0x400 ≤ o) && decide (o < 0x4C0)) ||
      (decide (0x800 ≤ o) && decide (o < 0x1B00) && [28, 36, 40, 44, 52].contains (o % 64)) ||
      o == 0x10000 || (decide (0x1000C ≤ o) && decide (o < 0x10018)) || (decide (0x10100 ≤ o) && decide (o < 0x105C0) && o % 16 == 0) ||
      o == 0x20000 || (decide (0x20100 ≤ o) && decide (o < 0x20B00))
  else false

/-- The image saved at step 6 of an entry into P3 (R341); fenced tiles are not saved (R336). -/
def State.saveRetention (s : State) : State :=
  let kib := s.freeNat % 321
  let out := (List.range 64).filter fun t => s.bit (Reg.MTX_ISLSTAT t) 1
  let ws := s.words.filter fun (p : Nat × Word) => retainedWord p.1 && !out.contains (tileOfAddr p.1)
  let cs := s.cells.filter fun (p : Nat × CellRec) => !out.contains (tileOf p.1)
  { s.draw with retained := some ⟨ws, cs, s.rdf Reg.PWR_STAT 16 8, true, out⟩ }.wrf Reg.PWR_RETSTAT 0 9 kib

/-! ## Restarting -/

/-- Everything as reset leaves it but the words that `keep` keeps, the NOR and always-on memory, the saved banks, and what has been
sent. -/
def State.restart (s : State) (keep : Nat → Bool) : State :=
  { State.reset with
    words := s.words.filter fun p => keep p.1
    mem := s.dropSave.mem.filter fun p => decide (0x11000000 ≤ p.1)
    pending := s.pending
    out := s.out
    fresh := s.fresh
    enables := s.enables
    bankOwn := s.dropSave.bankOwn
    norOwn := s.norOwn
    wearA := s.wearA
    wearB := s.wearB
    wearLog := s.wearLog }

/-- The code of a rail in GEN_RSTCAUSE (Table 19-8). -/
def railCode : Rail → Nat
  | .vcore => 1
  | .vphy => 2
  | .vana => 3
  | .vdrv => 4
  | .vio => 5

/-- The enable output of a switched rail. -/
def railPin : Rail → String
  | .vcore => "EN_VCORE"
  | .vphy => "EN_VPHY"
  | .vana => "EN_VANA"
  | .vdrv => "EN_VDRV"
  | .vio => "VIO"

/-- GEN_RSTCAUSE with a cause and rail; UVCNT kept. -/
def State.setCause (s : State) (cause rail : Nat) : State := (s.wrf Reg.GEN_RSTCAUSE 0 4 cause).wrf Reg.GEN_RSTCAUSE 8 3 rail

/-- CALSRC_EN and CALSRC_BAND low (Table 19-11). -/
def State.dropSource (s : State) : State :=
  if s.calEn || s.calBand then (s.send (.pin "CALSRC_EN" false)).send (.pin "CALSRC_BAND" false) else s

/-- FAULT_N released where the fatal state or BOOTFAIL held it low (R412). -/
def State.releaseFault (s : State) : State :=
  if s.bit Reg.FLT_STAT 31 || s.bit Reg.BOOT_STAT 30 then s.send (.pin "FAULT_N" true) else s

/-- A module reset (R363): drive is cut, the retention image invalidated, device time and the generation count at 0; FLT_ERRSTAT.FATAL
is set again while FLT_LAST is VALID, and FAULT_N is released. -/
def State.moduleReset (s : State) (cause rail : Nat) : State :=
  let s0 := s.dropSource.releaseFault
  let s1 := ((s0.restart keptByReset).setCause cause rail).wrBit Reg.SEC_OTPSTAT 29 false
  s1.wrBit Reg.FLT_ERRSTAT 5 (s1.bit Reg.FLT_LAST_W0 31)

/-- The enables low in the order of Table 19-6. -/
def State.enablesLow (s : State) : State :=
  { s.enables.reverse.foldl (fun (s : State) r => s.send (.pin (railPin r) false)) s with enables := [] }

/-- An enable asserted. -/
def State.enable (s : State) (r : Rail) : State := { s with enables := s.enables ++ [r] }.send (.pin (railPin r) true)

/-- Every island but AON off (R339, R358): what AON holds stays, and so does device time; FAULT_N is released and XSPI_RST_N goes low
(Table 19-11). -/
def State.turnOff (s : State) : State :=
  let s1 := (s.releaseFault.dropSource.enablesLow).send (.pin "XSPI_RST_N" false)
  let r := s1.restart keptInP3
  ({ r with
    now := s1.now, live := s1.live.filter (fun p => keptInP3 p.1), off := true, stopHeld := s1.stopHeld, stopOwed := s1.stopOwed, latched := s1.latched,
    retained := s1.retained, groupSaved := s1.groupSaved, owed := s1.owed, nextReq := s1.nextReq, incrAt := s1.incrAt, adjAt := s1.adjAt,
    sensors := s1.sensors.filter fun p => decide (128 ≤ p.1) }.wrf Reg.PWR_STAT 24 8 0).wrf Reg.PWR_STAT 0 16 0

/-! ## The cut (R177) -/

/-- A tile's drive cut: outputs at zero, queues discarded, cells in REST. -/
def State.cutTile (s : State) (t : Nat) : State :=
  ((s.setTileRec t { s.tileRec t with fade := none }).restTile t).wrBit (Reg.DRV_STAT t) 25 true

/-! ## Drive's return (R159, R345, R346, R378) -/

/-- Cells leave REST with the state, band, INBAND and, where one was saved, the hcode given: Hmod 0, FB the integrator of the band, the
Pockels code the law gives, and the heater's target queued (R159, R177); each takes its loop state and gain class under the circuits as
they stand. Their tiles' epoch is now (R140). In a tile under FREEZE the loops go on to HOLD, where no code changes (R138). -/
def State.leaveRest (s : State) (xs : List (Nat × CellRec × Bool × Option Nat)) : State :=
  let ts := (xs.map fun p => tileOf p.1).eraseDups
  let s0 := ts.foldl (fun (s : State) t => s.setTileRec t { s.tileRec t with epoch := s.now, cycle := 0 }) s
  let s1 := xs.foldl (fun (s : State) p => (s.setCell p.1 { p.2.1 with mode := 6 }).wr (cooWord p.1 12) 0#32) s0
  let ls := loads s1.ckts s1.cross
  let s6 := xs.foldl (fun (s : State) p =>
    let c := p.1
    let b := (s.cell c).band.toNat
    let s2 := ((s.setMode c (s.returnMode ls c)).wrf (cooWord c 7) 8 2 (classOf ls c)).wrBit (cooWord c 7) 31 p.2.2.1
    let s3 := s2.setCoo c { CooRec.zero with fb := sInt (s2.rd (cooWord c (9 + b))), nc := s2.ncSum c b, counted := (s2.ns + 3) / 4 }
    let y := s3.prtP c b (s3.phiP c)
    let s4 := (s3.notePsat c y.2).when ((s3.cell c).mode != 3) (·.setPbase c y.1)
    let s5 := s4.setCoo c { s4.coo c with pcode := y.1 }
    match p.2.2.2 with
    | some h => s5.setCoo c { s5.coo c with htarget := some h }
    | none => s5.queueHeater c (s5.tband (tileOf c))) s1
  ts.foldl (fun (s : State) t => (s.wrBit (Reg.COO_STAT t) 24 (s.frozen t)).cooStat t) s6

/-! ## Fencing (R11, R392) -/

/-- FLT_STAT.FENCED. -/
def State.countFenced (s : State) : State :=
  s.wrf Reg.FLT_STAT 0 7 ((List.range 64).filter fun t => s.bit (Reg.MTX_ISLSTAT t) 1).length

/-- A fenced tile's cell: its clamps counted, its segment ended, what was postponed for it and its cycle in progress dropped, its
override cleared (R11, R138, R169, R177, R179). -/
def State.fenceCell (s : State) (c : Nat) : State :=
  let s1 := s.toMode c 5
  s1.setCoo c { s1.coo c with seg := none, postLaw := false, postTick := false, ended := none, cur := CycleSums.zero, cnt := 0 }

/-- A tile fenced: its outputs hold their codes, its cells are FENCED and pinned, it takes part in no commit it had GO for, the light runs of
its ports are discarded, and it reports. -/
def State.fenceTile (s : State) (t : Nat) (lock : Bool) : State :=
  let a := Reg.MTX_ISLSTAT t
  if s.bit a 1 then s.wrBit a 0 (lock && s.bit a 0)
  else
    let s1 := (((s.wrBit a 0 (lock && s.bit a 0)).wrBit a 1 true).wrBit a 2 false).countFenced
    let s2 := (tileCells t).foldl State.fenceCell
      { s1 with
        commits := s1.commits.map (fun (k : Commit) => { k with going := k.going.filter (· != t) })
        calCells := s1.calCells.filter (fun (x : CalRec) => tileOf x.cell != t)
        tink := s1.tink.filter (fun (k : TinkOp) => tileOf k.cell != t)
        lightRuns := s1.lightRuns.filter (fun (p : Nat × LightRun) => p.1 % 512 / 8 != t) }
    let s2 := ((s1.calCells.filter fun (x : CalRec) => tileOf x.cell == t).foldl State.deferCal s2).afterCal
    let s3 := ((s2.reportAlone t).invalidate false (tileCells t) [] []).err Reg.FLT_ERRSTAT 3
    ((s3.when (s.tbBad && !s3.tbBad) (·.decideProtection)).cooStat t).lampStat

/-! ## NOR commands that run on (R386, R396) -/

/-- What a finished ERASE or PROG leaves in the NOR. -/
def State.flashEffect (s : State) (f : FlashOp) : State :=
  let t := { s with norOwn := (f.addr / 0x10000 :: s.norOwn).eraseDups }
  if f.op = 1 then t.eraseMem (norBase + f.addr / 0x10000 * 0x10000) 0x10000
  else if f.op = 2 then t.putMem (norBase + f.addr / 256 * 256) f.data
  else s

/-- T_fat during a NOR command (R396): an erase or a program in progress completes, one that waits is discarded. -/
def State.cutFlash (s : State) : State :=
  match s.flash with
  | none => s
  | some f =>
    if f.behind || f.op == 3 then { s with flash := none }.wrBit Reg.BOOT_FLSTAT 31 false
    else ({ s with flash := none }.flashEffect f).wr Reg.BOOT_FLSTAT (pack [(30, 1, 1)])

/-! ## The fatal declaration (R395) -/

/-- T_fat: FLT_LAST written and the dump started, or a further cause during the dump counted; in P3 no dump is written; during an orderly
stop drive is cut (R396). -/
def State.fatal (s : State) (cause island : Nat) : State :=
  if s.fatalOn then (if s.bit Reg.FLT_STAT 30 then s.count Reg.FLT_LAST_W0 16 8 1 else s)
  else
    let s1 := ((s.wr Reg.FLT_LAST_W0 (pack [(31, 1, 1), (28, 3, cause), (0, 7, island)])).wr Reg.FLT_LAST_W1 (wd (nsecOf s.ns))).wr
      Reg.FLT_LAST_W2 (wd (secOf s.ns))
    if s.off then { s1 with retained := s1.retained.map fun r => { r with sound := false } }
    else
      let s2 := ((s1.wrBit Reg.FLT_STAT 31 true).wrBit Reg.FLT_STAT 30 true).send (.pin "FAULT_N" false)
      let s3 := s2.err Reg.FLT_ERRSTAT 5
      let s4 := { s3.cutFlash.dropSave with
        solveStart := none
        tink := s3.tink.map fun (k : TinkOp) => { k with active := false } }
      if s.bit Reg.THM_STAT 30 then (List.range 64).foldl State.cutTile s4 else s4

end Sys2Proof.Machine
end

