-- ==== Sys2Proof/Machine/PowerCommands.lean ====
section
/-! DEFINITION. The power sequencer (chapter 15): requests and the slot, the entry steps of Table 15-4, refusals, tile-group sleep and
wake, wake events, and P2's exit. -/

namespace Sys2Proof.Machine

/-! ## Requests (R331 to R333) -/

/-- The requester number of PWR_REQRES (Table 15-10). -/
def srcOf : Requester → Nat
  | .fn _ f => f
  | .session n => n
  | _ => 0

/-- PWR_STAT.BUSY, PEND and STEP, and TOL_STAT.RELBLK, which an entry to P2 sets at its step 2. -/
def State.pwrStat (s : State) : State :=
  let step := (s.change.map (·.step)).getD 0
  (((s.wrBit Reg.PWR_STAT 31 s.change.isSome).wrBit Reg.PWR_STAT 30 s.slot.isSome).wrf Reg.PWR_STAT 24 3 step).wrBit Reg.TOL_STAT 31
    s.relBlk

/-- PWR_REQRES for request `r`, when it is the most recent one written (R333). -/
def State.reqRes (s : State) (r : PowerReq) (done : Bool) (result : Nat) : State :=
  if r.id + 1 = s.nextReq then
    s.wr Reg.PWR_REQRES (pack [(31, 1, done.toNat), (24, 4, r.target), (16, 4, result), (4, 6, r.src), (0, 4, r.master)])
  else s

/-- A POWER event (R347). -/
def State.powerEvent (s : State) (kind target mask : Nat) (w5 : Word) : State :=
  s.eventMgmt (eventEntry 0x11 0 noTile 0 [pack [(0, 4, kind), (8, 4, target), (16, 8, mask)], w5] s.ns)

/-- The event kind of a final result (R347); a result without a kind of its own is reported as REFUSED. -/
def resultKind (res : Nat) : Nat := if res = 0 then 0 else if res = 4 then 2 else if res = 5 then 3 else 1

/-- A request's final result reported (Table 15-3). -/
def State.reqEnd (s : State) (r : PowerReq) (res : Nat) : State :=
  let s1 := s.reqRes r true res
  if res = 3 then s1 else s1.powerEvent (resultKind res) r.target r.mask (if res = 2 then s.rd Reg.PWR_REFUSE else 0#32)

/-! ## Tile groups (R340, R346) -/

/-- The groups a mask names. -/
def maskGroups (m : Nat) : List Nat := (List.range 8).filter fun g => m / 2 ^ g % 2 = 1

/-- The tiles of group `g` (Table 1-1). -/
def groupTiles (g : Nat) : List Nat := List.range' (8 * g) 8

/-- The cells of group `g`. -/
def groupCells (g : Nat) : List Nat := (groupTiles g).flatMap tileCells

/-- A port of group `g`. -/
def groupPort (g k : Nat) : Bool := k / 64 == g

/-- Group `g` is not idle (R340): a circuit, a reserved protect input or a held solution has one of its ports; an active path, a held
solution or an installed alternate crosses its cells; or it is asleep. -/
def State.groupBusy (s : State) (g : Nat) : Bool :=
  let inGroup := fun (c : Nat) => tileOf c / 8 == g
  s.bit Reg.PWR_STAT (16 + g) ||
    s.ckts.any (fun c => groupPort g c.inp || groupPort g c.out || c.peer.any (groupPort g) || (pathCells s.cross c.feed).any inGroup) ||
    s.heldBatches.any (fun b => b.sol.any fun x => x.cells.any inGroup || x.pathCells.any inGroup ||
      x.paths.any fun p => groupPort g p.input || groupPort g p.output) ||
    s.alts.any fun a => a.path.any fun p => p.cells.any fun k => inGroup k.1

/-- TGTRANS bits of the groups of `m` set or cleared. -/
def State.setTrans (s : State) (m : Nat) (b : Bool) : State :=
  (maskGroups m).foldl (fun s g => s.wrBit Reg.PWR_STAT (8 + g) b) s

/-- The wake record (R343). -/
def State.recordWake (s : State) (src detail : Nat) (p3 : Bool) (t : Nat) : State :=
  ((s.wr Reg.PWR_WAKESRC (pack [(31, 1, 1), (24, 4, src), (8, 1, p3.toNat), (0, 6, detail)])).wr Reg.PWR_WAKENS (wd (nsecOf t))).wr
    Reg.PWR_WAKESEC (wd (secOf t))

/-- A tile powered again: its PLL locked, TBOK set, its converters owing their calibration and the TIA's invalid samples (R346). -/
def State.powerTile (s : State) (t : Nat) : State :=
  ({ s with badBeats := Store.set 0 s.badBeats t 0, tbStart := (t :: s.tbStart).eraseDups }.wr (Reg.MTX_ISLSTAT t) 0x5#32).powerMon t

/-- A sleeping group's wake begins (R346): its tiles are powered, the saved per-cell values are back, its cells leave REST as DARK and
stay pinned. -/
def State.wakeGroup (s : State) (g : Nat) : State :=
  let s1 := (groupTiles g).foldl State.powerTile ((s.wrBit Reg.PWR_STAT (16 + g) false).wrBit Reg.PWR_STAT (8 + g) true)
  let s2 := s1.leaveRest ((groupCells g).map fun c => (c, Store.get (CellRec.rest, false, none) s1.groupSaved c))
  { (groupTiles g).foldl (fun s t => s.reportAlone t) s2 with groupSaved := s2.groupSaved.filter fun p => tileOf p.1 / 8 != g }

/-- The wake of the sleeping groups of `m`, for source `src` of Table 15-6, recorded and reported. -/
def State.wakeGroups (s : State) (m src : Nat) : State :=
  let gs := (maskGroups m).filter fun g => s.bit Reg.PWR_STAT (16 + g)
  if gs.isEmpty then s
  else
    let s1 := gs.foldl State.wakeGroup (s.recordWake src 0 false s.ns)
    s1.powerEvent 4 0 0 (s1.rd Reg.PWR_WAKESRC)

/-! ## What a step does (Table 15-4) -/

/-- The steps of an entry. -/
def entrySteps (target : Nat) : List Nat :=
  match target with
  | 1 => [4, 5, 6]
  | 2 => [2, 3, 4, 5, 6]
  | 3 => [1, 2, 3, 4, 5, 6, 7]
  | _ => [3, 4, 5, 6, 7]

/-- The tiles a change concerns. -/
def PowerReq.tiles (r : PowerReq) : List Nat := if r.target = 4 then (maskGroups r.mask).flatMap groupTiles else List.range 64

/-- A fenced tile is concerned. -/
def State.fencedIn (s : State) (r : PowerReq) : Bool := r.tiles.any fun t => s.bit (Reg.MTX_ISLSTAT t) 1

/-- What asking the block of step `n` does at once: at step 2 of an entry into P3 the queued batches are aborted, at step 3 those held,
and a tile group is pinned (R334, R340). -/
def State.askStop (s : State) (r : PowerReq) (n : Nat) : State :=
  if r.target = 3 ∧ n = 2 then
    s.finish ((s.batches.filter fun b => b.phase == .queued).map fun b => ⟨b.id, 6, 0, none⟩)
  else if r.target = 3 ∧ n = 3 then
    s.finish ((s.batches.filter fun b => !s.pastArm b).map fun b => ⟨b.id, 6, 0, none⟩)
  else if r.target = 4 ∧ n = 3 then s.setTrans r.mask true
  else s

/-- The Assayer's or the Tinker's cells in CAL released, in the tiles the change concerns (R214, R231). -/
def State.freeCal (s : State) (r : PowerReq) (tinker : Bool) : State :=
  let xs := s.calCells.filter fun x => x.tinker == tinker && r.tiles.contains (tileOf x.cell)
  let s1 := xs.foldl (fun (s : State) x => (s.leaveCal x).deferCal x) s
  (if tinker && s1.tink.any (fun k => xs.any fun x => x.cell == k.cell) then { s1 with tink := none } else s1).afterCal

/-- Every tile frozen: its RUN, DARK and FAULT cells enter HOLD (R159). -/
def State.freezeAll (s : State) : State :=
  (List.range 64).foldl (fun (s : State) t =>
    if s.tileLive t then
      ((((tileCells t).filter fun c => (s.cell c).mode == 0 || (s.cell c).mode == 1 || (s.cell c).mode == 4).foldl
        (fun (s : State) c => s.toMode c 3) s).wrBit (Reg.COO_STAT t) 24 true).cooStat t
    else s) s

/-- A tile of a group going to sleep: outputs at zero, its island off, its sensors and Tallyman blocks gone, LIGHT of its ports 0
(R206, R340, R349). -/
def State.sleepTile (s : State) (t : Nat) : State :=
  let s1 := (((s.setTileRec t TileRec.zero).restTile t).wrBit (Reg.DRV_STAT t) 24 false).wr (Reg.MTX_ISLSTAT t) 0#32
  let s2 := [t, 64 + t].foldl (fun (s : State) i => s.wr (Reg.THM_SENS i) 0#32) s1
  let s3 := (List.range' (8 * t) 8).foldl (fun (s : State) k =>
    (s.wrBit (Reg.CIR_INMAP k) 30 false).wrBit (Reg.CIR_OUTMAP k) 30 false) (((s2.wrf (Reg.MON_CTRL t) 8 4 0).wrf (Reg.MON_STAT t) 16 4 0).wrf (Reg.MON_STAT t) 24 4 0)
  let tal := fun (a : Nat) => decide (Reg.TAL_CTRL t ≤ a) && decide (a < Reg.TAL_CTRL t + 0x10000)
  ({ s3 with
    words := s3.words.filter (fun p => !tal p.1), mons := s3.mons.filter (fun p => p.1 != t),
    chans := s3.chans.filter (fun p => p.1 / 92 != t), sensors := s3.sensors.filter fun p => p.1 != t && p.1 != 64 + t }).reportAlone t

/-- What the completion of step `n` does. -/
def State.stepDone (s : State) (r : PowerReq) (n : Nat) : State :=
  match n with
  | 4 => s.freeCal r false
  | 5 => s.freeCal r true
  | 6 =>
    match r.target with
    | 2 => s.freezeAll.wrf Reg.PWR_STAT 0 3 2
    | 3 => s.saveRetention
    | 4 => { s with groupSaved := (s.groupSaved.filter fun p => !r.tiles.contains (tileOf p.1)) ++
        ((maskGroups r.mask).flatMap groupCells).map fun c => (c, s.cell c, s.bit (cooWord c 7) 31, some (s.hcode c)) }
    | _ => s
  | 7 => if r.target = 4 then (maskGroups r.mask).foldl (fun (s : State) g =>
        ((groupTiles g).foldl State.sleepTile s).wrBit Reg.PWR_STAT (16 + g) true) (s.setTrans r.mask false)
      else s
  | _ => s

/-- The block of step `n` cannot report that it has stopped: commits past their arm point run on, a full calibration or, for P3, a bank
save runs, a write operation of the Tinker runs, or a tile concerned is fenced. The thermal manager's request waits for commits only (R336). -/
def State.stepBusy (s : State) (r : PowerReq) (n : Nat) : Bool :=
  let thermal := r.master == 15
  match n with
  | 3 => r.target == 3 && !s.commits.isEmpty
  | 4 => !thermal && (s.fullcal.isSome || (r.target == 3 && s.saving.isSome))
  | 5 => !thermal && s.tink.any fun (k : TinkOp) => k.active && r.tiles.contains (tileOf k.cell)
  | 6 => !thermal && s.fencedIn r
  | 7 => !thermal && r.target == 3 && r.tiles.any fun t => (s.tileRec t).fade.isSome
  | _ => false

/-- The batches that wait for an instant, placed (R338). -/
def State.placeWaiting (s : State) : State :=
  (s.batches.filter fun b => b.phase == .solved && b.sol.isSome).foldl (fun s b => match s.batch b.id with
    | some x => s.place x
    | none => s) s

/-! ## Starting and ending a change (R331, R332, R334) -/

/-- The change allowed from state `p` (Table 15-2). -/
def allowed (p target : Nat) : Bool := target != p && (p != 2 || target < 4)

/-- A request that needs no entry steps, or may not start: its result, and what it does. `none`: the entry begins. -/
def State.atOnce (s : State) (r : PowerReq) : Option (Nat × State) :=
  let p := s.pstate
  if r.master = 15 then none
  else if r.target = p ∧ r.target < 3 then some (0, s)
  else if !allowed p r.target then some (6, s)
  else match r.target with
    | 0 => some (0, ((s.wrf Reg.PWR_STAT 0 3 0).placeWaiting.decideProtection).lampStat)
    | 4 => if (maskGroups r.mask).any s.groupBusy then some (7, s) else if r.mask = 0 then some (0, s) else none
    | 5 => if (maskGroups r.mask).any fun g => s.bit Reg.PWR_STAT (16 + g) then none else some (0, s)
    | _ => none

/-- A request that starts: its entry, its wake of groups, or its result at once. -/
def State.startReq (s : State) (r : PowerReq) : State :=
  match s.atOnce r with
  | some (res, t) => t.reqEnd r res
  | none =>
    if r.target = 5 then { s.wakeGroups r.mask 4 with change := some ⟨r, 0, false, 0⟩ }.pwrStat
    else
      let n := (entrySteps r.target).headD 4
      ({ s with change := some ⟨r, n, false, 0⟩ }.askStop r n).pwrStat

/-- The pending request starts once no change is in progress (R332). -/
def State.startSlot (s : State) : State :=
  match s.change, s.slot with
  | none, some r => ({ s with slot := none }.startReq r).pwrStat
  | _, _ => s.pwrStat

/-- The change in progress ends with a result. -/
def State.endChange (s : State) (r : PowerReq) (res : Nat) : State := (({ s with change := none }.pwrStat).reqEnd r res).startSlot

/-- A wake event reaches an entry of tile groups, and groups asleep (R344, R346). -/
def State.wakeScope (s : State) (m src : Nat) : State :=
  match s.change with
  | some k =>
    if k.req.target = 4 ∧ k.req.mask.land m ≠ 0 then
      let s1 := (s.wakeGroups m src).recordWake src 0 false s.ns
      if k.step ≤ 6 then { s1 with change := some { k with abandon := true } }
      else { s1 with change := some { k with wakeAfter := k.wakeAfter.lor (k.req.mask.land m) } }
    else s.wakeGroups m src
  | none => s.wakeGroups m src

/-- A TGWAKE names a group whose entry is in progress (R344). -/
def State.wakesEntry (s : State) (r : PowerReq) : Bool :=
  r.target == 5 && s.change.any fun k => k.req.target == 4 && k.req.mask.land r.mask != 0

/-- A power request (R331, R332, R376). -/
def State.powerRequest (s : State) (rq : Requester) (repl : Bool) (target mask : Nat) : State :=
  let a := Reg.PWR_REQ
  if s.isMgmt rq then
    let r : PowerReq := ⟨s.nextReq, masterOf rq, srcOf rq, target, mask⟩
    let s0 := { s with nextReq := s.nextReq + 1 }.wr a (pack [(30, 1, repl.toNat), (24, 4, target), (0, 8, mask)])
    let s1 := s0.reqRes r false 1
    if !s.bit Reg.BOOT_STAT 31 then s1.reqEnd r 6
    else if s1.wakesEntry r then ((s1.wakeScope r.mask 4).reqEnd r 0).pwrStat
    else match s.change, s.slot with
      | none, _ => (s1.startReq r).startSlot
      | some _, none => { s1 with slot := some r }.pwrStat
      | some _, some q =>
        if repl && q.master == r.master && q.src == r.src then (({ s1 with slot := some r }.reqEnd q 4).pwrStat) else s1.reqEnd r 3
  else s.refuse rq false true a 1 0 1

/-- The thermal manager's P3 request (R336): never refused; it replaces any pending request, and a full calibration and a bank save do
not hold it. -/
def State.thermalStop (s : State) : State :=
  let r : PowerReq := ⟨s.nextReq, 15, 63, 3, 0⟩
  let s0 := ({ s with nextReq := s.nextReq + 1 }.reqRes r false 1)
  let s1 := match s0.slot with
    | some q => { s0 with slot := none }.reqEnd q 4
    | none => s0
  match s1.change with
  | none => s1.startReq r
  | some _ => { s1 with slot := some r }.pwrStat

/-! ## Wake from P3 (R343 to R345, R359) -/

/-- The SRC and DETAIL of a wake event (Tables 15-6, 15-10). -/
def State.wakeCode (s : State) : WakeSrc → Nat × Nat
  | .wake0 => (0, 0)
  | .wake1 => (1, 0)
  | .compare => (2, s.rdf Reg.PWR_WAKECFG 16 6)
  | .perst k => (3, k.val)

/-- The event is enabled in PWR_WAKECFG (R343). -/
def State.wakeEnabled (s : State) : WakeSrc → Bool
  | .wake0 => s.bit Reg.PWR_WAKECFG 31
  | .wake1 => s.bit Reg.PWR_WAKECFG 27
  | .compare => s.bit Reg.PWR_WAKECFG 23
  | .perst k => s.bit Reg.PWR_WAKECFG (12 + k.val)

/-- The event also wakes groups. -/
def State.wakesGroups (s : State) : WakeSrc → Bool
  | .wake0 => s.bit Reg.PWR_WAKECFG 28
  | .wake1 => s.bit Reg.PWR_WAKECFG 24
  | _ => false

/-- T_wk (R345): the event recorded, the supplies on in order, and start-up in its wake form; the WOKE event is owed, and after a stop
the STOPPED event (R347, R359). FLT_ERRSTAT.FATAL is set again while FLT_LAST is VALID (Table 18-8). -/
def State.wakeModule (s : State) (w : WakeSrc) (t : Nat) : State :=
  let c := s.wakeCode w
  let s1 := (s.recordWake c.1 c.2 true t).setCause 6 0
  let woke := eventEntry 0x11 0 noTile 0 [pack [(0, 4, 4)], s1.rd Reg.PWR_WAKESRC] s.ns
  let stop := if s.stopOwed then
      let i := s.rdf Reg.THM_STOPLOG_W0 16 8
      [eventEntry 0x10 0 (if i < 128 then i % 64 else noTile) 0 [pack [(0, 4, 5), (16, 8, i)], s.rd Reg.THM_STOPLOG_W0, s.rd Reg.THM_STOPLOG_W2] s.ns]
    else []
  let s2 := { s1 with off := false, stopHeld := false, stopOwed := false, latched := [], owed := woke :: stop }
  ((s2.wrBit Reg.FLT_ERRSTAT 5 (s2.bit Reg.FLT_LAST_W0 31)).wrBit Reg.BOOT_STAT 29 true).enable .vcore

/-- A hub sensor reads at or above THM_RESUME.TEMP (R359). -/
def State.tooWarm (s : State) : Bool :=
  (List.range' 128 8).any fun i => decide ((16 * s.rdf Reg.THM_RESUME 0 8 : Int) ≤ sfld (s.rd (Reg.THM_SENS i)) 0 16)

/-- WAKE_EVENT (R343, R344, R359): it wakes the module, wakes groups, abandons an entry, or is latched. -/
def execWakeEvent (src : WakeSrc) (s : State) : Result :=
  .next (if !s.wakeEnabled src then s
    else if s.off then
      (if s.stopHeld && s.tooWarm then { s with latched := s.latched ++ [(src, s.ns)] } else s.wakeModule src s.ns)
    else if s.change.any (fun k => k.req.target == 3) then { s with latched := s.latched ++ [(src, s.ns)] }
    else if s.wakesGroups src then s.wakeScope 0xFF (s.wakeCode src).1
    else s)

/-- WAKE_REPLAY (R344, R359): the earliest latched event, once all eight hub sensors read below THM_RESUME. -/
def execWakeReplay (s : State) : Result :=
  match s.latched with
  | [] => .next (if s.off && !s.tooWarm then { s with stopHeld := false } else s)
  | e :: _ => .next (if s.off && !(s.stopHeld && s.tooWarm) then s.wakeModule e.1 e.2 else s)

/-! ## Steps -/

/-- The request in the slot when P3 is entered: P3 itself is in force, and nothing else may follow it (R331, R332). -/
def State.slotInP3 (s : State) : State :=
  match s.slot with
  | some q => { s with slot := none }.reqEnd q (if q.target = 3 then 0 else 6)
  | none => s

/-- Step 7 of an entry into P3 complete: every island but AON off; a wake event latched during an entry that was not a stop is
replayed at once (R344). -/
def State.enterP3 (s : State) (r : PowerReq) : State :=
  let s1 := ((s.reqEnd r 0).slotInP3).turnOff
  if s1.stopHeld then s1
  else match s1.latched with
    | e :: _ => s1.wakeModule e.1 e.2
    | [] => s1

/-- A tile-group entry abandoned at its abort point (R344). -/
def State.abandonEntry (s : State) (k : PowerChange) : State :=
  (((s.setTrans k.req.mask false).err Reg.PWR_ERRSTAT 3).endChange k.req 5).placeWaiting

/-- P1 entered; from P2 the loops and placement resume (R338). -/
def State.enterP1 (s : State) (r : PowerReq) : State :=
  let s1 := s.wrf Reg.PWR_STAT 0 3 1
  ((if s.pstate = 2 then s1.placeWaiting.decideProtection else s1).endChange r 0).lampStat

/-- ENTRY_STEP_COMPLETE (R334): the block of the step in progress has stopped. In the fatal state the tiles keep running and no cue changes
state (R395), so no step makes progress. -/
def execEntryStepComplete (s : State) : Result :=
  match s.change with
  | none => .next s
  | some k =>
    if k.step = 0 || s.fatalOn || s.stepBusy k.req k.step then .next s
    else
      let s0 := if k.req.master = 15 ∧ k.step = 4 ∧ s.fullcal.isSome then s.stopFull true else s
      let s1 := s0.stepDone k.req k.step
      let rest := (entrySteps k.req.target).filter fun n => decide (k.step < n)
      .next (if k.abandon && decide (k.step ≤ 6) then s1.abandonEntry k
        else match rest with
          | n :: _ => ({ s1 with change := some { k with step := n } }.askStop k.req n).pwrStat
          | [] =>
            match k.req.target with
            | 1 => s1.enterP1 k.req
            | 3 => s1.enterP3 k.req
            | 4 => (s1.endChange k.req 0).wakeGroups k.wakeAfter (s1.rdf Reg.PWR_WAKESRC 24 4)
            | _ => (s1.endChange k.req 0).lampStat)

/-- The code of a refusal's reason (Table 15-10). -/
def refuseCode : RefuseReason → Nat
  | .fullcal => 1
  | .save => 2
  | .tnkbusy => 3
  | .timeout => 4
  | .fenced => 5

/-- The block of the step may refuse for the reason (Table 15-4). -/
def State.mayRefuse (s : State) (k : PowerChange) : RefuseReason → Bool
  | .fullcal => k.step == 4 && s.fullcal.isSome
  | .save => k.step == 4 && k.req.target == 3 && s.saving.isSome
  | .tnkbusy => k.step == 5 && s.calCells.any fun x => x.tinker && k.req.tiles.contains (tileOf x.cell)
  | .timeout => k.step != 0
  | .fenced => k.step == 6 && s.fencedIn k.req

/-- BLOCK_REFUSAL (R335): the stopped blocks restart, a switch that the entry withheld is decided (R84), and the request ends REFUSED;
the thermal manager's is never refused. -/
def execBlockRefusal (reason : RefuseReason) (s : State) : Result :=
  match s.change with
  | none => .next s
  | some k =>
    if k.req.master != 15 && s.mayRefuse k reason then
      let s1 := s.wr Reg.PWR_REFUSE (pack [(24, 4, k.req.target), (16, 3, k.step), (0, 4, refuseCode reason)])
      let s2 := (if k.req.target = 4 then s1.setTrans k.req.mask false else s1).err Reg.PWR_ERRSTAT 1
      .next (((((s2.endChange k.req 2).placeWaiting).when (decide (6 ≤ k.step)) State.decideProtection).lampStat).when (k.req.target == 3)
        State.fetchAll)
    else .next s

/-- P2_TIMEOUT (R338). -/
def execP2Timeout (s : State) : Result :=
  .next (if s.pstate = 2 then (s.err Reg.PWR_ERRSTAT 4).powerEvent 5 2 0 0#32 else s)

/-- TILE_GROUP_WAKE_COMPLETE (R346): the group's cells are unpinned, and a TGWAKE ends with its last group. -/
def execTileGroupWakeComplete (tg : Fin 8) (s : State) : Result :=
  let g := tg.val
  let entering := s.change.any fun k => k.req.target == 4 && k.req.mask / 2 ^ g % 2 == 1
  if s.bit Reg.PWR_STAT (8 + g) && !entering then
    let s1 := s.wrBit Reg.PWR_STAT (8 + g) false
    match s1.change with
    | some k =>
      if k.req.target = 5 ∧ (maskGroups k.req.mask).all (fun h => !s1.bit Reg.PWR_STAT (8 + h)) then .next (s1.endChange k.req 0)
      else .next s1
    | none => .next s1
  else .next s

end Sys2Proof.Machine
end

