-- ==== Sys2Proof/Machine/ThermalCommands.lean ====
section
/-! DEFINITION. Thermal sensing and management (chapter 16): samples, the neighbour cross-check, levels and rise rates, thermal bands, the
thermal credit, the orderly stop and the cut. -/

namespace Sys2Proof.Machine

/-! ## Sensors and neighbours (R349 to R352) -/

/-- A sensor behind its word. -/
def State.sensor (s : State) (i : Nat) : SensorRec := Store.get SensorRec.zero s.sensors i

/-- The state with a sensor's record changed. -/
def State.setSensor (s : State) (i : Nat) (x : SensorRec) : State := { s with sensors := Store.set SensorRec.zero s.sensors i x }

/-- TEMP of sensor `i`, in 1/16 °C. -/
def State.temp (s : State) (i : Nat) : Int := sfld (s.rd (Reg.THM_SENS i)) 0 16

/-- FAULT of sensor `i`. -/
def State.sensFault (s : State) (i : Nat) : Bool := s.bit (Reg.THM_SENS i) 30

/-- The sensors next to sensor `i` (R351). -/
def nextTo (i : Nat) : List Nat :=
  if 128 ≤ i then (List.range' 128 8).filter (· != i)
  else
    let t := i % 64
    let base := i - t
    (if t = 0 then [] else [base + t - 1]) ++ (if t = 63 then [] else [base + t + 1]) ++ [(i + 64) % 128]

/-- Its neighbours: those sampled and not faulty. -/
def State.neighbours (s : State) (i : Nat) : List Nat :=
  (nextTo i).filter fun j => s.bit (Reg.THM_SENS j) 31 && !s.sensFault j

/-- Sensor `i` can be sampled: a hub sensor, or one of a powered tile (Table 16-1). -/
def State.sampled (s : State) (i : Nat) : Bool := decide (128 ≤ i) || (!s.off && !s.bit Reg.PWR_STAT (16 + i % 64 / 8))

/-! ## Events (R360) -/

/-- The tile of sensor `i` in W0. -/
def sensorTile (i : Nat) : Nat := if i < 128 then i % 64 else noTile

/-- A THERMAL event about sensor `i`: kind, W4's level and band, W5 and W6. -/
def State.thermalEvent (s : State) (kind level band i : Nat) (w5 w6 : Word) : State :=
  s.eventMgmt (eventEntry 0x10 0 (if kind = 4 then noTile else sensorTile i) 0
    [pack [(0, 4, kind), (8, 2, level), (12, 3, band), (16, 8, i)], w5, w6] s.ns)

/-- A bit of THM_ERRSTAT set; it raises no ERRBIT event. -/
def State.thmErr (s : State) (b : Nat) : State := s.wrBit Reg.THM_ERRSTAT b true

/-- A temperature as the events show it. -/
def tempWord (x : Int) : Word := BitVec.ofInt 32 x

/-- A rate in 0.1 °C/s from one in 1/16 °C per 100 ms, truncated. -/
def rateTenths (r : Int) : Int := Int.tdiv (25 * r) 4

/-! ## Orderly stop and cut (R357, R358) -/

/-- The stop record (THM_STOPLOG). -/
def State.stopRecord (s : State) (cause i : Nat) : State :=
  ((s.wr Reg.THM_STOPLOG_W0 (pack [(31, 1, 1), (28, 3, cause), (16, 8, i), (0, 16, fld (s.rd (Reg.THM_SENS i)) 0 16)])).wr
    Reg.THM_STOPLOG_W1 (wd (nsecOf s.ns))).wr Reg.THM_STOPLOG_W2 (wd (secOf s.ns))

/-- What a cut leaves held: the stop flag, and no retained image that a wake could restore (R357, R330). -/
def State.holdStopped (s : State) : State :=
  { s with stopHeld := true, stopOwed := true, retained := s.retained.map fun (r : RetImage) => { r with sound := false } }

/-- The cut (R358): drive removed, no image kept valid, every island but AON off; wake events wait for THM_RESUME (R359). -/
def State.thermalCut (s : State) (cause i : Nat) : State :=
  (((List.range 64).foldl State.cutTile (s.stopRecord cause i)).holdStopped).turnOff

/-- T_cr (R357): the thermal block, THERMAL_HOLD for the batches not past their arm point, the stop record and the P3 request; the cut
where time does not allow. Neither starts during a stop or in the fatal state. -/
def State.orderlyStop (s : State) (cause i : Nat) : State :=
  let d := (s.sensor i).rate
  if s.bit Reg.THM_STAT 30 || s.fatalOn || s.off then s
  else if 0 < d ∧ 5 * (2000 - s.temp i) < d then s.thermalCut 3 i
  else
    let s1 := ((s.stopRecord cause i).wrBit Reg.THM_STAT 31 true).wrBit Reg.THM_STAT 30 true
    let s2 := (if s1.fullcal.isSome then s1.stopFull true else s1).wrBit Reg.LMP_STAT 1 true
    let s3 := s2.finish ((s2.batches.filter fun b => !s2.pastArm b).map fun b => ⟨b.id, 7, 8, some (b.cues.headD 0)⟩)
    ({ s3 with stopHeld := true, stopOwed := true }.lampStat).thermalStop

/-! ## Samples (R350, R353 to R355) -/

/-- The threshold of level `k` in 1/16 °C. -/
def State.levelAt (s : State) (k : Nat) : Int := 16 * s.rdf Reg.THM_THR (8 * (k - 1)) 8

/-- The level of a sensor that stood at level `old` (R353): entered at its threshold, left 3 °C below it. -/
def State.levelOf (s : State) (old : Nat) (x : Int) : Nat :=
  ([3, 2, 1].find? fun k => decide (s.levelAt k ≤ x) || (decide (k ≤ old) && decide (s.levelAt k - 48 < x))).getD 0

/-- A value within 5 °C of a threshold or of 125 °C (R350). -/
def State.nearThreshold (s : State) (x : Int) : Bool :=
  [s.levelAt 1, s.levelAt 2, s.levelAt 3, 2000].any fun (t : Int) => decide ((x - t).natAbs ≤ 80)

/-- The lower edge of band `b` in 1/16 °C. -/
def bandEdge (b : Nat) : Int := 16 * (-40 + 20 * (b : Int))

/-- The band without hysteresis: the highest whose lower edge is reached. -/
def bandOf (x : Int) : Nat := ([7, 6, 5, 4, 3, 2, 1].find? fun b => decide (bandEdge b ≤ x)).getD 0

/-- The band after a sample (R355): up at a lower edge, down 2 °C below one. -/
def bandAfter (b : Nat) (x : Int) : Nat :=
  if b < bandOf x then bandOf x
  else ((List.range (b + 1)).reverse.find? fun k => k == 0 || decide (bandEdge k - 32 ≤ x)).getD 0

/-- THM_STAT's LEVEL, HOTSENS and FAULTS from the sensors' words. -/
def State.thmStat (s : State) : State :=
  let valid := (List.range 136).filter fun i => s.bit (Reg.THM_SENS i) 31
  let level := valid.foldl (fun m i => max m (s.rdf (Reg.THM_SENS i) 26 2)) 0
  let hot := valid.foldl (fun (h : Nat) i => if s.temp h < s.temp i then i else h) (valid.headD 0)
  let faults := (valid.filter s.sensFault).length
  ((s.wrf Reg.THM_STAT 28 2 level).wrf Reg.THM_STAT 16 8 hot).wrf Reg.THM_STAT 8 8 faults

/-- A value taken for sensor `i`, which becomes its TEMP (R350, R353 to R355). -/
def State.takeTemp (s : State) (i : Nat) (x : Int) : State :=
  let w := s.rd (Reg.THM_SENS i)
  let r := s.sensor i
  let near := if s.nearThreshold x then some s.ns else r.near
  let fast := near.any fun t => decide (s.ns < t + 100000000)
  let old := fld w 26 2
  let level := s.levelOf old x
  let past := r.hist.find? fun h => decide (h.1 + 100000000 ≤ s.ns)
  let rate := match past with
    | some h => x - h.2
    | none => 0
  let hist := (s.ns, x) :: (r.hist.filter fun (h : Nat × Int) => decide (s.ns < h.1 + 100000000)) ++ past.toList
  let warn := decide (4 * (s.rdf Reg.THM_RISE 0 16 : Int) ≤ 25 * rate)
  let crit := decide (4 * (s.rdf Reg.THM_RISE 16 16 : Int) ≤ 25 * rate)
  let rise := if crit then some (r.fastRise.getD s.ns) else none
  let photonic := decide (64 ≤ i) && decide (i < 128)
  let b0 := fld w 16 3
  let band := if !photonic then 0 else if wbit w 31 then bandAfter b0 x else bandOf x
  let word := pack [(31, 1, 1), (30, 1, (wbit w 30).toNat), (29, 1, fast.toNat), (26, 2, level), (16, 3, band), (0, 16, code 16 x)]
  let was := s.rdf Reg.THM_STAT 28 2
  let s1 := ((s.wr (Reg.THM_SENS i) word).setSensor i { r with hist := hist, rate := rate, near := near, fastRise := rise, rising := warn }).thmStat
  let now := s1.rdf Reg.THM_STAT 28 2
  let s2 := ([1, 2, 3].filter fun k => decide (old < k) && decide (k ≤ level)).foldl (fun (s : State) k => s.thmErr k) s1
  let s3 := if now = was then s2 else s2.thermalEvent 0 now 0 i (tempWord x) 0#32
  let s4 := if warn && !r.rising then (s3.thmErr 4).thermalEvent 1 0 0 i (tempWord x) (tempWord (rateTenths rate)) else s3
  let s5 := if photonic && !wbit w 31 then s4.wrf (Reg.COO_STAT (i - 64)) 16 3 band
    else if photonic && band != b0 then s4.thermalEvent 2 0 band i (tempWord x) 0#32 else s4
  if old < 3 ∧ level = 3 then s5.orderlyStop 1 i else s5

/-- The value a sample gives: the neighbours' median for a faulty sensor, its last one where no neighbour is left (R352). -/
def State.sampleValue (s : State) (i : Nat) (raw : Int) : Int :=
  if s.sensFault i then
    let ns := s.neighbours i
    if ns.isEmpty then s.temp i else (median2 (ns.map s.temp)) / 2
  else raw

/-- SENSOR_SAMPLE (R349 to R355). Every island but AON being off, only a hub sensor's TEMP is read. -/
def execSensorSample (sensor : Fin 136) (raw : BitVec 16) (s : State) : Result :=
  let i := sensor.val
  if !s.sampled i then .next s
  else
    let x := raw.toInt
    let ns := s.neighbours i
    let r := s.sensor i
    let far := s.bit Reg.THM_CTRL 0 && decide (2 ≤ ns.length) && decide (160 < (2 * x - median2 (ns.map s.temp)).natAbs)
    let s1 := s.setSensor i { r with far := if far then r.far + 1 else 0, hot := if 2000 ≤ x then r.hot + 1 else 0 }
    if s.off then .next (s1.wr (Reg.THM_SENS i) (pack [(31, 1, 1), (30, 1, (s.sensFault i).toNat), (0, 16, code 16 (s.sampleValue i x))]))
    else .next (s1.takeTemp i (s.sampleValue i x))

/-- SENSOR_FAULT (R352): the eighth sample in a row far from its neighbours' median. -/
def execSensorFault (sensor : Fin 136) (s : State) : Result :=
  let i := sensor.val
  if 8 ≤ (s.sensor i).far ∧ !s.sensFault i ∧ !s.off then
    let s1 := (s.wrBit (Reg.THM_SENS i) 30 true).thmErr 6
    let s2 := s1.takeTemp i (s1.sampleValue i (s1.temp i))
    .next (s2.thermalEvent 3 0 0 i (tempWord (s2.temp i)) 0#32)
  else .next s

/-- RISECRIT (R354): RCRIT held for 10 ms; below WARN only the event. -/
def execRisecrit (sensor : Fin 136) (s : State) : Result :=
  let i := sensor.val
  let r := s.sensor i
  if !s.off && r.fastRise.any (fun t => decide (t + 10000000 ≤ s.ns)) then
    let s1 := (s.thmErr 5).thermalEvent 1 0 0 i (tempWord (s.temp i)) (tempWord (rateTenths r.rate))
    .next (if 1 ≤ s.rdf (Reg.THM_SENS i) 26 2 then s1.orderlyStop 2 i else s1)
  else .next s

/-- SENSOR_CLEAR (THM_SENSCLR, R352). -/
def State.writeSensclr (s : State) (v : Word) : State :=
  let i := fld v 0 8
  if 136 ≤ i then s.thmErr 0
  else if wbit v 31 then ((s.wrBit (Reg.THM_SENS i) 30 false).setSensor i { s.sensor i with far := 0 }).thmStat
  else s

/-- SENSOR_CLEAR (R352). -/
def execSensorClear (v : Word) (s : State) : Result := .next (s.writeSensclr v)

/-- THM_THR (R353): ignored with CFGERR unless WARN < THROTTLE < CRIT < 125. -/
def State.writeThr (s : State) (v : Word) : State :=
  let w := fld v 0 8
  let t := fld v 8 8
  let c := fld v 16 8
  if w < t ∧ t < c ∧ c < 125 then s.writeReg Reg.THM_THR v else s.thmErr 0

/-- THRESHOLD_WRITE (R353). -/
def execThresholdWrite (v : Word) (s : State) : Result := .next (s.writeThr v)

/-! ## Credit (R356) -/

/-- P_sus in mW for twice the hub median in 1/16 °C, truncated. -/
def State.psus (s : State) (m2 : Int) : Int :=
  let lo : Int := s.rdf Reg.THM_PSUS 24 8
  let hi : Int := s.rdf Reg.THM_PSUS 16 8
  let phi : Int := s.rdf Reg.THM_PSUS 8 8
  let plo : Int := s.rdf Reg.THM_PSUS 0 8
  if m2 ≤ 32 * lo then 1000 * phi
  else if 32 * hi ≤ m2 then 1000 * plo
  else 1000 * phi - 1000 * (phi - plo) * (m2 - 32 * lo) / (32 * (hi - lo))

/-- CREDIT_UPDATE (R356), with the rail powers and the IN port powers of the millisecond in mW. -/
def execCreditUpdate (railMw portMw : Nat) (s : State) : Result :=
  if s.off then .next s
  else
    let popt := portMw + (if s.calEn then 50 else 0)
    let pest := railMw + (popt - 2000)
    let m2 := median2 (((List.range' 128 8).filter fun i => s.bit (Reg.THM_SENS i) 31).map s.temp)
    let c0 := 1000 * (s.rd Reg.THM_CREDIT).toNat + s.creditUj
    let cmax := 1000000 * s.rdf Reg.THM_CREDCFG 0 16
    let cthr := 1000000 * s.rdf Reg.THM_CREDCFG 16 16
    let c := (clampI 0 cmax (c0 + (s.psus m2 - pest))).toNat
    let rmax := s.rdf Reg.THM_RATE 16 16
    let rmin := s.rdf Reg.THM_RATE 0 16
    let rate := if 2 ≤ s.rdf Reg.THM_STAT 28 2 then rmin
      else if cthr ≤ c then 0xFFFF
      else rmin + (rmax - rmin) * c / cthr
    let s1 := ({ s with creditUj := c % 1000 }.wr Reg.THM_CREDIT (wd (c / 1000))).wr Reg.THM_PEST (wd pest)
    let s2 := s1.wrf Reg.LMP_THRSTAT 16 16 rate
    let s3 := if c < cthr ∧ cthr ≤ c0 then (s2.thmErr 7).thermalEvent 4 0 0 0 (wd (c / 1000)) 0#32
      else if c0 < cthr ∧ cthr ≤ c then s2.thermalEvent 4 0 0 0 (wd (c / 1000)) 0#32 else s2
    .next s3.lampStat

/-- SHUT_CUT (R358): two samples in a row at or above 125 °C of a sensor whose comparator is not disabled. -/
def execShutCut (sensor : Fin 136) (s : State) : Result :=
  let i := sensor.val
  .next (if 2 ≤ (s.sensor i).hot ∧ !s.sensFault i then s.thermalCut 4 i else s)

end Sys2Proof.Machine
end

