-- ==== Sys2Proof/Machine/Boot.lean ====
section
/-! DEFINITION. The rails and resets (R363, R406 to R408), the boot ROM's start (R365), attestation, sealing, key revocation and the
debug lock (R382 to R385), and the NOR commands (R386). -/

namespace Sys2Proof.Machine

/-! ## Boot phases -/

/-- BOOT_STAT.PHASE. -/
def State.bootPhase (s : State) : Nat := s.rdf Reg.BOOT_STAT 20 4

/-- The state with PHASE set. -/
def State.setBoot (s : State) (n : Nat) : State := s.wrf Reg.BOOT_STAT 20 4 n

/-- BOOT_TIME[i]: ms from T_rr. -/
def State.bootTime (s : State) (i : Nat) : State := s.wr (Reg.BOOT_TIME i) (wd ((s.ns - s.released) / 1000000))

/-- Boot stopped: PHASE FAILED, BOOTFAIL, FAULT_N low (R373, Table 19-11). -/
def State.bootFail (s : State) : State := ((s.setBoot 10).wrBit Reg.BOOT_STAT 30 true).send (.pin "FAULT_N" false)

/-! ## Rails (R406 to R408) -/

/-- The enable after one. -/
def nextRail : Rail → Option Rail
  | .vcore => some .vphy
  | .vphy => some .vana
  | .vana => some .vdrv
  | _ => none

/-- A module reset and the start that follows it: where the enables are low, they begin again; FAULT_N low after SEQFAIL is released. -/
def State.resetStart (s : State) (cause rail : Nat) : State :=
  let s1 := s.moduleReset cause rail
  let s2 := if 3 ≤ s.seqFails then s1.send (.pin "FAULT_N" true) else s1
  if s2.enables.isEmpty then s2.enable .vcore else s2

/-- POWER_ON (R363, R406): every island, AON included, as reset leaves it; the OTP and NOR keep their contents. -/
def execPowerOn (s : State) : Result :=
  let r := { State.reset with
    words := s.words.filter fun (p : Nat × Word) => p.1 == Reg.SEC_OTPSTAT
    mem := s.dropSave.mem.filter fun (p : Host.Cell) => decide (norBase ≤ p.1)
    pending := s.pending
    out := s.out
    fresh := s.fresh
    bankOwn := s.dropSave.bankOwn
    norOwn := s.norOwn
    wearA := s.wearA
    wearB := s.wearB
    wearLog := s.wearLog }
  .next ((r.wrBit Reg.SEC_OTPSTAT 29 false).enable .vcore)

/-- POWER_GOOD (R406): the next enable follows the rail that was enabled last. -/
def execPowerGood (rail : Rail) (s : State) : Result :=
  if s.enables.getLast? = some rail then
    match nextRail rail with
    | some r => .next (s.enable r)
    | none => .next s
  else .next s

/-- SEQUENCE_FAILURE (R407): the enables drop in reverse, SEQFAIL and the rail are recorded; FAULT_N low after the third. -/
def execSequenceFailure (rail : Rail) (s : State) : Result :=
  if s.enables.getLast? = some rail ∧ s.bootPhase = 0 then
    let s1 := { s.enablesLow.setCause 5 (railCode rail) with seqFails := s.seqFails + 1 }
    .next (if 3 ≤ s1.seqFails then s1.send (.pin "FAULT_N" false) else s1)
  else .next s

/-- SEQUENCE_RETRY (R407). -/
def execSequenceRetry (s : State) : Result :=
  .next (if s.enables.isEmpty && decide (1 ≤ s.seqFails) && decide (s.seqFails < 3) then s.enable .vcore else s)

/-- UNDERVOLTAGE (R408): of VIO, or of a rail whose enable is high. -/
def execUndervoltage (rail : Rail) (s : State) : Result :=
  .next (if rail = .vio ∨ rail ∈ s.enables then (s.resetStart 4 (railCode rail)).count Reg.GEN_RSTCAUSE 16 8 1 else s)

/-- MODULE_RESET (MODRST_N, R363). -/
def execModuleReset (s : State) : Result := .next (s.resetStart 1 0)

/-- The reset of BOOT_CTRL.SWRST. -/
def State.writeBootCtrl (s : State) (v : Word) : State := if wbit v 31 then s.resetStart 2 0 else s

/-- SWRST (R363). -/
def execSwrst (s : State) : Result := .next (s.writeBootCtrl 0x80000000#32)

/-- XSPI_RST_N low for 10 µs after T_rr, then high (Table 19-11). -/
def State.pulseNor (s : State) : State := (s.send (.pin "XSPI_RST_N" false)).send (.pin "XSPI_RST_N" true)

/-- BOOT_ROM_START (R365), at T_rr: BIFSEL sampled (R234), the debug state applied, the NOR reset, the SHAKE256 engine tested. -/
def execBootRomStart (bifsel : Fin 4) (engineOk : Bool) (s : State) : Result :=
  if s.bootPhase = 0 ∧ !s.bit Reg.BOOT_STAT 31 ∧ !s.off then
    let s1 := (List.range 4).foldl (fun (s : State) k => s.wrf (Reg.HIF_LINKCFG k) 8 2 bifsel) { s with released := s.ns, seqFails := 0 }
    let s2 := ((s1.when (bifsel == 3) (·.err Reg.HIF_ERRSTAT 5)).wrBit Reg.SEC_OTPSTAT 29 (s1.rdf Reg.SEC_OTPSTAT 30 2 == 0)).pulseNor
    .next (if engineOk then s2.setBoot 1 else (s2.wr Reg.BOOT_REJ 0x99#32).bootFail)
  else .next s

/-! ## Attestation (R382) -/

/-- A write of SEC_ATTCTL: a GO starts OP, unless work is in progress. A reserved OP leaves the field as it was (R5). -/
def State.writeAttctl (s : State) (v : Word) : State :=
  let s1 := s.writeReg Reg.SEC_ATTCTL (v &&& 0xF#32)
  let op := s1.rdf Reg.SEC_ATTCTL 0 4
  if !wbit v 31 then s1
  else if s.bit Reg.SEC_ATTCTL 30 then s.err Reg.SEC_ERRSTAT 0
  else if op = 1 ∨ op = 2 then (s1.wrBit Reg.SEC_ATTCTL 30 true).wrBit Reg.SEC_ATTCTL 29 false
  else s1

/-- REPORT (R382). -/
def execReport (s : State) : Result := .next (s.writeAttctl 0x80000001#32)

/-- CERT (R382). -/
def execCert (s : State) : Result := .next (s.writeAttctl 0x80000002#32)

/-- The first 64 words of a report (Table 17-9). -/
def State.reportHead (s : State) : List Word :=
  let st := s.rd Reg.BOOT_STAT
  let failed := wbit st 30
  let flags := pack [(0, 1, (s.bit Reg.SEC_OTPSTAT 29).toNat), (1, 1, failed.toNat), (2, 1, (wbit st 26).toNat), (3, 1, (wbit st 28).toNat),
    (4, 1, (wbit st 29).toNat)]
  let digest := if failed then List.replicate 8 0#32 else (List.range 8).map fun i => s.digest.getD i 0#32
  [0x4E474154#32, 1#32, s.rd Reg.GEN_ID, flags] ++ (List.range 4).map (fun i => s.rd (Reg.SEC_UID i)) ++
    (List.range 8).map (fun i => s.rd (Reg.SEC_ATTNONCE i)) ++ digest ++
    [s.rd Reg.BOOT_IMGSEQ, wd (s.rdf Reg.BOOT_IMGINFO 8 8), wd (s.rdf Reg.SEC_OTPSTAT 16 8), wd (s.rdf Reg.BOOT_IMGINFO 0 2)] ++
    [s.rd (Reg.ASY_BANKGEN 0), s.rd (Reg.ASY_BANKGEN 1), wd (s.rdf Reg.ASY_STAT 27 1)] ++
    [wd (nsecOf s.ns), wd (secOf s.ns), wd (secOf s.ns / 2 ^ 32 % 2 ^ 16)] ++ [s.rd Reg.LMP_GEN, s.rd Reg.CIR_FSGEN] ++ List.replicate 28 0#32

/-- ATTESTATION_DONE (R382): the window replaced as a whole, by the report's fields and its signature from `window`, or by the
certificate store. -/
def execAttestationDone (window : List Word) (s : State) : Result :=
  if s.bit Reg.SEC_ATTCTL 30 then
    let rep := s.rdf Reg.SEC_ATTCTL 0 4 == 1
    let head := s.reportHead
    let word := fun (i : Nat) => if rep then head.getD i (window.getD i 0#32) else Config.certificate i
    let s1 := (List.range 8192).foldl (fun (t : State) i => t.wr (Reg.SEC_ATTWIN i) (word i)) s
    let s2 := (s1.wrBit Reg.SEC_ATTCTL 30 false).wrBit Reg.SEC_ATTCTL 29 true
    .next (if rep then s2.bump Reg.SEC_ATTCNT else s2)
  else .next s

/-! ## Sealing (R383) -/

/-- A write of SEC_SEALCTL: a GO starts a seal, refused while debug is open; one while a seal runs is ignored. -/
def State.writeSealctl (s : State) (v : Word) : State :=
  if !wbit v 31 || s.bit Reg.SEC_SEALCTL 30 then s
  else if s.bit Reg.SEC_OTPSTAT 29 then s.err Reg.SEC_ERRSTAT 1
  else { (s.wrBit Reg.SEC_SEALCTL 30 true).wrBit Reg.SEC_SEALCTL 29 false with
    sealing := some ((List.range 20).map fun i => s.rd (Reg.SEC_SEALBUF i)) }

/-- SEAL (R383). -/
def execSeal (s : State) : Result := .next (s.writeSealctl 0x80000000#32)

/-- SEALING_DONE (R383): SEALBUF holds NONCE, CT and TAG. -/
def execSealingDone (s : State) : Result :=
  match s.sealing with
  | none => .next s
  | some b =>
    let nonce := b.take 4
    let ct := (List.range 8).map fun i => b.getD (4 + i) 0#32 ^^^ Config.sealPad nonce i
    let blob := nonce ++ ct ++ (List.range 8).map (Config.sealTag (nonce ++ ct))
    let s1 := (List.range 20).foldl (fun (t : State) i => t.wr (Reg.SEC_SEALBUF i) (blob.getD i 0#32)) { s with sealing := none }
    .next ((s1.wrBit Reg.SEC_SEALCTL 30 false).wrBit Reg.SEC_SEALCTL 29 true)

/-! ## Keys and debug (R384, R385) -/

/-- A write of SEC_KEYREV: refused for the slot of the running image and for the last slot left. -/
def State.writeKeyrev (s : State) (v : Word) : State :=
  let k := fld v 0 2
  let rev := s.rdf Reg.SEC_OTPSTAT 24 4
  let left := (List.range 4).filter fun i => rev / 2 ^ i % 2 == 0
  if !wbit v 31 then s
  else if (s.image.any fun m => imageKeySlot m == k) || left == [k] then s.err Reg.SEC_ERRSTAT 2
  else s.wrBit Reg.SEC_OTPSTAT (24 + k) true

/-- KEY_REVOCATION (R384). -/
def execKeyRevocation (v : Word) (s : State) : Result := .next (s.writeKeyrev v)

/-- DEBUG_UNLOCK (R385): a good token opens a LOCKED debug port until the next reset. -/
def execDebugUnlock (tokenOk : Bool) (s : State) : Result :=
  .next (if tokenOk && s.rdf Reg.SEC_OTPSTAT 30 2 == 1 then s.wrBit Reg.SEC_OTPSTAT 29 true else s)

/-! ## NOR commands (R386) -/

/-- A NOR command is refused: outside the image slots, or at the slot loaded at this start, except under BOOTFAIL. -/
def State.flashRefused (s : State) (a : Nat) : Bool :=
  decide (0x2000000 ≤ a) || (s.image.isSome && !s.bit Reg.BOOT_STAT 30 && (a / 0x1000000 % 2 == 1) == s.bit Reg.BOOT_STAT 26)

/-- A write of BOOT_FLCMD: ignored while BUSY, and with a reserved OP. -/
def State.writeFlcmd (s : State) (v : Word) : State :=
  let op := fld v 28 4
  let a := s.rdf Reg.BOOT_FLADDR 0 26
  if s.bit Reg.BOOT_FLSTAT 31 || op = 0 || decide (3 < op) then s
  else if s.flashRefused a then s.wr Reg.BOOT_FLSTAT (pack [(30, 1, 1), (4, 4, 1)])
  else { s.wr Reg.BOOT_FLSTAT (pack [(31, 1, 1)]) with
    flash := some ⟨op, a, (List.range 64).map fun i => s.rd (Reg.BOOT_FLBUF i), s.saving.isSome⟩ }

/-- ERASE (R386). -/
def execErase (s : State) : Result := .next (s.writeFlcmd 0x10000000#32)

/-- PROG (R386). -/
def execProg (s : State) : Result := .next (s.writeFlcmd 0x20000000#32)

/-- VERIFY (R386). -/
def execVerify (s : State) : Result := .next (s.writeFlcmd 0x30000000#32)

end Sys2Proof.Machine
end

