-- ==== Sys2Proof/Machine/Faults.lean ====
section
/-! DEFINITION. Memory errors and the Sweep (R389 to R391), unfencing (R393), fatal errors, where the dump goes and what follows it (R395 to
R399). -/

namespace Sys2Proof.Machine

/-! ## Memory errors (R389 to R391, Table 18-2) -/

/-- The row of Table 18-2, from 1; for a cue entry, by the cue's state. -/
def State.memRow (s : State) (addr : Nat) : MemRow → Nat
  | .cueBusy => if s.cueBusy ((addr - Reg.CUE_W0 0) / 32) then 1 else 2
  | .cueOther => if s.cueBusy ((addr - Reg.CUE_W0 0) / 32) then 1 else 2
  | .pattern => 3
  | .tables => 4
  | .ringDesc => 5
  | .tcam => 6
  | .tally => 7
  | .trace => 8
  | .tile => 9
  | .firmware => 10
  | .retention => 11
  | .aonOther => 12

/-- CLASS of a row: 1 CONTAINED, 2 FENCE, 3 FATAL. -/
def rowClass (row : Nat) : Nat :=
  if row = 1 ∨ row = 4 ∨ row = 10 ∨ row = 12 then 3 else if row = 9 then 2 else 1

/-- The island that holds the memory of a row (Table 1-1). -/
def rowIsland (addr row : Nat) : Nat :=
  if row = 5 then 64 else if row = 6 then 65 else if row = 7 ∨ row = 8 ∨ row = 9 then tileOfAddr addr
  else if row = 10 then 67 else if 11 ≤ row then 68 else 66

/-- The words `a` to `a + 4 (n - 1)` poisoned until rewritten. -/
def State.poison (s : State) (a n : Nat) : State :=
  let ws := (List.range n).map fun i => a + 4 * i
  { s with poisoned := (s.poisoned.filter fun x => !ws.contains x) ++ ws }

/-- The effect of an uncorrectable error by row. The address of a trace word is its tile's window plus 4 times its number. -/
def State.rowEffect (s : State) (addr row : Nat) : State :=
  let r := (addr - Reg.RING_W0 0) / 32
  match row with
  | 2 => s.poison (addr / 32 * 32) 8
  | 3 => s.poison (addr / 2048 * 2048) 512
  | 5 => if s.ringOn r then ((s.setRingState r 3 1).setRing r { s.ring r with fetched := [] }).err Reg.HIF_ERRSTAT 2 else s
  | 6 => s.poison ((addr - Reg.TCAM_KEY 0 0) / 256 * 256 + Reg.TCAM_KEY 0 0) 33
  | 7 => s.clearBlock (tileOfAddr addr) ((addr % 0x40000 - 0x30100) / 32)
  | 8 => { s with traceMem := Store.set 0#32 s.traceMem (4096 * tileOfAddr addr + addr % 0x40000 / 4 % 4096) 0#32 }
  | 9 => s.fenceTile (tileOfAddr addr) true
  | 11 => { s with retained := s.retained.map fun (x : RetImage) => { x with sound := false } }
  | 12 => s.fatal 5 68
  | _ => s.fatal 1 (rowIsland addr row)

/-- A read that meets an uncorrectable word (R391): a bus error, or a poisoned completion to a PCIe function. -/
def State.answerPoisoned (s : State) (rq : Requester) : State :=
  match rq with
  | .fn _ _ => s.send (.poisoned rq)
  | .session k => s.draw.send (.ngcp (some k) 1 (s.freeNat % 256) 0 [])
  | _ => s.send (.busError rq false [])

/-- A corrected error in the word at `addr` noted: the errors of the last second, and whether that word has shown more than CETHR of them
(R389). Words are the 64-bit words that SECDED protects. -/
def State.noteCe (s : State) (addr : Nat) : State :=
  let ts := (addr / 8, s.ns) :: s.ceTimes.filter fun (p : Nat × Nat) => decide (s.ns < p.2 + 1000000000)
  let n := (ts.filter fun (p : Nat × Nat) => p.1 == addr / 8).length
  { s with ceTimes := ts }.when (decide (s.rdf Reg.FLT_CTRL 16 16 < n)) (·.err Reg.FLT_ERRSTAT 4)

/-- The answer to a master that reads an uncorrectable word (R391). -/
def State.answerUe (s : State) (reader : Option Requester) : State :=
  match reader with
  | some rq => s.answerPoisoned rq
  | none => s

/-- SCRUB_READ (R389 to R391): a protected word read by the Sweep or a scrubber (`sweep`), or by a master. With every island but AON off,
only the always-on SRAM is read. -/
def execScrubRead (sweep : Bool) (addr : Nat) (check : WordCheck) (mem : MemRow) (reader : Option Requester) (s : State) : Result :=
  let row := s.memRow addr mem
  if s.off && (!sweep || decide (row < 11)) then .next s
  else
    match check with
    | .clean => .next s
    | .corrected _ =>
      .next ((((s.count Reg.FLT_CECNT 0 32 1).wr Reg.FLT_CELOG (wd addr)).err Reg.FLT_ERRSTAT 1).noteCe addr)
    | .uncorrectable =>
      let cls := rowClass row
      let s1 := (s.wr Reg.FLT_UELOG_W0 (wd addr)).wr Reg.FLT_UELOG_W1 (pack [(30, 2, cls), (16, 7, rowIsland addr row), (0, 4, row)])
      .next (((s1.when (cls == 1) (·.err Reg.FLT_ERRSTAT 2)).rowEffect addr row).answerUe reader)

/-! ## FLT_CMD (R393, R395) -/

/-- UNFENCE asked for tile `t`: NOTFENCED, or the attempt starts. -/
def State.unfence (s : State) (t : Nat) : State :=
  if s.bit (Reg.MTX_ISLSTAT t) 1 then { s.wr Reg.FLT_CMDRES 0#32 with unfencing := (t :: s.unfencing).eraseDups }
  else s.wr Reg.FLT_CMDRES 0x80000001#32

/-- UNFENCE (R393). -/
def execUnfence (tile : Fin 64) (s : State) : Result := .next (s.unfence tile)

/-- UNFENCE_COMPLETE (R393): `locked` says PLL and time replica came back within 2 ms, `sound` that no uncorrectable word remains. -/
def execUnfenceComplete (tile : Fin 64) (locked sound : Bool) (s : State) : Result :=
  let t := tile.val
  if s.unfencing.contains t then
    let s0 := { s with unfencing := s.unfencing.filter (· != t) }
    if locked && sound then
      let a := Reg.MTX_ISLSTAT t
      let s1 := (((s0.wrBit a 0 true).wrBit a 1 false).wrBit a 2 true).countFenced
      let ls := loads s1.ckts s1.cross
      let s2 := (tileCells t).foldl (fun (s : State) c => if (s.cell c).mode = 5 then
          (s.setMode c (s.returnMode ls c)).wrf (cooWord c 7) 8 2 (classOf ls c) else s)
        { (s1.wrBit (Reg.COO_STAT t) 24 (s1.frozen t)) with
          badBeats := Store.set 0 s1.badBeats t 0
          lightRuns := s1.lightRuns.filter (fun (p : Nat × LightRun) => p.1 % 512 / 8 != t) }
      .next (((s2.reportAlone t).cooStat t).wr Reg.FLT_CMDRES 0x80000000#32).lampStat
    else .next (s0.wr Reg.FLT_CMDRES 0x80000002#32)
  else .next s

/-- A write of FLT_CMD: a reserved OP sets CFGERR. -/
def State.writeFltCmd (s : State) (v : Word) : State :=
  match fld v 28 4 with
  | 1 => s.unfence (fld v 0 6)
  | 2 => s.fatal 4 noTile
  | _ => s.err Reg.FLT_ERRSTAT 0

/-- FATAL (R395): FLT_CMD with OP FATAL. -/
def execFatal (s : State) : Result := .next (s.writeFltCmd 0x20000000#32)

/-- WATCHDOG (R395): the cores stand in hub H3. -/
def execWatchdog (_core : Fin 4) (s : State) : Result := .next (s.fatal 2 67)

/-! ## The dump (R396 to R399) -/

/-- The link of the host buffer, when every condition of R397 for it holds. -/
def State.dumpLink (s : State) : Option Nat :=
  let l := s.rdf Reg.DMP_CTL 16 2
  if s.bit Reg.DMP_CTL 31 && decide (256 ≤ s.rdf Reg.DMP_CTL 0 16) && s.bit (Reg.HIF_LINKCFG l) 31 && s.isMgmtFn (17 * l) &&
    s.dmaOk (17 * l) then some l else none

/-- The dump area in the NOR that the image names: its internal address and its size; none without an image. -/
def State.dumpNvm (s : State) : Option (Nat × Nat) := s.image.map fun m => (norBase + (nvmArea m 5).1, (nvmArea m 5).2)

/-- The end of the dump: after an orderly stop the islands switch off; otherwise the module resets when `reset`. -/
def State.afterDump (s : State) (reset : Bool) : State :=
  if s.bit Reg.THM_STAT 30 then
    s.holdStopped.turnOff
  else if reset then s.resetStart 3 0
  else s

/-- DUMP_STALL (R396). -/
def execDumpStall (s : State) : Result :=
  if s.bit Reg.FLT_STAT 30 then
    let s1 := ((s.wrf Reg.DMP_STAT 28 3 (if s.dumpLink.isSome then 1 else 2)).wrf Reg.DMP_STAT 24 4 1).wrBit Reg.FLT_STAT 30 false
    .next (s1.afterDump true)
  else .next s

/-- The word DMP_NVMDATA reads, all ones where no image names an area; the read advances the pointer by 4 (R399). -/
def State.readDump (s : State) : Word × State :=
  let i := s.rdf Reg.DMP_NVMPTR 2 16
  ((s.dumpNvm.map fun d => s.memWord (d.1 + 4 * i)).getD 0xFFFFFFFF#32, s.wrf Reg.DMP_NVMPTR 2 16 (i + 1))

end Sys2Proof.Machine
end

