-- ==== Sys2Proof/Machine/Access.lean ====
section
/-! DEFINITION. A bus matrix request (R15 to R25, R30 to R32): the tests of R24 in their order, the access rule of every block and
window, the default target, and what a served read or write does, word by word, in the block that holds the address. -/

namespace Sys2Proof.Machine

/-! ## The map (R16, R17, R30 to R32) -/

/-- Whether an offset lies in a range of Tables 1-14 and 1-15. -/
def inMap (a : Nat) : Bool :=
  decide (a < 0x120000) || (decide (0x1000000 ≤ a) && decide (a < 0x1280000)) || (decide (0x1400000 ≤ a) && decide (a < 0x1480000)) ||
    (decide (0x1800000 ≤ a) && decide (a < 0x1900000)) || (decide (0x2000000 ≤ a) && decide (a < 0x3000000))

/-- Whether an address lies in an internal-only region (Table 1-16). -/
def inRegion (a : Nat) : Bool :=
  (decide (0x10000000 ≤ a) && decide (a < 0x10C00000)) || (decide (0x11000000 ≤ a) && decide (a < 0x11080000)) ||
    (decide (0x20000000 ≤ a) && decide (a < 0x24000000))

/-- A requester that also reaches the internal-only regions (R31). -/
def isInternal : Requester → Bool
  | .fn _ _ => false
  | .session _ => false
  | _ => true

/-- Whether an address lies in a window: those of Table 1-15, the buffers of R17, and the internal-only memories. -/
def isWindow (a : Nat) : Bool :=
  decide (0x1000000 ≤ a) || (decide (0x100100 ≤ a) && decide (a < 0x100200)) || (decide (0x101100 ≤ a) && decide (a < 0x101150)) ||
    (decide (0x108000 ≤ a) && decide (a < 0x110000))

/-- R17: naturally aligned accesses of 4 or 8 bytes, in windows of 4 to 64. The place of an access is that of its first byte: one that
starts in SEC_SEALBUF and ends past it is judged by the layout instead (DEDUCED, log entry 98). -/
def sizeOk (a n : Nat) : Bool :=
  (n == 4 || n == 8 || (isWindow a && (n == 16 || n == 32 || n == 64))) && a % n == 0

/-- The island that answers for an address (Tables 1-1, 1-4 and 1-16). -/
def islandOf (a : Nat) : Nat :=
  if a < 0x120000 then
    let b := a / 0x10000
    if b = 1 then 64 else if b = 9 then 68 else if 3 ≤ b ∧ b ≤ 8 then 66 else if 10 ≤ b ∧ b ≤ 13 then 65 else 67
  else if a < 0x1400000 then 66
  else if a < 0x1800000 then 65
  else if a < 0x2000000 then 64
  else if a < 0x3000000 then (a - 0x2000000) / 0x40000
  else if 0x11000000 ≤ a ∧ a < 0x20000000 then 68
  else 67

/-- The words of a request of `n` bytes at `a`. -/
def wordsAt (a n : Nat) : List Nat := (List.range (n / 4)).map fun i => a + 4 * i

/-! ## Access rules -/

/-- The tile of a tile-window offset. -/
def tileAt (a : Nat) : Nat := (a - 0x2000000) / 0x40000

/-- The port whose Tallyman block holds offset `o` of the TAL sub-window of tile `t`, and whether it is an output (R207). -/
def talPort (t o : Nat) : Option (Bool × Nat) :=
  let ch := if 0x100 ≤ o ∧ o < 0x100 + 92 * 32 then (o - 0x100) / 32 else if 0x1000 ≤ o ∧ o < 0x1000 + 92 * 32 then (o - 0x1000) / 32 else 0
  if 84 ≤ ch then some (true, 8 * t + (ch - 84)) else if 76 ≤ ch then some (false, 8 * t + (ch - 76)) else none

/-- The parts of BAR0 that a requester bound to partition `p` reaches (R47, R57, R75, R207, R239): functions and sessions alike. -/
def State.partReach (s : State) (p : Nat) (isWrite : Bool) (a : Nat) : Bool :=
  if a = Reg.CIR_FSCTRL then true
  else if a = Reg.CIR_FSSEQ ∨ a = Reg.CIR_FSGEN ∨ a = Reg.CIR_FSSNAPSEQ then !isWrite
  else if 0x41000 ≤ a ∧ a < 0x42000 then !isWrite && s.inOwner ((a - 0x41000) / 8) == p
  else if 0x43000 ≤ a ∧ a < 0x45000 then
    let k := a % 0x800 / 4
    !isWrite && (if a / 0x800 % 2 = 0 then s.outOwner k else s.inOwner k) == p
  else if 0x1000000 ≤ a ∧ a < 0x1200000 then s.cuesInRange p ((a - 0x1000000) / 32) 1
  else if 0x1200000 ≤ a ∧ a < 0x1280000 then s.patInRange p ((a - 0x1200000) / 0x800)
  else if 0x2000000 ≤ a ∧ a < 0x3000000 then
    let o := a % 0x40000
    !isWrite && decide (0x30000 ≤ o) &&
      ((decide (0x30008 ≤ o) && decide (o < 0x30014)) || (talPort (tileAt a) (o - 0x30000)).any fun q =>
        (if q.1 then s.outOwner q.2 else s.inOwner q.2) == p)
  else false

/-- The access of a function that is no MGMT PF0 (R238, R239, R241): GEN_ID, its HIF_SELF page, its partition's parts, its rings'
descriptors. -/
def State.fnReach (s : State) (g : Nat) (isWrite : Bool) (a : Nat) : Bool :=
  if a = Reg.GEN_ID then !isWrite
  else if 0x18000 ≤ a ∧ a < 0x19000 then true
  else match s.fnPart g with
    | none => false
    | some p =>
      if 0x1800000 ≤ a ∧ a < 0x1900000 then s.ownsRing g ((a - 0x1800000) / 32) else s.partReach p isWrite a

/-- The recovery function's access (R373). -/
def recoveryReach (isWrite : Bool) (a : Nat) : Bool :=
  (a == Reg.GEN_ID && !isWrite) || (a / 0x10000 == 0x10 && a != Reg.SEC_KEYREV && a != Reg.SEC_SEALCTL)

/-- The MACsec SC and SA tables, at NETx base + 0x1000, which the management cores alone reach (R275). -/
def msTable (a : Nat) : Bool := (decide (0xA1000 ≤ a) && decide (a < 0xA2000)) || (decide (0xB1000 ≤ a) && decide (a < 0xB2000))

/-- Whether a requester may reach the word at `a` under the access rule of its block or window (test 3 of R24). -/
def State.mayReach (s : State) (rq : Requester) (isWrite : Bool) (a : Nat) : Bool :=
  match rq with
  | .fn l f =>
    let g := fnIndex l f
    if s.bit Reg.BOOT_STAT 30 then f == 0 && recoveryReach isWrite a
    else (s.isMgmtFn g && !msTable a) || s.fnReach g isWrite a
  | .session n =>
    if (0x18000 ≤ a ∧ a < 0x19000) ∨ msTable a = true then false
    else if s.bit (Reg.POR_SESS_W0 n) 30 then true
    else (a == Reg.GEN_ID && !isWrite) || s.partReach (s.rdf (Reg.POR_SESS_W0 n) 16 6) isWrite a
  | .core _ => !(decide (0x18000 ≤ a) && decide (a < 0x19000))
  | .internal m =>
    m == 11 || inRegion a || (m == 7 && decide (0x2000000 ≤ a) && decide (a < 0x3000000)) ||
      (!isWrite && (a == Reg.GEN_ID || a / 0x10000 == 2 || a / 0x10000 == 4 || (decide (0x1000000 ≤ a) && decide (a < 0x1280000)) ||
        (decide (0x1800000 ≤ a) && decide (a < 0x1900000))))

/-- The access rule of BAR2 (R243): the owner, and for reads the MGMT functions. -/
def State.reach2 (s : State) (rq : Requester) (isWrite : Bool) (a : Nat) : Bool :=
  match rq with
  | .fn l f =>
    let g := fnIndex l f
    ((s.isMgmtFn g || (s.fnPart g).isSome) && s.ownsRing g (a / 8)) || (!isWrite && s.isMgmtFn g)
  | _ => false

/-- An island that does not answer (R22): fenced, or a tile whose group sleeps. -/
def State.silent (s : State) (i : Nat) : Bool :=
  s.bit (Reg.MTX_ISLSTAT i) 1 || (decide (i < 64) && s.bit Reg.PWR_STAT (16 + i / 8))

/-- Tests 1 to 4 of R24 on a request of `n` bytes: the cause it fails with. -/
def State.failsBefore (s : State) (rq : Requester) (bar2 isWrite : Bool) (a n : Nat) : Option Nat :=
  if bar2 then
    if 0x40000 ≤ a then some 0 else if n ≠ 4 ∨ a % 8 ≠ 0 then some 2 else if !s.reach2 rq isWrite a then some 1 else none
  else
    let ends := [a, a + n - 1]
    if !ends.all (fun x => inMap x || (isInternal rq && inRegion x)) then some 0
    else if !sizeOk a n then some 2
    else if !(wordsAt a n).all (s.mayReach rq isWrite) then some 1
    else if !inRegion a && !(wordsAt a n).all (fun x => (RegMap.find x).isSome) then some 0
    else none

/-- The tests of R24: the cause and island of the first one that a request fails. -/
def State.fails (s : State) (rq : Requester) (bar2 isWrite : Bool) (a n : Nat) : Option (Nat × Nat) :=
  match s.failsBefore rq bar2 isWrite a n with
  | some c => some (c, 0)
  | none =>
    let i := if bar2 then 64 else islandOf a
    if s.silent i then some (3, i) else none

/-! ## Latches (R201, R312, R421) -/

/-- The latch of a requester under key `k`, when its tag is `tag`. -/
def State.latchOf (s : State) (rq : Requester) (k tag : Nat) : Option Word :=
  (s.latches.find? fun (l : Latch) => l.rq == rq && l.addr == k && l.tag == tag).map (·.val)

/-- The latch of a requester under key `k` cleared. -/
def State.unlatch (s : State) (rq : Requester) (k : Nat) : State :=
  { s with latches := s.latches.filter fun (l : Latch) => !(l.rq == rq && l.addr == k) }

/-- The latch of a requester under key `k` loaded. -/
def State.latch (s : State) (rq : Requester) (k tag : Nat) (v : Word) : State :=
  { s.unlatch rq k with latches := (s.unlatch rq k).latches ++ [⟨rq, k, tag, v⟩] }

/-! ## Reads -/

/-- The word behind an offset of the HIF_SELF page, for function `g` (Table 10-15). -/
def selfAlias (g a : Nat) : Nat :=
  if a = Reg.HIF_SELFRING then Reg.HIF_FNCFG_W1 g
  else if a = Reg.HIF_SELFEV then Reg.HIF_FNCFG_W2 g
  else if a = Reg.HIF_SELFCQL then Reg.HIF_FNCFG_W3 g
  else a

/-- The offset a requester's access to `a` means: a function's HIF_SELF page is its HIF_FNCFG entry. -/
def aliasOf (rq : Requester) (a : Nat) : Nat :=
  match rq with
  | .fn l f => selfAlias (fnIndex l f) a
  | _ => a

/-- HIF_SELFID of function `g`. -/
def State.selfId (s : State) (g : Nat) : Word :=
  pack [(31, 1, (s.isMgmtFn g).toNat), (30, 1, (s.fnPart g).isSome.toNat), (16, 6, (s.fnPart g).getD 0), (8, 5, g % 17), (0, 2, g / 17)]

/-- FNCFG W0 as read: of a PF0, BOUND and PART follow its link's mode (Table 10-15). -/
def State.bindingWord (s : State) (g : Nat) : Word :=
  let w := s.rd (Reg.HIF_FNCFG_W0 g)
  if g % 17 = 0 then put (putBit w 31 (s.fnPart g).isSome) 16 6 (s.rdf (Reg.HIF_LINKCFG (g / 17)) 24 6) else w

/-- RING W7 (Table 10-16). -/
def State.ringOwnerWord (s : State) (r : Nat) : Word :=
  match s.ringOwner r with
  | some g => pack [(31, 1, 1), (8, 5, g % 17), (0, 2, g / 17)]
  | none => 0#32

/-- The value a read of the word at `a` shows, without its side effects: what the store holds, or what the block computes. -/
def State.shown (s : State) (rq : Requester) (a : Nat) : Word :=
  if a = Reg.HIF_SELFID then match rq with
    | .fn l f => s.selfId (fnIndex l f)
    | _ => 0#32
  else if 0x10100 ≤ a ∧ a < 0x10540 ∧ a % 16 = 0 then s.bindingWord ((a - 0x10100) / 16)
  else if a = Reg.TOL_VTLO then wd s.vtime
  else if a = Reg.TOL_VTHI ∨ a = Reg.LMP_ARMSEC ∨ a = Reg.TIM_NOWSECLO ∨ a = Reg.TIM_NOWSECHI ∨ a = Reg.TIM_NOWFR then
    (s.latchOf rq a 0).getD 0#32
  else if a = Reg.TIM_NOWNS then wd (nsecOf s.ns)
  else if 0x74000 ≤ a ∧ a < 0x7D800 ∧ a % 8 = 4 then put (s.rd a) 0 16 (s.qualAge ((a - 0x74000) / 8))
  else if 0x84000 ≤ a ∧ a < 0x8D800 ∧ a % 8 = 4 then put (s.rd a) 0 16 (s.hoursSince (19456 + (a - 0x84000) / 8))
  else if 0x1800000 ≤ a ∧ a < 0x1900000 ∧ a % 32 = 28 then s.ringOwnerWord ((a - 0x1800000) / 32)
  else if 0x2000000 ≤ a ∧ a < 0x3000000 ∧ 0x30100 ≤ a % 0x40000 ∧ a % 0x40000 < 0x30C80 ∧ a % 32 = 28 then
    let st := s.stale (tileAt a) ((a % 0x40000 - 0x30100) / 32)
    putBit (putBit (s.rd a) 31 st) 30 (s.bit a 30 || st)
  else if 0x20100 ≤ a ∧ a < 0x20214 ∧ s.tbStart.contains ((a - 0x20100) / 4) ∧ s.bit a 0 then
    put (s.rd a) 8 8 (Config.tbComp ((a - 0x20100) / 4))
  else if inRegion a then s.memWord a
  else s.rd a

/-- Whether `a` is a low half of SUM or SUMSQ, live or snapshot (Table 8-7). -/
def isTalHalf (a : Nat) : Bool :=
  decide (0x2000000 ≤ a) && decide (a < 0x3000000) && decide (a % 32 < 16) &&
    ((decide (0x30100 ≤ a % 0x40000) && decide (a % 0x40000 < 0x30C80)) || (decide (0x31000 ≤ a % 0x40000) && decide (a % 0x40000 < 0x31B80)))

/-- The key of a tile's latch. -/
def talKey (a : Nat) : Nat := 0x2000000 + 0x40000 * tileAt a + 0x30000

/-- Seconds of the earliest armed instant (Table 5-10). -/
def State.armSec (s : State) : Word :=
  match (sortBy Commit.tc (s.commits.filter Commit.armed)).head? with
  | some c => wd (secOf c.tc)
  | none => 0#32

/-- The latch of TIM_NOWNS loaded with the rest of the instant (R312). -/
def State.latchNow (s : State) (rq : Requester) : State :=
  ((s.latch rq Reg.TIM_NOWSECLO 0 (wd (secOf s.ns))).latch rq Reg.TIM_NOWSECHI 0 (wd (secOf s.ns / 2 ^ 32 % 2 ^ 16))).latch rq
    Reg.TIM_NOWFR 0 (wd (s.now / 2 ^ 12 % 2 ^ 16))

/-- A read of one word of a served access, with its side effects: latches, RC fields, and the pointers of the data words. `four`: the
access is of 4 bytes. -/
def State.readWord (s : State) (rq : Requester) (four : Bool) (a0 : Nat) : Word × State :=
  let a := aliasOf rq a0
  if isTalHalf a then
    if a % 8 = 0 then (s.rd a, if four then s.latch rq (talKey a) (a + 4) (s.rd (a + 4)) else s)
    else if four then match s.latchOf rq (talKey a) a with
      | some v => (v, s.unlatch rq (talKey a))
      | none => (s.rd a, s.err (Reg.TAL_ERRSTAT (tileAt a)) 0)
    else (s.rd a, s)
  else if a = Reg.TIM_NOWNS then (s.shown rq a, if four then s.latchNow rq else s)
  else if a = Reg.TIM_NOWSECLO ∧ !four then (wd (secOf s.ns), s)
  else if a = Reg.LMP_ARMTIME then (s.rd a, s.latch rq Reg.LMP_ARMSEC 0 s.armSec)
  else if a = Reg.TOL_VTLO then (s.shown rq a, s.latch rq Reg.TOL_VTHI 0 (wd (s.vtime / 2 ^ 32)))
  else if a = Reg.DMP_NVMDATA then s.readDump
  else if 0x2000000 ≤ a ∧ a < 0x3000000 ∧ 0x10100 ≤ a % 0x40000 ∧ a % 0x40000 < 0x105C0 ∧ a % 16 = 12 then
    let t := s.settleClamps (cellOf (tileAt a) ((a % 0x40000 - 0x10100) / 16))
    (t.rd a, t.wr a 0#32)
  else if 0x2000000 ≤ a ∧ a < 0x3000000 ∧ a % 0x40000 = 0x4C then s.readTrace (tileAt a)
  else match RegMap.find a with
    | some (e, _) => (s.shown rq a &&& ~~~ BitVec.ofNat 32 e.wo, if e.rc = 0 then s else s.wrMask a (BitVec.ofNat 32 e.rc) 0#32)
    | none => (s.shown rq a, s)

/-- The words of a served read, in address order. -/
def State.readWords (s : State) (rq : Requester) (four : Bool) : List Nat → List Word × State
  | [] => ([], s)
  | a :: as =>
    let r := s.readWord rq four a
    let t := State.readWords r.2 rq four as
    (r.1 :: t.1, t.2)

/-! ## Writes -/

/-- A write of `v` to `a` carries a reserved encoding (R5). -/
def reservedIn (a : Nat) (v : Word) : Bool :=
  match RegMap.find a with
  | some (e, _) => e.rules.any fun r => !r.admits v
  | none => false

/-- A write of an HIF word (Tables 10-14 to 10-17). -/
def State.writeHif (s : State) (a : Nat) (v : Word) : State :=
  if 0x10100 ≤ a ∧ a < 0x10540 then
    let g := (a - 0x10100) / 16
    stateOf s (execFunctionConfigWrite (Fin.ofNat 4 (g / 17)) (Fin.ofNat 17 (g % 17)) (Fin.ofNat 4 (a % 16 / 4)) v s)
  else if 0x11000 ≤ a ∧ a < 0x11400 ∧ a % 16 = 0 then stateOf s (execStreamEnable (Fin.ofNat 64 ((a - 0x11000) / 16)) v s)
  else s.writeReg a v

/-- A write of a TOL word (R268 to R270). -/
def State.writeTol (s : State) (a : Nat) (v : Word) : State :=
  let p := (a - 0x30100) / 32
  if 0x30100 ≤ a then
    match a % 32 with
    | 4 => stateOf s (execShaperControlWrite (Fin.ofNat 64 p) true v s)
    | 8 =>
      let s1 := s.writeReg a v
      let x := s1.tollPart p
      s1.setToll p { x with policer := min x.policer (1000 * s1.rdf (Reg.TOL_POLICE p) 16 16) }
    | 12 => stateOf s (execShaperControlWrite (Fin.ofNat 64 p) false v s)
    | _ => s.writeReg a v
  else s.writeReg a v

/-- A write of a CIR word: CIR_CTRL evaluates protection again (R84). -/
def State.writeCir (s : State) (a : Nat) (v : Word) : State :=
  let part : Fin 64 := Fin.ofNat 64 ((a - 0x40100) / 16)
  if a = Reg.CIR_CTRL then (s.writeReg a v).decideProtection
  else if a = Reg.CIR_PATCAP then stateOf s (execPatternCapture v s)
  else if 0x40100 ≤ a ∧ a < 0x40500 then
    match a % 16 with
    | 0 => stateOf s (execPartitionControlWrite part v s)
    | 4 => stateOf s (execPartitionRangeWrite part false v s)
    | _ => stateOf s (execPartitionRangeWrite part true v s)
  else if 0x40800 ≤ a ∧ a < 0x41000 then stateOf s (execPortOwnershipWrite (Fin.ofNat 512 ((a - 0x40800) / 4)) v s)
  else if a = Reg.CIR_FSCTRL then stateOf s (execFabricSnapshot v s)
  else s.writeReg a v

/-- A write of a WHL word. -/
def State.writeWhl (s : State) (a : Nat) (v : Word) : State :=
  if 0x50020 ≤ a ∧ a < 0x50060 then stateOf s (execWinshareWrite (Fin.ofNat 8 ((a - 0x50020) / 8)) (a % 8 == 4) v s)
  else if 0x50100 ≤ a ∧ a < 0x50200 then stateOf s (execPolicyCeilingWrite (Fin.ofNat 64 ((a - 0x50100) / 4)) v s)
  else s.writeReg a v

/-- A write of an LMP word. -/
def State.writeLmp (s : State) (rq : Requester) (a : Nat) (v : Word) : State :=
  if a = Reg.LMP_CTRL then stateOf s (execLmpHoldWrite v s)
  else if a = Reg.LMP_ABORT then stateOf s (execLmpAbort rq v s)
  else if 0x60100 ≤ a ∧ a < 0x60200 ∧ a % 32 < 20 then
    stateOf s (execWindowScheduleWrite (Fin.ofNat 8 ((a - 0x60100) / 32)) (Fin.ofNat 5 (a % 32 / 4)) v s)
  else s.writeReg a v

/-- A write of ASY_CMD: a reserved OP or cell does nothing (R5). -/
def State.writeAsyCmd (s : State) (v : Word) : State :=
  let c := fld v 0 13
  match fld v 28 4 with
  | 1 => stateOf s (execFullcal s)
  | 2 => if c < 4864 then s.cellcal c (wbit v 24) else s
  | 3 => stateOf s (execSave s)
  | 4 => stateOf s (execCalAbort s)
  | _ => s

/-- A write of a TIM word. -/
def State.writeTim (s : State) (a : Nat) (v : Word) : State :=
  if a = Reg.TIM_CTRL then s.writeTimCtrl v
  else if a = Reg.TIM_INCR then s.writeIncr v
  else if a = Reg.TIM_ADJCNT then s.writeAdj v
  else if a = Reg.TIM_STEPCTL then s.writeStepctl v
  else if 0x90100 ≤ a ∧ a < 0x90500 then s.writeCmp ((a - 0x90100) / 16) (a % 16 / 4) v
  else s.writeReg a v

/-- A write of a word of NETA (0) or NETB (1). A write of the MACsec tables installs a key, after which packet numbers begin again
(DESIGN CHOICE, log entry 121). -/
def State.writeNet (s : State) (k a : Nat) (v : Word) : State :=
  if a = netReg k 0 then s.writeNetCtrl k v
  else if msTable a then { s.writeReg a v with replay := s.replay.filter fun (p : Nat × Nat) => p.1 / 8 != k }
  else s.writeReg a v

/-- A write of a POR word. -/
def State.writePor (s : State) (a : Nat) (v : Word) : State :=
  if a = Reg.POR_BANK then s.writeBank v
  else if a = Reg.POR_PORTCFG 0 then s.writePortcfg 0 v
  else if a = Reg.POR_PORTCFG 1 then s.writePortcfg 1 v
  else if 0xC0100 ≤ a ∧ a < 0xC0300 then s.writeSess ((a - 0xC0100) / 8) (a % 8 / 4) v
  else s.writeReg a v

/-- A write of a PTH word: a reserved encoding sets CFGERR. -/
def State.writePth (s : State) (a : Nat) (v : Word) : State :=
  if a = Reg.PTH_CMD then s.writePthCmd v else (s.writeReg a v).when (reservedIn a v) (·.wrBit Reg.PTH_ERRSTAT 0 true)

/-- A write of a PWR word (R331): GO makes the request; a reserved TARGET keeps the one written before and sets CFGERR. -/
def State.writePwr (s : State) (rq : Requester) (a : Nat) (v : Word) : State :=
  let s1 := if a = Reg.PWR_REQ ∧ wbit v 31 then
      s.powerRequest rq (wbit v 30) (if fld v 24 4 ≤ 5 then fld v 24 4 else s.rdf a 24 4) (fld v 0 8)
    else s.writeReg a v
  s1.when (reservedIn a v) (·.err Reg.PWR_ERRSTAT 0)

/-- The fields of a THM register that a write of `v` would give reserved values (Table 16-6), as masks. -/
def thmReserved (a : Nat) (v : Word) : Word :=
  if a = Reg.THM_PSUS then
    (if fld v 16 8 ≤ fld v 24 8 then 0x00FF0000#32 else 0#32) ||| (if fld v 8 8 < fld v 0 8 then 0x000000FF#32 else 0#32)
  else if a = Reg.THM_CREDCFG then (if fld v 16 16 = 0 ∨ fld v 0 16 < fld v 16 16 then 0xFFFF0000#32 else 0#32)
  else if a = Reg.THM_RATE then (if fld v 0 16 = 0 ∨ fld v 16 16 < fld v 0 16 then 0x0000FFFF#32 else 0#32)
  else 0#32

/-- A write of a THM word: a field given a reserved value keeps its own, with CFGERR (R5, R353). -/
def State.writeThm (s : State) (a : Nat) (v : Word) : State :=
  if a = Reg.THM_THR then s.writeThr v
  else if a = Reg.THM_SENSCLR then s.writeSensclr v
  else
    let m := thmReserved a v
    (s.writeReg a ((v &&& ~~~ m) ||| (s.rd a &&& m))).when (m != 0#32) (·.thmErr 0)

/-- A write of a BOOT or SEC word. -/
def State.writeBoot (s : State) (a : Nat) (v : Word) : State :=
  if a = Reg.BOOT_CTRL then s.writeBootCtrl v
  else if a = Reg.BOOT_FLCMD then s.writeFlcmd v
  else if a = Reg.SEC_KEYREV then s.writeKeyrev v
  else if a = Reg.SEC_ATTCTL then s.writeAttctl v
  else if a = Reg.SEC_SEALCTL then s.writeSealctl v
  else s.writeReg a v

/-- A write of an FLT or DMP word: DMP_CTL only by a MGMT function of the link it names (R397). -/
def State.writeFlt (s : State) (rq : Requester) (a : Nat) (v : Word) : State :=
  if a = Reg.FLT_CMD then s.writeFltCmd v
  else if a = Reg.DMP_CTL then
    match rq with
    | .fn l f => if s.isMgmtFn (fnIndex l f) && l.val == fld v 16 2 then s.writeReg a v else s.err Reg.FLT_ERRSTAT 0
    | _ => s.err Reg.FLT_ERRSTAT 0
  else (s.writeReg a v).when (reservedIn a v) (·.err Reg.FLT_ERRSTAT 0)

/-- A write of a COO word of tile `t`, at offset `o` of the tile's window. -/
def State.writeCoo (s : State) (t o : Nat) (v : Word) : State :=
  let tile : Fin 64 := Fin.ofNat 64 t
  let a := tileAddr t o
  if o = 0 then stateOf s (execFreezeWrite tile v s)
  else if o = 4 then stateOf s (execCycleConfigWrite tile v s)
  else if o = 0x40 then stateOf s (execTraceEnable tile v s)
  else if o = 0x44 then (s.writeReg a (putBit v 0 false)).when (wbit v 0) (·.traceFire t)
  else if 0x800 ≤ o ∧ o < 0x1B00 ∧ 36 ≤ o % 64 ∧ o % 64 < 48 then
    stateOf s (execLoopStateWrite tile (Fin.ofNat 76 ((o - 0x800) / 64)) (Fin.ofNat 3 ((o % 64 - 36) / 4)) v s)
  else if (factorCell o).isSome then s.writeFactor t o v
  else s.writeReg a v

/-- A write of a DRV word. -/
def State.writeDrv (s : State) (t o : Nat) (v : Word) : State :=
  let a := tileAddr t o
  if o = 0x10014 then stateOf s (execWaveformBankSelect (Fin.ofNat 64 t) v s)
  else if 0x10100 ≤ o ∧ o < 0x105C0 then
    let c := cellOf t ((o - 0x10100) / 16)
    match o % 16 with
    | 0 => s.writeFactor t o v
    | 4 => s.clearFault c v
    | 8 => s.writeOverride c v
    | _ => s
  else if 0x11000 ≤ o ∧ o < 0x19000 then s.writeWave t o v
  else s.writeReg a v

/-- A write of MON_CTRL: its RW fields, SEQAPPLY and SCAL. -/
def State.writeMonCtrl (s : State) (t : Nat) (v : Word) : State :=
  (((s.writeMode t v).when (wbit v 4) (·.askSequence t))).startScal t v

/-- A write of a MON word. -/
def State.writeMon (s : State) (t o : Nat) (v : Word) : State :=
  if o = 0x20000 then s.writeMonCtrl t v
  else if o = 0x2000C then s.writeUrgent t v
  else if 0x20100 ≤ o ∧ o < 0x20270 then s.writeSeq t ((o - 0x20100) / 4) v
  else if 0x20400 ≤ o ∧ o < 0x20570 then s.writeChcfg t ((o - 0x20400) / 4) v
  else s.writeReg (tileAddr t o) v

/-- A write of a TAL word. -/
def State.writeTal (s : State) (t o : Nat) (v : Word) : State :=
  if o = 0x30004 then s.writeSnap t v
  else if 0x30020 ≤ o ∧ o < 0x3002C then s.writeClr t ((o - 0x30020) / 4) v
  else s.writeReg (tileAddr t o) v

/-- A write of a word of a register block (Table 1-14). -/
def State.writeBlock (s : State) (rq : Requester) (a : Nat) (v : Word) : State :=
  match a / 0x10000 with
  | 1 => s.writeHif a v
  | 3 => s.writeTol a v
  | 4 => s.writeCir a v
  | 5 => s.writeWhl a v
  | 6 => s.writeLmp rq a v
  | 7 => if a = Reg.ASY_CMD then s.writeAsyCmd v else s.writeReg a v
  | 8 => if a = Reg.TNK_CLR then s.clearStuck v else (s.writeReg a v).when (a == Reg.TNK_WARN) (·.refreshWarn)
  | 9 => s.writeTim a v
  | 10 => s.writeNet 0 a v
  | 11 => s.writeNet 1 a v
  | 12 => s.writePor a v
  | 13 => s.writePth a v
  | 14 => s.writePwr rq a v
  | 15 => s.writeThm a v
  | 16 => s.writeBoot a v
  | 17 => s.writeFlt rq a v
  | _ => s.writeReg a v

/-- A write of one word of a served access. -/
def State.writeWord (s : State) (rq : Requester) (a0 : Nat) (v : Word) : State :=
  let a := aliasOf rq a0
  if a ≠ a0 then if a0 = Reg.HIF_SELFEV then (s.writeEventRing ((a - 0x10100) / 16) v).payOwed else s
  else if a < 0x120000 then s.writeBlock rq a v
  else if a < 0x1200000 then s.writeCueWord ((a - 0x1000000) / 32) (a % 32 / 4) v
  else if a < 0x1280000 then s.writePatWord ((a - 0x1200000) / 0x800) (a % 0x800 / 4) v
  else if a < 0x1480000 then s.writeTcam a v
  else if a < 0x1900000 then
    let s1 := s.writeRingWord ((a - 0x1800000) / 32) (a % 32 / 4) v
    s1.when (a % 32 = 8) (·.payOwed)
  else if a < 0x3000000 then
    let t := tileAt a
    let o := a % 0x40000
    match o / 0x10000 with
    | 0 => s.writeCoo t o v
    | 1 => s.writeDrv t o v
    | 2 => s.writeMon t o v
    | _ => s.writeTal t o v
  else s.putMemWord a v

/-- The words of a served write, from `a` on. -/
def State.writeWordsAt (s : State) (rq : Requester) : Nat → List Word → State
  | _, [] => s
  | a, v :: vs => State.writeWordsAt (s.writeWord rq a v) rq (a + 4) vs

/-! ## Requests -/

/-- A scope of a master reset that takes in a requester. -/
def scopeCovers (k : ResetScope) (rq : Requester) : Bool :=
  match k, rq with
  | .function l f, .fn l' f' => l == l' && (f == f' || f == 0)
  | .function _ _, _ => false
  | .master m, rq => masterOf rq == m.val

/-- The requester's port is draining (R27). -/
def State.isDraining (s : State) (rq : Requester) : Bool := s.draining.any fun d => scopeCovers d.1 rq

/-- A read of `n` bytes at `a`, its words poisoned or served. -/
def State.serveRead (s : State) (rq : Requester) (a n : Nat) : State :=
  if (wordsAt a n).any s.poisoned.contains then s.answerPoisoned rq
  else
    let r := s.readWords rq (n == 4) (wordsAt a n)
    r.2.send (.readData rq r.1)

/-- One bus matrix access (R15 to R25). While the module is off nothing answers; while the requester's port drains it is refused (R27);
else the tests of R24 decide. -/
def State.access (s : State) (x : Access) : State :=
  let n := x.size
  if s.off then s
  else if s.isDraining x.rq then s.answer x.rq x.write x.addr 5 ((n + 3) / 4)
  else
    match s.fails x.rq x.bar2 x.write x.addr n with
    | some (c, i) => s.refuse x.rq x.bar2 x.write x.addr c i ((n + 3) / 4)
    | none =>
      if x.bar2 then
        let r := x.addr / 8
        match x.rq, x.write with
        | .fn _ _, true => s.ringDoorbell (r % 32768) (x.data.headD 0#32)
        | _, _ => s.send (.readData x.rq [s.rd (Reg.RING_W4 r)])
      else if x.write then s.writeWordsAt x.rq x.addr (x.data.take (n / 4))
      else s.serveRead x.rq x.addr n

end Sys2Proof.Machine
end

