-- ==== Sys2Proof/Machine/Dump.lean ====
section
/-! DEFINITION. The fatal dump (R397, R398): its sections as the state holds them, its header, and the end of the Scrivener's work. -/

namespace Sys2Proof.Machine

/-! ## CRC-32 (R398) -/

/-- One bit of CRC-32, least significant first, with the reflected IEEE 802.3 polynomial. -/
def crcBit (c : Word) : Word := if c.getLsbD 0 then (c >>> 1) ^^^ 0xEDB88320#32 else c >>> 1

/-- One byte of CRC-32. -/
def crcByte (c : Word) (b : Byte) : Word := (List.range 8).foldl (fun c _ => crcBit c) (c ^^^ b.setWidth 32)

/-- CRC-32 of a byte string. -/
def crc32 (bs : List Byte) : Word := ~~~ (bs.foldl crcByte 0xFFFFFFFF#32)

/-! ## Sections (Table 18-6) -/

/-- The words of section ERRREGS: every ERRSTAT register by address, then the logs of MTX and FLT. -/
def errWords : List Nat :=
  [Reg.HIF_ERRSTAT, Reg.MTX_ERRSTAT, Reg.TOL_ERRSTAT, Reg.CIR_ERRSTAT, Reg.LMP_ERRSTAT, Reg.ASY_ERRSTAT, Reg.TNK_ERRSTAT, Reg.TIM_ERRSTAT,
    Reg.NETA_ERRSTAT, Reg.NETB_ERRSTAT, Reg.POR_ERRSTAT, Reg.PTH_ERRSTAT, Reg.PWR_ERRSTAT, Reg.THM_ERRSTAT, Reg.SEC_ERRSTAT, Reg.FLT_ERRSTAT] ++
  (List.range 64).flatMap (fun t => [Reg.COO_ERRSTAT t, Reg.DRV_ERRSTAT t, Reg.MON_ERRSTAT t, Reg.TAL_ERRSTAT t]) ++
  [Reg.MTX_ERRADDR, Reg.MTX_ERRINFO, Reg.MTX_DRAINLOG, Reg.FLT_CECNT, Reg.FLT_CELOG, Reg.FLT_UELOG_W0, Reg.FLT_UELOG_W1, Reg.FLT_LAST_W0,
    Reg.FLT_LAST_W1, Reg.FLT_LAST_W2]

/-- The words of a section that is a copy of registers. -/
def sectionWords : Nat → List Nat
  | 1 => errWords
  | 2 => (List.range 256).flatMap (fun i => (List.range 8).map (Reg.LMP_JOURNAL i)) ++ [Reg.LMP_JHEAD]
  | 4 => (List.range 512).map Reg.CIR_OUTMAP ++ (List.range 512).map Reg.CIR_INMAP ++ (List.range 4864).map Reg.CIR_CELLST
  | 5 => (List.range 512).flatMap fun k => [Reg.CIR_CKTA k, Reg.CIR_CKTB k]
  | 6 => (List.range 64).flatMap fun t => [Reg.COO_STAT t, Reg.DRV_STAT t, Reg.MON_STAT t, Reg.MTX_ISLSTAT t]
  | 7 => (List.range 136).map Reg.THM_SENS
  | 9 => (List.range 256).flatMap fun i => [Reg.WHL_DISTLOG_W0 i, Reg.WHL_DISTLOG_W1 i]
  | _ => []

/-- The cues in PENDING, SOLVED or ARMED; STATE resets to 0, so their words are among those listed. -/
def State.inflight (s : State) : List Nat :=
  s.words.filterMap fun p =>
    let q := (p.1 - Reg.CUE_W3 0) / 32
    if Reg.CUE_W3 0 ≤ p.1 ∧ p.1 = Reg.CUE_W3 q ∧ q < 65536 ∧ s.cueBusy q then some q else none

/-- The eight words of a cue entry. -/
def cueWords (q : Nat) : List Nat := (List.range 8).map fun i => Reg.CUE_W0 q + 4 * i

/-- The words that a section reads. -/
def State.sourceWords (s : State) (type : Nat) : List Nat := if type = 3 then s.inflight.flatMap cueWords else sectionWords type

/-- A word's island does not answer: fenced, asleep, or silent at the dump. -/
def State.unread (s : State) (silent : List (Fin 69)) (a : Nat) : Bool := s.silent (islandOf a) || silent.any fun i => i.val == islandOf a

/-- A word as the Scrivener reads it: 0 from a silent island, and 0 for a word with an uncorrectable error. -/
def State.dumpWord (s : State) (silent : List (Fin 69)) (a : Nat) : Word :=
  if s.unread silent a || s.poisoned.contains a then 0#32 else s.rd a

/-- The content of a section; `fw` is the core registers and the firmware log, of which at most 64 KiB are taken. -/
def State.dumpSection (s : State) (silent : List (Fin 69)) (fw : List Word) (type : Nat) : List Word :=
  if type = 3 then s.inflight.flatMap fun q => [wd q, 0#32, 0#32, 0#32] ++ (cueWords q).map (s.dumpWord silent)
  else if type = 8 then fw.take 16384
  else (sectionWords type).map (s.dumpWord silent)

/-- UNREAD and POISON of a section. -/
def State.dumpFlags (s : State) (silent : List (Fin 69)) (type : Nat) : Nat :=
  2 * ((s.sourceWords type).any (s.unread silent)).toNat + 4 * ((s.sourceWords type).any s.poisoned.contains).toNat

/-- A section as it lies in the dump: TYPE, OFFSET, its words, FLAGS. -/
structure DumpPart where
  type : Nat
  offset : Nat
  words : List Word
  flags : Nat
deriving DecidableEq, Repr

/-- Sections laid out from `o` in TYPE order, each from a 4 KiB boundary, within `limit` bytes: one that does not fit is left out with
TRUNC (R397). -/
def State.layOut (s : State) (silent : List (Fin 69)) (fw : List Word) (limit : Nat) : List Nat → Nat → List DumpPart
  | [], _ => []
  | t :: ts, o =>
    let n := (s.dumpSection silent fw t).length
    let next := o + roundUp 0x1000 (4 * n)
    if next ≤ limit then ⟨t, o, s.dumpSection silent fw t, s.dumpFlags silent t⟩ :: State.layOut s silent fw limit ts next
    else ⟨t, 0, [], 1 + s.dumpFlags silent t⟩ :: State.layOut s silent fw limit ts o

/-- The nine sections of a dump of at most `size` bytes and 256 KiB. -/
def State.dumpParts (s : State) (silent : List (Fin 69)) (fw : List Word) (size : Nat) : List DumpPart :=
  s.layOut silent fw (min size 0x40000) (List.range' 1 9) 0x1000

/-- A section was cut short or left out. -/
def truncated (ps : List DumpPart) : Bool := ps.any fun p => p.flags % 2 == 1

/-! ## The whole dump (Table 18-5) -/

/-- Words padded with zeros to a 4 KiB boundary. -/
def padded (ws : List Word) : List Word := ws ++ List.replicate (roundUp 1024 ws.length - ws.length) 0#32

/-- The header and section table, padded to the first section, with CRC as given. -/
def State.dumpHead (s : State) (ps : List DumpPart) (len : Nat) (crc : Word) : List Word :=
  padded ([0x4E47444D#32, 1#32, wd len, s.rd Reg.GEN_ID] ++ (List.range 4).map (fun i => s.rd (Reg.SEC_UID i)) ++
    [s.rd Reg.FLT_LAST_W0, s.rd Reg.FLT_LAST_W1, s.rd Reg.FLT_LAST_W2, s.rd Reg.LMP_GEN, s.rd Reg.CIR_FSGEN, s.rd Reg.BOOT_IMGSEQ, wd ps.length,
      crc] ++ ps.flatMap fun p => [wd p.type, wd p.offset, wd (4 * p.words.length), wd p.flags])

/-- The dump's words: the header with its CRC-32, and the sections. -/
def State.dumpWords (s : State) (ps : List DumpPart) : List Word :=
  let body := ps.flatMap fun p => padded p.words
  let len := 0x1000 + 4 * body.length
  s.dumpHead ps len (crc32 (leBytes (s.dumpHead ps len 0#32 ++ body))) ++ body

/-- Bytes that the destination has: the host buffer, else the dump area. -/
def State.dumpSize (s : State) : Nat :=
  if s.dumpLink.isSome then 1024 * s.rdf Reg.DMP_CTL 0 16 else (s.dumpNvm.map (·.2)).getD 0

/-- The dump written to its destination: host memory, or the erased dump area; with neither it is not written. -/
def State.putDump (s : State) (ps : List DumpPart) : State :=
  match s.dumpLink, s.dumpNvm with
  | some l, _ => s.send (.dump l ((s.rd Reg.DMP_ADDRHI).toNat * 2 ^ 32 + s.rdf Reg.DMP_ADDRLO 12 20 * 4096) (s.dumpWords ps))
  | none, some d => (s.eraseMem d.1 d.2).putMem d.1 (s.dumpWords ps)
  | none, none => s

/-- DMP_STAT after a dump was written. -/
def State.noteDump (s : State) (ps : List DumpPart) : State :=
  if s.dumpLink.isNone && s.dumpNvm.isNone then s
  else s.wr Reg.DMP_STAT (pack [(31, 1, 1), (28, 3, if s.dumpLink.isSome then 1 else 2), (24, 4, if truncated ps then 2 else 0),
    (0, 16, s.rdf Reg.DMP_STAT 0 16 + 1)])

/-- DUMP_COMPLETE (R397, R398): the dump is in its destination, DMP_STAT tells, and a module reset follows under AUTORST. `silent` names
islands that did not answer, and `fw` is what the cores hold. -/
def execDumpComplete (silent : List (Fin 69)) (fw : List Word) (s : State) : Result :=
  if s.bit Reg.FLT_STAT 30 then
    let ps := s.dumpParts silent fw s.dumpSize
    .next ((((s.putDump ps).noteDump ps).wrBit Reg.FLT_STAT 30 false).afterDump (s.bit Reg.FLT_CTRL 12))
  else .next s

end Sys2Proof.Machine
end

