-- ==== Sys2Proof/Machine/MatrixCommands.lean ====
section
/-! DEFINITION. The meanings of the commands of chapter 1 (register access, the matrix, master resets, islands and the time bus), NGCP
READ and WRITE (R288), and the Crier's emissions (R252, R253). -/

namespace Sys2Proof.Machine

/-! ## Register access (R4, R5, R201, R421) -/

/-- REGISTER_WRITE (R4, R5): a 4-byte write. -/
def execRegisterWrite (rq : Requester) (addr : Nat) (v : Word) (s : State) : Result := .next (s.access ⟨rq, false, true, addr, 4, [v]⟩)

/-- RC_READ (R4): a 4-byte read; RC fields clear. -/
def execRcRead (rq : Requester) (addr : Nat) (s : State) : Result := .next (s.access ⟨rq, false, false, addr, 4, []⟩)

/-- LATCHED_LOW_READ (R201, R312, R421): a 4-byte read. -/
def execLatchedLowRead (rq : Requester) (addr : Nat) (s : State) : Result := .next (s.access ⟨rq, false, false, addr, 4, []⟩)

/-- TALLY_HIGH_READ (R201): a 4-byte read. -/
def execTallyHighRead (rq : Requester) (addr : Nat) (s : State) : Result := .next (s.access ⟨rq, false, false, addr, 4, []⟩)

/-- DOORBELL (R243): a 4-byte write of a ring's doorbell in BAR2. -/
def execDoorbell (link : Fin 4) (f : Fin 17) (ring : Fin 32768) (v : Word) (s : State) : Result :=
  .next (s.access ⟨.fn link f, true, true, 8 * ring, 4, [v]⟩)

/-! ## The matrix -/

/-- MATRIX_REQUEST (R15 to R25): the accesses of a burst, in order, each judged on its own (R19, R24). -/
def execMatrixRequest (reqs : List Access) (s : State) : Result := .next (reqs.foldl State.access s)

/-- ISLAND_TIMEOUT (R22): a request that passed the tests before it reaches TOUT at the island that holds its address; a tile that does
not answer is fenced (Table 18-1). -/
def execIslandTimeout (req : Access) (island : Fin 69) (s : State) : Result :=
  let n := req.size
  if s.off || s.isDraining req.rq then .next (s.access req)
  else
    match s.failsBefore req.rq req.bar2 req.write req.addr n with
    | some c => .next (s.refuse req.rq req.bar2 req.write req.addr c 0 ((n + 3) / 4))
    | none =>
      if island.val ≠ (if req.bar2 then 64 else islandOf req.addr) then .next s
      else
        let s1 := s.refuse req.rq req.bar2 req.write req.addr 3 island ((n + 3) / 4)
        .next (if island.val < 64 ∧ !s.silent island then s1.fenceTile island true else s1)

/-- The naturally aligned accesses, of at most 64 bytes, that make up the `n` bytes from `a` on (R17, R21). `fuel` bounds their
number. -/
def pieces : Nat → Nat → Nat → List (Nat × Nat)
  | 0, _, _ => []
  | fuel + 1, a, n =>
    if n = 0 then [] else
      let k := ([64, 32, 16, 8].find? fun k => a % k == 0 && decide (k ≤ n)).getD 4
      (a, k) :: pieces fuel (a + k) (n - k)

/-- The accesses that commit the whole 64-byte granules of a burst that were delivered (R26). A window takes a burst as the accesses it is
made of; to a register it is one access of its length, which R17 refuses. -/
def Burst.committed (b : Burst) : List Access :=
  let stop := b.addr + 4 * b.beats.length
  let lim := if b.undelivered = 0 then stop else stop / 64 * 64
  let n := lim - b.addr
  (if isWindow b.addr then pieces (n / 4) b.addr n else if n = 0 then [] else [(b.addr, n)]).map fun p =>
    ⟨b.rq, false, true, p.1, p.2, (b.beats.drop ((p.1 - b.addr) / 4)).take (p.2 / 4)⟩

/-- Beats of 32 bytes of a burst that were delivered but discarded, or refused (R26). -/
def Burst.lost (b : Burst) : Nat :=
  let stop := b.addr + 4 * b.beats.length
  let lim := max b.addr (if b.undelivered = 0 then stop else stop / 64 * 64)
  b.undelivered + (stop - lim + 31) / 32

/-- Whether an output answers a read of requester `rq`. -/
def isAnswer (rq : Requester) : Output → Bool
  | .readData q _ => q == rq
  | .unsupported q => q == rq
  | .poisoned q => q == rq
  | .busError q _ _ => q == rq
  | .ngcp _ _ _ _ _ => true
  | _ => false

/-- A read performed at its target before T_mr: its side effects stay, its answer is discarded (R26). -/
def State.readUnseen (s : State) (x : Access) : State :=
  let t := s.access x
  match t.out with
  | o :: rest => if isAnswer x.rq o && decide (s.out.length < t.out.length) then { t with out := rest } else t
  | [] => t

/-- The drain of a scope's traffic begins (R26): whole granules delivered stay committed, the reads performed keep their side effects, and
the rest is discarded. Traffic of others is not touched. -/
def State.drainTraffic (s : State) (scope : ResetScope) (bursts : List Burst) (reads : List Access) : State :=
  let bs := bursts.filter fun b => scopeCovers scope b.rq
  let rs := reads.filter fun x => scopeCovers scope x.rq
  let s1 := rs.foldl State.readUnseen ((bs.flatMap Burst.committed).foldl State.access s)
  { s1 with draining := (s1.draining.filter fun d => d.1 != scope) ++ [(scope, (bs.map Burst.lost).sum, rs.length)] }

/-- MASTER_RESET (R26) at T_mr. -/
def execMasterReset (scope : ResetScope) (bursts : List Burst) (reads : List Access) (s : State) : Result :=
  .next (s.drainTraffic scope bursts reads)

/-- FUNCTION_LEVEL_RESET (R257): the function's traffic drains (R26), and PF0 takes every VF of its link with it. -/
def execFunctionLevelReset (x : LinkReset) (f : Fin 17) (s : State) : Result :=
  let fs := if f.val = 0 then List.finRange 17 else [f]
  let s1 := fs.foldl (fun (t : State) (h : Fin 17) => t.drainTraffic (.function x.link h) x.bursts x.reads) s
  .next (fs.foldl (fun (t : State) (h : Fin 17) => t.resetFn (fnIndex x.link h)) s1)

/-- HOT_RESET (R258). -/
def execHotReset (x : LinkReset) (s : State) : Result :=
  let s1 := s.drainTraffic (.master ⟨x.link.val, by omega⟩) x.bursts x.reads
  let s2 := ((List.range 17).map (fnIndex x.link)).foldl State.resetFn s1
  .next ((s2.wrBit (Reg.HIF_LINKCFG x.link) 31 false).errOtherLinks Reg.HIF_ERRSTAT 6 x.link)

/-- The master and function numbers of a scope in MTX_DRAINLOG. -/
def scopeIds : ResetScope → Nat × Nat
  | .function l f => (l, f)
  | .master m => (m, 0)

/-- DRAIN_COMPLETE (R26, R27): logged, with an EVENT; the port accepts requests again. -/
def execDrainComplete (scope : ResetScope) (cycles : Fin 257) (s : State) : Result :=
  match s.draining.find? fun d => d.1 == scope with
  | none => .next s
  | some d =>
    let ids := scopeIds scope
    let s1 := { s with draining := s.draining.filter fun x => x.1 != scope }.wr Reg.MTX_DRAINLOG
      (pack [(23, 9, cycles), (17, 6, satN 6 d.2.2), (9, 8, satN 8 d.2.1), (4, 5, ids.2), (0, 4, ids.1)])
    .next (s1.errCores Reg.MTX_ERRSTAT 4)

/-! ## Islands and the time bus (R11 to R13) -/

/-- An island that is powered. -/
def State.powered (s : State) (i : Nat) : Bool := if s.off then i == 68 else !(decide (i < 64) && s.bit Reg.PWR_STAT (16 + i / 8))

/-- PLL_LOCK_LOSS (R11): the island fences itself. -/
def execPllLockLoss (island : Fin 69) (s : State) : Result :=
  let i := island.val
  let a := Reg.MTX_ISLSTAT i
  .next (if !s.powered i then s
    else if i < 64 then s.fenceTile i false
    else ((s.wrBit a 0 false).wrBit a 1 true).wrBit a 2 false)

/-- Island `i` meets a beat: a good one corrects its replica and sets TBOK; of bad ones the fourth in a row clears it (R13). -/
def State.beat (s : State) (bad : Bool) (i : Nat) : State :=
  let n := if bad then Store.get 0 s.badBeats i + 1 else 0
  let s1 := { s with badBeats := Store.set 0 s.badBeats i (min n 4) }
  if n = 0 then s1.wrBit (Reg.MTX_ISLSTAT i) 2 true else if 4 ≤ n then s1.wrBit (Reg.MTX_ISLSTAT i) 2 false else s1

/-- BEAT_BOUNDARY (R13): every powered island that is locked and not fenced meets the beat; once no tile lacks TBOK, protection is decided
again (R133). -/
def execBeatBoundary (bad : List (Fin 69)) (s : State) : Result :=
  let live := (List.finRange 69).filter fun (i : Fin 69) => s.powered i && s.bit (Reg.MTX_ISLSTAT i) 0 && !s.bit (Reg.MTX_ISLSTAT i) 1
  let t := live.foldl (fun (t : State) (i : Fin 69) => t.beat (bad.contains i) i) s
  .next (t.when (s.tbBad && !t.tbBad) (·.decideProtection)).lampStat

/-- TBOK_LOST (R13): the fourth consecutive bad beat of one island, after three at BEAT_BOUNDARY. -/
def execTbokLost (island : Fin 69) (s : State) : Result :=
  .next (if s.powered island ∧ 3 ≤ Store.get 0 s.badBeats island then (s.beat true island).lampStat else s)

/-- A commit lies between its arm point and T_c + 400 ns (R119). -/
def State.commitInFlight (s : State) : Bool := s.commits.any (fun c => c.phase == .go) || !s.settling.isEmpty

/-- TIME_BUS_RECOMPENSATION (R12): each branch's compensation is half its loopback, in steps of 31.25 ps; deferred while a commit is in
flight (R119). -/
def execTimeBusRecompensation (loopback : List (Fin 69 × Fin 512)) (s : State) : Result :=
  .next (if s.commitInFlight then s
    else loopback.foldl (fun (t : State) p => if s.powered p.1 then
      { t with tbStart := t.tbStart.filter (· != p.1.val) }.wrf (Reg.MTX_ISLSTAT p.1) 8 8 (p.2.val / 2) else t) s)

/-! ## NGCP READ and WRITE (R288) -/

/-- The size of the next access of a READ or WRITE: naturally aligned, up to 8 bytes for registers and 64 for windows. -/
def chunkSize (a rem : Nat) : Nat :=
  ((if isWindow a then [64, 32, 16, 8] else [8]).find? fun k => a % k == 0 && decide (k ≤ rem)).getD 4

/-- The accesses of a READ or WRITE of `rem` bytes from `a`: (address, size) pairs. `fuel` bounds their number. -/
def chunks : Nat → Nat → Nat → List (Nat × Nat)
  | 0, _, _ => []
  | fuel + 1, a, rem =>
    if rem = 0 then [] else let k := chunkSize a rem; (a, k) :: chunks fuel (a + k) (rem - k)

/-- The first failing access of a READ or WRITE: its address, the response's STATUS, and the cause and island the matrix logs. -/
abbrev NgcpStop := Nat × Nat × Option (Nat × Nat)

/-- Why an access of a session stops its READ or WRITE: its port drains (R27), or it fails a test of R24. -/
def State.ngcpFails (s : State) (rq : Requester) (isWrite : Bool) (a n : Nat) : Option NgcpStop :=
  if s.isDraining rq then some (a, 5, none) else (s.fails rq false isWrite a n).map fun c => (a, causeStatus c.1, some c)

/-- The accesses of a READ run in address order: the words read, or the first failing access. One that meets a poisoned word fails with a
status the spec does not state (R391). -/
def State.ngcpReads (s : State) (rq : Requester) : List (Nat × Nat) → List Word → State × Except NgcpStop (List Word)
  | [], ws => (s, .ok ws)
  | (a, n) :: cs, ws =>
    match s.ngcpFails rq false a n with
    | some e => (s, .error e)
    | none =>
      if (wordsAt a n).any s.poisoned.contains then (s.draw, .error (a, s.freeNat % 256, none))
      else
        let r := s.readWords rq (n == 4) (wordsAt a n)
        State.ngcpReads r.2 rq cs (ws ++ r.1)

/-- The accesses of a WRITE run in address order, up to the first failing one. -/
def State.ngcpWrites (s : State) (rq : Requester) : List (Nat × Nat) → List Word → State × Option NgcpStop
  | [], _ => (s, none)
  | (a, n) :: cs, ws =>
    match s.ngcpFails rq true a n with
    | some e => (s, some e)
    | none => State.ngcpWrites (s.writeWordsAt rq a (ws.take (n / 4))) rq cs (ws.drop (n / 4))

/-- The response to request `r` of session `n` that a failing access ends, with that access's address and no data (R288), the matrix's log
with it. -/
def State.ngcpStopped (s : State) (held : Bool) (n : Nat) (r : NgcpReq) (rq : Requester) (isWrite : Bool) (e : NgcpStop) : State :=
  let s1 := match e.2.2 with
    | some c => s.mtxError rq false isWrite e.1 c.1 c.2
    | none => s
  s1.ngcpReply held n r.seq r.op e.2.1 r.src (beBytes 4 e.1)

/-- The little-endian words of a WRITE's data (R6). -/
def dataWords (d : List Byte) (n : Nat) : List Word :=
  (List.range n).map fun i => d.getD (4 * i + 3) 0#8 ++ d.getD (4 * i + 2) 0#8 ++ d.getD (4 * i + 1) 0#8 ++ d.getD (4 * i) 0#8

/-- An NGCP READ executed. -/
def State.sessionRead (s : State) (n : Nat) (r : NgcpReq) : State :=
  let a := beNat r.payload 0 4
  let rq := Requester.session (Fin.ofNat 64 n)
  match s.ngcpReads rq (chunks 64 a (beNat r.payload 4 2)) [] with
  | (s1, .ok ws) => s1.ngcpAnswer n r.seq 1 0 r.src (beBytes 4 a ++ leBytes ws)
  | (s1, .error e) => s1.ngcpStopped false n r rq false e

/-- An NGCP WRITE executed. The response to one that commands a switch leaves after T_up (R307). -/
def State.sessionWrite (s : State) (n : Nat) (r : NgcpReq) : State :=
  let a := beNat r.payload 0 4
  let k := beNat r.payload 4 2
  let rq := Requester.session (Fin.ofNat 64 n)
  match s.ngcpWrites rq (chunks 256 a k) (dataWords (r.payload.drop 8) (k / 4)) with
  | (s1, none) => s1.ngcpReply (s.gap.isNone && s1.gap.isSome) n r.seq 2 0 r.src (beBytes 4 a)
  | (s1, some e) => s1.ngcpStopped (s.gap.isNone && s1.gap.isSome) n r rq true e

/-- READ (R288). -/
def execRead (n : Fin 64) (s : State) : Result := .next (if s.off then s else s.serve n 1 fun t r => t.sessionRead n r)

/-- WRITE (R288). -/
def execWrite (n : Fin 64) (s : State) : Result := .next (if s.off then s else s.serve n 2 fun t r => t.sessionWrite n r)

/-! ## Power requests and the data words (R160, R331, R399) -/

/-- A write of PWR_REQ with GO. -/
def State.requestPower (s : State) (rq : Requester) (repl : Bool) (target mask : Nat) : State :=
  s.access ⟨rq, false, true, Reg.PWR_REQ, 4, [pack [(31, 1, 1), (30, 1, repl.toNat), (24, 4, target), (0, 8, mask)]]⟩

/-- POWER_REQUEST_P0 (R331, R338). -/
def execPowerRequestP0 (rq : Requester) (repl : Bool) (s : State) : Result := .next (s.requestPower rq repl 0 0)

/-- POWER_REQUEST_P1 (R331). -/
def execPowerRequestP1 (rq : Requester) (repl : Bool) (s : State) : Result := .next (s.requestPower rq repl 1 0)

/-- POWER_REQUEST_P2 (R331). -/
def execPowerRequestP2 (rq : Requester) (repl : Bool) (s : State) : Result := .next (s.requestPower rq repl 2 0)

/-- POWER_REQUEST_P3 (R331). -/
def execPowerRequestP3 (rq : Requester) (repl : Bool) (s : State) : Result := .next (s.requestPower rq repl 3 0)

/-- TGSLEEP (R340). -/
def execTgsleep (rq : Requester) (repl : Bool) (mask : BitVec 8) (s : State) : Result := .next (s.requestPower rq repl 4 mask.toNat)

/-- TGWAKE (R346). -/
def execTgwake (rq : Requester) (repl : Bool) (mask : BitVec 8) (s : State) : Result := .next (s.requestPower rq repl 5 mask.toNat)

/-- TRACE_DATA_READ (R160): a 4-byte read of COO_TRDATA. -/
def execTraceDataRead (rq : Requester) (tile : Fin 64) (s : State) : Result :=
  .next (s.access ⟨rq, false, false, Reg.COO_TRDATA tile, 4, []⟩)

/-- DUMP_DATA_READ (R399): a 4-byte read of DMP_NVMDATA. -/
def execDumpDataRead (rq : Requester) (s : State) : Result := .next (s.access ⟨rq, false, false, Reg.DMP_NVMDATA, 4, []⟩)

/-! ## Telemetry (R252, R253, R361) -/

/-- The requester that owns a ring. -/
def ownerRq (g : Nat) : Requester := .fn (Fin.ofNat 4 (g / 17)) (Fin.ofNat 17 (g % 17))

/-- A payload word as the ring's owner `g` could read it: 0 where it could not. -/
def State.telWord (s : State) (g a : Nat) : Word := if s.mayReach (ownerRq g) false a then s.shown (ownerRq g) a else 0#32

/-- The number of indexes of a source (Table 10-10). -/
def telCount (src : Nat) : Nat := if src = 0 then 92 else if src = 1 then 512 else if src = 2 then 76 else 136

/-- The payload of the record of index `i` (Table 10-10, R361). -/
def State.telPayload (s : State) (g src t i : Nat) : List Word :=
  let w := s.telWord g
  match src with
  | 0 => (List.range 8).map fun k => w (Reg.TAL_SNAPBLK_W0 t i + 4 * k)
  | 1 => [w (Reg.CIR_OUTMAP i), w (Reg.CIR_INMAP i), w (Reg.CIR_CKTA i), w (Reg.CIR_CKTB i)]
  | 2 => let c := cellOf t i
    [w (cooWord c 7), w (cooWord c 8), w (cooWord c 13), w (drvWord c 1), w (Reg.CIR_CELLST c)]
  | _ => [w (Reg.THM_SENS i), if s.isMgmtFn g then BitVec.ofInt 32 (rateTenths (s.sensor i).rate) else 0#32, w Reg.THM_CREDIT, w Reg.THM_PEST]

/-- One record offered to the stream's ring: dropped and counted where the ring cannot take it. -/
def State.telRecord (s : State) (i : Nat) (g : Nat) (ws : List Word) : State :=
  let r := s.rdf (Reg.HIF_CRSTREAM_W0 i) 0 15
  if s.ringOn r && s.ringType r == 3 && s.dmaOk g && s.ringFree r != 0 then s.ringPut r ws
  else s.count (Reg.HIF_CRSTREAM_W3 i) 16 16 1

/-- The emissions a stream has made. -/
def State.emitted (s : State) (i : Nat) : Nat := Store.get 0 s.emissions i

/-- The Crier is stopped: step 6 of an entry into P3 (Table 15-4). -/
def State.crierStopped (s : State) : Bool := s.change.any fun c => c.req.target == 3 && decide (6 ≤ c.step)

/-- TELEMETRY_EMISSION (R252, R253): the records of one instant. `changed` is how many of the Crier's copies the source changed under:
one ends a TALSNAP emission, four a FABRIC one. -/
def execTelemetryEmission (stream : Fin 64) (changed : Nat) (s : State) : Result :=
  let i := stream.val
  let w := s.rd (Reg.HIF_CRSTREAM_W0 i)
  let w1 := s.rd (Reg.HIF_CRSTREAM_W1 i)
  let src := fld w 28 3
  let t := fld w 16 6
  if !wbit w 31 || s.crierStopped then .next s
  else if (src == 0 && decide (1 ≤ changed)) || (src == 1 && (decide (4 ≤ changed) || s.fsOpen)) then
    .next (s.count (Reg.HIF_CRSTREAM_W3 i) 0 16 1)
  else
    let n := (s.emitted i + 1) % 2 ^ 32
    let s1 := { s with emissions := Store.set 0 s.emissions i n }
    let seq := if src = 0 then s.rd (Reg.TAL_SNAPSEQ t) else if src = 1 then s.rd Reg.CIR_FSSEQ else wd n
    let ns := if src = 0 then s.rd (Reg.TAL_SNAPLO t) else wd (nsecOf s.ns)
    let sec := if src = 0 then s.rd (Reg.TAL_SNAPHI t) else wd (secOf s.ns)
    let g := (s.ringOwner (fld w 0 15)).getD 0
    let idx := (List.range' (fld w1 0 16) (fld w1 16 16)).filter fun k => decide (k < telCount src)
    .next (idx.foldl (fun (u : State) k =>
      let head := pack [(28, 3, src), (22, 6, i), (16, 6, if src = 1 then 0 else t), (0, 16, k)]
      let body := s.telPayload g src t k
      u.telRecord i g ([head, seq, ns, sec, 0#32, 0#32, 0#32, 0#32] ++ body ++ List.replicate (8 - body.length) 0#32)) s1)

end Sys2Proof.Machine
end

