-- ==== Sys2Proof/Machine/BootCommands.lean ====
section
/-! DEFINITION. Start-up from a verified image to UP (chapter 17): the content checks and the application of an image, the
retention image's return, the calibration banks and wear records, full calibration at start, and the drive-return instant. -/

namespace Sys2Proof.Machine

/-! ## The STARTUP section (Table 17-6) -/

/-- Word `i` of an image's STARTUP section. -/
def startupWord (m : Image) (i : Nat) : Word := m.startup.getD i 0#32

/-- DEFPAT; `none` for 0xFFFF. -/
def defaultPattern (m : Image) : Option Nat := if fld (startupWord m 0) 0 16 = 0xFFFF then none else some (fld (startupWord m 0) 0 16)

/-- CALMODE, CALRETRY and CALWAIT. -/
def calPolicy (m : Image) : Nat × Nat × Nat := (fld (startupWord m 2) 0 2, fld (startupWord m 2) 8 4, fld (startupWord m 2) 16 8)

/-- No reserved encoding stands in STARTUP. -/
def startupOk (m : Image) : Bool :=
  ((defaultPattern m).all fun n => decide (n < 256)) && (calPolicy m).1 != 3 && (calPolicy m).2.2 != 0 && fld (startupWord m 3) 0 2 != 3

/-! ## Checks on the other sections (R369, R374, Table 17-5) -/

/-- REGWR may write the word at `a` (R374). -/
def regwrOk (a : Nat) : Bool :=
  inMap a && a % 4 == 0 && (RegMap.find a).isSome && a / 0x10000 != 0x10 && ! [Reg.LMP_ABORT, Reg.ASY_CMD, Reg.PWR_REQ, Reg.TIM_STEPCTL].contains a

/-- Every section type is known and stands once, and FW, STARTUP, NVM and FACTORY are there. -/
def sectionsOk (m : Image) : Bool :=
  m.sections.all (fun t => decide (1 ≤ t) && decide (t ≤ 6)) && m.sections.eraseDups.length == m.sections.length &&
    [1, 2, 3, 4].all m.sections.contains

/-- Two areas of the NOR do not overlap. -/
def apart (a b : Nat × Nat) : Bool := decide (a.1 + a.2 ≤ b.1) || decide (b.1 + b.2 ≤ a.1)

/-- No two areas of a list overlap. -/
def allApart : List (Nat × Nat) → Bool
  | [] => true
  | a :: r => r.all (apart a) && allApart r

/-- The NVM section keeps Table 17-5: areas at 64 KiB sectors inside the data area, apart, and banks of 4 MiB. -/
def nvmOk (m : Image) : Bool :=
  m.nvm.all (fun a => a.1 % 0x10000 == 0 && decide (0x2000000 ≤ a.1) && decide (a.1 + a.2 ≤ 0x4000000)) && allApart m.nvm &&
    (nvmArea m 0).2 == 0x400000 && (nvmArea m 1).2 == 0x400000

/-- Every sealed blob's tag is the one that the module's seal key gives (R383). -/
def blobsOk (m : Image) : Bool := m.blobs.all fun b => (List.range 8).all fun i => b.getD (12 + i) 0#32 == Config.sealTag (b.take 12) i

/-! ## Loading factors (R226, R375) -/

/-- The bits of the factor word at offset `o` of a tile window that are factors. -/
def factorMask (o : Nat) : Word :=
  if 0x10000 ≤ o then 0x130#32 else if o < 0x1B00 ∧ o % 64 = 0 then 0x3F1F#32
  else match RegMap.find (0x2000000 + o) with
    | some (e, _) => BitVec.ofNat 32 e.rw
    | none => 0#32

/-- One word of a factor set written to its staged copy, a quality record to its register; reserved bits stay 0 (R4). -/
def State.loadWord (s : State) (a : Nat) (v : Word) : State :=
  if a < 0x2000000 then (if Reg.ASY_QUAL_W0 0 ≤ a ∧ a < Reg.ASY_QUAL_W0 4864 then s.wr a (if a % 8 = 0 then v &&& 0xFFFFFFF0#32 else v) else s)
  else if (factorCell (a % 0x40000)).isSome then s.wrMask a (factorMask (a % 0x40000)) v
  else s

/-- The staged TONE of cell `c` judged after a set was loaded over the factors of `old`: a value that R142 refuses is ignored, with CFGERR. -/
def State.keepTone (old s : State) (c : Nat) : State :=
  let k := s.rdf (cooWord c 0) 0 5
  if k ≠ 0 && k ≠ old.rdf (cooWord c 0) 0 5 && s.toneRefused c k then
    (s.wrf (cooWord c 0) 0 5 (old.rdf (cooWord c 0) 0 5)).err (Reg.COO_ERRSTAT (tileOf c)) 0
  else s

/-- A factor set becomes the staged copies and the factors in force of every cell. -/
def State.loadSet (s : State) (ws : List (Nat × Word)) : State :=
  let s1 := ws.foldl (fun (t : State) p => t.loadWord p.1 p.2) s
  let toned := ws.filterMap fun p =>
    if p.1 % 0x40000 % 64 = 0 then (factorCell (p.1 % 0x40000)).map (cellOf (tileAt p.1)) else none
  ((List.range 4864).foldl (fun (t : State) c => t.loadFactors c) (toned.foldl (State.keepTone s) s1)).countStaged

/-! ## The default pattern (R374, R378) -/

/-- The circuits of the default pattern, each owned by the owner of its input port. -/
def State.defaultCkts (s : State) (m : Image) : List Ckt :=
  match defaultPattern m with
  | none => []
  | some n => (s.patEntries n 0).map fun (e : Ckt) => ({ e with owner := s.inOwner e.inp } : Ckt)

/-- The default pattern keeps R78, and no entry joins ports of two partitions. -/
def State.defaultOk (s : State) (m : Image) : Bool :=
  patternSound (s.defaultCkts m) && (s.defaultCkts m).all fun c => s.outOwner c.out == c.owner

/-! ## Applying an image (R375, R380) -/

/-- Every island locked with TBOK, its branch of the time bus measured (R28). -/
def State.lockIslands (s : State) : State :=
  { (List.range 69).foldl (fun (t : State) i => t.wr (Reg.MTX_ISLSTAT i) 0x5#32) s with badBeats := [], tbStart := List.range 69 }

/-- The STARTUP section brought into its registers. -/
def State.applyStartup (s : State) (m : Image) : State :=
  let s1 := (List.range 4).foldl (fun (t : State) k =>
    let w := startupWord m (4 + k)
    (t.wrBit (Reg.HIF_LINKCFG k) 30 (wbit w 31)).wrf (Reg.HIF_LINKCFG k) 24 6 (fld w 16 6)) s
  s1.wrf Reg.PTH_CTRL 0 2 (fld (startupWord m 3) 0 2)

/-- FACTORY, REGWR and STARTUP applied in order. -/
def State.applyImage (s : State) (m : Image) : State :=
  (m.regwr.foldl (fun (t : State) p => t.writeWord (.internal 11) p.1 p.2) (s.lockIslands.loadSet m.factory)).applyStartup m

/-- The content checks of R374. -/
def State.contentOk (s : State) (m : Image) : Bool :=
  sectionsOk m && startupOk m && nvmOk m && m.regwr.all (fun p => regwrOk p.1) && blobsOk m && (s.applyImage m).defaultOk m

/-- The words that a valid retention image puts back: all of Table 15-5 but the cells' status and heater words, which follow at
T_dr. -/
def restorable (a : Nat) : Bool :=
  retainedWord a && !(decide (0x2000000 ≤ a) && decide (a % 0x40000 < 0x10000) && decide (0x800 ≤ a % 0x40000) &&
    (a % 64 == 28 || a % 64 == 52))

/-- The staged bits of a word that stay the loaded factors': the spans of a DRV cell word. -/
def spanWord (a : Nat) : Bool := decide (0x2000000 ≤ a) && decide (0x10100 ≤ a % 0x40000) && decide (a % 0x40000 < 0x105C0)

/-- One restored word: staged copy and copy in force alike, a DRV cell word without its spans. -/
def State.restoreWord (s : State) (a : Nat) (v : Word) : State :=
  if spanWord a then s.wrMask a 0xFFFFFECF#32 v
  else if 0x2000000 ≤ a then (s.wr a v).wrLive a v
  else s.wr a v

/-- The bucket levels after a wake: full, at the bursts in force (R271). -/
def State.fillBuckets (s : State) : State :=
  (List.range 64).foldl (fun (t : State) p => t.setToll p { t.tollPart p with
    shaper := 1000 * t.rdf (Reg.TOL_SHAPE p) 16 16
    policer := 1000 * t.rdf (Reg.TOL_POLICE p) 16 16 }) s

/-- The retention image restored after REGWR (R342, R380): its values take precedence, but for tiles that are not in it. The tile groups
asleep at entry stay asleep under RESTORE (R345). -/
def State.restoreRetention (s : State) : State :=
  match s.retained.filter (·.sound) with
  | none => (({ s with groupSaved := [] }.wrBit Reg.PWR_RETSTAT 31 false).err Reg.PWR_ERRSTAT 2).fillBuckets
  | some r =>
    let kept := fun (a : Nat) => decide (0x2000000 ≤ a) && r.unsaved.contains (tileAt a)
    let absent := (s.words.filter fun p => restorable p.1 && !kept p.1 && !r.words.any (·.1 == p.1)).map (·.1)
    let s1 := absent.foldl (fun (t : State) a => t.restoreWord a (resetWord a)) s
    let s2 := (r.words.filter fun p => restorable p.1).foldl (fun (t : State) p => t.restoreWord p.1 p.2) s1
    let s3 := (s2.wrBit Reg.PWR_RETSTAT 31 true).fillBuckets
    if s3.bit Reg.PWR_CTRL 0 then
      let gs := maskGroups r.asleep
      (gs.flatMap groupTiles).foldl (fun (t : State) i => t.wr (Reg.MTX_ISLSTAT i) 0#32) (s3.wrf Reg.PWR_STAT 16 8 r.asleep)
    else { s3 with groupSaved := [] }

/-- The image that boot holds from check to use, and the digest it measured. -/
def State.holdImage (s : State) (x : SlotRead) : State := { s with image := some x.image, digest := x.digest }

/-- The image in `slot` (B when true) loaded and applied. -/
def State.loadImage (s : State) (slot : Bool) (x : SlotRead) : State :=
  let m := x.image
  let s1 := ((s.wrBit Reg.BOOT_STAT 26 slot).wr Reg.BOOT_IMGSEQ (imageSeq m)).wr Reg.BOOT_IMGINFO (pack [(8, 8, imageSvn m), (0, 2, imageKeySlot m)])
  let s2 := (((s1.holdImage x).bootTime 0).setBoot 2).applyImage m
  if s.bit Reg.BOOT_STAT 29 then s2.restoreRetention else s2

/-- Check 2 of R371: MAGIC, FORMAT, TARGET (the part number and stepping of every GEN_ID, Table 0-3), NSECT and LENGTH. -/
def headerFits (h : List Word) : Bool :=
  let w := fun (i : Nat) => h.getD i 0#32
  w 0 == 0x4C4D4E58#32 && w 1 == 1#32 && fld (w 2) 16 16 == 0x5120 && fld (w 2) 8 4 == 3 && decide (1 ≤ (w 6).toNat) &&
    decide ((w 6).toNat ≤ 32) && decide ((w 7).toNat ≤ 0x1000000)

/-- A slot whose header was read and passes check 2. -/
def headerOk (x : SlotRead) : Bool := x.reason.val != 1 && x.reason.val != 8 && headerFits x.image.header

/-- The first check that a slot fails (R371, Table 17-7); 0 where it is valid. -/
def State.slotReason (s : State) (x : SlotRead) : Nat :=
  let r := x.reason.val
  let m := x.image
  if r = 1 ∨ r = 8 then r
  else if !headerFits m.header then 2
  else if r = 3 ∨ s.bit Reg.SEC_OTPSTAT (24 + imageKeySlot m) then 3
  else if 64 < imageSvn m ∨ imageSvn m < s.rdf Reg.SEC_OTPSTAT 16 8 then 4
  else if r ≠ 0 then r
  else if s.contentOk m then 0 else 7

/-- Slot B is tried first: its header alone passes check 2, or both pass and its SEQ is larger (R372). -/
def slotBFirst (a b : SlotRead) : Bool := headerOk b && (!headerOk a || decide ((imageSeq a.image).toNat < (imageSeq b.image).toNat))

/-! ## A slot in the NOR (R367, R368, R386) -/

/-- `n` bytes of the NOR from `a`. -/
def State.norBytes (s : State) (a n : Nat) : List Byte := (List.range n).map fun i => s.byte (norBase + a + i)

/-- Word `i` of the slot at `base`. -/
def State.slotWord (s : State) (base i : Nat) : Word := s.memWord (norBase + base + 4 * i)

/-- The used entries of a slot's section table (Table 17-4): TYPE, offset and size of the section, and its DIGEST. -/
def State.sectionTable (s : State) (base : Nat) : List (Nat × Nat × Nat × List Word) :=
  (List.range 32).filterMap fun k =>
    let e := fun (i : Nat) => s.slotWord base (64 + 16 * k + i)
    if e 0 = 0#32 then none else some ((e 0).toNat, (e 2).toNat, (e 3).toNat, (List.range 8).map fun i => e (4 + i))

/-- Place and size of a section; of an absent one, an empty one. -/
def State.sectionAt (s : State) (base type : Nat) : Nat × Nat :=
  match (s.sectionTable base).find? fun x => x.1 == type with
  | some x => (base + x.2.1, x.2.2.1)
  | none => (base, 0)

/-- The header of the slot at `base`. -/
def State.slotHeader (s : State) (base : Nat) : List Word := (List.range 8).map (s.slotWord base)

/-- The image that the slot at `base` holds. -/
def State.slotImage (s : State) (base : Nat) : Image :=
  let w := fun (type i : Nat) => if 4 * i < (s.sectionAt base type).2 then s.memWord (norBase + (s.sectionAt base type).1 + 4 * i) else 0#32
  { header := s.slotHeader base
    sections := (s.sectionTable base).map fun x => x.1
    startup := (List.range 8).map (w 2)
    regwr := (List.range ((s.sectionAt base 5).2 / 8)).map fun i => ((w 5 (2 * i)).toNat, w 5 (2 * i + 1))
    factory := (List.range 4864).flatMap fun c => ((recordAddrs c).zip (List.range 178)).map fun p => (p.1, w 4 (192 * c + p.2))
    nvm := (List.range 6).map fun i => ((w 3 (2 * i)).toNat, (w 3 (2 * i + 1)).toNat)
    blobs := (List.range ((s.sectionAt base 6).2 / 128)).map fun i => (List.range 20).map fun k => w 6 (32 * i + 12 + k) }

/-- Eight words of a digest. -/
def digestOf (b : List Byte) : List Word := (List.range 8).map (Config.shake256 b)

/-- What the ROM finds in the slot at `base` (R371). -/
def State.readSlot (s : State) (base : Nat) : SlotRead :=
  let m := s.slotImage base
  let key := s.norBytes (base + 0x20) 64
  let r : Fin 10 :=
    if m.header.all (· == 0xFFFFFFFF#32) then 1
    else if digestOf key != (List.range 8).map (Config.keyDigest (imageKeySlot m)) then 3
    else if !Config.signatureOk key (s.norBytes base 0x900) (s.norBytes (base + 0x900) 29792) then 5
    else if (s.sectionTable base).any fun x => digestOf (s.norBytes (base + x.2.1) x.2.2.1) != x.2.2.2 then 6
    else 0
  ⟨r, m, digestOf (s.norBytes base 0x900)⟩

/-- The slot at `base` holds only what NOR commands have put there, as far as its image reaches. -/
def State.slotKnown (s : State) (base : Nat) : Bool :=
  let h := s.slotHeader base
  let n := if headerFits h then ((h.getD 7 0#32).toNat + 0xFFFF) / 0x10000 else 1
  (List.range (max 1 n)).all fun i => s.norOwn.contains (base / 0x10000 + i)

/-- The slot at `base` as start-up or a VERIFY finds it: in the NOR where NOR commands have written it, else what the NOR held before. -/
def State.slotFound (s : State) (base : Nat) (x : SlotRead) : SlotRead := if s.slotKnown base then s.readSlot base else x

/-- IMAGE_VERIFIED (R371 to R375): in phase IMAGE the slots are tried in order; the first valid one is applied, or boot stops. `a` and `b` are
what the slots held before any NOR command. -/
def execImageVerified (a b : SlotRead) (s : State) : Result :=
  if s.bootPhase ≠ 1 then .next s
  else
    let x := s.slotFound 0 a
    let y := s.slotFound 0x1000000 b
    let bFirst := slotBFirst x y
    let first := if bFirst then y else x
    let second := if bFirst then x else y
    let r1 := s.slotReason first
    if r1 = 0 then .next (s.loadImage bFirst first)
    else
      let r2 := s.slotReason second
      let s1 := s.wr Reg.BOOT_REJ (if bFirst then pack [(4, 4, r1), (0, 4, r2)] else pack [(4, 4, r2), (0, 4, r1)])
      .next (if r2 = 0 then s1.loadImage (!bFirst) second else s1.bootFail)

/-- The REASON that a VERIFY finds (R386): computed where NOR commands have written the slot, else as the outcome says. -/
def State.verifyReason (s : State) (f : FlashOp) (given : Nat) : Nat :=
  let base := f.addr / 0x1000000 % 2 * 0x1000000
  if s.slotKnown base then s.slotReason (s.readSlot base) else given

/-- The NOR command `f` ends with RESULT and VREASON; a bank save that waited behind it no longer does. -/
def State.flashEnd (s : State) (result reason : Nat) : State :=
  { s with flash := none, saving := s.saving.map fun (r : SaveRun) => { r with behind := false } }.wr Reg.BOOT_FLSTAT
    (pack [(30, 1, 1), (4, 4, result), (0, 4, reason)])

/-- A VERIFY ends with the REASON given. -/
def State.verifyEnd (s : State) (r : Nat) : State := s.flashEnd (if r = 0 then 0 else 3) r

/-- FLASH_COMMAND_DONE (R386): a command behind a bank save waits for it, and only a VERIFY can end with a reason. -/
def execFlashCommandDone (outcome : FlashOutcome) (s : State) : Result :=
  match s.flash with
  | none => .next s
  | some f =>
    if f.behind then .next s
    else match outcome with
      | .device => .next (s.flashEnd 2 0)
      | .ok => .next (if f.op = 3 then s.verifyEnd (s.verifyReason f 0) else (s.flashEffect f).flashEnd 0 0)
      | .verifyFail r => .next (if f.op = 3 then s.verifyEnd (s.verifyReason f r) else s)

/-! ## Banks and wear records (R226, R229) -/

/-- Bank `i` as the NOR holds it, when MAGIC, FORMAT, LEN, GEN and TAG make it valid (R226). -/
def State.bankRead (s : State) (i : Nat) : Option (Word × List (Nat × Word)) :=
  let b := s.bankBase i
  let w := fun (k : Nat) => s.memWord (b + 4 * k)
  let body := (List.range 933888).map fun k => s.memWord (b + 0x1000 + 4 * k)
  let head := (List.range 8).map w
  if w 0 = 0x4E474342#32 ∧ w 1 = 1#32 ∧ w 4 = 0x390000#32 ∧ w 2 ≠ 0xFFFFFFFF#32 ∧
      (List.range 8).all (fun k => w (8 + k) == Config.bankTag (head ++ body) k) then
    some (w 2, (List.range 4864).flatMap fun c => ((recordAddrs c).zip (List.range 178)).map fun p => (p.1, s.memWord (b + 0x1000 + 0x300 * c + 4 * p.2)))
  else none

/-- A bank's GEN and factors as start-up finds them: in the NOR where the block has written or erased the bank itself, else what the NOR held
before; a word that such a bank does not list holds its reset value. -/
def State.bankFound (s : State) (banks : List (Option (Word × List (Nat × Word)))) (i : Nat) : Option (Word × List (Nat × Word)) :=
  if s.bankOwn.contains i then s.bankRead i
  else ((banks.getD i none).filter (fun (p : Word × List (Nat × Word)) => p.1 != 0xFFFFFFFF#32)).map fun p =>
    (p.1, ((List.range 4864).flatMap recordAddrs).map fun a => (a, ((p.2.find? (·.1 == a)).map (·.2)).getD (resetWord a)))

/-- From a load on, every cell's factors in force are the bank's (`f` false) or the factory set's, until a measured set of its own. -/
def State.loadedFrom (s : State) (f : Bool) : State := { s with factory := f, ownFactors := [], extOld := [] }

/-- The banks read and the newest valid one loaded, or the factory set (R226). -/
def State.loadBanks (s : State) (banks : List (Option (Word × List (Nat × Word)))) : State :=
  let a := s.bankFound banks 0
  let b := s.bankFound banks 1
  let gen := fun (x : Option (Word × List (Nat × Word))) => (x.map (·.1)).getD 0xFFFFFFFF#32
  let s1 := ((s.wr (Reg.ASY_BANKGEN 0) (gen a)).wr (Reg.ASY_BANKGEN 1) (gen b)).when (a.isNone || b.isNone) (·.err Reg.ASY_ERRSTAT 4)
  let useB := b.any fun y => a.all fun x => decide (x.1.toNat < y.1.toNat)
  match (if useB then b else a) with
  | some x =>
    let s2 := (s1.wrBit Reg.ASY_STAT 27 useB).loadSet x.2
    (((List.range 4864).foldl (fun (t : State) c => if t.rd (Reg.ASY_QUAL_W0 c) = 0#32 then t else t.stampNow (14592 + c)) s2).loadedFrom
      false).asyStat
  | none => (((List.range 4864).foldl (fun (t : State) c => t.wrf (Reg.ASY_QUAL_W0 c) 4 8 0x99) s1).loadedFrom true).asyStat

/-- Whether a calibration bank is valid. -/
def State.anyBank (s : State) : Bool := s.bankGen 0 != 0xFFFFFFFF || s.bankGen 1 != 0xFFFFFFFF

/-- The newest valid wear record, A on a tie, with the log folded in (R229). -/
def State.wearNow (s : State) : Option WearRec :=
  let newest := match s.wearA, s.wearB with
    | some a, some b => some (if a.gen < b.gen then b else a)
    | some a, none => some a
    | none, b => b
  newest.map fun (r : WearRec) => { r with cells := s.wearLog.foldl (fun m (p : Nat × Word) => Store.set 0#32 m p.1 p.2) r.cells }

/-- The log folded into the record with the lower GEN, or the one that is missing, as GEN + 1 (R225, R229). -/
def State.foldWear (s : State) (r : WearRec) : State :=
  if s.wearLog.isEmpty then s
  else
    let n : WearRec := { r with gen := r.gen + 1 }
    let intoA := match s.wearA, s.wearB with
      | none, _ => true
      | some a, some b => decide (a.gen < b.gen)
      | some _, none => false
    if intoA then { s with wearA := some n, wearLog := [] } else { s with wearB := some n, wearLog := [] }

/-- The wear record loaded: the block's own, or the one the NOR held before, which becomes record A; without a valid one writes stay
disabled (R229). -/
def State.loadWear (s : State) (wear : Option (List (Fin 4864 × Word))) : State :=
  let s0 := if s.wearA.isNone && s.wearB.isNone then
      { s with wearA := wear.map fun ws => ⟨0, (ws.map fun (p : Fin 4864 × Word) => (p.1.val, p.2 &&& 0xA0007FFF#32))⟩ } else s
  match s0.wearNow with
  | none => (s0.wrBit Reg.TNK_STAT 30 true).err Reg.TNK_ERRSTAT 3
  | some r =>
    let s1 := r.cells.foldl (fun (t : State) p => t.wr (Reg.TNK_CELL_W0 p.1) p.2) (s0.foldWear r)
    let n := fun (i : Nat) => ((List.range 4864).filter fun c => s1.bit (Reg.TNK_CELL_W0 c) i).length
    ((s1.wrf Reg.TNK_STAT 16 13 (n 31)).wrf Reg.TNK_CNT 16 13 (n 29)).refreshWarn

/-! ## Phases (R365, R377) -/

/-- The tiles that are powered. -/
def State.awake (s : State) : List Nat := (List.range 64).filter fun t => !s.bit Reg.PWR_STAT (16 + t / 8)

/-- ANALOG ends: the sequences are in force and every tile is in MON MODE RUN (R205, R365). -/
def State.startAnalog (s : State) : State :=
  s.awake.foldl (fun (u : State) t =>
    let v := (List.range 92).foldl (fun (w : State) i => w.wrLive (Reg.MON_SEQ t i) (w.rd (Reg.MON_SEQ t i))) u
    ((v.wrf (Reg.MON_CTRL t) 0 2 0).wrf (Reg.MON_STAT t) 0 2 0).showSeq t) s

/-- The analog domains powered: the converters owe their self-calibration (R204). -/
def State.powerAnalog (s : State) : State :=
  s.awake.foldl State.powerMon s

/-- A full calibration runs at this start (R377, R380). -/
def State.calWanted (s : State) (m : Image) : Bool :=
  !s.bit Reg.BOOT_STAT 29 && ((calPolicy m).1 == 1 || ((calPolicy m).1 == 0 && !s.anyBank))

/-- A band that the last attempt abandoned carries a circuit of the default pattern. -/
def State.calMissed (s : State) (m : Image) : Bool := (s.defaultCkts m).any fun c => s.abandoned.contains c.band

/-- The end of an attempt of the full calibration: another one after CALWAIT, or on with the factors in force (R377). -/
def State.calEnded (s : State) (m : Image) : State :=
  let tries := s.rdf Reg.BOOT_STAT 16 4
  if s.calMissed m && decide (tries < (calPolicy m).2.1) then (s.wrf Reg.BOOT_STAT 16 4 (tries + 1)).setBoot 6
  else ((s.when (s.calMissed m) (·.wrBit Reg.BOOT_STAT 28 true)).bootTime 4).setBoot 7

/-- BOOT_PHASE_COMPLETE (R365): ANALOG ends once no converter of a powered tile still calibrates. `banks` and `wear` are what the NOR's
data area held at the start of BANKS. -/
def execBootPhaseComplete (banks : List (Option (Word × List (Nat × Word)))) (wear : Option (List (Fin 4864 × Word))) (s : State) : Result :=
  match s.image with
  | none => .next s
  | some m => .next (match s.bootPhase with
    | 2 => ((((s.bootTime 1).setBoot 3).startPaths).wrBit Reg.ASY_STAT 31 true).wrf Reg.ASY_STAT 28 3 4
    | 3 => ((((s.loadBanks banks).loadWear wear).bootTime 2).setBoot 4).powerAnalog
    | 4 =>
      let s1 := s.startAnalog.bootTime 3
      if s.awake.any fun t => s.rdf (Reg.MON_CTRL t) 8 4 != 0 then s
      else if s1.calWanted m then (s1.setBoot 5).startFull true else s1.setBoot 7
    | 5 => if s.fullcal.isNone then s.calEnded m else s
    | _ => s)

/-- CALWAIT_EXPIRY (R377): the next attempt starts. -/
def execCalwaitExpiry (s : State) : Result := .next (if s.bootPhase = 6 then (s.setBoot 5).startFull true else s)

/-! ## Drive's return (R345, R378) -/

/-- Cell states that realise the circuits `cs` from BAR: a candidate that does, the module's own search, or the full permutation. -/
def State.startRoutes (s : State) (cs : List Ckt) (found : List Candidate) : List (Nat × Bool) :=
  let bar := fun (_ : Nat) => false
  let ok := fun (a : List (Nat × Bool)) =>
    consistent a && cs.all (fun c => trace (assigned a bar) c.feed == c.out) && consistent (litCells (assigned a bar) cs)
  match (found.map candidateAsg).find? ok with
  | some a => a
  | none => match s.placeAll bar [] [] cs with
    | .ok a => a
    | .error _ => benes 9 0 0 (fullPerm cs)

/-- The cells of the tiles that wake, in the states and bands that the circuits `cs` need. -/
def State.defaultCells (s : State) (cs : List Ckt) (found : List Candidate) : List (Nat × CellRec × Bool × Option Nat) :=
  let st := assigned (s.startRoutes cs found) fun (_ : Nat) => false
  let lit := litCells st cs
  (s.awake.flatMap tileCells).map fun c =>
    (c, ⟨st c, ((lit.find? fun (p : Nat × Bool) => p.1 == c).map (·.2)).getD false, 6, 0⟩, false, none)

/-- The retained cells of the tiles that wake, with their INBAND and hcode; a tile that is not in the image starts from BAR in band O. -/
def State.retainedCells (s : State) (r : RetImage) : List (Nat × CellRec × Bool × Option Nat) :=
  (s.awake.flatMap tileCells).map fun c => if r.unsaved.contains (tileOf c) then (c, CellRec.rest, false, none) else
    (c, Store.get CellRec.rest r.cells c, wbit (Store.get (resetWord (cooWord c 7)) r.words (cooWord c 7)) 31,
      some (fld (Store.get (resetWord (cooWord c 13)) r.words (cooWord c 13)) 16 14))

/-- The alternate of circuit `c` over the fabric as it stands: one that is offered and fits, or one that the search finds (R82). -/
def State.startAlt (s : State) (found : List Candidate) (c : Ckt) : Option AltRec :=
  c.other.map fun o =>
    let offered := found.flatMap fun f => f.alts.filterMap fun a =>
      if a.1.val = c.inp then some (PathRec.mk c.inp a.2.input.val a.2.cross) else none
    match offered.find? (s.altFits s.cross s.ckts c) with
    | some p => ⟨c.inp, some p⟩
    | none => ⟨c.inp, (s.findRoute (fixedCells s.cross (s.ckts.filter fun d => d.inp != c.inp)) s.cross c.band o c.out).map fun r =>
        ⟨c.inp, o, r⟩⟩

/-- Every protected circuit's alternate installed (R345, Table 17-2). -/
def State.installAlts (s : State) (found : List Candidate) : State :=
  let as := s.ckts.filterMap (s.startAlt found)
  { s with alts := as }.putCkts (s.ckts.map fun (c : Ckt) => { c with protok := as.any fun (a : AltRec) => a.wkg == c.inp && a.path.isSome }) 0

/-- The retained permutation is restored: a wake with RESTORE and a valid image (R345, R380). -/
def State.restores (s : State) : Option RetImage :=
  if s.bit Reg.BOOT_STAT 29 && s.bit Reg.PWR_CTRL 0 && s.bit Reg.PWR_RETSTAT 31 then s.retained else none

/-- The circuits from T_dr on: the retained ones, PROTOK 0, or those of the default pattern. -/
def State.startCkts (s : State) (m : Image) : List Ckt :=
  if s.restores.isSome then s.ckts.map fun (c : Ckt) => { c with protok := false } else s.defaultCkts m

/-- The cells that leave REST at T_dr. -/
def State.startCells (s : State) (cs : List Ckt) (found : List Candidate) : List (Nat × CellRec × Bool × Option Nat) :=
  match s.restores with
  | some r => s.retainedCells r
  | none => s.defaultCells cs found

/-- DRIVE_RETURN (R345, R378): at T_dr, on the 4 ns grid. -/
def execDriveReturn (found : List Candidate) (s : State) : Result :=
  match s.image with
  | none => .next s
  | some m =>
    if s.bootPhase ≠ 7 then .next s
    else
      let s0 := s.raise (roundUp 4 s.ns)
      let cs := s0.startCkts m
      let s1 := (s0.putCkts cs 0).leaveRest (s0.startCells cs found)
      let s2 := ((s1.awake.foldl (fun (t : State) i => t.reportTile i) s1.fsTick).refreshMaps).fsTick
      .next ({ (s2.installAlts found).bootTime 5 with driveAt := s0.ns }.setBoot 8)

/-! ## UP (R372, R376, R378) -/

/-- A circuit is settled: every cell on its path is INBAND or has had no observable cycle in its last 16 (R378). -/
def State.settled (s : State) (c : Ckt) : Bool :=
  (pathCells s.cross c.feed).all fun k => s.bit (cooWord k 7) 31 || decide (16 ≤ (s.coo k).dimRun)

/-- The OTP security version raised to the image's (R372). -/
def State.raiseSvn (s : State) (m : Image) : State :=
  if imageAdvSvn m && decide (s.rdf Reg.SEC_OTPSTAT 16 8 < imageSvn m) then s.wrf Reg.SEC_OTPSTAT 16 8 (imageSvn m) else s

/-- UP set; the module enters INITSTATE, or P0 after a wake, and the ring engine starts to fetch. -/
def State.setUp (s : State) (m : Image) : State :=
  let p := if s.bit Reg.BOOT_STAT 29 then 0 else fld (startupWord m 1) 0 1
  (((((s.wrBit Reg.BOOT_STAT 31 true).setBoot 9).bootTime 6).raiseSvn m).wrf Reg.PWR_STAT 0 3 p).fetchAll

/-- UP (R378): every circuit is settled. -/
def execUp (s : State) : Result :=
  match s.image with
  | none => .next s
  | some m => .next (if s.bootPhase = 8 ∧ s.ckts.all s.settled then s.setUp m else s)

/-- LOCKLATE (R378): T_dr + 200 ms has come with a circuit not settled. -/
def execLocklate (s : State) : Result :=
  match s.image with
  | none => .next s
  | some m => .next (if s.bootPhase = 8 ∧ !s.ckts.all s.settled then
      ((s.raise (s.driveAt + 200000000)).wrBit Reg.BOOT_STAT 27 true).setUp m else s)

end Sys2Proof.Machine
end

