-- ==== Sys2Proof/Machine/Dispatch.lean ====
section
/-! DEFINITION. The dispatch: one arm per row of the operation table, in its order. -/

namespace Sys2Proof.Machine

def exec (i : Instr) (s : State) : Host.Outcome State Fault Refusal :=
  match i with
  | .registerWrite rq addr v => Sys2Proof.Machine.execRegisterWrite rq addr v s
  | .rcRead rq addr => Sys2Proof.Machine.execRcRead rq addr s
  | .latchedLowRead rq addr => Sys2Proof.Machine.execLatchedLowRead rq addr s
  | .tallyHighRead rq addr => Sys2Proof.Machine.execTallyHighRead rq addr s
  | .matrixRequest reqs => Sys2Proof.Machine.execMatrixRequest reqs s
  | .islandTimeout req island => Sys2Proof.Machine.execIslandTimeout req island s
  | .masterReset scope bursts reads => Sys2Proof.Machine.execMasterReset scope bursts reads s
  | .drainComplete scope cycles => Sys2Proof.Machine.execDrainComplete scope cycles s
  | .pllLockLoss island => Sys2Proof.Machine.execPllLockLoss island s
  | .beatBoundary bad => Sys2Proof.Machine.execBeatBoundary bad s
  | .tbokLost island => Sys2Proof.Machine.execTbokLost island s
  | .timeBusRecompensation loopback => Sys2Proof.Machine.execTimeBusRecompensation loopback s
  | .tileStateReport tile => Sys2Proof.Machine.execTileStateReport tile s
  | .fabricSnapshot v => Sys2Proof.Machine.execFabricSnapshot v s
  | .fabricSnapshotCopy => Sys2Proof.Machine.execFabricSnapshotCopy s
  | .overpowerChange out port high => Sys2Proof.Machine.execOverpowerChange out port high s
  | .cueWrite cue word vals => Sys2Proof.Machine.execCueWrite cue word vals s
  | .patternWrite pat word vals => Sys2Proof.Machine.execPatternWrite pat word vals s
  | .patternCapture v => Sys2Proof.Machine.execPatternCapture v s
  | .patternCaptureDone => Sys2Proof.Machine.execPatternCaptureDone s
  | .portOwnershipWrite port v => Sys2Proof.Machine.execPortOwnershipWrite port v s
  | .partitionRangeWrite part pat v => Sys2Proof.Machine.execPartitionRangeWrite part pat v s
  | .partitionControlWrite part v => Sys2Proof.Machine.execPartitionControlWrite part v s
  | .monitorSample tile ch second code => Sys2Proof.Machine.execMonitorSample tile ch second code s
  | .lossOfLight out port => Sys2Proof.Machine.execLossOfLight out port s
  | .lightRegained out port => Sys2Proof.Machine.execLightRegained out port s
  | .holdoffExpiry input => Sys2Proof.Machine.execHoldoffExpiry input s
  | .batchRelease => Sys2Proof.Machine.execBatchRelease s
  | .solveComplete found ns => Sys2Proof.Machine.execSolveComplete found ns s
  | .resolveComplete batch found => Sys2Proof.Machine.execResolveComplete batch found s
  | .resolveDeadline batch => Sys2Proof.Machine.execResolveDeadline batch s
  | .winshareWrite n hi v => Sys2Proof.Machine.execWinshareWrite n hi v s
  | .policyCeilingWrite part v => Sys2Proof.Machine.execPolicyCeilingWrite part v s
  | .batchPlacement batch => Sys2Proof.Machine.execBatchPlacement batch s
  | .setpointSending tc => Sys2Proof.Machine.execSetpointSending tc s
  | .setpointArrival tc tile => Sys2Proof.Machine.execSetpointArrival tc tile s
  | .armPoint tc => Sys2Proof.Machine.execArmPoint tc s
  | .commitInstant tc => Sys2Proof.Machine.execCommitInstant tc s
  | .postponedApplication tc => Sys2Proof.Machine.execPostponedApplication tc s
  | .spanPassageStage cell => Sys2Proof.Machine.execSpanPassageStage cell s
  | .journalClose tc => Sys2Proof.Machine.execJournalClose tc s
  | .timedDeadlinePass batch => Sys2Proof.Machine.execTimedDeadlinePass batch s
  | .guardWindowOpen n => Sys2Proof.Machine.execGuardWindowOpen n s
  | .guardWindowClose n => Sys2Proof.Machine.execGuardWindowClose n s
  | .windowScheduleWrite n word v => Sys2Proof.Machine.execWindowScheduleWrite n word v s
  | .lmpAbort rq v => Sys2Proof.Machine.execLmpAbort rq v s
  | .lmpHoldWrite v => Sys2Proof.Machine.execLmpHoldWrite v s
  | .throttleBucketFill => Sys2Proof.Machine.execThrottleBucketFill s
  | .controlLaw tile => Sys2Proof.Machine.execControlLaw tile s
  | .heaterOffload tile => Sys2Proof.Machine.execHeaterOffload tile s
  | .cycleTrigger tile => Sys2Proof.Machine.execCycleTrigger tile s
  | .thermalBandArrival tile band => Sys2Proof.Machine.execThermalBandArrival tile band s
  | .freezeWrite tile v => Sys2Proof.Machine.execFreezeWrite tile v s
  | .loopStateWrite tile cell word v => Sys2Proof.Machine.execLoopStateWrite tile cell word v s
  | .factorWrite tile offset v => Sys2Proof.Machine.execFactorWrite tile offset v s
  | .cycleConfigWrite tile v => Sys2Proof.Machine.execCycleConfigWrite tile v s
  | .traceEnable tile v => Sys2Proof.Machine.execTraceEnable tile v s
  | .traceTrigger tile cause => Sys2Proof.Machine.execTraceTrigger tile cause s
  | .traceDataRead rq tile => Sys2Proof.Machine.execTraceDataRead rq tile s
  | .heaterUpdate tile readings => Sys2Proof.Machine.execHeaterUpdate tile readings s
  | .heaterFault tile cell => Sys2Proof.Machine.execHeaterFault tile cell s
  | .heaterFaultClear tile cell v => Sys2Proof.Machine.execHeaterFaultClear tile cell v s
  | .fadeStart tile len => Sys2Proof.Machine.execFadeStart tile len s
  | .fadeEnd tile => Sys2Proof.Machine.execFadeEnd tile s
  | .driveOverrideWrite tile cell v => Sys2Proof.Machine.execDriveOverrideWrite tile cell v s
  | .waveformWrite tile offset v => Sys2Proof.Machine.execWaveformWrite tile offset v s
  | .waveformBankSelect tile v => Sys2Proof.Machine.execWaveformBankSelect tile v s
  | .frameBoundary tile => Sys2Proof.Machine.execFrameBoundary tile s
  | .sequenceApply tile => Sys2Proof.Machine.execSequenceApply tile s
  | .channelConfigWrite tile ch v => Sys2Proof.Machine.execChannelConfigWrite tile ch v s
  | .monitorModeWrite tile v => Sys2Proof.Machine.execMonitorModeWrite tile v s
  | .urgentRequest tile v => Sys2Proof.Machine.execUrgentRequest tile v s
  | .urgentConversion tile adc slot assayer code => Sys2Proof.Machine.execUrgentConversion tile adc slot assayer code s
  | .selfCalibrationCommand tile v => Sys2Proof.Machine.execSelfCalibrationCommand tile v s
  | .adcCalibrationDone tile adc ok => Sys2Proof.Machine.execAdcCalibrationDone tile adc ok s
  | .conversionTrigger tile => Sys2Proof.Machine.execConversionTrigger tile s
  | .snapshotRequest tile v => Sys2Proof.Machine.execSnapshotRequest tile v s
  | .snapshotTrigger tile => Sys2Proof.Machine.execSnapshotTrigger tile s
  | .tallySnapshot tile => Sys2Proof.Machine.execTallySnapshot tile s
  | .channelClear tile word v => Sys2Proof.Machine.execChannelClear tile word v s
  | .fullcal => Sys2Proof.Machine.execFullcal s
  | .cellcal cell full => Sys2Proof.Machine.execCellcal cell full s
  | .save => Sys2Proof.Machine.execSave s
  | .calAbort => Sys2Proof.Machine.execCalAbort s
  | .calsrcSettled => Sys2Proof.Machine.execCalsrcSettled s
  | .backgroundVisit cell => Sys2Proof.Machine.execBackgroundVisit cell s
  | .measurementComplete cell m => Sys2Proof.Machine.execMeasurementComplete cell m s
  | .fullcalStageComplete => Sys2Proof.Machine.execFullcalStageComplete s
  | .calibrationCommitPlacement => Sys2Proof.Machine.execCalibrationCommitPlacement s
  | .saveComplete readBackOk => Sys2Proof.Machine.execSaveComplete readBackOk s
  | .tinkerWriteOperation cell => Sys2Proof.Machine.execTinkerWriteOperation cell s
  | .trimPulseRemeasure cell err => Sys2Proof.Machine.execTrimPulseRemeasure cell err s
  | .stuckClear v => Sys2Proof.Machine.execStuckClear v s
  | .perstDeassert link => Sys2Proof.Machine.execPerstDeassert link s
  | .functionConfigWrite link f word v => Sys2Proof.Machine.execFunctionConfigWrite link f word v s
  | .ringConfigure ring v => Sys2Proof.Machine.execRingConfigure ring v s
  | .ringEnable ring v => Sys2Proof.Machine.execRingEnable ring v s
  | .ringDisable ring v => Sys2Proof.Machine.execRingDisable ring v s
  | .doorbell link f ring v => Sys2Proof.Machine.execDoorbell link f ring v s
  | .submitFetch ring entries => Sys2Proof.Machine.execSubmitFetch ring entries s
  | .nop ring => Sys2Proof.Machine.execNop ring s
  | .cues ring => Sys2Proof.Machine.execCues ring s
  | .abort ring => Sys2Proof.Machine.execAbort ring s
  | .cqSpaceFreed ring => Sys2Proof.Machine.execCqSpaceFreed ring s
  | .interruptTimer ring => Sys2Proof.Machine.execInterruptTimer ring s
  | .dmaErrorCompletion ring poisoned => Sys2Proof.Machine.execDmaErrorCompletion ring poisoned s
  | .poisonedWrite a => Sys2Proof.Machine.execPoisonedWrite a s
  | .busMasterEnable link f => Sys2Proof.Machine.execBusMasterEnable link f s
  | .functionLevelReset link f => Sys2Proof.Machine.execFunctionLevelReset link f s
  | .hotReset link => Sys2Proof.Machine.execHotReset link s
  | .streamEnable stream v => Sys2Proof.Machine.execStreamEnable stream v s
  | .telemetryEmission stream changed => Sys2Proof.Machine.execTelemetryEmission stream changed s
  | .shaperFill => Sys2Proof.Machine.execShaperFill s
  | .policerFill => Sys2Proof.Machine.execPolicerFill s
  | .shaperControlWrite part shape v => Sys2Proof.Machine.execShaperControlWrite part shape v s
  | .shaperDebtClear part v => Sys2Proof.Machine.execShaperDebtClear part v s
  | .linkModeWrite net v => Sys2Proof.Machine.execLinkModeWrite net v s
  | .frameReceived net bytes fcsOk secy landPs => Sys2Proof.Machine.execFrameReceived net bytes fcsOk secy landPs s
  | .recirculate => Sys2Proof.Machine.execRecirculate s
  | .bankSwap v => Sys2Proof.Machine.execBankSwap v s
  | .sessionWrite n word v => Sys2Proof.Machine.execSessionWrite n word v s
  | .read n => Sys2Proof.Machine.execRead n s
  | .write n => Sys2Proof.Machine.execWrite n s
  | .submit n => Sys2Proof.Machine.execSubmit n s
  | .ngcpAbort n => Sys2Proof.Machine.execNgcpAbort n s
  | .keepalive n => Sys2Proof.Machine.execKeepalive n s
  | .notify n => Sys2Proof.Machine.execNotify n s
  | .notifyAck n seq => Sys2Proof.Machine.execNotifyAck n seq s
  | .notifyRetransmit n => Sys2Proof.Machine.execNotifyRetransmit n s
  | .epochStart => Sys2Proof.Machine.execEpochStart s
  | .epochEnd => Sys2Proof.Machine.execEpochEnd s
  | .heartbeat path => Sys2Proof.Machine.execHeartbeat path s
  | .activePathFailure cause => Sys2Proof.Machine.execActivePathFailure cause s
  | .switchoverUp gapCycles => Sys2Proof.Machine.execSwitchoverUp gapCycles s
  | .tiebreak => Sys2Proof.Machine.execTiebreak s
  | .watchmanRound a b => Sys2Proof.Machine.execWatchmanRound a b s
  | .switch => Sys2Proof.Machine.execSwitch s
  | .release path => Sys2Proof.Machine.execRelease path s
  | .incrementWrite v => Sys2Proof.Machine.execIncrementWrite v s
  | .adjustmentStart v => Sys2Proof.Machine.execAdjustmentStart v s
  | .adjustmentEnd => Sys2Proof.Machine.execAdjustmentEnd s
  | .set => Sys2Proof.Machine.execSet s
  | .step => Sys2Proof.Machine.execStep s
  | .stepApply => Sys2Proof.Machine.execStepApply s
  | .compareArm unit v => Sys2Proof.Machine.execCompareArm unit v s
  | .compareFire unit => Sys2Proof.Machine.execCompareFire unit s
  | .ptpTimeout => Sys2Proof.Machine.execPtpTimeout s
  | .ppsoutPulse => Sys2Proof.Machine.execPpsoutPulse s
  | .ppsinEdge => Sys2Proof.Machine.execPpsinEdge s
  | .ppsinLoss => Sys2Proof.Machine.execPpsinLoss s
  | .powerRequestP0 rq repl => Sys2Proof.Machine.execPowerRequestP0 rq repl s
  | .powerRequestP1 rq repl => Sys2Proof.Machine.execPowerRequestP1 rq repl s
  | .powerRequestP2 rq repl => Sys2Proof.Machine.execPowerRequestP2 rq repl s
  | .powerRequestP3 rq repl => Sys2Proof.Machine.execPowerRequestP3 rq repl s
  | .tgsleep rq repl mask => Sys2Proof.Machine.execTgsleep rq repl mask s
  | .tgwake rq repl mask => Sys2Proof.Machine.execTgwake rq repl mask s
  | .entryStepComplete => Sys2Proof.Machine.execEntryStepComplete s
  | .blockRefusal reason => Sys2Proof.Machine.execBlockRefusal reason s
  | .p2Timeout => Sys2Proof.Machine.execP2Timeout s
  | .wakeEvent src => Sys2Proof.Machine.execWakeEvent src s
  | .wakeReplay => Sys2Proof.Machine.execWakeReplay s
  | .driveReturn found => Sys2Proof.Machine.execDriveReturn found s
  | .tileGroupWakeComplete tg => Sys2Proof.Machine.execTileGroupWakeComplete tg s
  | .sensorSample sensor raw => Sys2Proof.Machine.execSensorSample sensor raw s
  | .sensorFault sensor => Sys2Proof.Machine.execSensorFault sensor s
  | .risecrit sensor => Sys2Proof.Machine.execRisecrit sensor s
  | .sensorClear v => Sys2Proof.Machine.execSensorClear v s
  | .thresholdWrite v => Sys2Proof.Machine.execThresholdWrite v s
  | .creditUpdate railMw portMw => Sys2Proof.Machine.execCreditUpdate railMw portMw s
  | .shutCut sensor => Sys2Proof.Machine.execShutCut sensor s
  | .powerOn => Sys2Proof.Machine.execPowerOn s
  | .powerGood rail => Sys2Proof.Machine.execPowerGood rail s
  | .sequenceFailure rail => Sys2Proof.Machine.execSequenceFailure rail s
  | .sequenceRetry => Sys2Proof.Machine.execSequenceRetry s
  | .undervoltage rail => Sys2Proof.Machine.execUndervoltage rail s
  | .moduleReset => Sys2Proof.Machine.execModuleReset s
  | .swrst => Sys2Proof.Machine.execSwrst s
  | .bootRomStart bifsel engineOk => Sys2Proof.Machine.execBootRomStart bifsel engineOk s
  | .imageVerified a b => Sys2Proof.Machine.execImageVerified a b s
  | .bootPhaseComplete banks wear => Sys2Proof.Machine.execBootPhaseComplete banks wear s
  | .calwaitExpiry => Sys2Proof.Machine.execCalwaitExpiry s
  | .up => Sys2Proof.Machine.execUp s
  | .locklate => Sys2Proof.Machine.execLocklate s
  | .report => Sys2Proof.Machine.execReport s
  | .cert => Sys2Proof.Machine.execCert s
  | .attestationDone window => Sys2Proof.Machine.execAttestationDone window s
  | .sealData => Sys2Proof.Machine.execSeal s
  | .keyRevocation v => Sys2Proof.Machine.execKeyRevocation v s
  | .debugUnlock tokenOk => Sys2Proof.Machine.execDebugUnlock tokenOk s
  | .erase => Sys2Proof.Machine.execErase s
  | .prog => Sys2Proof.Machine.execProg s
  | .verify => Sys2Proof.Machine.execVerify s
  | .flashCommandDone outcome => Sys2Proof.Machine.execFlashCommandDone outcome s
  | .scrubRead sweep addr check mem reader => Sys2Proof.Machine.execScrubRead sweep addr check mem reader s
  | .unfence tile => Sys2Proof.Machine.execUnfence tile s
  | .unfenceComplete tile locked sound => Sys2Proof.Machine.execUnfenceComplete tile locked sound s
  | .fatal => Sys2Proof.Machine.execFatal s
  | .watchdog core => Sys2Proof.Machine.execWatchdog core s
  | .dumpComplete silent fw => Sys2Proof.Machine.execDumpComplete silent fw s
  | .dumpStall => Sys2Proof.Machine.execDumpStall s
  | .dumpDataRead rq => Sys2Proof.Machine.execDumpDataRead rq s
  | .netLinkChange net blockLock fecLock => Sys2Proof.Machine.execNetLinkChange net blockLock fecLock s
  | .pcieLinkUp link width speed flit => Sys2Proof.Machine.execPcieLinkUp link width speed flit s
  | .standbyHeartbeatLoss => Sys2Proof.Machine.execStandbyHeartbeatLoss s
  | .restErrorMeasurement cell => Sys2Proof.Machine.execRestErrorMeasurement cell s
  | .restErrorMeasured cell err => Sys2Proof.Machine.execRestErrorMeasured cell err s
  | .autosave => Sys2Proof.Machine.execAutosave s
  | .sealingDone => Sys2Proof.Machine.execSealingDone s
  | .delayReqTransmit net landPs => Sys2Proof.Machine.execDelayReqTransmit net landPs s
  | .wearLogProgrammed => Sys2Proof.Machine.execWearLogProgrammed s

end Sys2Proof.Machine
end

