-- ==== Sys2Proof/WellFormed.lean ====
section
/-! DEFINITION. The shapes of commands that the spec's tables admit: what the type of an operand does not already say. -/

namespace Sys2Proof

/-- A matrix request of any size and alignment, a write carrying its words; those that break R17 go to the default target. -/
def Access.wf (x : Access) : Bool :=
  decide (1 ≤ x.size) && decide (x.size ≤ 4096) && x.data.length == (if x.write then (x.size + 3) / 4 else 0)

/-- A requester of Table 1-3: an internal master is one of 6 to 11. -/
def Requester.wf : Requester → Bool
  | .internal m => decide (6 ≤ m.val) && decide (m.val ≤ 11)
  | _ => true

/-- A write burst: 32-byte beats that start on a word, at most 4 KiB in all (chapter 1, The bus matrix). -/
def Burst.wf (b : Burst) : Bool :=
  b.rq.wf && b.addr % 4 == 0 && b.beats.length % 8 == 0 && decide (b.beats.length + 8 * b.undelivered ≤ 1024)

/-- Traffic in flight: bursts, and reads that were performed. -/
def trafficWf (bs : List Burst) (rs : List Access) : Bool := bs.all Burst.wf && rs.all fun x => x.rq.wf && x.wf && !x.write

/-- A route gives a state to the cell of every stage (R37). -/
def Route.wf (r : Route) : Bool := r.cross.length == 19

/-- A search outcome whose routes are whole. -/
def Candidate.wf (c : Candidate) : Bool := c.routes.all Route.wf && c.alts.all fun a => a.2.wf

/-- The value a measurement gives for word `w` of a cell block. -/
def Measured.cellWord (m : Measured) (w : Nat) : Option Word :=
  (m.factors.find? fun p => decide (0x800 ≤ p.1) && decide (p.1 < 0x1B00) && p.1 % 64 == 4 * w).map (·.2)

/-- KD × 2^−SHKD = 32 / (2π·δ) to within 0.1 %, with δ in µrad (R210). -/
def kdFits (kd shkd delta : Nat) : Bool :=
  let lhs := kd * 2 * 3141592654 * delta
  let rhs := 32 * 10 ^ 15 * 2 ^ shkd
  decide (999 * rhs ≤ 1000 * lhs) && decide (1000 * lhs ≤ 1001 * rhs)

/-- Staged factor words are named by aligned tile-window offsets; δ lies between 6 and 10 mrad; DAMP, SHKD and KD come together, and fit
δ (R210). -/
def Measured.wf (m : Measured) : Bool :=
  m.factors.all (fun p => p.1 % 4 == 0 && decide (p.1 < 0x40000)) && decide (6000 ≤ m.delta) && decide (m.delta ≤ 10000) &&
    match m.cellWord 1, m.cellWord 2 with
    | some d, some k => kdFits k.toNat (d.toNat / 65536 % 32) m.delta
    | none, none => true
    | _, _ => false

/-- An image: 8 words of header and of STARTUP, 6 areas, blobs of 20 words, and no content for an optional section that is absent
(R368, Tables 17-3 to 17-6). -/
def Image.wf (m : Image) : Bool :=
  m.header.length == 8 && m.startup.length == 8 && m.nvm.length == 6 && m.blobs.all (fun b => b.length == 20) &&
    (m.sections.contains 5 || m.regwr.isEmpty) && (m.sections.contains 6 || m.blobs.isEmpty)

/-- A slot as read: an image of that shape, a digest of 8 words (R368), and a reason that the image's own words do not decide (R371). -/
def SlotRead.wf (x : SlotRead) : Bool := x.image.wf && x.digest.length == 8 && [0, 1, 3, 5, 6, 8].contains x.reason.val

/-- A command of the shape its row asks for. -/
def Instr.wf : Instr → Bool
  | .registerWrite rq a _ | .rcRead rq a | .latchedLowRead rq a | .tallyHighRead rq a => rq.wf && decide (a < 2 ^ 32)
  | .matrixRequest xs => xs.all fun x => x.rq.wf && x.wf
  | .islandTimeout x _ => x.rq.wf && x.wf
  | .poisonedWrite x => x.rq.wf && x.wf && x.write
  | .masterReset _ bs rs => trafficWf bs rs
  | .functionLevelReset x _ | .hotReset x => trafficWf x.bursts x.reads
  | .cueWrite _ w vs => decide (1 ≤ vs.length) && decide (w.val + vs.length ≤ 8)
  | .patternWrite _ w vs => decide (1 ≤ vs.length) && decide (w.val + vs.length ≤ 512) && decide (vs.length ≤ 16)
  | .solveComplete cs ns => cs.all Candidate.wf && decide (ns ≤ 5000)
  | .resolveComplete _ cs | .driveReturn cs => cs.all Candidate.wf
  | .factorWrite _ o _ | .waveformWrite _ o _ => o % 4 == 0 && decide (o < 0x40000)
  | .measurementComplete _ m => m.wf
  | .heaterUpdate _ rs => (rs.map (·.cell)).Nodup
  | .fadeStart _ (some n) => decide (1 ≤ n) && decide (n ≤ 65535)
  | .submitFetch _ es => decide (es.length ≤ 16) && es.all fun e => e.length == 8
  | .imageVerified a b => a.wf && b.wf
  | .bootPhaseComplete bs _ => bs.length == 2
  | .attestationDone w => w.length == 8192
  | .scrubRead sweep _ _ _ reader => if sweep then reader.isNone else reader.any Requester.wf
  | .lmpAbort rq _ | .traceDataRead rq _ | .dumpDataRead rq | .powerRequestP0 rq _ | .powerRequestP1 rq _ | .powerRequestP2 rq _
  | .powerRequestP3 rq _ | .tgsleep rq _ _ | .tgwake rq _ _ => rq.wf
  | _ => true

end Sys2Proof
end

