-- ==== Sys2Proof/Safety.lean ====
section
/-! DEFINITION. What counts as a safe state and a safe step, in the terms the statements use. -/

namespace Sys2Proof.Machine

/-- The word stores and the memories are in canonical form: addresses rise, and no entry equals what an unlisted address reads as. -/
def State.canonical (s : State) : Bool := Store.wf resetWord s.words && Store.wf resetWord s.live && Store.wf memDefault s.mem

/-- Memory is in canonical form. -/
abbrev Memory.wf (m : List Host.Cell) : Bool := Store.wf memDefault m

/-- A step that answers a state: it neither faults nor refuses. -/
def Runs (r : Host.Outcome State Fault Refusal) : Prop := ∃ t, r = .next t

/-- Between `s` and `t` only the words `as` changed, and the poison marks on them: every other word reads as before, and nothing else of
the state (memory, copies in force, queue, outputs, the block's hidden state) changed at all. -/
def OnlyWords (as : List Nat) (s t : State) : Prop :=
  (∀ a, a ∉ as → t.rd a = s.rd a ∧ (a ∈ t.poisoned ↔ a ∈ s.poisoned)) ∧ t = { s with words := t.words, poisoned := t.poisoned }

/-- A word of the ring descriptors (Table 10-16), where PI and DROPCNT move when an EVENT entry is delivered. -/
def isRingWord (a : Nat) : Bool := decide (0x1800000 ≤ a) && decide (a < 0x1900000)

/-- Between `s` and `t` only the words `as` changed, beside what the delivery of EVENT entries changes: ring descriptors, rings, session
queues, pending MSI-X vectors and outputs (R250, R251, R254, R290). -/
def WordsAndEvents (as : List Nat) (s t : State) : Prop :=
  (∀ a, a ∉ as → (isRingWord a = false → t.rd a = s.rd a) ∧ (a ∈ t.poisoned ↔ a ∈ s.poisoned)) ∧
    t = { s with words := t.words, poisoned := t.poisoned, rings := t.rings, sess := t.sess, fnCfg := t.fnCfg, out := t.out }

/-- What has been sent stays sent: `t` has sent what `s` had, and perhaps more. -/
def Extends (s t : State) : Prop := ∃ l, t.out = l ++ s.out

end Sys2Proof.Machine
end

