-- ==== Sys2Proof/Certificates/Slice0/Obligations.lean ====
section
/-! DEFINITION. The statements about the model, for the provers. A statement about a command says the state it answers with: what its own
effect gives (the words, the hidden state, the outputs), and in its frame what stays (`OnlyWords` and `WordsAndEvents` of Safety.lean:
every other word and every other field of the state, memory among them). -/

open Sys2Proof Sys2Proof.Machine

/-! ## The whole machine -/

/-- At reset every store is in canonical form. -/
def Obligations.ResetCanonical : Prop := State.reset.canonical = true

/-- At reset: device time 0 (R309), the queue empty, every word at its reset value, every byte of memory as nothing has written it, no
cue, batch, commit or alternate held, nothing sent, and both Tollkeeper buckets of every partition full (R263, R271). The bytes' value is
the model's own choice (log entry 2), and this says nothing of it. -/
def Obligations.ResetState : Prop :=
  State.reset.now = 0 ∧ State.reset.pending = [] ∧ State.reset.out = [] ∧ State.reset.batches = [] ∧ State.reset.commits = [] ∧
    State.reset.alts = [] ∧ (∀ a, State.reset.rd a = resetWord a) ∧ (∀ a, State.reset.rdLive a = resetWord a) ∧
    (∀ a, State.reset.byte a = memDefault a) ∧ ∀ p, State.reset.tollPart p = ⟨0, none, 8192000, 8192000⟩

/-- Whatever the state, a step keeps the stores canonical. -/
def Obligations.StepKeepsCanonical : Prop :=
  ∀ s t : State, s.canonical = true → step s = .next t → t.canonical = true

/-- Every command runs to a next state from every state, and leaves the queue to the step: none faults, none is refused. Where the model
had to choose: log entry 3. -/
def Obligations.EveryCommandAnswers : Prop :=
  ∀ (c : Instr) (s : State), ∃ t, exec c s = .next t ∧ t.pending = s.pending ∧ Extends s t ∧ s.fresh ≤ t.fresh ∧
    (s.canonical = true → t.canonical = true)

/-- A step runs the command at the front of the queue on the state with the queue's rest; with nothing waiting it is one tick of the
timekeeper (the model's choice, log entry 1). -/
def Obligations.StepRunsTheFront : Prop :=
  (∀ (c : Instr) (cs : List Instr) (s : State), step { s with pending := c :: cs } = exec c { s with pending := cs }) ∧
    ∀ s : State, s.pending = [] → step s = .next s.tick

/-- A tick adds the increment in force to device time, modulo 2^48 s; during an adjustment it adds TIM_ADJINCR instead and TIM_ADJCNT
falls by one, ADJ clearing as it reaches 0 (R309, R311). That a tick is what a step on an empty queue does is the model's choice (log
entry 1). -/
def Obligations.TickAdvancesTime : Prop :=
  ∀ s : State, s.pending = [] → s.incrAt = [] → s.adjAt = none →
    (s.bit Reg.TIM_STAT 30 = false →
      step s = .next { s with now := (s.now + (s.rdLive Reg.TIM_INCR).toNat) % (2 ^ 48 * 1000000000 * nsUnit) }) ∧
    (s.bit Reg.TIM_STAT 30 = true → s.rd Reg.TIM_ADJCNT ≠ 0#32 → ∃ t, step s = .next t ∧
      t.now = (s.now + (s.rdLive Reg.TIM_ADJINCR).toNat) % (2 ^ 48 * 1000000000 * nsUnit) ∧
      t.rd Reg.TIM_ADJCNT = s.rd Reg.TIM_ADJCNT - 1#32 ∧
      (t.bit Reg.TIM_STAT 30 = true ↔ s.rd Reg.TIM_ADJCNT ≠ 1#32) ∧
      OnlyWords [Reg.TIM_ADJCNT, Reg.TIM_STAT] { s with now := t.now } t)

/-! ## Words and memory -/

/-- A write of a register, bit by bit (R4, R5): a bit written one at a W1S field is 1; else one written one at a W1C field is 0; else an RW
bit takes the value written, where every field rule that covers it admits the write; every other bit (RO, RC, WO, reserved) keeps its
value. R5: a field that the write gives an encoding marked as reserved keeps its value, whatever the others take. No other word
changes. -/
def Obligations.WritesByAccess : Prop :=
  ∀ (s : State) (a : Nat) (ix : List Nat) (e : RegEntry) (v : Word), RegMap.find a = some (e, ix) →
    (∀ i, i < 32 → (∀ r ∈ e.rules, r.lo ≤ i → i ≤ r.hi → r.admits v = true) →
      ((s.writeReg a v).rd a).getLsbD i =
        if (BitVec.ofNat 32 e.w1s).getLsbD i && v.getLsbD i then true
        else if (BitVec.ofNat 32 e.w1c).getLsbD i && v.getLsbD i then false
        else if (BitVec.ofNat 32 e.rw).getLsbD i then v.getLsbD i
        else (s.rd a).getLsbD i) ∧
    (∀ (r : FieldRule) (i : Nat), r ∈ e.rules → r.admits v = false → r.lo ≤ i → i ≤ r.hi → i < 32 →
      (BitVec.ofNat 32 e.w1s).getLsbD i = false → (BitVec.ofNat 32 e.w1c).getLsbD i = false →
      ((s.writeReg a v).rd a).getLsbD i = (s.rd a).getLsbD i) ∧
    ∀ b, b ≠ a → (s.writeReg a v).rd b = s.rd b

/-- A word of memory reads as it was written, little-endian (R6), and every byte outside its four is untouched, as is every register. -/
def Obligations.MemoryWordLittleEndian : Prop :=
  ∀ (s : State) (a : Nat) (v : Word),
    (s.putMemWord a v).memWord a = v ∧ (s.putMemWord a v).byte a = v.extractLsb' 0 8 ∧
      (s.putMemWord a v).byte (a + 3) = v.extractLsb' 24 8 ∧
      (∀ b, b < a ∨ a + 4 ≤ b → (s.putMemWord a v).byte b = s.byte b) ∧ ∀ b, (s.putMemWord a v).rd b = s.rd b

/-- An ERRSTAT bit raised (R250): it reads 1, nothing else of the register changes, and the event goes out only on its rise; beside that
register only what events change is touched. -/
def Obligations.ErrorBitRises : Prop :=
  ∀ (s : State) (a i : Nat), i < 32 → isRingWord a = false →
    (s.err a i).bit a i = true ∧ (∀ j, j < 32 → j ≠ i → (s.err a i).bit a j = s.bit a j) ∧ WordsAndEvents [a] s (s.err a i) ∧
      (s.bit a i = true → s.err a i = s) ∧ (s.bit a i = false → s.err a i = (s.wrBit a i true).eventMgmt (s.errEntry a i))

/-! ## Chapter 1: the matrix, islands and the time bus -/

/-- A request that fails a test of R24 is answered by the default target: nothing of the state changes but the matrix's error log and what
events change; its cause bit is set, and with no capture held its address is captured (R25). A request that passed the tests before and
reaches TOUT at the island that holds its address (R22) is answered by the default target: the cause bit is set, and where that island is
a hub, or fenced or asleep already, nothing changes but the error log and what events change; any other tile is fenced. A request to
another island does not reach TOUT there. -/
def Obligations.RefusedRequestsChangeNothing : Prop :=
  (∀ (s : State) (rq : Requester) (a : Nat) (v : Word) (c i : Nat), s.off = false → s.isDraining rq = false →
    s.fails rq false true a 4 = some (c, i) → ∃ t, exec (.registerWrite rq a v) s = .next t ∧
      WordsAndEvents [Reg.MTX_ERRSTAT, Reg.MTX_ERRADDR, Reg.MTX_ERRINFO] s t ∧ t.bit Reg.MTX_ERRSTAT c = true ∧
      (s.rdf Reg.MTX_ERRSTAT 0 4 = 0 → t.rd Reg.MTX_ERRADDR = wd a ∧ t.rdf Reg.MTX_ERRINFO 0 4 = masterOf rq ∧ t.bit Reg.MTX_ERRINFO 9 = true)) ∧
  (∀ (s : State) (x : Access) (i : Fin 69), s.off = false → s.isDraining x.rq = false →
    s.failsBefore x.rq x.bar2 x.write x.addr x.size = none →
    (i.val = (if x.bar2 then 64 else islandOf x.addr) → (s.silent i = true ∨ 64 ≤ i.val) → ∃ t, exec (.islandTimeout x i) s = .next t ∧
      WordsAndEvents [Reg.MTX_ERRSTAT, Reg.MTX_ERRADDR, Reg.MTX_ERRINFO] s t ∧ t.bit Reg.MTX_ERRSTAT 3 = true) ∧
    (i.val = (if x.bar2 then 64 else islandOf x.addr) → s.silent i = false → i.val < 64 → ∃ t, exec (.islandTimeout x i) s = .next t ∧
      t.bit Reg.MTX_ERRSTAT 3 = true ∧ t.bit (Reg.MTX_ISLSTAT i) 1 = true ∧ t.bit (Reg.MTX_ISLSTAT i) 2 = false) ∧
    (i.val ≠ (if x.bar2 then 64 else islandOf x.addr) → exec (.islandTimeout x i) s = .next s))

/-- The four ways a 4-byte request that passes the tests of R24 is served: a write goes to the word's block (R4, R5), an RC field or a
data word is read once, the low half of a 64-bit tally loads the requester's latch and the high half gives what was latched (R201,
R421). A read clears the RC fields of the word it serves and no other bit: HIF_FNCFG W3's CQLOST, read by a management core (R4). A
request of more than a word writes its words from its address on, or reads them and answers with all of them. The accesses of a burst
are judged and served one after the other, each on its own (R19, R24): a burst is its first part and then its rest. -/
def Obligations.RequestsAreServed : Prop :=
  (∀ (s : State) (rq : Requester) (a : Nat) (v : Word), s.off = false → s.isDraining rq = false →
    (s.fails rq false true a 4 = none → exec (.registerWrite rq a v) s = .next (s.writeWord rq a v)) ∧
    (s.fails rq false false a 4 = none → a ∉ s.poisoned → ∃ t, exec (.rcRead rq a) s = .next t ∧
      t = (s.readWord rq true a).2.send (.readData rq [(s.readWord rq true a).1])) ∧
    (s.fails rq false false a 4 = none → a ∉ s.poisoned → a % 8 = 0 → isTalHalf a = true → ∃ t, exec (.latchedLowRead rq a) s = .next t ∧
      t.out = .readData rq [s.rd a] :: s.out ∧ t.latchOf rq (talKey a) (a + 4) = some (s.rd (a + 4)) ∧
      t = { s with out := t.out, latches := t.latches }) ∧
    (s.fails rq false false a 4 = none → a ∉ s.poisoned → a % 8 = 4 → isTalHalf a = true → s.latchOf rq (talKey a) a = some v →
      ∃ t, exec (.tallyHighRead rq a) s = .next t ∧ t.out = .readData rq [v] :: s.out ∧ t.latchOf rq (talKey a) a = none ∧
      t = { s with out := t.out, latches := t.latches })) ∧
  (∀ (s : State) (n : Fin 4) (g : Nat), g < 68 → s.off = false → s.isDraining (.core n) = false → s.silent 64 = false →
    Reg.HIF_FNCFG_W3 g ∉ s.poisoned → ∃ t, exec (.rcRead (.core n) (Reg.HIF_FNCFG_W3 g)) s = .next t ∧
      t.out = .readData (.core n) [s.rd (Reg.HIF_FNCFG_W3 g)] :: s.out ∧ t.rdf (Reg.HIF_FNCFG_W3 g) 0 16 = 0 ∧
      t.rdf (Reg.HIF_FNCFG_W3 g) 16 16 = s.rdf (Reg.HIF_FNCFG_W3 g) 16 16 ∧
      OnlyWords [Reg.HIF_FNCFG_W3 g] { s with out := t.out } t) ∧
  (∀ (s : State) (rq : Requester) (a n : Nat) (vs : List Word), s.off = false → s.isDraining rq = false →
    (s.fails rq false true a n = none → vs.length = n / 4 →
      exec (.matrixRequest [⟨rq, false, true, a, n, vs⟩]) s = .next (s.writeWordsAt rq a vs)) ∧
    (s.fails rq false false a n = none → (∀ b, b ∈ wordsAt a n → b ∉ s.poisoned) → ∃ t,
      exec (.matrixRequest [⟨rq, false, false, a, n, []⟩]) s = .next t ∧
        t = (s.readWords rq (n == 4) (wordsAt a n)).2.send (.readData rq (s.readWords rq (n == 4) (wordsAt a n)).1)) ∧
    (∀ c i, s.fails rq false false a n = some (c, i) → ∃ t, exec (.matrixRequest [⟨rq, false, false, a, n, []⟩]) s = .next t ∧
      t.bit Reg.MTX_ERRSTAT c = true ∧ WordsAndEvents [Reg.MTX_ERRSTAT, Reg.MTX_ERRADDR, Reg.MTX_ERRINFO] s t)) ∧
  (∀ (xs ys : List Access) (s : State), exec (.matrixRequest []) s = .next s ∧
    ∃ t, exec (.matrixRequest xs) s = .next t ∧ exec (.matrixRequest (xs ++ ys)) s = exec (.matrixRequest ys) t)

/-- A reset of a master that has no traffic in flight begins its drain and changes nothing else, whatever other masters have in flight; the
drain's end logs what was discarded in MTX_DRAINLOG, sets DRAIN and lets the port accept requests again (R26, R27). While a port drains,
its requests are answered by the default target and change nothing. -/
def Obligations.MasterResetDrains : Prop :=
  ∀ (s : State) (k : ResetScope) (bursts : List Burst) (reads : List Access) (cyc : Fin 257),
    ((∀ b, b ∈ bursts → scopeCovers k b.rq = false) → (∀ x, x ∈ reads → scopeCovers k x.rq = false) →
      exec (.masterReset k bursts reads) s = .next { s with draining := (s.draining.filter fun d => d.1 != k) ++ [(k, 0, 0)] }) ∧
    (∀ rq a v, s.isDraining rq = true → s.off = false → ∃ t, exec (.registerWrite rq a v) s = .next t ∧ t = { s with out := t.out }) ∧
    ∀ d, s.draining.find? (fun d => d.1 == k) = some d → ∃ t, exec (.drainComplete k cyc) s = .next t ∧
      t.draining = s.draining.filter (fun x => x.1 != k) ∧ t.rdf Reg.MTX_DRAINLOG 9 8 = min d.2.1 255 ∧
      t.rdf Reg.MTX_DRAINLOG 17 6 = min d.2.2 63 ∧ t.rdf Reg.MTX_DRAINLOG 23 9 = cyc.val ∧ t.bit Reg.MTX_ERRSTAT 4 = true ∧
      WordsAndEvents [Reg.MTX_DRAINLOG, Reg.MTX_ERRSTAT] { s with draining := t.draining } t

/-- A powered hub island whose PLL loses lock fences itself: LOCK 0, FENCED 1, TBOK 0, and nothing else changes (R11); a tile shows the
same, and its cells are FENCED with their state, band and outputs held. The time bus (R12, R13): a good beat sets TBOK of a powered island
with lock that is not fenced, the fourth bad one in a row clears it and one before keeps it, and a recompensation outside a commit writes
half the loopback delay; nothing else changes but the status words of commits, where no protected circuit waits for TBOK (R133). Where
the model had to choose: log entries 18, 19, 109 and 110. -/
def Obligations.IslandsAndTimeBus : Prop :=
  (∀ (s : State) (i : Fin 69), 64 ≤ i.val → s.powered i = true → ∃ t, exec (.pllLockLoss i) s = .next t ∧
    t.bit (Reg.MTX_ISLSTAT i) 0 = false ∧ t.bit (Reg.MTX_ISLSTAT i) 1 = true ∧ t.bit (Reg.MTX_ISLSTAT i) 2 = false ∧
    OnlyWords [Reg.MTX_ISLSTAT i] s t) ∧
  (∀ (s : State) (i : Fin 69), i.val < 64 → s.powered i = true → s.bit (Reg.MTX_ISLSTAT i) 1 = false → ∃ t, exec (.pllLockLoss i) s = .next t ∧
    t.bit (Reg.MTX_ISLSTAT i) 0 = false ∧ t.bit (Reg.MTX_ISLSTAT i) 1 = true ∧ t.bit (Reg.MTX_ISLSTAT i) 2 = false ∧
    ∀ l, l < 76 → let c := cellOf i l
      t.cell c = { s.cell c with mode := 5 } ∧ t.pbase c = s.pbase c ∧ t.hcode c = s.hcode c) ∧
  (∀ (s : State) (i : Fin 69),
    ((s.tbBad = false ∨ (s.ckts.any fun c => c.peer.isSome) = false) → ∃ t, exec (.beatBoundary []) s = .next t ∧
      (s.powered i = true → s.bit (Reg.MTX_ISLSTAT i) 0 = true → s.bit (Reg.MTX_ISLSTAT i) 1 = false → t.bit (Reg.MTX_ISLSTAT i) 2 = true) ∧
      OnlyWords ((List.range 69).map Reg.MTX_ISLSTAT ++ [Reg.LMP_STAT, Reg.LMP_ARMTIME, Reg.WHL_STAT, Reg.TOL_STAT])
        { s with badBeats := t.badBeats } t) ∧
    (s.tbBad = false → s.powered i = true → s.bit (Reg.MTX_ISLSTAT i) 0 = true → s.bit (Reg.MTX_ISLSTAT i) 1 = false → ∃ t,
      exec (.beatBoundary [i]) s = .next t ∧ Store.get 0 t.badBeats i = min (Store.get 0 s.badBeats i + 1) 4 ∧
      t.bit (Reg.MTX_ISLSTAT i) 2 = (s.bit (Reg.MTX_ISLSTAT i) 2 && decide (Store.get 0 s.badBeats i < 3))) ∧
    (s.powered i = true → 3 ≤ Store.get 0 s.badBeats i → ∃ t, exec (.tbokLost i) s = .next t ∧ t.bit (Reg.MTX_ISLSTAT i) 2 = false ∧
      OnlyWords [Reg.MTX_ISLSTAT i, Reg.LMP_STAT, Reg.LMP_ARMTIME, Reg.WHL_STAT, Reg.TOL_STAT] { s with badBeats := t.badBeats } t) ∧
    (Store.get 0 s.badBeats i < 3 → exec (.tbokLost i) s = .next s) ∧
    ∀ d : Fin 512, s.powered i = true → s.commitInFlight = false → ∃ t, exec (.timeBusRecompensation [(i, d)]) s = .next t ∧
      t.rdf (Reg.MTX_ISLSTAT i) 8 8 = d.val / 2 ∧ OnlyWords [Reg.MTX_ISLSTAT i] { s with tbStart := t.tbStart } t)

/-! ## Chapters 2 and 3: the fabric, cues, patterns, partitions, light -/

/-- OVER of a port's map entry follows its comparator, the other bits of the entry kept (R53). A snapshot asked for shows SNAP; with no
update in progress the copy takes the whole live table and its sequence number and clears SNAP, and nothing outside the snapshot
changes (R46). -/
def Obligations.FabricTable : Prop :=
  (∀ (s : State) (out : Bool) (k : Fin 512) (high : Bool), ∃ t, exec (.overpowerChange out k high) s = .next t ∧
    t.rd (mapWord out k) = putBit (s.rd (mapWord out k)) 29 high ∧ WordsAndEvents [mapWord out k] s t ∧
    ((high = false ∨ s.bit (mapWord out k) 29 = true) → OnlyWords [mapWord out k] s t)) ∧
  (∀ s : State,
    (∀ v : Word, wbit v 0 = true → ∃ t, exec (.fabricSnapshot v) s = .next t ∧ t.bit Reg.CIR_FSCTRL 0 = true ∧ OnlyWords [Reg.CIR_FSCTRL] s t) ∧
    (s.bit Reg.CIR_FSCTRL 0 = true → s.fsOpen = false → ∃ t, exec .fabricSnapshotCopy s = .next t ∧
      (∀ k, k < 512 → t.rd (Reg.CIR_OUTMAP_SNAP k) = s.rd (Reg.CIR_OUTMAP k) ∧ t.rd (Reg.CIR_INMAP_SNAP k) = s.rd (Reg.CIR_INMAP k)) ∧
      (∀ c, c < 4864 → t.rd (Reg.CIR_CELLST_SNAP c) = s.rd (Reg.CIR_CELLST c)) ∧
      t.rd Reg.CIR_FSSNAPSEQ = s.rd Reg.CIR_FSSEQ ∧ t.bit Reg.CIR_FSCTRL 0 = false ∧
      OnlyWords ([Reg.CIR_FSCTRL, Reg.CIR_FSSNAPSEQ] ++ (List.range 512).map Reg.CIR_OUTMAP_SNAP ++ (List.range 512).map Reg.CIR_INMAP_SNAP ++
        (List.range 4864).map Reg.CIR_CELLST_SNAP) s t))

/-- A tile's report outside any commit (R43, R44): a bracket of its own, so that CIR_FSSEQ advances by two, and CIR_CELLST shows each of
the tile's cells in the state, band, mode and generation that the tile holds. Where the model had to choose: log entry 20. -/
def Obligations.TileReports : Prop :=
  ∀ (s : State) (tile : Fin 64), s.commits = [] → s.lateReports = [] → ∃ t, exec (.tileStateReport tile) s = .next t ∧
    t.rd Reg.CIR_FSSEQ = s.rd Reg.CIR_FSSEQ + 2#32 ∧
    ∀ l, l < 76 → t.bit (Reg.CIR_CELLST (cellOf tile l)) 0 = (s.cell (cellOf tile l)).cross ∧
      t.bit (Reg.CIR_CELLST (cellOf tile l)) 4 = (s.cell (cellOf tile l)).band ∧
      t.rdf (Reg.CIR_CELLST (cellOf tile l)) 8 3 = (s.cell (cellOf tile l)).mode % 8 ∧
      t.rdf (Reg.CIR_CELLST (cellOf tile l)) 16 16 = (s.cell (cellOf tile l)).gen % 65536

/-- A host's write of a cue word: a cue that is PENDING, SOLVED or ARMED keeps its content and CUEBUSY is set; any other takes the word as
its map entry admits (R4, R58, R59). A word of a pattern that a busy RECALL cue names is kept likewise, with PATBUSY (R79). -/
def Obligations.BusyContentIsKept : Prop :=
  (∀ (s : State) (q : Fin 65536) (w : Fin 8) (v : Word),
    (s.cueBusy q = true → ∃ t, exec (.cueWrite q w [v]) s = .next t ∧ t.bit Reg.CIR_ERRSTAT 0 = true ∧ WordsAndEvents [Reg.CIR_ERRSTAT] s t) ∧
    (s.cueBusy q = false → ∃ t, exec (.cueWrite q w [v]) s = .next t ∧ t = s.writeReg (Reg.CUE_W0 q + 4 * w) v ∧
      OnlyWords [Reg.CUE_W0 q + 4 * w] s t)) ∧
  ∀ (s : State) (n : Fin 256) (j : Fin 512) (v : Word),
    (s.patBusy n = true → ∃ t, exec (.patternWrite n j [v]) s = .next t ∧ t.bit Reg.CIR_ERRSTAT 1 = true ∧ WordsAndEvents [Reg.CIR_ERRSTAT] s t) ∧
    (s.patBusy n = false → ∃ t, exec (.patternWrite n j [v]) s = .next t ∧ t = s.writeReg (Reg.PAT n j) v ∧ OnlyWords [Reg.PAT n j] s t)

/-- A capture (R80): GO shows until it is done, unless the pattern is busy; its end writes, for every output, the entry of the circuit of
the partitions asked for that ends there, clears GO, and changes no word outside the pattern. -/
def Obligations.CaptureWritesCircuits : Prop :=
  ∀ s : State,
    (∀ v : Word, wbit v 31 = true → s.batches = [] → ∃ t, exec (.patternCapture v) s = .next t ∧ t.bit Reg.CIR_PATCAP 31 = true ∧
      t.rdf Reg.CIR_PATCAP 0 8 = fld v 0 8 ∧ OnlyWords [Reg.CIR_PATCAP] s t) ∧
    (s.bit Reg.CIR_PATCAP 31 = true → ∃ t, exec .patternCaptureDone s = .next t ∧ t.bit Reg.CIR_PATCAP 31 = false ∧
      (∀ j, j < 512 → t.rd (Reg.PAT (s.rdf Reg.CIR_PATCAP 0 8) j) =
        captureWord (s.ckts.filter fun c => s.bit Reg.CIR_PATCAP 30 || c.owner == s.rdf Reg.CIR_PATCAP 8 6) j) ∧
      ∀ a, a ≠ Reg.CIR_PATCAP → (a < Reg.PAT (s.rdf Reg.CIR_PATCAP 0 8) 0 ∨ Reg.PAT (s.rdf Reg.CIR_PATCAP 0 8 + 1) 0 ≤ a) → t.rd a = s.rd a)

/-- Ports and partitions. A write of CIR_PORTOWN gives each side of the port the owner written, unless that side is in use, whose owner is
kept; OWNBUSY is set exactly where the write would have changed it; LOSTHR takes what its range admits, whatever the port's role (R74). A
range, of cues or of patterns, is taken whole, unless it runs past its table or, for partitions 1 to 63, meets the range of another of
them: then it is ignored, with CFGERR (R75). WINSEL and EN are written, and no other state changes: no light moves, and no admitted cue is
dropped (R72, R74). -/
def Obligations.PartitionTables : Prop :=
  ∀ (s : State) (v : Word),
    (∀ k : Fin 512, let clash := (s.inBusy k = true ∧ fld v 0 6 ≠ s.inOwner k) ∨ (s.outBusy k = true ∧ fld v 8 6 ≠ s.outOwner k)
      ∃ t, exec (.portOwnershipWrite k v) s = .next t ∧
        t.inOwner k = (if s.inBusy k then s.inOwner k else fld v 0 6) ∧ t.outOwner k = (if s.outBusy k then s.outOwner k else fld v 8 6) ∧
        t.rdf (Reg.CIR_PORTOWN k) 20 12 = (if fld v 20 12 ≤ 0xC8 ∨ 0xE70 ≤ fld v 20 12 then fld v 20 12 else s.rdf (Reg.CIR_PORTOWN k) 20 12) ∧
        (clash → t.bit Reg.CIR_ERRSTAT 2 = true ∧ WordsAndEvents [Reg.CIR_PORTOWN k, Reg.CIR_ERRSTAT] s t) ∧
        (¬clash → OnlyWords [Reg.CIR_PORTOWN k] s t)) ∧
    (∀ (p : Fin 64) (pat : Bool), let reg := fun (q : Nat) => if pat then Reg.CIR_PARTPAT q else Reg.CIR_PARTCUE q
      let refused := 256 < fld v 0 8 + fld v 8 9 ∨ (p ≠ 0 ∧ ∃ q, 1 ≤ q ∧ q < 64 ∧ q ≠ p.val ∧
        rangesMeet (fld v 0 8) (fld v 8 9) (s.rdf (reg q) 0 8) (s.rdf (reg q) 8 9) = true)
      ∃ t, exec (.partitionRangeWrite p pat v) s = .next t ∧
        (refused → t.bit Reg.CIR_ERRSTAT 3 = true ∧ WordsAndEvents [Reg.CIR_ERRSTAT] s t) ∧
        (¬refused → t.rdf (reg p) 0 8 = fld v 0 8 ∧ t.rdf (reg p) 8 9 = fld v 8 9 ∧ OnlyWords [reg p] s t)) ∧
    ∀ p : Fin 64, ∃ t, exec (.partitionControlWrite p v) s = .next t ∧ t.rdf (Reg.CIR_PARTCTL p) 0 4 = fld v 0 4 ∧
      t.rdf (Reg.CIR_PARTCTL p) 4 28 = s.rdf (Reg.CIR_PARTCTL p) 4 28 ∧ OnlyWords [Reg.CIR_PARTCTL p] s t

/-- Light (R83): four valid samples in a row below LOSTHR clear LIGHT of the port, four at or above LOSTHR + 1.0 dB set it, fewer do
nothing; where no circuit uses the port nothing else changes but which inputs are known dark and which couplers stand open, and a hold-off
that ends is over. Protection (R84): where the one circuit that uses an input meets every condition of a switch once its feed has lost
light, or once its hold-off has ended, and nothing blocks protection, the switch is on its way. -/
def Obligations.LightFollowsSamples : Prop :=
  (∀ (s : State) (out : Bool) (k : Fin 512), s.ckts.filter (fun c => c.inp == k.val || c.peer == some k.val) = [] →
    (4 ≤ (s.lightRun out k).below → ∃ t, exec (.lossOfLight out k) s = .next t ∧ t.bit (mapWord out k) 30 = false ∧ (out = false → k.val ∈ t.darkIn) ∧ OnlyWords [mapWord out k] { s with darkIn := t.darkIn } t) ∧
    ((s.lightRun out k).below < 4 → exec (.lossOfLight out k) s = .next s) ∧
    (4 ≤ (s.lightRun out k).above → ∃ t, exec (.lightRegained out k) s = .next t ∧ t.bit (mapWord out k) 30 = true ∧ (out = false → k.val ∉ t.darkIn) ∧
      OnlyWords [mapWord out k] { s with darkIn := t.darkIn, couplers := t.couplers } t) ∧
    ((s.lightRun out k).above < 4 → exec (.lightRegained out k) s = .next s) ∧
    ∀ x, (s.prot k).holdoff = some x → ∃ t, exec (.holdoffExpiry k) s = .next t ∧ (t.prot k).holdoff = none ∧ x * nsUnit ≤ t.now ∧
      t = { s with now := t.now, prots := t.prots }) ∧
  ∀ (s : State) (k : Fin 512) (c : Ckt), s.ckts.filter (fun c => c.inp == k.val || c.peer == some k.val) = [c] →
    (c.feed = k.val → 4 ≤ (s.lightRun false k).below →
      let u := { s.wrBit (mapWord false k) 30 false with darkIn := (k.val :: s.darkIn).eraseDups }
      u.switchable c = true → u.protBlocked = false → s.switching c.inp = false →
      ∃ t, exec (.lossOfLight false k) s = .next t ∧ t.switching c.inp = true ∧ t.bit (mapWord false k) 30 = false) ∧
    (∀ x, c.inp = k.val → (s.prot k).holdoff = some x →
      let u := (s.raise x).setProt k { s.prot k with holdoff := none }
      u.switchable c = true → s.protBlocked = false → s.switching c.inp = false →
      ∃ t, exec (.holdoffExpiry k) s = .next t ∧ t.switching c.inp = true)

/-! ## Chapters 4, 5 and 11: the Wheelwright, the Lamplighter, the Tollkeeper -/

/-- The Wheelwright's results (R106, R108): a solved batch is held as SOLVED with its solution, under the next place in solve order, and
the search is over, with the longest solve time kept; a re-solve by its deadline, unless it binds the batch to one that commits later,
replaces the solution and the batch is no longer stale. The search is made against the fabric as it stood when the solve started (R107);
one that finds none fails the batch with its status (R102). A release (R264): blocked, or with
a search running, nothing is released; else the best eligible head leaves its queue, is being solved, its finish tag becomes F_last, and
virtual time does not fall behind it. Where the model had to choose: log entries 24, 26, 111 and 112. -/
def Obligations.ReleasesAndSolutions : Prop :=
  (∀ (s : State) (b : Batch) (found : List Candidate) (r : SolveRun) (ns : Nat), s.batch b.id = some b → s.solveStart = some r →
    r.batch = b.id → s.fatalOn = false →
    (∀ x, (s.asSolved r).solve s b found = .ok x → ∃ t, exec (.solveComplete found ns) s = .next t ∧ t.solveStart = none ∧
      t.rd Reg.WHL_SOLVEMAX = wd (max ns (s.rd Reg.WHL_SOLVEMAX).toNat) ∧
      t.nextSolve = s.nextSolve + 1 ∧ ∃ y, t.batch b.id = some y ∧ y.phase = .solved ∧ y.sol = some x ∧ y.cues = b.cues ∧ y.part = b.part) ∧
    (∀ st cue, s.batches = [b] → s.commits = [] → (∀ q, q ∈ b.cues → q < 65536) → st < 16 →
      (s.asSolved r).solve s b found = .error (st, cue) → ∃ t, exec (.solveComplete found ns) s = .next t ∧ t.solveStart = none ∧ t.batches = [] ∧
        ∀ q, q ∈ b.cues → t.cueState q = 7 ∧ t.rdf (Reg.CUE_W3 q) 8 4 = st)) ∧
  (∀ (s : State) (b : Batch) (found : List Candidate) (x : Solution), s.batch b.id = some b → s.solve s b found = .ok x → s.fatalOn = false →
    (b.stale = true → s.pastRs b = false → s.boundLate b x = false → ∃ t, exec (.resolveComplete b.id found) s = .next t ∧
      ∃ y, t.batch b.id = some y ∧ y.sol = some x ∧ y.stale = false ∧ y.phase = b.phase ∧ y.cues = b.cues)) ∧
  (∀ s : State,
    ((s.releaseBlocked = true ∨ s.batches.any (·.phase == .solving) = true) → ∃ t, exec .batchRelease s = .next t ∧
      OnlyWords [Reg.LMP_STAT, Reg.LMP_ARMTIME, Reg.WHL_STAT, Reg.TOL_STAT] s t) ∧
    ∀ p h b, s.releaseBlocked = false → s.batches.any (·.phase == .solving) = false → s.bestHead = some (p, h) → s.batch h.batch = some b →
      ∃ t, exec .batchRelease s = .next t ∧ (t.solveStart.map (·.batch)) = some b.id ∧ t.vtime = tagMax s.vtime h.finish ∧
        (t.tollPart p).fLast = h.finish ∧ ∃ y, t.batch b.id = some y ∧ y.phase = .solving ∧ y.cues = b.cues)

/-- The buckets fill every microsecond (R267, R269): a shaper that is enabled by SHRATE up to SHBURST, a policer by PORATE up to POBURST;
levels in thousandths of a work unit. Writes of the Tollkeeper's and Wheelwright's controls: a lower burst cuts the shaper's level and
never raises it (R268, R269); a write of TOL_PCTL, whichever command makes it, sets SHEN, POEN and POACT, and SHCLR turns a negative level
to 0 and leaves any other (R268); POLMAX takes any encoding but the reserved 3 (R5, R95), and WINSHARE takes the word (R94). -/
def Obligations.TollBuckets : Prop :=
  (∀ (s : State) (p : Nat), p < 64 →
    (∃ t, exec .shaperFill s = .next t ∧ (t.tollPart p).shaper =
      if s.shapes p then min (1000 * (s.rdf (Reg.TOL_SHAPE p) 16 16 : Int)) ((s.tollPart p).shaper + s.rdf (Reg.TOL_SHAPE p) 0 16)
      else (s.tollPart p).shaper) ∧
    ∃ t, exec .policerFill s = .next t ∧ (t.tollPart p).policer =
      min (1000 * s.rdf (Reg.TOL_POLICE p) 16 16) ((s.tollPart p).policer + s.rdf (Reg.TOL_POLICE p) 0 16)) ∧
  (∀ (s : State) (p : Fin 64) (v : Word),
    (∃ t, exec (.shaperControlWrite p true v) s = .next t ∧ (t.tollPart p).shaper = min (s.tollPart p).shaper (1000 * t.rdf (Reg.TOL_SHAPE p) 16 16) ∧
      (t.tollPart p).policer = (s.tollPart p).policer) ∧
    (∀ c : Instr, (c = .shaperDebtClear p v ∨ c = .shaperControlWrite p false v) → ∃ t, exec c s = .next t ∧
      (t.tollPart p).shaper = (if wbit v 0 then max 0 (s.tollPart p).shaper else (s.tollPart p).shaper) ∧
      t.rdf (Reg.TOL_PCTL p) 29 3 = fld v 29 3 ∧ (t.tollPart p).policer = (s.tollPart p).policer) ∧
    (fld v 0 2 = 3 → exec (.policyCeilingWrite p v) s = .next s) ∧
    (fld v 0 2 ≠ 3 → s.batches = [] → ∃ t, exec (.policyCeilingWrite p v) s = .next t ∧ t.rdf (Reg.WHL_PARTCFG p) 0 2 = fld v 0 2) ∧
    ∀ (n : Fin 8) (hi : Bool), s.batches = [] → ∃ t, exec (.winshareWrite n hi v) s = .next t ∧
      t.rd (if hi then Reg.WHL_WINSHHI n else Reg.WHL_WINSHLO n) = v)

/-- The instant an IMMEDIATE batch is placed at (R114, R135): on the 4 ns grid, at or after T_reach and the instants it depends on, and held
by no other commit; the batch is then placed at it, with its cell steps taken from the bucket. -/
def Obligations.ImmediatePlacement : Prop :=
  ∀ (s : State) (b : Batch) (x : Solution), s.batch b.id = some b → b.phase = .solved → b.sol = some x → b.rule = 0 →
    s.thermalBlock = false → s.waits b x = false → s.bucketAllows x.steps = true → s.stepReq = none →
    ∃ tc t, exec (.batchPlacement b.id) s = .next t ∧ tc % 4 = 0 ∧ s.reach x ≤ tc ∧ s.depFloor x ≤ tc ∧
      s.commits.any (fun c => c.tc == tc) = false ∧ (t.commitAt tc).isSome = true ∧
      ∃ y, t.batch b.id = some y ∧ y.phase = .placed tc ∧ y.cues = b.cues

/-- Residency (R115): a tile that is involved, powered and not fenced, of a commit whose set-points are on their way, becomes resident
with the codes of its cells for after T_c, those of other tiles kept, and nothing else changes; the report of any other tile changes
nothing. Sending (R115, R116): a reachable host commit that nothing
holds back, that waits behind no other and that finds a slot is armed, and its cues are ARMED; device time stands 1 µs before its instant. -/
def Obligations.SendingAndResidency : Prop :=
  (∀ (s : State) (c : Commit) (tile : Fin 64), s.commitAt c.tc = some c →
    (c.phase = .armed → c.involved.contains tile.val = true → s.tileLive tile = true →
      ∃ cs, exec (.setpointArrival c.tc tile) s = .next (s.setCommit { c with resident := tile.val :: c.resident, codes := cs }) ∧
        ∀ p, p ∈ c.codes → tileOf p.1 ≠ tile.val → p ∈ cs) ∧
    (c.involved.contains tile.val = false → exec (.setpointArrival c.tc tile) s = .next s)) ∧
  (∀ (s : State) (c : Commit), s.commitAt c.tc = some c → c.kind = .host → c.phase = .placed → s.fatalOn = false → s.commitsHeld = false →
    (s.commits.filter Commit.holdsSlot).length < 8 → s.ns + 1000 ≤ c.tc → (s.raise (c.tc - 1000)).reachable c = true →
    (s.raise (c.tc - 1000)).sendsBefore c = false →
    ∃ t, exec (.setpointSending c.tc) s = .next t ∧ (t.commitAt c.tc).map (·.phase) = some .armed ∧ t.ns = c.tc - 1000 ∧
      ∀ b, b ∈ s.commitBatches c → ∀ q, q ∈ b.cues → t.cueState q = 3)

/-- A host or calibration commit that passes the checks of Table 5-1 (R112, R117, R118): the next generation number, which is never 0, is
its own; a journal entry is opened with that number, the instant and the involved tiles; and it is past its arm point. -/
def Obligations.ArmOpensJournal : Prop :=
  ∀ (s : State) (c : Commit), s.commitAt c.tc = some c → c.kind ≠ .protection → c.phase = .armed → (s.commitBatches c).filter (·.stale) = [] →
    s.fatalOn = false → s.thermalBlock = false → s.tbBad = false → s.notResident c = false → s.stepReq = none →
    s.holdsBack c = false →
    ∃ t, exec (.armPoint c.tc) s = .next t ∧ t.rd Reg.LMP_GEN = nextGen (s.rd Reg.LMP_GEN) ∧ t.rd Reg.LMP_GEN ≠ 0#32 ∧
      t.rdf Reg.LMP_JHEAD 0 8 = (s.rdf Reg.LMP_JHEAD 0 8 + 1) % 256 ∧
      t.rd (Reg.LMP_JOURNAL (s.rdf Reg.LMP_JHEAD 0 8) 0) = t.rd Reg.LMP_GEN ∧
      t.rd (Reg.LMP_JOURNAL (s.rdf Reg.LMP_JHEAD 0 8) 1) = wd (nsecOf c.tc) ∧
      t.rd (Reg.LMP_JOURNAL (s.rdf Reg.LMP_JHEAD 0 8) 4) = tileMask c.involved 0 ∧ (t.commitAt c.tc).map (·.phase) = some .go

/-- The instant of a commit (R120): a commit past its arm point is applied at its own instant, and one that is not changes nothing; its
close, after it was applied and not before, gives CIR_FSGEN its generation number (R44, R122). After a commit: what was postponed is applied
400 ns after its instant and the commit no longer settles (R119, R153), and a span passage takes its stages in order, each at its own time
after T_c: the Pockels span, its code, unless the cell is fenced, and the heater span (R173, R177, Table 7-3). -/
def Obligations.CommitInstant : Prop :=
  (∀ (s : State) (c : Commit), s.commitAt c.tc = some c →
    (c.phase = .go → ∃ t, exec (.commitInstant c.tc) s = .next t ∧ (t.commitAt c.tc).map (·.phase) = some .applied ∧ c.tc * nsUnit ≤ t.now) ∧
    (c.phase ≠ .go → exec (.commitInstant c.tc) s = .next s) ∧
    (c.phase = .applied → s.fatalOn = false → ∃ t, exec (.journalClose c.tc) s = .next t ∧ t.rd Reg.CIR_FSGEN = wd c.gen) ∧
    (c.phase ≠ .applied → exec (.journalClose c.tc) s = .next s)) ∧
  (∀ s : State,
    (∀ tc, (∀ p, p ∈ s.settling → p.1 ≠ tc) → exec (.postponedApplication tc) s = .next s) ∧
    (∀ tc, s.settling = [(tc, [])] → s.commits = [] → ∃ t, exec (.postponedApplication tc) s = .next t ∧ t.settling = [] ∧ (tc + 400) * nsUnit ≤ t.now ∧
      t = { s with settling := [], now := t.now }) ∧
    (∀ (c : Fin 4864) k i rest, (s.coo c).passage = (k, i) :: rest → ∃ t, exec (.spanPassageStage c) s = .next t ∧ (t.coo c).passage = rest ∧
      i * nsUnit ≤ t.now ∧ t.cells = s.cells ∧
      (k = 40 → t.rdf (cooWord c 13) 0 16 = (if (s.cell c).mode = 5 then s.rdf (cooWord c 13) 0 16 else code 16 (s.coo c).passCode)) ∧
      (k = 16 → t.rdf (drvWord c 1) 26 1 = fld (s.rdLive (drvWord c 0)) 8 1) ∧
      (k = 2000 → t.rdf (drvWord c 1) 24 2 = fld (s.rdLive (drvWord c 0)) 4 2)) ∧
    ∀ c : Fin 4864, (s.coo c).passage = [] → exec (.spanPassageStage c) s = .next s)

/-- Guard windows (R126, R127): a schedule's fields take a write only while it is disabled and only in an encoding that is not reserved;
opening shows OPEN of an enabled schedule, not before the window's own time, closing clears it and says whether a commit's occupancy fell in
that window; one that is disabled, open already or closed already does neither. Where the model had to choose: log entries 105, 107 and
114. -/
def Obligations.GuardWindows : Prop :=
  ∀ (s : State) (n : Fin 8),
    (∀ (w : Fin 5) (v : Word), w.val < 4 → (s.bit (Reg.LMP_WINCTL n) 0 = true ∨ s.scheduleFieldOk n w v = false) →
      exec (.windowScheduleWrite n w v) s = .next s) ∧
    (∀ v : Word, s.bit (Reg.LMP_WINCTL n) 0 = false → 2000 ≤ v.toNat → ∃ t, exec (.windowScheduleWrite n 2 v) s = .next t ∧
      t.rd (Reg.LMP_WINPER n) = v ∧ OnlyWords [Reg.LMP_WINPER n] s t) ∧
    (∀ v : Word, ∃ t, exec (.windowScheduleWrite n 4 v) s = .next t ∧ t.bit (Reg.LMP_WINCTL n) 0 = wbit v 0 ∧
      (wbit v 0 = false → t.bit (Reg.LMP_WINSTAT n) 0 = false) ∧ OnlyWords [Reg.LMP_WINCTL n, Reg.LMP_WINSTAT n] s t) ∧
    (s.bit (Reg.LMP_WINCTL n) 0 = true → s.bit (Reg.LMP_WINSTAT n) 0 = false → (s.pstate ≠ 0 ∨ s.stagedCells = []) → ∃ t,
      exec (.guardWindowOpen n) s = .next t ∧ t.bit (Reg.LMP_WINSTAT n) 0 = true ∧
      (s.schedule n).opens ((s.schedule n).index s.ns) * nsUnit ≤ t.now ∧ OnlyWords [Reg.LMP_WINSTAT n] { s with now := t.now } t) ∧
    (s.bit (Reg.LMP_WINCTL n) 0 = true → s.bit (Reg.LMP_WINSTAT n) 0 = true → let o := (s.schedule n).opens ((s.schedule n).index s.ns)
      ∃ t, exec (.guardWindowClose n) s = .next t ∧ t.bit (Reg.LMP_WINSTAT n) 0 = false ∧
        (t.bit (Reg.LMP_WINSTAT n) 1 = true ↔ (n.val, o) ∈ s.winUsed) ∧ (n.val, o) ∉ t.winUsed ∧ (o + (s.schedule n).len) * nsUnit ≤ t.now ∧
        OnlyWords [Reg.LMP_WINSTAT n] { s with winUsed := t.winUsed, now := t.now } t) ∧
    ((s.bit (Reg.LMP_WINCTL n) 0 = false ∨ s.bit (Reg.LMP_WINSTAT n) 0 = true) → exec (.guardWindowOpen n) s = .next s) ∧
    ((s.bit (Reg.LMP_WINCTL n) 0 = false ∨ s.bit (Reg.LMP_WINSTAT n) 0 = false) → exec (.guardWindowClose n) s = .next s)

/-- The throttle bucket fills by its rate up to 4,864 cell steps, and stands full at rate 0xFFFF (R135); HOLD is written and shown (Table
5-6); an abort of a cue whose batch is not past its arm point ends the batch, every cue of it ABORTED, and answers OK with that state; one
of a batch past it waits for its final state; of a cue that no batch holds it answers TOO_LATE with the cue's state (R128, R129, Table
5-4). -/
def Obligations.LampControls : Prop :=
  ∀ s : State,
    (∃ t, exec .throttleBucketFill s = .next t ∧
      t.bucket = (if s.rdf Reg.LMP_THRSTAT 16 16 = 0xFFFF then 4864 else min 4864 (s.bucket + s.rdf Reg.LMP_THRSTAT 16 16)) ∧
      t.rdf Reg.LMP_THRSTAT 16 16 = s.rdf Reg.LMP_THRSTAT 16 16 ∧
      OnlyWords [Reg.LMP_THRSTAT, Reg.LMP_STAT, Reg.LMP_ARMTIME, Reg.WHL_STAT, Reg.TOL_STAT] s t) ∧
    (∀ v : Word, ∃ t, exec (.lmpHoldWrite v) s = .next t ∧ t.bit Reg.LMP_CTRL 8 = wbit v 8 ∧
      OnlyWords [Reg.LMP_CTRL, Reg.LMP_STAT, Reg.LMP_ARMTIME, Reg.WHL_STAT, Reg.TOL_STAT] s t) ∧
    ∀ (rq : Requester) (v : Word),
      (s.batchOfCue (fld v 0 16) = none → ∃ t, exec (.lmpAbort rq v) s = .next t ∧
        t.bit Reg.LMP_ABORTRES 31 = true ∧ t.rdf Reg.LMP_ABORTRES 0 4 = 2 ∧ t.rdf Reg.LMP_ABORTRES 12 3 = s.cueState (fld v 0 16) ∧
        OnlyWords [Reg.LMP_ABORTRES] { s with aborts := t.aborts } t) ∧
      (∀ b, s.batches = [b] → s.commits = [] → s.fatalOn = false → (∀ q, q ∈ b.cues → q < 65536) → fld v 0 16 ∈ b.cues → ∃ t,
        exec (.lmpAbort rq v) s = .next t ∧ t.batches = [] ∧ (∀ q, q ∈ b.cues → t.cueState q = 6 ∧ t.rdf (Reg.CUE_W3 q) 8 4 = 0) ∧
        t.rd Reg.LMP_ABORTRES = pack [(31, 1, 1), (12, 3, 6)]) ∧
      (∀ b, s.batchOfCue (fld v 0 16) = some b → s.pastArm b = true → ∃ t, exec (.lmpAbort rq v) s = .next t ∧
        t.rd Reg.LMP_ABORTRES = 0#32 ∧ t.aborts = (s.aborts.filter fun a => a.sink != AbortSink.register) ++ [⟨fld v 0 16, .register⟩] ∧
        t.batches = s.batches ∧ OnlyWords [Reg.LMP_ABORTRES] { s with aborts := t.aborts } t)

/-- Deadlines (R63, R67, R108): a re-solve incomplete at T_rs fails the batch with STALE, and a TIMED instant that comes before the arm
point fails it with TOO_LATE: every cue of the batch is FAILED with that status, CAUSE stands on the first one alone, and the batch is
gone. A batch that is ready, or gone, is spared. -/
def Obligations.DeadlinesFailLateBatches : Prop :=
  ∀ (s : State) (b : Batch),
    (s.batches = [b] → s.commits = [] → s.fatalOn = false → (∀ q, q ∈ b.cues → q < 65536) →
      (∀ tc, b.phase = .placed tc → b.stale = true → ∃ t, exec (.resolveDeadline b.id) s = .next t ∧ t.batches = [] ∧
        ∀ q, q ∈ b.cues → t.cueState q = 7 ∧ t.rdf (Reg.CUE_W3 q) 8 4 = 10 ∧ (t.bit (Reg.CUE_W3 q) 3 = true ↔ q = b.cues.headD 0)) ∧
      (b.rule = 1 → b.sol.isSome = true → ∃ t, exec (.timedDeadlinePass b.id) s = .next t ∧ t.batches = [] ∧
        ∀ q, q ∈ b.cues → t.cueState q = 7 ∧ t.rdf (Reg.CUE_W3 q) 8 4 = 2 ∧ (t.bit (Reg.CUE_W3 q) 3 = true ↔ q = b.cues.headD 0))) ∧
    (s.batch b.id = some b → b.stale = false → exec (.resolveDeadline b.id) s = .next s) ∧
    (s.batch b.id = some b → s.pastArm b = true → exec (.timedDeadlinePass b.id) s = .next s) ∧
    ∀ id, s.batch id = none → exec (.resolveDeadline id) s = .next s ∧ exec (.timedDeadlinePass id) s = .next s

/-! ## Chapters 6 and 7: Coopers and drivers -/

/-- A freeze (Table 6-6): every RUN, DARK or FAULT cell of the tile is in HOLD with its state, band and generation kept, the other cells
keep their mode, and FROZEN shows; a write of 0 changes only the control word. -/
def Obligations.FreezeHoldsCells : Prop :=
  ∀ (s : State) (tile : Fin 64) (v : Word),
    (wbit v 0 = true → ∃ t, exec (.freezeWrite tile v) s = .next t ∧ t.bit (Reg.COO_STAT tile) 24 = true ∧ t.bit (Reg.COO_CTRL tile) 0 = true ∧
      ∀ l, l < 76 → let c := cellOf tile l
        t.cell c = { s.cell c with mode := if (s.cell c).mode = 0 ∨ (s.cell c).mode = 1 ∨ (s.cell c).mode = 4 then 3 else (s.cell c).mode }) ∧
    (wbit v 0 = false → ∃ t, exec (.freezeWrite tile v) s = .next t ∧ t.bit (Reg.COO_CTRL tile) 0 = false ∧ OnlyWords [Reg.COO_CTRL tile] s t)

/-- Loop state is written only in CAL or HOLD (R162); otherwise CFGERR is set and no loop word changes. Writes of factors and of the cycle
go to the staged copy (R140, R158): no copy in force changes, whatever the word and its value. A factor word takes what its fields admit;
a TONE that a neighbour has, or that N does not allow, is ignored with CFGERR, the word's other fields taken (R142); an offset that holds
no factor is not written at all. The cycle word takes what its fields admit; an N that a TONE in use does not allow is ignored likewise. -/
def Obligations.CooperWrites : Prop :=
  (∀ (s : State) (tile : Fin 64) (l : Fin 76) (w : Fin 3) (v : Word),
    (((s.cell (cellOf tile l)).mode = 2 ∨ (s.cell (cellOf tile l)).mode = 3) → ∃ t, exec (.loopStateWrite tile l w v) s = .next t ∧
      t.rd (cooWord (cellOf tile l) (9 + w)) = v ∧ OnlyWords [cooWord (cellOf tile l) (9 + w)] s t) ∧
    ((s.cell (cellOf tile l)).mode ≠ 2 → (s.cell (cellOf tile l)).mode ≠ 3 → ∃ t, exec (.loopStateWrite tile l w v) s = .next t ∧
      t.bit (Reg.COO_ERRSTAT tile) 0 = true ∧ WordsAndEvents [Reg.COO_ERRSTAT tile] s t)) ∧
  (∀ (s : State) (tile : Fin 64) (o : Nat) (v : Word),
    (∃ t, exec (.factorWrite tile o v) s = .next t ∧ (∀ a, t.rdLive a = s.rdLive a) ∧ t.cells = s.cells ∧ t.mem = s.mem) ∧
    (factorCell o = none → exec (.factorWrite tile o v) s = .next s) ∧
    (∀ l, factorCell o = some l → (o ≠ 0x800 + 0x40 * l ∨ fld v 0 5 = 0 ∨ s.toneRefused (cellOf tile l) (fld v 0 5) = false) → ∃ t,
      exec (.factorWrite tile o v) s = .next t ∧ t.rd (tileAddr tile o) = (s.writeReg (tileAddr tile o) v).rd (tileAddr tile o)) ∧
    (∀ l, factorCell o = some l → o = 0x800 + 0x40 * l → fld v 0 5 ≠ 0 → s.toneRefused (cellOf tile l) (fld v 0 5) = true → ∃ t,
      exec (.factorWrite tile o v) s = .next t ∧ t.rdf (tileAddr tile o) 0 5 = s.rdf (tileAddr tile o) 0 5 ∧
        t.bit (Reg.COO_ERRSTAT tile) 0 = true) ∧
    (∃ t, exec (.cycleConfigWrite tile v) s = .next t ∧ (∀ a, t.rdLive a = s.rdLive a) ∧
      WordsAndEvents [Reg.COO_CYCLE tile, Reg.COO_ERRSTAT tile] s t) ∧
    (((∀ c, c ∈ tileCells tile → s.rdf (cooWord c 0) 0 5 % 2 = 0) ∨ oddN (fld v 0 11) = false) →
      exec (.cycleConfigWrite tile v) s = .next (s.writeReg (Reg.COO_CYCLE tile) v)) ∧
    (oddN (fld v 0 11) = true → fld v 0 11 % 32 = 0 → (∃ c ∈ tileCells tile, s.rdf (cooWord c 0) 0 5 % 2 = 1) → ∃ t,
      exec (.cycleConfigWrite tile v) s = .next t ∧ t.rdf (Reg.COO_CYCLE tile) 0 11 = s.rdf (Reg.COO_CYCLE tile) 0 11 ∧
        t.bit (Reg.COO_CYCLE tile) 16 = wbit v 16 ∧ t.bit (Reg.COO_ERRSTAT tile) 0 = true))

/-- The law, the offload tick and a heater update of a tile that is not powered or is fenced do nothing (R140, R151, R172). A law instant
counts the cycle (R140) and leaves the loop and the codes of every cell in CAL, FENCED or REST; of a cell in RUN or DARK whose ended cycle
is held it leaves IO, IC and HCMD and says so in HELD, and of one whose cycle is observed it takes ERR from the sums by KD and SHKD (R145
to R147); with no cell to run it brings the written cycle length into force (R140, R157). A cycle trigger under SYNC
makes its instant the epoch (R319); a thermal band that arrives waits for the tile (R157). An offload tick moves what it takes from a
cell's integrator to its Hcmd (R151); an update instant moves a heater's code toward its target by at most the slew (R172), and counts on
in a fade (R178). Where the model had to choose: log entries 29 and 32. -/
def Obligations.TileInstants : Prop :=
  (∀ (s : State) (tile : Fin 64) (rs : List HeaterReading), s.tileLive tile = false →
    exec (.controlLaw tile) s = .next s ∧ exec (.heaterOffload tile) s = .next s ∧ exec (.heaterUpdate tile rs) s = .next s) ∧
  (∀ (s : State) (tile : Fin 64),
    (s.tileLive tile = true → (s.tileRec tile).tband = none → s.bit (Reg.COO_STAT tile) 24 = false → (∀ c, (s.cell c).mode = 6) →
      (∀ c, (s.coo c).cnt = 0) → ∃ t, exec (.controlLaw tile) s = .next t ∧ t.rdLive (Reg.COO_CYCLE tile) = s.rd (Reg.COO_CYCLE tile) ∧
        (t.tileRec tile).cycle = (s.tileRec tile).cycle + 1 ∧ t.cells = s.cells) ∧
    (s.tileLive tile = true → ∃ t, exec (.controlLaw tile) s = .next t ∧ (t.tileRec tile).cycle = (s.tileRec tile).cycle + 1 ∧
      (∀ l : Fin 76, let c := cellOf tile l
        (s.cell c).mode = 2 ∨ (s.cell c).mode = 5 ∨ (s.cell c).mode = 6 → t.cell c = s.cell c ∧ t.rd (cooWord c 13) = s.rd (cooWord c 13) ∧
          ∀ w, 9 ≤ w → w < 13 → t.rd (cooWord c w) = s.rd (cooWord c w)) ∧
      ∀ (l : Fin 76) (m : CycleSums), let c := cellOf tile l
        (s.cell c).mode ≤ 1 → (∀ k ∈ s.commits, k.involved.contains tile.val = false) → (∀ p ∈ s.settling, p.2.contains c = false) →
          (s.coo c).ended = some m →
          (t.coo c).ended = none ∧ t.cell c = s.cell c ∧
          (m.bad = true → (t.coo c).lastHeld = true ∧ ∀ w, 9 ≤ w → w < 12 → t.rd (cooWord c w) = s.rd (cooWord c w)) ∧
          (m.bad = false → s.observable c m = true → m.s0 ≠ 0 → (t.coo c).lastHeld = false ∧
            t.rd (cooWord c 8) = ofI (mulsh (sInt (s.rdLive (cooWord c 2))) (satI32 ((m.s1 * 512).tdiv m.s0)) (fld (s.rdLive (cooWord c 1)) 16 5)))) ∧
    (wbit (s.rdLive (Reg.COO_CYCLE tile)) 16 = true → ∃ t, exec (.cycleTrigger tile) s = .next t ∧ (t.tileRec tile).epoch = s.now ∧
      (t.tileRec tile).cycle = 0 ∧ OnlyWords [] { s with tiles := t.tiles, coos := t.coos } t) ∧
    (wbit (s.rdLive (Reg.COO_CYCLE tile)) 16 = false → exec (.cycleTrigger tile) s = .next s) ∧
    (s.tileLive tile = true → ∃ t, exec (.heaterOffload tile) s = .next t ∧ t.cells = s.cells ∧ ∀ l : Fin 76, let c := cellOf tile l
      let i := cooWord c (9 + (s.cell c).band.toNat)
      (s.cell c).mode ≤ 1 → (s.postponed tile).contains c = false → ∃ k : Int, t.rd i = ofI (satI32 (sInt (s.rd i) - k)) ∧
        t.rd (cooWord c 11) = ofI (satI32 (sInt (s.rd (cooWord c 11)) + k))) ∧
    (∀ f rs, s.tileLive tile = true → (s.tileRec tile).fade = some f → ∃ t, exec (.heaterUpdate tile rs) s = .next t ∧
      (t.tileRec tile).fade = some { f with count := min f.len (f.count + 1) } ∧ t.cells = s.cells ∧
      ∀ l : Fin 76, let c := cellOf tile l
        f.len ≠ 0 → (s.coo c).fadeH < 16384 → t.hcode c = (s.coo c).fadeH * (f.len - min f.len (f.count + 1)) / f.len) ∧
    (∀ rs, s.tileLive tile = true → (s.tileRec tile).fade = none → ∃ t, exec (.heaterUpdate tile rs) s = .next t ∧ t.cells = s.cells ∧
      ∀ (l : Fin 76) (h : Nat), let c := cellOf tile l; (s.coo c).passage = [] → (s.cell c).mode ≠ 2 → s.heaterTarget c = some h → h < 16384 →
        t.hcode c = slewTo (s.rdf (Reg.DRV_HSLEW tile) 0 14) (s.hcode c) h) ∧
    ∀ b : Fin 8, s.fatalOn = false → ∃ t, exec (.thermalBandArrival tile b) s = .next t ∧ (t.tileRec tile).tband = some b.val ∧
      OnlyWords [] { s with tiles := t.tiles } t)

/-- The trace ring (R160): enabling it restarts it at record 0, a software trigger of a running trace shows TRIGD, and a read gives the word
the pointer names and advances the pointer, for a requester that the tile's window admits; another is refused (R161), and a fenced or
sleeping tile does not answer (R22). -/
def Obligations.TraceRing : Prop :=
  ∀ (s : State) (tile : Fin 64),
    (∀ v : Word, s.bit (Reg.COO_TRCTL tile) 31 = false → (s.writeReg (Reg.COO_TRCTL tile) v).bit (Reg.COO_TRCTL tile) 31 = true →
      ∃ t, exec (.traceEnable tile v) s = .next t ∧ t.rd (Reg.COO_TRSTAT tile) = 0#32 ∧ (t.tileRec tile).tracePost = 0 ∧
        t.bit (Reg.COO_TRCTL tile) 31 = true) ∧
    (s.bit (Reg.COO_TRCTL tile) 31 = true → s.bit (Reg.COO_TRSTAT tile) 31 = false → ∃ t, exec (.traceTrigger tile .software) s = .next t ∧
      t.bit (Reg.COO_TRSTAT tile) 31 = true ∧ (t.tileRec tile).tracePost = s.rdf (Reg.COO_TRCTL tile) 0 11 ∧
      OnlyWords [Reg.COO_TRSTAT tile] { s with tiles := t.tiles } t) ∧
    ∀ rq : Requester, s.off = false → s.isDraining rq = false →
      (s.mayReach rq false (Reg.COO_TRDATA tile) = true → s.silent tile = false → Reg.COO_TRDATA tile ∉ s.poisoned → ∃ t,
        exec (.traceDataRead rq tile) s = .next t ∧
        t.out = .readData rq [Store.get 0#32 s.traceMem (4096 * tile + s.rdf (Reg.COO_TRADDR tile) 0 12)] :: s.out ∧
        t.rdf (Reg.COO_TRADDR tile) 0 12 = (s.rdf (Reg.COO_TRADDR tile) 0 12 + 1) % 4096 ∧
        OnlyWords [Reg.COO_TRADDR tile] { s with out := t.out } t) ∧
      ((s.mayReach rq false (Reg.COO_TRDATA tile) = false ∨ s.silent tile = true) → ∃ t, exec (.traceDataRead rq tile) s = .next t ∧
        t.bit Reg.MTX_ERRSTAT (if s.mayReach rq false (Reg.COO_TRDATA tile) then 3 else 1) = true ∧
        WordsAndEvents [Reg.MTX_ERRSTAT, Reg.MTX_ERRADDR, Reg.MTX_ERRINFO] s t)

/-- Heater faults (R175, R176): one is declared only after eight readings out of band in one direction, and not again while one stands; it
puts the cell into FAULT with its heater code 0 and the fault shown. FCLR of a cell in FAULT clears FAULT, OPEN and SHORT and Hcmd and
Hmod, and puts the cell back into RUN or DARK; of a cell without a fault it changes nothing. Where the model had to choose: log entry 36.
-/
def Obligations.HeaterFaults : Prop :=
  ∀ (s : State) (tile : Fin 64) (l : Fin 76) (v : Word), let c := cellOf tile l
    (((s.coo c).openRun < 8 ∧ (s.coo c).shortRun < 8 ∨ s.bit (drvWord c 1) 31 = true) → exec (.heaterFault tile l) s = .next s) ∧
    ((8 ≤ (s.coo c).openRun ∨ 8 ≤ (s.coo c).shortRun) → s.bit (drvWord c 1) 31 = false → s.batches = [] → ∃ t, exec (.heaterFault tile l) s = .next t ∧
      (t.cell c).mode = 4 ∧ (t.cell c).cross = (s.cell c).cross ∧ t.hcode c = 0 ∧ t.bit (drvWord c 1) 31 = true ∧
      (t.bit (drvWord c 1) 30 = true ↔ 8 ≤ (s.coo c).openRun)) ∧
    (s.bit (drvWord c 1) 31 = false → exec (.heaterFaultClear tile l v) s = .next s) ∧
    (wbit v 28 = true → s.bit (drvWord c 1) 31 = true → (s.cell c).mode = 4 → ∃ t, exec (.heaterFaultClear tile l v) s = .next t ∧
      t.rdf (drvWord c 1) 29 3 = 0 ∧ t.rd (cooWord c 11) = 0#32 ∧ t.rd (cooWord c 12) = 0#32 ∧
      ((t.cell c).mode = 0 ∨ (t.cell c).mode = 1) ∧ (t.cell c).cross = (s.cell c).cross)

/-- Fades (R178): one starts only when no commit of the tile is near and none runs, and shows FADING; at its end every cell of the tile is
in REST and BAR with its outputs at 0 and INBAND clear, and FADING is clear. -/
def Obligations.FadesEndInRest : Prop :=
  ∀ (s : State) (tile : Fin 64),
    (∀ n, s.commitNear tile = false → (s.tileRec tile).fade = none → ∃ t, exec (.fadeStart tile (some n)) s = .next t ∧
      t.bit (Reg.DRV_STAT tile) 24 = true ∧ (t.tileRec tile).fade = some ⟨0, n⟩ ∧ t.cells = s.cells) ∧
    (∀ n, s.commitNear tile = true → exec (.fadeStart tile n) s = .next s) ∧
    ((s.tileRec tile).fade.isSome = true → ∃ t, exec (.fadeEnd tile) s = .next t ∧ t.bit (Reg.DRV_STAT tile) 24 = false ∧
      (t.tileRec tile).fade = none ∧ ∀ l, l < 76 → let c := cellOf tile l
        (t.cell c).mode = 6 ∧ (t.cell c).cross = false ∧ (t.cell c).band = (s.cell c).band ∧ t.hcode c = 0 ∧ t.pbase c = 0 ∧ t.bit (cooWord c 7) 31 = false) ∧
    ((s.tileRec tile).fade = none → exec (.fadeEnd tile) s = .next s)

/-- Overrides and waveforms: an override takes effect only in HOLD, and enabling one in another mode sets CFGERR (R179); the active
waveform bank is closed to writes once drive has returned (R170); BANKSEL is written alone (R170). -/
def Obligations.DriverWrites : Prop :=
  ∀ (s : State) (tile : Fin 64) (v : Word),
    (∀ l : Fin 76, (s.cell (cellOf tile l)).mode = 3 → wbit v 31 = true → ∃ t, exec (.driveOverrideWrite tile l v) s = .next t ∧
      t.rd (drvWord (cellOf tile l) 2) = v ∧ t.pbase (cellOf tile l) = sfld v 0 16 ∧
      OnlyWords [drvWord (cellOf tile l) 2, cooWord (cellOf tile l) 13] s t) ∧
    (∀ l : Fin 76, (s.cell (cellOf tile l)).mode ≠ 3 → wbit v 31 = true → ∃ t, exec (.driveOverrideWrite tile l v) s = .next t ∧
      t.bit (Reg.DRV_ERRSTAT tile) 0 = true ∧ WordsAndEvents [Reg.DRV_ERRSTAT tile] s t) ∧
    (∀ o, 0x11000 ≤ o → o < 0x19000 → (o - 0x11000) / 0x4000 = s.rdf (Reg.DRV_PECTL tile) 0 1 → s.rd (Reg.BOOT_TIME 5) ≠ 0xFFFFFFFF#32 →
      ∃ t, exec (.waveformWrite tile o v) s = .next t ∧ t.bit (Reg.DRV_ERRSTAT tile) 0 = true ∧ WordsAndEvents [Reg.DRV_ERRSTAT tile] s t) ∧
    (∀ o, 0x11000 ≤ o → o < 0x19000 → (o - 0x11000) / 0x4000 ≠ s.rdf (Reg.DRV_PECTL tile) 0 1 → ∃ t, exec (.waveformWrite tile o v) s = .next t ∧
      t = s.writeReg (tileAddr tile o) v ∧ OnlyWords [tileAddr tile o] s t) ∧
    ∃ t, exec (.waveformBankSelect tile v) s = .next t ∧ t.rdf (Reg.DRV_PECTL tile) 0 1 = fld v 0 1 ∧ OnlyWords [Reg.DRV_PECTL tile] s t

/-! ## Chapter 8: monitors and the Tallyman -/

/-- A sample of the entry of a channel that is due, of a converter that converts in a converted frame, while invalid samples are owed: INVREM
falls by one, INVCNT counts it, and the live sums do not take it (R194, R196, R198); with no entry due, or none that converts, nothing
changes (R190, R192, R204, R206). A valid sample of a port channel is accumulated (R197, R198): SUM by the code (by the code times 65,536
under ALIGN), SUMSQ by its square, NUM by one, until NUM is full. `second` is false for the channel's first entry. -/
def Obligations.Samples : Prop :=
  (∀ (s : State) (tile : Fin 64) (ch : Fin 92) (second : Bool) (i : Nat) (code : BitVec 16), s.entryDue tile ch second = some i →
    (s.converting tile = true → s.entryRuns tile i = true → (76 ≤ ch.val ∨ s.cellFrames tile = true) → s.invrem tile ch ≠ 0 → ∃ t,
      exec (.monitorSample tile ch second code) s = .next t ∧ t.invrem tile ch = s.invrem tile ch - 1 ∧
      t.rdf (Reg.TAL_LIVE_W7 tile ch) 0 24 = min (s.rdf (Reg.TAL_LIVE_W7 tile ch) 0 24 + 1) (2 ^ 24 - 1) ∧
      t.sum64 (Reg.TAL_LIVE_W0 tile ch) = s.sum64 (Reg.TAL_LIVE_W0 tile ch) ∧ t.rd (Reg.TAL_LIVE_W4 tile ch) = s.rd (Reg.TAL_LIVE_W4 tile ch)) ∧
    ((s.converting tile = false ∨ s.entryRuns tile i = false) → exec (.monitorSample tile ch second code) s = .next s)) ∧
  (∀ (s : State) (tile : Fin 64) (ch : Fin 92) (second : Bool) (code : BitVec 16), s.entryDue tile ch second = none →
    exec (.monitorSample tile ch second code) s = .next s) ∧
  (∀ (s : State) (tile : Fin 64) (ch : Fin 92) (second : Bool) (i : Nat) (code : BitVec 16), s.entryDue tile ch second = some i →
    76 ≤ ch.val → s.converting tile = true → s.entryRuns tile i = true → s.invrem tile ch = 0 →
    s.bit (Reg.TAL_LIVE_W7 tile ch) 29 = false → s.sum64 (Reg.TAL_LIVE_W0 tile ch) + code.toNat * 65536 < 2 ^ 64 →
    s.sum64 (Reg.TAL_LIVE_W0 tile ch + 8) + code.toNat * code.toNat < 2 ^ 64 → ∃ t, exec (.monitorSample tile ch second code) s = .next t ∧
      t.sum64 (Reg.TAL_LIVE_W0 tile ch) = s.sum64 (Reg.TAL_LIVE_W0 tile ch) +
        code.toNat * (if wbit (s.rdLive (Reg.MON_CHCFG tile ch)) 12 then 65536 else 1) ∧
      t.sum64 (Reg.TAL_LIVE_W0 tile ch + 8) = s.sum64 (Reg.TAL_LIVE_W0 tile ch + 8) + code.toNat * code.toNat ∧
      t.rd (Reg.TAL_LIVE_W4 tile ch) = s.rd (Reg.TAL_LIVE_W4 tile ch) + 1#32 ∧ t.invrem tile ch = 0)

/-- Monitor commands: SEQAPPLY waits for a boundary where the staged sequences meet R189 or the mode is not RUN, and is refused in RUN
otherwise; a second register request while one waits is ignored (R191); self-calibration is ignored in RUN, and elsewhere a converter
asked for it shows SCAL (R204); a trigger counts only outside RUN, under ONESHOT, and outside a burst (R205). A self-calibration that ends
(R204, Table 8-3): SCAL of the converter clears, and CALOK or CALFAIL shows how it ended; of a converter that does not calibrate it
changes nothing. Where the model had to choose: log entries 34 and 38. -/
def Obligations.MonitorControls : Prop :=
  (∀ (s : State) (tile : Fin 64) (v : Word),
    ((s.modef tile ≠ 0 ∨ seqSound (s.seqStaged tile) = true) → ∃ t, exec (.sequenceApply tile) s = .next t ∧
      t.bit (Reg.MON_CTRL tile) 4 = true ∧ OnlyWords [Reg.MON_CTRL tile] s t) ∧
    (s.modef tile = 0 → seqSound (s.seqStaged tile) = false → ∃ t, exec (.sequenceApply tile) s = .next t ∧
      t.bit (Reg.MON_ERRSTAT tile) 0 = true ∧ WordsAndEvents [Reg.MON_ERRSTAT tile] s t) ∧
    (wbit v 31 = true → s.bit (Reg.MON_URGSTAT tile) 29 = true → ∃ t, exec (.urgentRequest tile v) s = .next t ∧
      t.bit (Reg.MON_ERRSTAT tile) 0 = true ∧ WordsAndEvents [Reg.MON_ERRSTAT tile] s t) ∧
    (wbit v 31 = true → s.bit (Reg.MON_URGSTAT tile) 29 = false → ∃ t, exec (.urgentRequest tile v) s = .next t ∧
      t.bit (Reg.MON_URGSTAT tile) 29 = true ∧ t.bit (Reg.MON_URGSTAT tile) 31 = false ∧
      OnlyWords [Reg.MON_URGREQ tile, Reg.MON_URGSTAT tile] s t) ∧
    (fld v 8 4 ≠ 0 → s.modef tile = 0 → ∃ t, exec (.selfCalibrationCommand tile v) s = .next t ∧ t.bit (Reg.MON_ERRSTAT tile) 0 = true ∧
      WordsAndEvents [Reg.MON_ERRSTAT tile] s t) ∧
    (∀ a : Fin 4, wbit v (8 + a) = true → s.modef tile ≠ 0 → ∃ t, exec (.selfCalibrationCommand tile v) s = .next t ∧
      t.bit (Reg.MON_CTRL tile) (8 + a) = true ∧ OnlyWords [Reg.MON_CTRL tile] s t) ∧
    (∃ t, exec (.conversionTrigger tile) s = .next t ∧
      ((t.mon tile).burstReq = true ↔ (s.mon tile).burstReq = true ∨
        (s.bit (Reg.MON_CTRL tile) 5 = true ∧ s.modef tile ≠ 0 ∧ s.bit (Reg.MON_STAT tile) 8 = false)) ∧
      OnlyWords [] { s with mons := t.mons } t)) ∧
  (∀ (s : State) (tile : Fin 64) (a : Fin 4) (ok : Bool),
    (s.bit (Reg.MON_CTRL tile) (8 + a) = true → ∃ t, exec (.adcCalibrationDone tile a ok) s = .next t ∧
      t.bit (Reg.MON_CTRL tile) (8 + a) = false ∧ t.bit (Reg.MON_STAT tile) (24 + a) = !ok ∧
      (ok = true → t.bit (Reg.MON_STAT tile) (16 + a) = true) ∧ (ok = false → t.bit (Reg.MON_ERRSTAT tile) 2 = true)) ∧
    (s.bit (Reg.MON_CTRL tile) (8 + a) = false → exec (.adcCalibrationDone tile a ok) s = .next s))

/-- Snapshots and clears (R199, R200): a request waits for its boundary, a trigger asks only under TRIGEN, a clear is only added to those
that wait, and the snapshot at the boundary copies every live word of the tile's 92 channels, steps SNAPSEQ and clears GO. -/
def Obligations.Snapshots : Prop :=
  ∀ (s : State) (tile : Fin 64) (v : Word),
    (wbit v 31 = true → ∃ t, exec (.snapshotRequest tile v) s = .next t ∧ t.bit (Reg.TAL_SNAP tile) 31 = true ∧ (t.mon tile).snapWait.isSome = true ∧
      OnlyWords [Reg.TAL_SNAP tile] { s with mons := t.mons } t) ∧
    (s.bit (Reg.TAL_CTRL tile) 0 = false → exec (.snapshotTrigger tile) s = .next s) ∧
    (s.bit (Reg.TAL_CTRL tile) 0 = true → (s.mon tile).snapWait = none → ∃ t, exec (.snapshotTrigger tile) s = .next t ∧
      (t.mon tile).snapWait = some (s.bit (Reg.TAL_CTRL tile) 1) ∧ OnlyWords [] { s with mons := t.mons } t) ∧
    (∀ w : Fin 3, ∃ t, exec (.channelClear tile w v) s = .next t ∧
      t.rd (Reg.TAL_CLR tile w) = s.rd (Reg.TAL_CLR tile w) ||| (if w.val = 2 then v &&& 0x0FFFFFFF#32 else v) ∧ OnlyWords [Reg.TAL_CLR tile w] s t) ∧
    ((s.mon tile).snapWait = some false → ∃ t, exec (.tallySnapshot tile) s = .next t ∧ (t.mon tile).snapWait = none ∧
      t.bit (Reg.TAL_SNAP tile) 31 = false ∧ t.rd (Reg.TAL_SNAPSEQ tile) = s.rd (Reg.TAL_SNAPSEQ tile) + 1#32 ∧
      ∀ ch k, ch < 92 → k < 7 → t.rd (Reg.TAL_SNAPBLK_W0 tile ch + 4 * k) = s.rd (Reg.TAL_LIVE_W0 tile ch + 4 * k)) ∧
    ((s.mon tile).snapWait = none → exec (.tallySnapshot tile) s = .next s)

/-- What a frame boundary brings into force (R189, R203, R205): MODEF takes the mode written, unless that is RUN over sequences in
force that break R189, the channels cleared are no longer asked for, and the frame starts with nothing delivered. A write of a channel's
configuration changes its staged word alone, and what is in force waits for the boundary. A write of MON_CTRL takes its mode, unless that
is a change to RUN over such sequences, and the rest of its fields. Where the model had to choose: log entries 34 and 38. -/
def Obligations.BoundaryTakesEffect : Prop :=
  ∀ (s : State) (tile : Fin 64),
    (s.tileLive tile = true → ∃ t, exec (.frameBoundary tile) s = .next t ∧
      (s.rdf (Reg.MON_CTRL tile) 0 2 ≠ 0 → t.modef tile = s.rdf (Reg.MON_CTRL tile) 0 2) ∧
      (s.rdf (Reg.MON_CTRL tile) 0 2 = 0 → s.bit (Reg.MON_CTRL tile) 4 = false →
        t.modef tile = (if seqSound (s.seqLive tile) then 0 else s.modef tile) ∧ t.rdf (Reg.MON_CTRL tile) 0 2 = t.modef tile) ∧
      (t.mon tile).got = [] ∧ (t.mon tile).urgent = [] ∧ (∀ i, i < 3 → t.rd (Reg.TAL_CLR tile i) = 0#32) ∧ t.bit (Reg.MON_CTRL tile) 4 = false) ∧
    (s.tileLive tile = false → exec (.frameBoundary tile) s = .next s) ∧
    ∀ v : Word,
      (fld v 0 2 = 0 → s.rdf (Reg.MON_CTRL tile) 0 2 ≠ 0 → seqSound (s.seqLive tile) = false → ∃ t, exec (.monitorModeWrite tile v) s = .next t ∧
        t.rdf (Reg.MON_CTRL tile) 0 2 = s.rdf (Reg.MON_CTRL tile) 0 2 ∧ t.bit (Reg.MON_ERRSTAT tile) 0 = true ∧
        WordsAndEvents [Reg.MON_CTRL tile, Reg.MON_ERRSTAT tile] s t) ∧
      ((fld v 0 2 ≠ 0 ∨ s.rdf (Reg.MON_CTRL tile) 0 2 = 0 ∨ seqSound (s.seqLive tile) = true) → ∃ t, exec (.monitorModeWrite tile v) s = .next t ∧
        t.rdf (Reg.MON_CTRL tile) 0 2 = fld v 0 2 ∧ t.bit (Reg.MON_CTRL tile) 5 = wbit v 5 ∧
        t.bit (Reg.MON_CTRL tile) 4 = s.bit (Reg.MON_CTRL tile) 4 ∧ OnlyWords [Reg.MON_CTRL tile] s t) ∧
      ∀ ch : Fin 92, ∃ t, exec (.channelConfigWrite tile ch v) s = .next t ∧ (∀ a, t.rdLive a = s.rdLive a) ∧
        t = { s.writeReg (Reg.MON_CHCFG tile ch) v with chans := t.chans } ∧ OnlyWords [Reg.MON_CHCFG tile ch] { s with chans := t.chans } t

/-- An urgent conversion (R191 to R193): one per converter and frame. A converter that is out, or whose tile is not live, makes none; one
that has made its own, or has passed the slot, makes none in this frame, and the Assayer's request waits. The Assayer's requests are served
before the register's: such a sample is counted off INVREM and leaves the register's request as it was. With none of them for the converter
it serves the register's request, which shows DONE and whether the sample was valid. -/
def Obligations.UrgentConversions : Prop :=
  ∀ (s : State) (tile : Fin 64) (a : Fin 4) (slot : Fin 23) (code : BitVec 16),
    ((s.adcOut tile a = true ∨ s.tileLive tile = false) → ∀ x, exec (.urgentConversion tile a slot x code) s = .next s) ∧
    (s.adcOut tile a = false → s.tileLive tile = true →
      ((s.mon tile).urgent.contains a.val = true ∨ ∃ p, p ∈ (s.mon tile).got ∧ p.1 / 23 = a.val ∧ slot.val ≤ p.1 % 23) →
      (∀ ch : Fin 92, ∃ t, exec (.urgentConversion tile a slot (some ch) code) s = .next t ∧ (a.val, ch.val) ∈ (t.mon tile).asyWait ∧
        (t.mon tile).urgent = (s.mon tile).urgent ∧ t = { s with mons := t.mons }) ∧
      ∃ t, exec (.urgentConversion tile a slot none code) s = .next t ∧ t.mon tile = s.mon tile ∧ t = { s with mons := t.mons }) ∧
    (s.adcOut tile a = false → s.tileLive tile = true → (s.mon tile).urgent.contains a.val = false →
      (∀ p, p ∈ (s.mon tile).got → p.1 / 23 = a.val → p.1 % 23 < slot.val) →
      (∀ (x : Option (Fin 92)) (p : Nat × Nat),
        ((s.mon tile).asyWait ++ (x.map fun (ch : Fin 92) => (a.val, ch.val)).toList).find? (fun q => q.1 == a.val) = some p → p.2 < 92 →
        ∃ t, exec (.urgentConversion tile a slot x code) s = .next t ∧ a.val ∈ (t.mon tile).urgent ∧
          (t.mon tile).asyWait = ((s.mon tile).asyWait ++ (x.map fun (ch : Fin 92) => (a.val, ch.val)).toList).erase p ∧
          t.invrem tile p.2 = s.invrem tile p.2 - 1 ∧ t.rd (Reg.MON_URGSTAT tile) = s.rd (Reg.MON_URGSTAT tile)) ∧
      ((∀ q, q ∈ (s.mon tile).asyWait → q.1 ≠ a.val) →
        (∀ ch, s.urgentTarget tile = some (a.val, ch) → ∃ t, exec (.urgentConversion tile a slot none code) s = .next t ∧
          t.bit (Reg.MON_URGSTAT tile) 31 = true ∧ t.bit (Reg.MON_URGSTAT tile) 29 = false ∧
          (t.bit (Reg.MON_URGSTAT tile) 30 = true ↔ s.invrem tile ch = 0) ∧ a.val ∈ (t.mon tile).urgent) ∧
        ((∀ ch, s.urgentTarget tile ≠ some (a.val, ch)) → exec (.urgentConversion tile a slot none code) s = .next s)))

/-! ## Chapter 9: the Assayer and the Tinker -/

/-- A full calibration is refused with PORT_BUSY and CMDERR while a circuit exists, a solution is held, the thermal block stands, one
runs, or the module is not in P0 (R219, R231); refused, it starts nothing. Accepted, HOLD is set and the source is on. CELLCAL, SAVE and
CAL_ABORT (R221, R225): an eligible cell is taken into CAL, and one that is not, or for which its tile has no room, is put off to its next
visit with DEFERRED; a save takes the copy of R225 and is refused while another runs or for want of a generation; an abort of a full
calibration ends it, clears HOLD and turns the source off, and any other releases the cells of CELLCAL. Once the source has settled the
couplers open (R216, R220): one per port pair in a full calibration, else one for each cell probed. Where the model had to choose: log
entries 39, 92 and 116. -/
def Obligations.AssayerOperations : Prop :=
  (∀ s : State,
    ((s.ckts ≠ [] ∨ s.heldBatches ≠ [] ∨ s.thermalBlock = true ∨ s.fullcal.isSome = true ∨ s.pstate ≠ 0) → ∃ t, exec .fullcal s = .next t ∧
      t.rd Reg.ASY_CMDRES = pack [(31, 1, 1), (8, 4, 4)] ∧ t.bit Reg.ASY_ERRSTAT 0 = true ∧
      WordsAndEvents [Reg.ASY_CMDRES, Reg.ASY_ERRSTAT] { s with asyLast := 0 } t) ∧
    (s.ckts = [] → s.heldBatches = [] → s.thermalBlock = false → s.fullcal = none → s.pstate = 0 → ∃ t, exec .fullcal s = .next t ∧
      t.fullcal = some ⟨false, false, [], none, []⟩ ∧ t.bit Reg.LMP_CTRL 8 = true ∧ t.calEn = true ∧ t.calBand = false ∧
      t.rd Reg.ASY_CMDRES = 0#32 ∧ t.asyLast = 1)) ∧
  (∀ s : State,
    (∀ (c : Fin 4864) (full : Bool), (s.eligible c = false ∨ s.calRoom (tileOf c) = false ∨ s.pstate ≠ 0 ∨ s.fullcal.isSome = true) → ∃ t,
      exec (.cellcal c full) s = .next t ∧ t.deferredCal = s.deferredCal.filter (fun p => p.1 != c.val) ++ [(c.val, full)] ∧
      t.rd Reg.ASY_CMDRES = pack [(31, 1, 1), (8, 4, 1)] ∧ OnlyWords [Reg.ASY_CMDRES] { s with deferredCal := t.deferredCal, asyLast := 0 } t) ∧
    (∀ (c : Fin 4864) (full : Bool), s.eligible c = true → s.calRoom (tileOf c) = true → s.pstate = 0 → s.fullcal = none → ∃ t,
      exec (.cellcal c full) s = .next t ∧ (t.cell c).mode = 2 ∧ (t.coo c).calH = s.hcode c ∧
      (∃ x, x ∈ t.calCells ∧ x.cell = c.val ∧ x.full = full ∧ x.commanded = true ∧ x.tinker = false ∧ x.prev = (s.cell c).mode) ∧
      t.rd Reg.ASY_CMDRES = 0#32 ∧ t.asyLast = 16 + c.val ∧ t.bit Reg.ASY_STAT 31 = true) ∧
    ((s.saving.isSome = true ∨ s.saveGen = 0xFFFFFFFF) → ∃ t, exec .save s = .next t ∧ t.rd Reg.ASY_CMDRES = pack [(31, 1, 1), (8, 4, 4)] ∧
      t.bit Reg.ASY_ERRSTAT 0 = true ∧ WordsAndEvents [Reg.ASY_CMDRES, Reg.ASY_ERRSTAT] { s with asyLast := 0 } t) ∧
    (s.saving = none → s.saveGen ≠ 0xFFFFFFFF → ∃ t, exec .save s = .next t ∧ (∃ r, t.saving = some r ∧ r.copy = s.bankCopy ∧
      r.time = wd (secOf s.ns) ∧ r.behind = s.flash.isSome) ∧ t.saveUntil = s.ns + 20000000 ∧ t.rd Reg.ASY_CMDRES = 0#32 ∧ t.asyLast = 3 ∧ t.bit Reg.ASY_STAT 31 = true) ∧
    (s.fullcal.isSome = true → ∃ t, exec .calAbort s = .next t ∧ t.fullcal = none ∧ t.bit Reg.LMP_CTRL 8 = false ∧ t.calEn = false ∧ t.couplers = [] ∧
      t.rd Reg.ASY_CMDRES = pack [(31, 1, 1)]) ∧
    (s.fullcal = none → ∃ t, exec .calAbort s = .next t ∧ t.deferredCal = [] ∧ (∀ x, x ∈ t.calCells → x.commanded = false) ∧
      t.rd Reg.ASY_CMDRES = pack [(31, 1, 1)]) ∧
    (s.calEn = true → s.calSettled = false → ∃ t, exec .calsrcSettled s = .next t ∧ t.calSettled = true ∧
      t.couplers = (if s.fullcal.isSome then (List.range 256).filterMap s.pairCoupler
        else (s.calCells.filter fun x => !x.tinker && !x.retried).filterMap fun x => s.probeInput x.cell) ∧
      (∀ f, s.fullcal = some f → t.fullcal = some { f with settledAt := some s.ns }) ∧
      t = { s with calSettled := true, couplers := t.couplers, fullcal := t.fullcal }) ∧
    ((s.calEn = false ∨ s.calSettled = true) → exec .calsrcSettled s = .next s))

/-- The end of a save (R224, R225): what reads back well is the bank of the lower generation from now on, in its region of the NOR with its
MAGIC and the next generation number; what does not, or ends while debug is open, leaves that bank without a valid header or generation,
with SAVEFAIL. Nothing is being saved afterwards. A save behind a NOR command waits for it (R386). A full calibration's stages (R220, Table 9-3): a stage that finds light gives way to the
next one; a stage 0 that finds 128 cells dark abandons its band; band C follows band O; after band C the source is off and the couplers
closed; with both bands done the calibration ends and HOLD is cleared. A calibration commit (R223) is placed only in P0 and for staged
factors; it lies on the 4 ns grid where no other commit is, no earlier than its cells can be sent and than CCPER after the last one. Where
the model had to choose: log entries 39 and 92. -/
def Obligations.CalibrationFlow : Prop :=
  (∀ (s : State) (r : SaveRun) (ok : Bool), s.saving = some r → r.behind = true → exec (.saveComplete ok) s = .next s) ∧
  (∀ (s : State) (r : SaveRun), s.saving = some r → r.behind = false →
    (s.bit Reg.SEC_OTPSTAT 29 = false → ∃ t, exec (.saveComplete true) s = .next t ∧ t.saving = none ∧
      t.rd (Reg.ASY_BANKGEN s.saveTarget.2) = wd s.saveGen ∧ t.memWord (s.bankBase s.saveTarget.2) = 0x4E474342#32 ∧
      t.memWord (s.bankBase s.saveTarget.2 + 8) = wd s.saveGen ∧ t.sinceSave = [] ∧ t.lastSave = secOf s.ns ∧
      t.rd (Reg.ASY_BANKGEN (1 - s.saveTarget.2)) = s.rd (Reg.ASY_BANKGEN (1 - s.saveTarget.2)) ∧
      t.rd Reg.ASY_CMDRES = (if s.asyLast = 3 then pack [(31, 1, 1)] else s.rd Reg.ASY_CMDRES)) ∧
    ∀ ok, (ok = false ∨ s.bit Reg.SEC_OTPSTAT 29 = true) → ∃ t, exec (.saveComplete ok) s = .next t ∧ t.saving = none ∧
      t.rd (Reg.ASY_BANKGEN s.saveTarget.2) = 0xFFFFFFFF#32 ∧ t.bit Reg.ASY_ERRSTAT 3 = true ∧
      ∀ a, t.byte a = if s.bankBase s.saveTarget.2 ≤ a ∧ a < s.bankBase s.saveTarget.2 + 0x1000 then memDefault a else s.byte a) ∧
  (∀ (s : State) (f : FullCal), s.fullcal = some f →
    (f.ended = false → s.rdf Reg.ASY_STAT 21 5 < 18 → (s.rdf Reg.ASY_STAT 21 5 = 0 → s.darkInStage 0 (s.bit Reg.ASY_STAT 20) < 128) → ∃ t,
      exec .fullcalStageComplete s = .next t ∧ t.rdf Reg.ASY_STAT 21 5 = s.rdf Reg.ASY_STAT 21 5 + 1 ∧
      (∀ x, x ∈ t.calCells → x.moved = false) ∧ OnlyWords [Reg.ASY_STAT] { s with calCells := t.calCells } t) ∧
    (f.ended = false → s.bit Reg.ASY_STAT 20 = false →
      (s.rdf Reg.ASY_STAT 21 5 = 0 → 128 ≤ s.darkInStage 0 false → ∃ t, exec .fullcalStageComplete s = .next t ∧
        t.fullcal = some { f with abandoned := f.abandoned ++ [false], settledAt := none, undo := [] } ∧ t.bit Reg.ASY_STAT 20 = true ∧
        t.rdf Reg.ASY_STAT 21 5 = 0 ∧ t.calEn = true ∧ t.calBand = true) ∧
      (18 ≤ s.rdf Reg.ASY_STAT 21 5 → ∃ t, exec .fullcalStageComplete s = .next t ∧
        t.fullcal = some { f with settledAt := none, undo := [] } ∧ t.bit Reg.ASY_STAT 20 = true ∧ t.rdf Reg.ASY_STAT 21 5 = 0 ∧
        t.calEn = true ∧ t.calBand = true)) ∧
    (f.ended = false → s.bit Reg.ASY_STAT 20 = true → 18 ≤ s.rdf Reg.ASY_STAT 21 5 → ∃ t, exec .fullcalStageComplete s = .next t ∧
      t.fullcal = some { f with ended := true, undo := [] } ∧ t.calEn = false ∧ t.couplers = []) ∧
    (f.ended = true → ∃ t, exec .fullcalStageComplete s = .next t ∧ t.fullcal = none ∧ t.bit Reg.LMP_CTRL 8 = false ∧ t.abandoned = f.abandoned)) ∧
  (∀ s : State,
    ((s.pstate ≠ 0 ∨ s.stagedCells = []) → exec .calibrationCommitPlacement s = .next s) ∧
    (s.pstate = 0 → s.commits = [] → (s.stagedCells.filter fun c => !(loads s.ckts s.cross).contains c) ≠ [] → ∃ t,
      exec .calibrationCommitPlacement s = .next t ∧ t.lastCalCommit % 4 = 0 ∧ s.ns + 460 ≤ t.lastCalCommit ∧
        s.lastCalCommit + s.rdf Reg.ASY_CTRL 16 8 * 100000 ≤ t.lastCalCommit ∧
        ∃ k, t.commits = [k] ∧ k.kind = .calibration ∧ k.tc = t.lastCalCommit ∧
          k.factors = s.stagedCells.filter fun c => !(loads s.ckts s.cross).contains c))

/-- Measurements (R211, R214, R217): outside a full calibration a cell measured is released from CAL to the mode it was taken from (HOLD
where its tile's loops were frozen meanwhile), its heater back at the code it was taken with and its result in its quality record, with the
figures of one that passed, QFAIL's or the skipped one's error bit, and a CELLCAL command's result. In a full calibration it stays in CAL. A
cell that is not in CAL is not measured, nor is any before the source settles; and a dark probe under PROBE_AMBIENT is tried again with
every coupler closed. Where the model had to choose: log entry 91. -/
def Obligations.MeasurementsReleaseCells : Prop :=
  ∀ (s : State) (cell : Fin 4864) (m : Measured) (x : CalRec), let c := cell.val
    (∀ res, s.calCells = [x] → x.cell = c → x.tinker = false → s.fullcal = none → (s.calEn = false ∨ s.calSettled = true ∨ x.retried = true) →
      s.judgeMeasured false x.moved c x.band m = res → (res = 2 → s.rdf Reg.ASY_CTRL 10 2 = 2 → x.retried = true) → (s.cell c).mode = 2 → ∃ t,
      exec (.measurementComplete cell m) s = .next t ∧ t.calCells = [] ∧
        (t.cell c).mode = (if s.frozen (tileOf c) && x.prev != 6 then 3 else x.prev) ∧ t.hcode c = (s.coo c).calH % 16384 ∧
        t.rdf (Reg.ASY_QUAL_W0 c) (if x.band then 8 else 4) 4 = res ∧
        (res = 1 → t.rdf (Reg.ASY_QUAL_W0 c) (if x.band then 22 else 12) 10 = min m.ext 1023 ∧ t.rdf (Reg.ASY_QUAL_W1 c) 0 16 = 0) ∧
        (res = 6 → t.bit Reg.ASY_ERRSTAT 2 = true) ∧ (res ≠ 1 → res ≠ 6 → res ≠ 8 → t.bit Reg.ASY_ERRSTAT 1 = true) ∧
        (x.commanded = true → s.asyLast = 16 + c → t.rd Reg.ASY_CMDRES = pack [(31, 1, 1), (8, 4, resultStatus res), (0, 4, res)])) ∧
    (∀ (f : FullCal) (res : Nat), s.calCells = [x] → x.cell = c → x.tinker = false → s.fullcal = some f →
      (s.calEn = false ∨ s.calSettled = true ∨ x.retried = true) → c / 256 = s.rdf Reg.ASY_STAT 21 5 →
      s.judgeMeasured true x.moved c (s.bit Reg.ASY_STAT 20) m = res → ∃ t, exec (.measurementComplete cell m) s = .next t ∧
        t.calCells = [x] ∧ t.cell c = s.cell c ∧ t.rdf (Reg.ASY_QUAL_W0 c) (if s.bit Reg.ASY_STAT 20 then 8 else 4) 4 = res) ∧
    (s.calCells = [] → exec (.measurementComplete cell m) s = .next s ∧ ∀ e, exec (.restErrorMeasured cell e) s = .next s) ∧
    (s.calEn = true → s.calSettled = false → s.calCells = [x] → x.retried = false → exec (.measurementComplete cell m) s = .next s) ∧
    (s.calCells = [x] → x.cell = c → x.tinker = false → x.retried = false → s.fullcal = none → (s.calEn = false ∨ s.calSettled = true) →
      s.judgeMeasured false x.moved c x.band m = 2 → s.rdf Reg.ASY_CTRL 10 2 = 2 → ∃ t, exec (.measurementComplete cell m) s = .next t ∧
        t.couplers = [] ∧ t.calCells = [{ x with retried := true }] ∧ t = { s with couplers := [], calCells := t.calCells })

/-- Background work takes only the cell that is due, in P0 after UP and below THROTTLE (R221, R227, R231): outside that it takes none, and
an AUTOSAVE without 256 changed cells, or for which a save runs already, starts nothing (R225). The Tinker (R228, R229, R230): a write
operation is counted before any pulse and starts only where R228 allows it; the wear log, which takes the count, lets pulses begin; a cell
cleared of STUCK is counted out, in the wear log too. Where the model had to choose: log entries 40, 91 and 118. -/
def Obligations.BackgroundAndTinker : Prop :=
  (∀ (s : State) (c : Fin 4864),
    (s.background = false → exec (.backgroundVisit c) s = .next s ∧ exec (.restErrorMeasurement c) s = .next s) ∧
    (s.nextVisit ≠ some c.val → exec (.backgroundVisit c) s = .next s) ∧
    ((s.sinceStamp (4864 + c) 86400 = false ∨ s.calRoom (tileOf c) = false) → exec (.restErrorMeasurement c) s = .next s) ∧
    (s.eligible c = true → s.calRoom (tileOf c) = true → s.background = true → s.sinceStamp (4864 + c) 86400 = true → ∃ t,
      exec (.restErrorMeasurement c) s = .next t ∧ (t.cell c).mode = 2 ∧ (t.coo c).calH = s.hcode c ∧ t.bit Reg.TNK_STAT 31 = true ∧
      (t.calCells.map (·.cell)).contains c.val = true) ∧
    (s.background = true → s.bit Reg.ASY_CTRL 0 = true → s.nextVisit = some c.val → ∃ t, exec (.backgroundVisit c) s = .next t ∧
      (t.cell c).mode = 2 ∧ t.bgNext = (c.val + 1) % 4864 ∧ (t.calCells.map (·.cell)).contains c.val = true ∧ t.bit Reg.ASY_STAT 31 = true) ∧
    (∀ (x : CalRec) (e : BitVec 16), s.calCells = [x] → x.cell = c.val → x.tinker = true → s.bit Reg.TNK_CTRL 0 = false →
      (s.cell c).mode = 2 → ∃ t, exec (.restErrorMeasured c (some e)) s = .next t ∧ t.calCells = [] ∧
      (t.cell c).mode = (if s.frozen (tileOf c) && x.prev != 6 then 3 else x.prev) ∧ t.rdf (Reg.TNK_CELL_W1 c) 16 16 = e.toNat) ∧
    (s.bit Reg.ASY_CTRL 3 = true → s.saving = none → 256 ≤ s.sinceSave.length → s.lastSave + 3600 ≤ secOf s.ns →
      (s.saveGen ≠ 0xFFFFFFFF → ∃ t, exec .autosave s = .next t ∧ (∃ r, t.saving = some r ∧ r.copy = s.bankCopy) ∧
        t.saveUntil = s.ns + 20000000) ∧
      (s.saveGen = 0xFFFFFFFF → ∃ t, exec .autosave s = .next t ∧ t.bit Reg.ASY_ERRSTAT 0 = true ∧ WordsAndEvents [Reg.ASY_ERRSTAT] s t)) ∧
    ((s.sinceSave.length < 256 ∨ s.saving.isSome = true ∨ s.bit Reg.ASY_CTRL 3 = false ∨ secOf s.ns < s.lastSave + 3600) →
      exec .autosave s = .next s)) ∧
  (∀ s : State,
    (∀ c : Fin 4864, s.trimAllowed c true = false → s.tink = none → exec (.tinkerWriteOperation c) s = .next s) ∧
    (∀ c : Fin 4864, s.trimAllowed c true = true → s.tink = none → (s.calCells.any fun x => x.cell == c.val && x.tinker) = true →
      ∃ t, exec (.tinkerWriteOperation c) s = .next t ∧ t.rdf (Reg.TNK_CELL_W0 c) 0 15 = (s.rdf (Reg.TNK_CELL_W0 c) 0 15 + 1) % 2 ^ 15 ∧
        t.tink = some ⟨c.val, 1, 0, false, true⟩ ∧ t.bit Reg.TNK_STAT 31 = true) ∧
    (∀ k, s.tink = some k → k.active = true → k.logged = false → ∃ t, exec .wearLogProgrammed s = .next t ∧
      t.wearLog = s.wearLog ++ [(k.cell, s.rd (Reg.TNK_CELL_W0 k.cell) &&& 0xA0007FFF#32)] ∧
      t = { s with tink := some { k with logged := true }, wearLog := t.wearLog }) ∧
    (∀ k, s.tink = some k → k.active = true → k.logged = true → exec .wearLogProgrammed s = .next s) ∧
    (∀ (c : Fin 4864) e, s.tink = none → exec (.trimPulseRemeasure c e) s = .next s) ∧
    (∀ (c : Fin 4864) (e : BitVec 16) k, s.tink = some k → k.cell = c.val → k.active = true → k.logged = true →
      s.trimThr < 4 * e.toInt.natAbs → k.pulses < 15 → ∃ t, exec (.trimPulseRemeasure c e) s = .next t ∧
        t.tink = some { k with pulses := k.pulses + 1 } ∧ t.rdf (Reg.TNK_CELL_W1 c) 16 16 = e.toNat ∧
        OnlyWords [Reg.TNK_CELL_W1 c] { s with tink := t.tink, stamps := t.stamps } t) ∧
    ∀ v : Word, wbit v 31 = true → fld v 0 13 < 4864 → s.bit (Reg.TNK_CELL_W0 (fld v 0 13)) 29 = true → ∃ t, exec (.stuckClear v) s = .next t ∧
      t.bit (Reg.TNK_CELL_W0 (fld v 0 13)) 29 = false ∧ t.rdf Reg.TNK_CNT 16 13 = s.rdf Reg.TNK_CNT 16 13 - 1 ∧
      (∃ w, t.wearLog = s.wearLog ++ [(fld v 0 13, w)] ∧ wbit w 29 = false) ∧
      OnlyWords [Reg.TNK_CELL_W0 (fld v 0 13), Reg.TNK_CNT] { s with wearLog := t.wearLog } t)

/-! ## Chapter 10: the host interface -/

/-- Links and functions: PERST deasserted starts the training of a link that the bifurcation has (R236); a link up shows its width, speed
and mode (Table 10-14). FNCFG (R238, R241): a write of W0 binds a VF, refused with CFGERR once it has an enabled ring; ring ranges may
not overlap; W3 takes no write. Bus mastering, asked for before the host section is in force, is answered with Configuration Request Retry
Status (R236); enabled, the function's SUBMIT rings fetch again, in D0 (R256). A function-level reset (R257), of PF0 with every VF of its
link, a hot reset (R258), and a stream's enable (R252). Where the model had to choose: log entry 119. -/
def Obligations.LinksAndFunctions : Prop :=
  (∀ (s : State) (l : Fin 4),
    ((l.val = 0 ∨ (s.rdf (Reg.HIF_LINKCFG 0) 8 2 = 1 ∧ l.val < 2) ∨ 2 ≤ s.rdf (Reg.HIF_LINKCFG 0) 8 2) → ∃ t, exec (.perstDeassert l) s = .next t ∧
      l.val ∈ t.training ∧ t = { s with training := t.training }) ∧
    (∀ (w : Fin 32) (sp : Fin 16) (flit : Bool), ∃ t, exec (.pcieLinkUp l w sp flit) s = .next t ∧ t.bit (Reg.HIF_LINKCFG l) 31 = true ∧
      t.rdf (Reg.HIF_LINKCFG l) 16 5 = w ∧ t.rdf (Reg.HIF_LINKCFG l) 12 4 = sp ∧ t.bit (Reg.HIF_LINKCFG l) 11 = flit ∧ l.val ∉ t.training ∧
      OnlyWords [Reg.HIF_LINKCFG l] { s with training := t.training } t) ∧
    (∀ bursts reads, ∃ t, exec (.hotReset ⟨l, bursts, reads⟩) s = .next t ∧ t.bit (Reg.HIF_LINKCFG l) 31 = false ∧ t.bit Reg.HIF_ERRSTAT 6 = true ∧
      (∀ f : Fin 17, fnIndex l f ∉ t.bme ∧ t.cfg (fnIndex l f) = FnCfg.zero) ∧ ∃ x ∈ t.draining, x.1 = .master ⟨l.val, by omega⟩)) ∧
  (∀ (s : State) (l : Fin 4) (f : Fin 17) (v : Word), let g := fnIndex l f
    (exec (.functionConfigWrite l f 3 v) s = .next s) ∧
    (f ≠ 0 → s.hasRingOn g = false → ∃ t, exec (.functionConfigWrite l f 0 v) s = .next t ∧ t.bit (Reg.HIF_FNCFG_W0 g) 31 = wbit v 31 ∧
      t.rdf (Reg.HIF_FNCFG_W0 g) 16 6 = fld v 16 6 ∧ OnlyWords [Reg.HIF_FNCFG_W0 g] s t) ∧
    (f ≠ 0 → s.hasRingOn g = true → wbit v 31 ≠ s.bit (Reg.HIF_FNCFG_W0 g) 31 → ∃ t, exec (.functionConfigWrite l f 0 v) s = .next t ∧
      t.bit Reg.HIF_ERRSTAT 0 = true ∧ t.bit (Reg.HIF_FNCFG_W0 g) 31 = s.bit (Reg.HIF_FNCFG_W0 g) 31 ∧
      t.rdf (Reg.HIF_FNCFG_W0 g) 16 6 = s.rdf (Reg.HIF_FNCFG_W0 g) 16 6 ∧ WordsAndEvents [Reg.HIF_FNCFG_W0 g, Reg.HIF_ERRSTAT] s t) ∧
    ((∀ h, h < 68 → h ≠ g → rangesMeet (fld v 16 15) (fld v 0 16) (s.rdf (Reg.HIF_FNCFG_W1 h) 16 15) (s.rdf (Reg.HIF_FNCFG_W1 h) 0 16) = false) →
      s.hasRingOn g = false → ∃ t, exec (.functionConfigWrite l f 1 v) s = .next t ∧ t.rdf (Reg.HIF_FNCFG_W1 g) 16 15 = fld v 16 15 ∧
        t.rdf (Reg.HIF_FNCFG_W1 g) 0 16 = fld v 0 16 ∧ OnlyWords [Reg.HIF_FNCFG_W1 g] s t) ∧
    (∀ h, h < 68 → h ≠ g → rangesMeet (fld v 16 15) (fld v 0 16) (s.rdf (Reg.HIF_FNCFG_W1 h) 16 15) (s.rdf (Reg.HIF_FNCFG_W1 h) 0 16) = true →
      ∃ t, exec (.functionConfigWrite l f 1 v) s = .next t ∧ t.bit Reg.HIF_ERRSTAT 0 = true ∧ WordsAndEvents [Reg.HIF_ERRSTAT] s t) ∧
    (s.owed = [] → s.ownsRing g (fld v 0 15) = true → ∃ t, exec (.functionConfigWrite l f 2 v) s = .next t ∧
      t.bit (Reg.HIF_FNCFG_W2 g) 31 = wbit v 31 ∧ t.rdf (Reg.HIF_FNCFG_W2 g) 0 15 = fld v 0 15 ∧ OnlyWords [Reg.HIF_FNCFG_W2 g] s t) ∧
    (s.hostReady = false → exec (.busMasterEnable l f) s = .next (s.send (.retry l f))) ∧
    (s.hostReady = true → s.heldCq = [] → ∃ t, exec (.busMasterEnable l f) s = .next t ∧ g ∈ t.bme ∧
      t = { s with bme := t.bme, rings := t.rings, out := t.out } ∧ ((s.cfg g).d3hot = true → t = { s with bme := t.bme }) ∧
      ∀ r, (s.cfg g).d3hot = false → s.ringOwner r = some g → s.ringOn r = true → s.ringType r = 0 → s.rdf (Reg.RING_W5 r) 28 4 = 1 →
        s.submitStopped = false → (s.ring r).fetched.length < s.ringUsed r → (t.ring r).asked ≠ 0) ∧
    (∀ bursts reads, ∃ t, exec (.functionLevelReset ⟨l, bursts, reads⟩ f) s = .next t ∧ g ∉ t.bme ∧ t.cfg g = FnCfg.zero ∧
      (f = 0 → ∀ h : Fin 17, fnIndex l h ∉ t.bme ∧ t.cfg (fnIndex l h) = FnCfg.zero) ∧
      (f ≠ 0 → s.bit (Reg.HIF_FNCFG_W0 g) 30 = false → bursts = [] → reads = [] →
        t.draining = s.draining.filter (fun d => d.1 != .function l f) ++ [(.function l f, 0, 0)] ∧ t.batches = s.batches ∧
        ∀ r, r < 32768 → t.ringOn r = (s.ringOn r && !s.ownsRing g r)))) ∧
  (∀ (s : State) (i : Fin 64) (v : Word),
    (wbit v 31 = true → (s.ringOn (fld v 0 15) = false ∨ s.ringType (fld v 0 15) ≠ 3) → ∃ t, exec (.streamEnable i v) s = .next t ∧
      t.bit Reg.HIF_ERRSTAT 0 = true ∧ WordsAndEvents [Reg.HIF_ERRSTAT] s t) ∧
    ((wbit v 31 = false ∨ (s.ringOn (fld v 0 15) = true ∧ s.ringType (fld v 0 15) = 3)) → ∃ t, exec (.streamEnable i v) s = .next t ∧
      t.bit (Reg.HIF_CRSTREAM_W0 i) 31 = wbit v 31 ∧ t.rdf (Reg.HIF_CRSTREAM_W0 i) 0 15 = fld v 0 15 ∧
      OnlyWords [Reg.HIF_CRSTREAM_W0 i] s t))

/-- Rings (R242, R243, R256): enabling a ring empties it and starts it in RUN; it is refused with CFGERR without an enabled COMPLETE ring
for its results, and no enabled ring is enabled again. Disabled, a ring holds nothing; with a COMPLETE ring every SUBMIT ring that names
it halts with NOCQ. A doorbell that the matrix serves moves the host's index where the ring can hold it, and is refused elsewhere: ISOL
for another function's ring. Where the model had to choose: log entry 27. -/
def Obligations.RingControl : Prop :=
  (∀ (s : State) (r : Fin 32768) (v : Word),
    (s.ringOn r = false → ∃ t, exec (.ringConfigure r v) s = .next t ∧ t.ringOn r = false ∧ t.rdf (Reg.RING_W2 r) 0 15 = fld v 0 15 ∧
      t.ringType r = fld v 29 2 ∧ OnlyWords [Reg.RING_W2 r] s t) ∧
    (s.ringOn r = false → s.owed = [] → s.enableRefused r (putBit v 31 true) = false → ∃ t, exec (.ringEnable r v) s = .next t ∧
      t.ringOn r = true ∧ t.ringType r = fld v 29 2 ∧ t.ringPi r = 0 ∧ t.ringCi r = 0 ∧ t.rdf (Reg.RING_W5 r) 28 4 = 1 ∧
      t.rdf (Reg.RING_W5 r) 24 4 = 0 ∧ t.rdf (Reg.RING_W6 r) 0 16 = 0 ∧ t.ring r = RingRec.empty ∧
      OnlyWords [Reg.RING_W2 r, Reg.RING_W4 r, Reg.RING_W5 r, Reg.RING_W6 r] { s with rings := t.rings } t) ∧
    (s.owed = [] → (s.ringOn r = true ∨ s.enableRefused r (putBit v 31 true) = true) → ∃ t, exec (.ringEnable r v) s = .next t ∧
      t.bit Reg.HIF_ERRSTAT 0 = true ∧ WordsAndEvents [Reg.HIF_ERRSTAT] s t) ∧
    (s.ringOn r = true → s.ringType r ≠ 1 → ∃ t, exec (.ringDisable r v) s = .next t ∧ t.ringOn r = false ∧ t.ring r = RingRec.empty ∧
      t.rdf (Reg.RING_W5 r) 28 4 = 0 ∧ OnlyWords [Reg.RING_W2 r, Reg.RING_W5 r] { s with rings := t.rings } t) ∧
    (s.ringOn r = true → s.ringType r = 1 → ∃ t, exec (.ringDisable r v) s = .next t ∧ t.ringOn r = false ∧ t.ring r = RingRec.empty ∧
      ((s.ring r).reserved ≠ 0 → t.bit Reg.HIF_ERRSTAT 4 = true) ∧
      ∀ q, q < 32768 → s.ringOn q = true → s.ringType q = 0 → s.cqOf q = r → t.rdf (Reg.RING_W5 q) 28 4 = 3 ∧ t.rdf (Reg.RING_W5 q) 24 4 = 3)) ∧
  (∀ (s : State) (l : Fin 4) (f : Fin 17) (r : Fin 32768) (v : Word), let n := fld v 0 16; let may := s.reach2 (.fn l f) true (8 * r)
    s.off = false → s.isDraining (.fn l f) = false → s.silent 64 = false →
    (may = false → ∃ t, exec (.doorbell l f r v) s = .next t ∧ t.bit Reg.MTX_ERRSTAT 1 = true ∧
      WordsAndEvents [Reg.MTX_ERRSTAT, Reg.MTX_ERRADDR, Reg.MTX_ERRINFO] s t) ∧
    (may = true →
      (s.ringOn r = false ∨ (s.ringType r = 0 ∧ s.ringSize r < sub16 n (s.ringCi r)) ∨
        (s.ringType r ≠ 0 ∧ s.ringUsed r < sub16 (s.ringPi r) n)) → ∃ t, exec (.doorbell l f r v) s = .next t ∧ t.bit Reg.HIF_ERRSTAT 1 = true ∧
      WordsAndEvents [Reg.HIF_ERRSTAT] s t) ∧
    (may = true → s.ringOn r = true → s.ringType r = 0 → sub16 n (s.ringCi r) ≤ s.ringSize r → ∃ t,
      exec (.doorbell l f r v) s = .next t ∧ t.ringPi r = n ∧ t.ringCi r = s.ringCi r ∧
      OnlyWords [Reg.RING_W4 r] { s with rings := t.rings, out := t.out } t) ∧
    (may = true → s.ringOn r = true → s.ringType r ≠ 0 → sub16 (s.ringPi r) n ≤ s.ringUsed r → ∃ t,
      exec (.doorbell l f r v) s = .next t ∧ t.ringCi r = n ∧ t.ringPi r = s.ringPi r ∧ OnlyWords [Reg.RING_W4 r] s t))

/-- SUBMIT entries (R245, R246): a fetch queues at most what its read asked for. The entry at the head of a running ring that has its turn, or
waits for space, is processed by its OPC: one whose reserved bits are not 0 is answered FORMAT (3) through its CQ and is done; a NOP is done; a run of CUES is
submitted and an ABORT made once the ring has the completion space they need; without any space the ring waits in CQWAIT, and takes its
entry up again when space is freed. Where the model had to choose: log entries 28 and 120. -/
def Obligations.SubmitEntries : Prop :=
  (∀ (s : State) (r : Fin 32768) (es : List (List Word)), ∃ t, exec (.submitFetch r es) s = .next t ∧
    ((s.ringOn r = true ∧ s.ringType r = 0 ∧ s.rdf (Reg.RING_W5 r) 28 4 ≠ 3) →
      (t.ring r).fetched = (s.ring r).fetched ++ es.take (s.ring r).asked ∧
      OnlyWords [] { s with rings := t.rings, out := t.out } t) ∧
    (¬(s.ringOn r = true ∧ s.ringType r = 0 ∧ s.rdf (Reg.RING_W5 r) 28 4 ≠ 3) → t = s)) ∧
  (∀ (s : State) (r : Fin 32768) (e : List Word) (es : List (List Word)) (g : Nat),
    s.ringOn r = true → s.ringType r = 0 → (s.rdf (Reg.RING_W5 r) 28 4 = 1 ∧ s.turn r = true ∨ s.rdf (Reg.RING_W5 r) 28 4 = 2) → s.submitStopped = false →
    (s.ring r).fetched = e :: es → s.ringOwner r = some g → s.ringOn (s.cqOf r) = true → s.ringType (s.cqOf r) = 1 →
    s.ringOwner (s.cqOf r) = some g → s.dmaOk g = true →
    let s0 := { s with served := Store.set 32767 s.served (g / 17) r.val }
    let w0 := e.getD 0 0#32
    let w1 := e.getD 1 0#32
    let op := fld w0 0 4
    let cq := s.cqOf r
    (∀ c, ((c = .cues r ∧ op = 1) ∨ (c = .abort r ∧ op = 2) ∨ (c = .nop r ∧ op ≠ 1 ∧ op ≠ 2)) → ∃ t, exec c s = .next t ∧
      (entrySound e = false → s.cqRoom cq ≠ 0 → t.ringCi r = (s.ringCi r + 1) % 65536 ∧ (t.ring r).fetched = es ∧
        t.rdf (Reg.RING_W5 r) 28 4 = 1 ∧ t.ringPi cq = (s.ringPi cq + 1) % 65536 ∧ t.batches = s.batches ∧ t.origins = s.origins ∧
        ∃ ws, .dma (g / 17) (g % 17) (s.entryAddr cq (s.ringPi cq)) ws ∈ t.out ∧ fld (ws.getD 1 0#32) 0 4 = 3 ∧
          fld (ws.getD 1 0#32) 16 16 = fld w0 16 16) ∧
      (entrySound e = false → s.cqRoom cq = 0 → t.rdf (Reg.RING_W5 r) 28 4 = 2 ∧ t.ring r = s.ring r ∧ t.ringCi r = s.ringCi r)) ∧
    (op = 0 → entrySound e = true → wbit w0 8 = false → s.cqRoom cq ≠ 0 → ∃ t, exec (.nop r) s = .next t ∧
      t.ringCi r = (s.ringCi r + 1) % 65536 ∧ (t.ring r).fetched = es ∧
      OnlyWords [Reg.RING_W4 r, Reg.RING_W5 r] { s0 with rings := t.rings, out := t.out } t) ∧
    (op = 1 → entrySound e = true → let q := fld w1 0 16; let n := fld w1 16 13; let need := 1 + s.runEntries q n
      0 < n → n ≤ 4096 → q + n ≤ 65536 → (List.range' q n).any s.cuePoisoned = false → s.runInRange g q n = true →
      (List.range' q n).any s.cueBusy = false → need ≤ s.ringSize cq → need ≤ s.cqRoom cq → wbit w0 8 = false → ∃ t, exec (.cues r) s = .next t ∧
        t = ((((s0.entryDone r).reserve cq (need - 1)).submitRun q n (s.fnPart g) (.ring cq g (fld w0 16 16))).issueFetch r).lampStat) ∧
    (op = 2 → entrySound e = true → s.cqRoom cq ≠ 0 → ∃ t, exec (.abort r) s = .next t ∧
      t = (((s0.entryDone r).reserve cq 1).abortFor (fld w1 0 16) (s.fnPart g) (.ring cq g (fld w0 16 16))).issueFetch r) ∧
    (s.rdf (Reg.RING_W5 r) 28 4 = 2 → op = 0 → entrySound e = true → wbit w0 8 = false → s.cqRoom cq ≠ 0 → ∃ t,
      exec (.cqSpaceFreed r) s = .next t ∧ t.ringCi r = (s.ringCi r + 1) % 65536 ∧ t.rdf (Reg.RING_W5 r) 28 4 = 1 ∧
      (t.ring r).fetched = es ∧ OnlyWords [Reg.RING_W4 r, Reg.RING_W5 r] { s0 with rings := t.rings, out := t.out } t)) ∧
  ∀ (s : State) (r : Fin 32768), s.rdf (Reg.RING_W5 r) 28 4 ≠ 2 → exec (.cqSpaceFreed r) s = .next s

/-- Interrupts, DMA errors and telemetry (R252 to R255): the timer sends the message that waits and no other, and leaves it pending where its
vector is masked; an error completion halts
the ring with nothing fetched; a poisoned write changes nothing but its error bit; a disabled stream emits nothing; a record of a
Tallyman snapshot reaches host memory at the ring's PI with its source, index and sequence number; and a source that changed under the
Crier is counted. Where the model had to choose: log entry 82. -/
def Obligations.InterruptsAndTelemetry : Prop :=
  (∀ (s : State) (r : Fin 32768) (g : Nat), s.ringOwner r = some g →
    ((s.ring r).timing = true → (s.ring r).unsignalled ≠ 0 → s.rdf (Reg.RING_W3 r) 0 16 ≠ 0 → s.rdf (Reg.RING_W3 r) 16 16 ≠ 0 → ∃ t,
      exec (.interruptTimer r) s = .next t ∧ t.ring r = { s.ring r with unsignalled := 0, timing := false } ∧
      ((s.cfg g).masked.contains (s.rdf (Reg.RING_W2 r) 16 8) = false → t = { s with out := t.out, rings := t.rings } ∧
        t.out = .msix (g / 17) (g % 17) (s.rdf (Reg.RING_W2 r) 16 8) :: s.out) ∧
      ((s.cfg g).masked.contains (s.rdf (Reg.RING_W2 r) 16 8) = true → t = { s with fnCfg := t.fnCfg, rings := t.rings } ∧
        (t.cfg g).pendingVecs.contains (s.rdf (Reg.RING_W2 r) 16 8) = true)) ∧
    (((s.ring r).timing = false ∨ s.rdf (Reg.RING_W3 r) 16 16 = 0) → exec (.interruptTimer r) s = .next s)) ∧
  (∀ (s : State) (r : Fin 32768) (p : Bool), s.ringOn r = true → ∃ t, exec (.dmaErrorCompletion r p) s = .next t ∧
    t.rdf (Reg.RING_W5 r) 28 4 = 3 ∧ t.rdf (Reg.RING_W5 r) 24 4 = (if p then 2 else 1) ∧ t.ringCi r = s.ringCi r ∧
    (t.ring r).fetched = [] ∧ (t.ring r).asked = 0 ∧ t.bit Reg.HIF_ERRSTAT 2 = true ∧ WordsAndEvents [Reg.RING_W5 r, Reg.HIF_ERRSTAT] s t) ∧
  (∀ (s : State) (x : Access), ∃ t, exec (.poisonedWrite x) s = .next t ∧ t.bit Reg.HIF_ERRSTAT 3 = true ∧ WordsAndEvents [Reg.HIF_ERRSTAT] s t) ∧
  ∀ (s : State) (i : Fin 64) (k : Nat),
    ((s.bit (Reg.HIF_CRSTREAM_W0 i) 31 = false ∨ s.crierStopped = true) → exec (.telemetryEmission i k) s = .next s) ∧
    (s.bit (Reg.HIF_CRSTREAM_W0 i) 31 = true → s.crierStopped = false → s.rdf (Reg.HIF_CRSTREAM_W0 i) 28 3 = 0 → 0 < k → ∃ t, exec (.telemetryEmission i k) s = .next t ∧
      t.rdf (Reg.HIF_CRSTREAM_W3 i) 0 16 = satN 16 (s.rdf (Reg.HIF_CRSTREAM_W3 i) 0 16 + 1) ∧ OnlyWords [Reg.HIF_CRSTREAM_W3 i] s t) ∧
    (s.bit (Reg.HIF_CRSTREAM_W0 i) 31 = true → s.crierStopped = false → (s.rdf (Reg.HIF_CRSTREAM_W0 i) 28 3 ≠ 1 ∨ s.fsOpen = false) → ∃ t,
      exec (.telemetryEmission i 0) s = .next t ∧ t.emitted i = (s.emitted i + 1) % 2 ^ 32 ∧
      WordsAndEvents [Reg.HIF_CRSTREAM_W3 i] { s with emissions := t.emissions } t ∧
      ∀ r g, s.rdf (Reg.HIF_CRSTREAM_W0 i) 28 3 = 0 → s.rdf (Reg.HIF_CRSTREAM_W1 i) 0 16 = k → s.rdf (Reg.HIF_CRSTREAM_W1 i) 16 16 = 1 → k < 92 →
        s.rdf (Reg.HIF_CRSTREAM_W0 i) 0 15 = r → s.ringOn r = true → s.ringType r = 3 → s.ringOwner r = some g → s.dmaOk g = true →
        s.ringFree r ≠ 0 → t.ringPi r = (s.ringPi r + 1) % 65536 ∧ ∃ ws, .dma (g / 17) (g % 17) (s.entryAddr r (s.ringPi r)) ws ∈ t.out ∧
          fld (ws.getD 0 0#32) 28 3 = 0 ∧ fld (ws.getD 0 0#32) 22 6 = i.val ∧ fld (ws.getD 0 0#32) 0 16 = k ∧
          ws.getD 1 0#32 = s.rd (Reg.TAL_SNAPSEQ (s.rdf (Reg.HIF_CRSTREAM_W0 i) 16 6)))

/-! ## Chapters 12 and 13: the network and the paths -/

/-- The ports and the Porter (R274, R275, R279 to R283, R286, R295): a change of mode or FEC takes a link down; a link change sets the link
by its locks, and with it the role of a single path; a frame is counted and discarded for its length, its FCS, its kind, its SecY result or
its packet number, or enters the classifier, where one that cannot be parsed or matches no entry is counted and meets the default action,
and one that matches an entry counts as its hit and is dropped, or offered to the management cores, as the entry's action says; a second
pass takes the oldest frame; a swap flips the bank in force; the binding of an enabled session is kept. Where the model had to choose: log
entries 46 to 49, 95 and 121. -/
def Obligations.PortsAndFrames : Prop :=
  (∀ (s : State) (k : Fin 2) (v : Word), let w := s.writeReg (netReg k 0) v
    ((w.rd (netReg k 0) ^^^ s.rd (netReg k 0)) &&& 0x13#32 = 0#32 → ∃ t, exec (.linkModeWrite k v) s = .next t ∧
      t.rd (netReg k 0) = w.rd (netReg k 0) ∧ OnlyWords [netReg k 0, netReg k 1] { s with replay := t.replay } t) ∧
    ((w.rd (netReg k 0) ^^^ s.rd (netReg k 0)) &&& 0x13#32 ≠ 0#32 → ∃ t, exec (.linkModeWrite k v) s = .next t ∧
      t.rd (netReg k 0) = w.rd (netReg k 0) ∧ t.bit (netReg k 1) 31 = false ∧ t.bit (netReg k 1) 30 = false ∧ t.ptp.t1 = none ∧
      t.ptp.t2 = none ∧ t.ptp.t3 = none)) ∧
  (∀ (s : State) (k : Fin 2) (b f : Bool),
    ((s.role k = 0 ∨ s.bit Reg.BOOT_STAT 30 = true) → exec (.netLinkChange k b f) s = .next s) ∧
    (s.role k ≠ 0 → s.bit Reg.BOOT_STAT 30 = false → ∃ t, exec (.netLinkChange k b f) s = .next t ∧
      t.bit (netReg k 1) 31 = (b && (f || !s.fecOn k)) ∧ t.bit (netReg k 1) 30 = b ∧ t.bit (netReg k 1) 29 = (f && s.fecOn k) ∧
      (s.bit (netReg k 1) 31 = true → t.bit (netReg k 1) 31 = false → t.bit (netReg k 2) 0 = true) ∧
      (s.rdf Reg.PTH_CTRL 0 2 = k.val → t.role k = if t.bit (netReg k 1) 31 then 3 else 1) ∧
      (s.rdf Reg.PTH_CTRL 0 2 ≠ k.val → WordsAndEvents [netReg k 1, netReg k 2] s t))) ∧
  (∀ (s : State) (k : Fin 2) (b : List Byte) (fcs : Bool) (x : SecyResult) (p : Nat),
    ((s.role k = 0 ∨ s.bit (netReg k 1) 31 = false) → exec (.frameReceived k b fcs x p) s = .next s) ∧
    (s.role k ≠ 0 → s.bit (netReg k 1) 31 = true →
      (s.role k = 4 → ∃ t, exec (.frameReceived k b fcs x p) s = .next t ∧
        t.rdf (netReg k 4) 0 32 = satN 32 (s.rdf (netReg k 4) 0 32 + 1) ∧ OnlyWords [netReg k 4] s t) ∧
      (s.role k ≠ 4 → 2048 < b.length + wireExtra x → ∃ t, exec (.frameReceived k b fcs x p) s = .next t ∧
        t.rdf (netReg k 4) 0 32 = satN 32 (s.rdf (netReg k 4) 0 32 + 1) ∧ t.rdf (netReg k 7) 0 32 = satN 32 (s.rdf (netReg k 7) 0 32 + 1) ∧
        t.bit (netReg k 2) 2 = true ∧ WordsAndEvents [netReg k 4, netReg k 7, netReg k 2] s t) ∧
      (s.role k ≠ 4 → b.length + wireExtra x ≤ 2048 → fcs = false → ∃ t, exec (.frameReceived k b fcs x p) s = .next t ∧
        t.rdf (netReg k 6) 0 32 = satN 32 (s.rdf (netReg k 6) 0 32 + 1) ∧ t.bit (netReg k 2) 1 = true ∧
        WordsAndEvents [netReg k 4, netReg k 6, netReg k 2] s t) ∧
      (s.role k ≠ 4 → fcs = true → b.length + wireExtra x < 64 → ∃ t, exec (.frameReceived k b fcs x p) s = .next t ∧
        t.rdf (netReg k 4) 0 32 = satN 32 (s.rdf (netReg k 4) 0 32 + 1) ∧ OnlyWords [netReg k 4] s t) ∧
      (s.role k ≠ 4 → fcs = true → 64 ≤ b.length + wireExtra x → b.length + wireExtra x ≤ 2048 →
        (beNat b 12 2 = 0x8808 → ∃ t, exec (.frameReceived k b fcs x p) s = .next t ∧
          t.rdf (netReg k 8) 0 32 = satN 32 (s.rdf (netReg k 8) 0 32 + 1) ∧ OnlyWords [netReg k 4, netReg k 8] s t) ∧
        (beNat b 12 2 ≠ 0x8808 → s.bit (netReg k 0) 8 = true →
          (x = .failed ∨ s.replayed k x = true ∨ x = .bypassed ∧ s.mayBypass k b = false) → ∃ t, exec (.frameReceived k b fcs x p) s = .next t ∧
          t.rdf (netReg k 9) 0 32 = satN 32 (s.rdf (netReg k 9) 0 32 + 1) ∧ t.bit (netReg k 2) 3 = true ∧
          WordsAndEvents [netReg k 4, netReg k 9, netReg k 2] s t) ∧
        (beNat b 12 2 ≠ 0x8808 → s.bit (netReg k 0) 8 = false → s.role k = 3 → s.gap = none → let q := parseFrame s.ngcpPorts b
          ∀ e, q.pstat = 0 → s.tcamFind (q.key b k false false) s.tcamBank = some e →
            (fld (s.rd (Reg.TCAM_ACT e)) 28 3 = 1 → s.mgmtQ < 256 → ∃ t, exec (.frameReceived k b fcs x p) s = .next t ∧
              t.out = .toCores k b :: s.out ∧ t.rdf (Reg.TCAM_HITS e) 0 32 = satN 32 (s.rdf (Reg.TCAM_HITS e) 0 32 + 1) ∧
              OnlyWords [netReg k 4, Reg.TCAM_HITS e] { s with mgmtQ := t.mgmtQ, fresh := t.fresh, out := t.out } t) ∧
            ((fld (s.rd (Reg.TCAM_ACT e)) 28 3 = 0 ∨ 4 < fld (s.rd (Reg.TCAM_ACT e)) 28 3) → ∃ t, exec (.frameReceived k b fcs x p) s = .next t ∧
              t.rdf (Reg.TCAM_HITS e) 0 32 = satN 32 (s.rdf (Reg.TCAM_HITS e) 0 32 + 1) ∧
              OnlyWords [netReg k 4, Reg.TCAM_HITS e] s t)) ∧
        (beNat b 12 2 ≠ 0x8808 → s.bit (netReg k 0) 8 = false → s.gap = none → s.rdf (Reg.POR_PORTCFG k) 0 2 ≠ 1 →
          s.bit (Reg.POR_PORTCFG k) 2 = false → let q := parseFrame s.ngcpPorts b
          (q.pstat = 0 → s.tcamFind (q.key b k false false) s.tcamBank = none → ∃ t, exec (.frameReceived k b fcs x p) s = .next t ∧
            t.rdf (Reg.POR_PCNT k 2) 0 32 = satN 32 (s.rdf (Reg.POR_PCNT k 2) 0 32 + 1) ∧ OnlyWords [netReg k 4, Reg.POR_PCNT k 2] s t) ∧
          (q.pstat ≠ 0 → ∃ t, exec (.frameReceived k b fcs x p) s = .next t ∧ t.bit Reg.POR_ERRSTAT 1 = true ∧
            WordsAndEvents [netReg k 4, Reg.POR_PCNT k (q.pstat - 1), Reg.POR_ERRSTAT] s t))))) ∧
  (∀ s : State, (s.recirc = [] → exec .recirculate s = .next s) ∧
    ∀ (r : RecircRec) (rest : List RecircRec), s.recirc = r :: rest → let b := r.bytes.drop (2 * r.strip); let q := parseFrame s.ngcpPorts b
      (∃ t, exec .recirculate s = .next t ∧ t.recirc = rest ∧
        (t.bit Reg.POR_BANK 30 = true ↔ s.bit Reg.POR_BANK 30 = true ∧ ∃ x ∈ rest, x.bank ≠ s.tcamBank)) ∧
      (q.pstat = 0 → s.tcamFind (q.key b r.net true r.macsec) r.bank = none → s.rdf (Reg.POR_PORTCFG r.net) 0 2 ≠ 1 → r.net < 2 →
      ∃ t, exec .recirculate s = .next t ∧ t.recirc = rest ∧
        t.rdf Reg.POR_STRADDLE 0 32 = (if r.epoch = s.rdf Reg.POR_BANK 0 16 then s.rdf Reg.POR_STRADDLE 0 32
          else satN 32 (s.rdf Reg.POR_STRADDLE 0 32 + 1)) ∧
        OnlyWords [Reg.POR_PCNT r.net 2, Reg.POR_STRADDLE, Reg.POR_BANK] { s with recirc := rest } t)) ∧
  (∀ (s : State) (v : Word),
    (wbit v 31 = false → exec (.bankSwap v) s = .next s) ∧
    (wbit v 31 = true → s.bit Reg.POR_BANK 30 = true → ∃ t, exec (.bankSwap v) s = .next t ∧ t.bit Reg.POR_ERRSTAT 0 = true ∧
      WordsAndEvents [Reg.POR_ERRSTAT] s t) ∧
    (wbit v 31 = true → s.bit Reg.POR_BANK 30 = false → ∃ t, exec (.bankSwap v) s = .next t ∧ t.tcamBank = 1 - s.tcamBank ∧
      t.rdf Reg.POR_BANK 0 16 = (s.rdf Reg.POR_BANK 0 16 + 1) % 65536 ∧
      (t.bit Reg.POR_BANK 30 = true ↔ ∃ r ∈ s.recirc, r.bank = s.tcamBank) ∧ OnlyWords [Reg.POR_BANK] s t)) ∧
  ∀ (s : State) (n : Fin 64) (v : Word), let old := s.rd (Reg.POR_SESS_W0 n)
    (exec (.sessionWrite n 1 v) s = .next s) ∧
    (wbit old 31 = true → (old ^^^ v) &&& 0x403F0000#32 ≠ 0#32 → ∃ t, exec (.sessionWrite n 0 v) s = .next t ∧ t.bit Reg.POR_ERRSTAT 0 = true ∧
      WordsAndEvents [Reg.POR_ERRSTAT] s t) ∧
    ((wbit old 31 = false ∨ (old ^^^ v) &&& 0x403F0000#32 = 0#32) → ∃ t, exec (.sessionWrite n 0 v) s = .next t ∧
      t.bit (Reg.POR_SESS_W0 n) 31 = wbit v 31 ∧ t.bit (Reg.POR_SESS_W0 n) 30 = wbit v 30 ∧ t.bit (Reg.POR_SESS_W0 n) 29 = wbit v 29 ∧ t.rdf (Reg.POR_SESS_W0 n) 16 6 = fld v 16 6 ∧ OnlyWords [Reg.POR_SESS_W0 n] s t)

/-- NGCP requests (R284, R285, R287 to R291): a request leaves the session's queue as it is executed and REQCNT counts it; one whose response
is kept is answered with that response again, to its own source, and DUPCNT counts it; the ill-formed ones behind it are answered after it.
A response is a message to the request's source with its operation, sequence number, STATUS and payload. READ and WRITE act as matrix
requests of the session, in parts, up to the first that fails; the response to a WRITE that starts a planned switch is kept for T_up (R307); SUBMIT and ABORT are answered OPNOTSUP before UP; KEEPALIVE answers GEN_ID
and LMP_GEN. NOTIFY frames (R290): up to 16 entries leave the queue in a frame, with ACKREQ, that is kept until its acknowledgement; the one
that waits longest is sent again, and discarded and counted after three retransmissions. Where the model had to choose: log entries 9, 50
and 51. -/
def Obligations.SessionRequests : Prop :=
  (∀ (s : State) (n : Fin 64), let x := s.session n
    (x.reqs = [] → exec (.read n) s = .next s ∧ exec (.write n) s = .next s ∧ exec (.ngcpAbort n) s = .next s ∧ exec (.keepalive n) s = .next s) ∧
    (∀ (q : NgcpReq) (rest : List NgcpReq) (k : Nat), x.reqs = q :: rest → q.verdict = 0 → s.txNet = some k → k < 2 → s.off = false →
      let toSrc := fun (m : List Byte) =>
        Output.message k q.src (if 6 < q.src.length then s.rdf Reg.POR_CTRL 0 16 else s.rdf Reg.POR_CTRL 16 16) m
      let msg := fun (op status : Nat) (d : List Byte) => toSrc (ngcpMessage (s.rdf Reg.POR_SYSID 0 12) n op 0x80 q.seq status d)
      let bad := State.answerBad rest.length n
      (∀ c : Instr, (c = .read n ∧ q.op = 1) ∨ (c = .write n ∧ q.op = 2) ∨ (c = .ngcpAbort n ∧ q.op = 4) ∨ (c = .keepalive n ∧ q.op = 6) →
        ∀ r, (x.replies.find? fun p => p.1 == q.seq) = some r → (∀ y, rest.head? = some y → y.verdict = 0) → ∃ t, exec c s = .next t ∧
          t.out = toSrc r.2 :: s.out ∧ (t.session n).reqs = rest ∧
          t.rdf (Reg.POR_SESS_W1 n) 16 16 = satN 16 (s.rdf (Reg.POR_SESS_W1 n) 16 16 + 1) ∧
          OnlyWords [Reg.POR_SESS_W1 n, netReg k 5] { s with sess := t.sess, out := t.out } t) ∧
      ((x.replies.find? fun p => p.1 == q.seq) = none →
        let u := (s.setSession n { x with reqs := rest }).count (Reg.POR_SESS_W1 n) 0 16 1
        let a := beNat q.payload 0 4
        let len := beNat q.payload 4 2
        (q.op = 6 → ∃ t, exec (.keepalive n) s = .next t ∧ (t.session n).reqs = rest.dropWhile (fun y => y.verdict != 0)) ∧
        (q.op = 6 → (∀ y, rest.head? = some y → y.verdict = 0) → ∃ t, exec (.keepalive n) s = .next t ∧
          t.out = msg 6 0 (beBytes 4 (s.rd Reg.GEN_ID).toNat ++ beBytes 4 (s.rd Reg.LMP_GEN).toNat) :: s.out ∧
          (t.session n).reqs = rest ∧ ((t.session n).replies.head?.map (·.1)) = some q.seq ∧
          t.rdf (Reg.POR_SESS_W1 n) 0 16 = satN 16 (s.rdf (Reg.POR_SESS_W1 n) 0 16 + 1) ∧
          OnlyWords [Reg.POR_SESS_W1 n, netReg k 5] { s with sess := t.sess, out := t.out } t) ∧
        (q.op = 4 → s.bit Reg.BOOT_STAT 31 = false → rest = [] → ∃ t, exec (.ngcpAbort n) s = .next t ∧ t.out = msg 4 6 [] :: s.out ∧
          t.batches = s.batches ∧ OnlyWords [Reg.POR_SESS_W1 n, netReg k 5] { s with sess := t.sess, out := t.out } t) ∧
        (q.op = 4 → s.bit Reg.BOOT_STAT 31 = true → ∃ t, exec (.ngcpAbort n) s = .next t ∧
          t = bad (u.abortFor (beNat q.payload 0 2) (s.sessPart n) (.session n q.seq q.src))) ∧
        ((s.change.any fun c => c.req.target == 3) = false → s.fatalOn = false → q.op = 3 → rest = [] →
          (s.bit Reg.BOOT_STAT 31 = false → ∃ t, exec (.submit n) s = .next t ∧ t.out = msg 3 6 [] :: s.out ∧ t.batches = s.batches) ∧
          (s.bit Reg.BOOT_STAT 31 = true → ∀ res, u.sessionResult (s.sessPart n) (beNat q.payload 0 2) (beNat q.payload 2 2) = res → res ≠ 0 → ∃ t,
            exec (.submit n) s = .next t ∧ t.out = msg 3 0 (beBytes 1 res ++ beBytes 3 0) :: s.out ∧ t.batches = s.batches ∧
            t.notifyReserved = s.notifyReserved) ∧
          (s.bit Reg.BOOT_STAT 31 = true → u.sessionResult (s.sessPart n) (beNat q.payload 0 2) (beNat q.payload 2 2) = 0 → ∃ t,
            exec (.submit n) s = .next t ∧ let u1 := u.ngcpAnswer n q.seq 3 0 q.src (beBytes 1 0 ++ beBytes 3 0)
              t = (State.submitRun { u1 with notifyReserved := u1.notifyReserved + u1.runEntries (beNat q.payload 0 2) (beNat q.payload 2 2) }
                (beNat q.payload 0 2) (beNat q.payload 2 2) (s.sessPart n) (.session n (beNat q.payload 4 2))).lampStat)) ∧
        (q.op = 1 → ∀ (u1 : State) (ws : List Word), u.ngcpReads (.session n) (chunks 64 a len) [] = (u1, .ok ws) → ∃ t,
          exec (.read n) s = .next t ∧ t = bad (u1.ngcpAnswer n q.seq 1 0 q.src (beBytes 4 a ++ leBytes ws))) ∧
        (q.op = 1 → ∀ (u1 : State) (e : NgcpStop), u.ngcpReads (.session n) (chunks 64 a len) [] = (u1, .error e) → ∃ t,
          exec (.read n) s = .next t ∧ t = bad (u1.ngcpStopped false n q (.session n) false e)) ∧
        (q.op = 1 → a % 4 = 0 → len = 4 → u.isDraining (.session n) = false → a ∉ s.poisoned → u.fails (.session n) false false a 4 = none →
          ∃ t, exec (.read n) s = .next t ∧ t = bad ((u.readWord (.session n) true a).2.ngcpAnswer n q.seq 1 0 q.src
            (beBytes 4 a ++ leBytes [(u.readWord (.session n) true a).1]))) ∧
        (q.op = 2 → ∀ u1 : State, u.ngcpWrites (.session n) (chunks 256 a len) (dataWords (q.payload.drop 8) (len / 4)) = (u1, none) → ∃ t,
          exec (.write n) s = .next t ∧ t = bad (u1.ngcpReply (s.gap.isNone && u1.gap.isSome) n q.seq 2 0 q.src (beBytes 4 a))) ∧
        (q.op = 2 → a % 4 = 0 → len = 4 → u.isDraining (.session n) = false → u.fails (.session n) false true a 4 = none →
          let u1 := u.writeWord (.session n) a ((dataWords (q.payload.drop 8) 1).getD 0 0#32)
          ∃ t, exec (.write n) s = .next t ∧ t = bad (u1.ngcpReply (s.gap.isNone && u1.gap.isSome) n q.seq 2 0 q.src (beBytes 4 a)))))) ∧
  (∀ (s : State) (n : Fin 64), let x := s.session n
    ((x.queue = [] ∨ x.peer = none ∨ s.txNet = none) → exec (.notify n) s = .next s) ∧
    (∀ (k : Nat) (p : Nat × List Byte), k < 2 → s.txNet = some k → x.peer = some p →
      let send := fun (seq : Nat) (es : List (List Word)) => Output.message k p.2
        (if 6 < p.2.length then s.rdf Reg.POR_CTRL 0 16 else s.rdf Reg.POR_CTRL 16 16)
        (ngcpMessage (s.rdf Reg.POR_SYSID 0 12) n 5 0x40 seq 0 (es.flatMap leBytes))
      (x.queue ≠ [] → s.gap = none → ∃ t, exec (.notify n) s = .next t ∧ t.out = send x.nseq (x.queue.take 16) :: s.out ∧
        t.session n = { x with
          queue := x.queue.drop 16, unacked := x.unacked ++ [⟨x.nseq, x.queue.take 16, 0⟩], nseq := (x.nseq + 1) % 2 ^ 32 } ∧
        t.rdf (netReg k 5) 0 32 = satN 32 (s.rdf (netReg k 5) 0 32 + 1) ∧ OnlyWords [netReg k 5] { s with sess := t.sess, out := t.out } t) ∧
      ∀ u rest, x.unacked = u :: rest → u.tries < 3 → ∃ t, exec (.notifyRetransmit n) s = .next t ∧ t.out = send u.seq u.entries :: s.out ∧
        (t.session n).unacked = rest ++ [{ u with tries := u.tries + 1 }] ∧ OnlyWords [netReg k 5] { s with sess := t.sess, out := t.out } t) ∧
    (∀ q : Word, ∃ t, exec (.notifyAck n q) s = .next t ∧ (t.session n).unacked = x.unacked.filter (fun u => u.seq != q.toNat) ∧
      (t.session n).queue = x.queue ∧ t = { s with sess := t.sess }) ∧
    (x.unacked = [] → exec (.notifyRetransmit n) s = .next s) ∧
    (∀ u rest, x.unacked = u :: rest → 3 ≤ u.tries → ∃ t, exec (.notifyRetransmit n) s = .next t ∧ (t.session n).unacked = rest ∧
      t.rdf Reg.POR_NGCPCNT 0 8 = satN 8 (s.rdf Reg.POR_NGCPCNT 0 8 + 1) ∧ OnlyWords [Reg.POR_NGCPCNT] { s with sess := t.sess } t))

/-- Path redundancy (R295 to R307): heartbeats, epochs, what the failure of the active path starts and what T_up ends, what is kept for T_up,
the planned switch that its standby's failure ends, ties, the loss of the standby, health rounds, and the two commands of PTH_CMD. Where the model had to choose: log entries 53 to 55. -/
def Obligations.Paths : Prop :=
  (∀ (s : State) (k : Fin 2), (s.role k = 0 → exec (.heartbeat k) s = .next s) ∧
    (s.role k ≠ 0 → ∃ t, exec (.heartbeat k) s = .next t ∧ t = { s with out := .heartbeat k :: s.out }) ∧
    (s.role k ≠ 4 → ∃ t, exec (.release k) s = .next t ∧ t.rd Reg.PTH_CMDRES = pack [(31, 1, 1), (0, 4, 3)] ∧ OnlyWords [Reg.PTH_CMDRES] s t) ∧
    (s.role k = 4 → ∃ t, exec (.release k) s = .next t ∧ t.rd Reg.PTH_CMDRES = pack [(31, 1, 1)] ∧ t.role k = 1)) ∧
  (∀ s : State, s.gap = none → s.pathIn 3 ≠ none → s.pathIn 2 ≠ none → ∃ t, exec .epochStart s = .next t ∧
    t.epochNew = some ⟨((s.rd Reg.PTH_EPOCH).toNat + 1) % 2 ^ 32, s.ns, false, s.sess, s.ptp⟩ ∧ t = { s with epochNew := t.epochNew }) ∧
  (∀ (s : State) (e : EpochCopy) (k : Nat), s.gap = none → s.epochNew = some e → s.pathIn 2 = some k → ∃ t, exec .epochEnd s = .next t ∧
    t.heldEpoch k = some e ∧ t.epochNew = none ∧ t.rd Reg.PTH_EPOCH = wd e.num ∧
    OnlyWords [Reg.PTH_EPOCH] { s with epochNew := none, epochHeld := t.epochHeld } t) ∧
  (∀ s : State, s.epochNew = none → exec .epochEnd s = .next s) ∧
  (∀ (s : State) (a : Nat) (c : PathCause), s.gap = none → s.activePath = some a →
    (s.pathFailed a c = false → exec (.activePathFailure c) s = .next s) ∧
    (s.pathFailed a c = true → s.readyStandby (1 - a) = true → ∃ t, exec (.activePathFailure c) s = .next t ∧
      t.gap = some ⟨1 - a, 0, pathCauseCode c, s.ns, false, false⟩ ∧ t.bit Reg.PTH_STAT 31 = true ∧ t.bit Reg.PTH_STAT 30 = true ∧
      t.epochNew = none ∧ t.gapFrames = []) ∧
    (s.pathFailed a c = true → s.readyStandby (1 - a) = false → pathCauseCode c < 2 → ∃ t, exec (.activePathFailure c) s = .next t ∧
      t.role a = 1 ∧ t.bit Reg.PTH_ERRSTAT 4 = true ∧ t.bit Reg.PTH_STAT 30 = true)) ∧
  (∀ (s : State) (g : GapRec) (cyc : Fin 4096), s.gap = some g → g.frozen = false → g.dest < 2 → s.gapFrames = [] → ∃ t,
    exec (.switchoverUp cyc) s = .next t ∧ t.gap = none ∧ t.role g.dest = 3 ∧ t.bit Reg.PTH_STAT 31 = false ∧ t.bit Reg.PTH_ERRSTAT 1 = true ∧
      t.rdf Reg.PTH_CNT 0 8 = satN 8 (s.rdf Reg.PTH_CNT 0 8 + 1) ∧ t.gapOut = [] ∧
      (∀ d m, (d, m) ∈ s.gapOut →
        .message g.dest d (if 6 < d.length then s.rdf Reg.POR_CTRL 0 16 else s.rdf Reg.POR_CTRL 16 16) m ∈ t.out) ∧
      t.rd Reg.PTH_SWLOG_W0 = pack [(28, 4, g.kind), (24, 4, g.cause), (16, 1, g.dest), (0, 12, min cyc.val 2048)] ∧
      (s.role (1 - g.dest) = 3 → t.role (1 - g.dest) = if g.kind = 1 then 2 else 1)) ∧
  (∀ (s : State) (cyc : Fin 4096), s.gap = none → exec (.switchoverUp cyc) s = .next s) ∧
  (∀ (s : State) (g : GapRec) (a : Nat), s.gap = some g → g.frozen = true → g.dest < 2 → s.activePath = some a → g.dest ≠ a →
    s.pathFailed a .link = false → s.pathFailed g.dest .link = true → ∃ t, exec (.activePathFailure .link) s = .next t ∧ t.gap = none ∧
      t.role g.dest = 1 ∧ t.role a = 3 ∧ t.bit Reg.PTH_STAT 31 = false ∧ t.gapOut = [] ∧ t.rd Reg.PTH_CMDRES = pack [(31, 1, 1), (0, 4, 1)]) ∧
  (∀ (s : State) (n : Fin 64) (p : Nat × List Byte) (u : NotifyRec) (rest : List NotifyRec), s.inGap = true → (s.session n).peer = some p →
    (s.session n).unacked = u :: rest → u.tries < 3 → ∃ t, exec (.notifyRetransmit n) s = .next t ∧
      t.gapOut = s.gapOut ++ [(p.2, ngcpMessage (s.rdf Reg.POR_SYSID 0 12) n 5 0x40 u.seq 0 (u.entries.flatMap leBytes))] ∧
      t = { s with sess := t.sess, gapOut := t.gapOut }) ∧
  (∀ (s : State) (a b : Nat), s.gap = none → s.pathIn 3 = some a → s.pathIn 2 = some b →
    (s.tieWinner = a → ∃ t, exec .tiebreak s = .next t ∧ t.role a = 3 ∧ t.role b = 4 ∧ t.bit Reg.PTH_ERRSTAT 2 = true ∧ t.bit Reg.PTH_ERRSTAT 3 = true) ∧
    (s.tieWinner ≠ a → ∃ t, exec .tiebreak s = .next t ∧ t.role a = 4 ∧ t.gap = some ⟨b, 2, 1, s.ns, false, false⟩ ∧ t.bit Reg.PTH_STAT 31 = true) ∧
    (∃ t, exec .standbyHeartbeatLoss s = .next t ∧ t.role b = 1 ∧ t.role a = 3 ∧ t.epochNew = none)) ∧
  (∀ (s : State) (a b : PathChecks), (s.role 0 = 1 ∨ s.role 0 = 2) → s.rdf Reg.PTH_CTRL 0 2 ≠ 2 → let good := (s.checkBits 0 a).all id
    ∃ t, exec (.watchmanRound a b) s = .next t ∧
      t.rdf (Reg.PTH_HEALTH 0) 16 8 = (if good then satN 8 (s.rdf (Reg.PTH_HEALTH 0) 16 8 + 1) else 0) ∧
      (t.bit (Reg.PTH_HEALTH 0) 31 = true ↔ good = true ∧ (s.bit (Reg.PTH_HEALTH 0) 31 = true ∨
        s.rdf Reg.PTH_WCTL 12 4 ≤ satN 8 (s.rdf (Reg.PTH_HEALTH 0) 16 8 + 1))) ∧
      t.bit (netReg 0 1) 28 = (a.msec && s.bit (netReg 0 0) 8)) ∧
  ∀ s : State,
    (s.gap ≠ none → ∃ t, exec .switch s = .next t ∧ t.rd Reg.PTH_CMDRES = pack [(31, 1, 1), (0, 4, 2)] ∧ OnlyWords [Reg.PTH_CMDRES] s t) ∧
    (s.gap = none → s.pathIn 2 = none → ∃ t, exec .switch s = .next t ∧ t.rd Reg.PTH_CMDRES = pack [(31, 1, 1), (0, 4, 1)] ∧
      OnlyWords [Reg.PTH_CMDRES] s t) ∧
    (∀ b, s.gap = none → s.pathIn 2 = some b → s.readyStandby b = true → s.activePath ≠ none → ∃ t, exec .switch s = .next t ∧
      t.gap = some ⟨b, 1, 4, s.ns, true, true⟩ ∧ t.rd Reg.PTH_CMDRES = 0#32 ∧ OnlyWords [Reg.PTH_CMDRES] { s with gap := t.gap } t)

/-! ## Chapter 14: time -/

/-- Increments, adjustments and steps (R309 to R315): a written increment waits for its boundary, an adjustment is armed by its count and
ends with the ticks it was given made; one step is pending at a time, and at T_st device time becomes what SET or STEP asks for. While a
commit has passed its arm point, has it before B0, or is a protection commit not yet applied, the step waits. Where the model had to choose: log entries 45 and 93. -/
def Obligations.IncrementsAndSteps : Prop :=
  (∀ (s : State) (v : Word), let w := s.writeReg Reg.TIM_INCR v
    (w.rd Reg.TIM_INCR = s.rd Reg.TIM_INCR → ∃ t, exec (.incrementWrite v) s = .next t ∧ OnlyWords [Reg.TIM_INCR] s t ∧ t.incrAt = s.incrAt) ∧
    (w.rd Reg.TIM_INCR ≠ s.rd Reg.TIM_INCR → ∃ t, exec (.incrementWrite v) s = .next t ∧ t.rd Reg.TIM_INCR = w.rd Reg.TIM_INCR ∧
      t.incrAt = s.incrAt ++ [(s.beatAfter 100, v)] ∧ OnlyWords [Reg.TIM_INCR] { s with incrAt := t.incrAt } t) ∧
    (∃ t, exec (.adjustmentStart v) s = .next t ∧ t.rd Reg.TIM_ADJCNT = v ∧ t.bit Reg.TIM_STAT 30 = false ∧
      t.adjAt = (if v = 0#32 then none else some (s.beatAfter 100)) ∧
      OnlyWords [Reg.TIM_ADJCNT, Reg.TIM_STAT] { s with adjAt := t.adjAt } t)) ∧
  (∀ s : State, s.incrAt = [] → s.adjAt = none →
    (s.bit Reg.TIM_STAT 30 = false → exec .adjustmentEnd s = .next s) ∧
    (s.bit Reg.TIM_STAT 30 = true → ∃ t, exec .adjustmentEnd s = .next t ∧
      t.now = (s.now + (s.rd Reg.TIM_ADJCNT).toNat * (s.rdLive Reg.TIM_ADJINCR).toNat) % (2 ^ 48 * 1000000000 * nsUnit) ∧
      t.rd Reg.TIM_ADJCNT = 0#32 ∧ t.bit Reg.TIM_STAT 30 = false ∧ OnlyWords [Reg.TIM_ADJCNT, Reg.TIM_STAT] { s with now := t.now } t)) ∧
  (∀ (s : State) (op : Nat) (c : Instr), (c = .set ∧ op = 1) ∨ (c = .step ∧ op = 2) →
    (s.stepReq = none → ∃ t, exec c s = .next t ∧ t.stepReq = some ⟨op, s.beatAfter 2048⟩ ∧ t.bit Reg.TIM_STAT 31 = true ∧
      OnlyWords [Reg.TIM_STAT] { s with stepReq := t.stepReq } t) ∧
    (s.stepReq ≠ none → ∃ t, exec c s = .next t ∧ t.bit Reg.TIM_ERRSTAT 0 = true ∧ WordsAndEvents [Reg.TIM_ERRSTAT] s t)) ∧
  (∀ s : State, s.stepReq = none → exec .stepApply s = .next s) ∧
  ∀ (s : State) (r : StepReq), s.stepReq = some r →
    ((∃ k ∈ s.commits, k.phase = .go ∨ (k.kind = .protection ∧ k.phase ≠ .applied) ∨ (k.phase ≠ .applied ∧ k.tc < r.b0 + 200)) →
      exec .stepApply s = .next s) ∧
    (s.commits = [] → s.batches = [] → ∃ t, exec .stepApply s = .next t ∧ t.stepReq = none ∧ t.bit Reg.TIM_STAT 31 = false ∧
      (r.op = 1 → t.now = ((s.rdf Reg.TIM_SETSECHI 0 16 * 2 ^ 32 + (s.rd Reg.TIM_SETSECLO).toNat) * 1000000000 +
        s.rdf Reg.TIM_SETNS 0 30 / 4 * 4) * nsUnit) ∧
      (r.op = 2 → t.now = (((max s.now (max r.b0 (s.beatAfter 0) * nsUnit) : Nat) + (s.rd Reg.TIM_STEP &&& 0xFFFFFFFC#32).toInt * (nsUnit : Int)) %
        ((2 ^ 48 * 1000000000 * nsUnit : Nat) : Int)).toNat))

/-- Compare units, PTP and 1PPS (R316 to R327): a unit taken by a guard-window schedule is not armed; a unit armed at or past its target
fires late at once, and late at its target where that reached the tiles it triggers late; a unit that fires counts it, drives its triggers and, when it is periodic, moves its target by the period, else is
disarmed. A Delay_Req's egress time is t3 on the active path; a timeout and a loss of the pulse lead to HOLDOVER; a pulse leaves when it
is enabled; an edge is time-stamped. Where the model had to choose: log entries 42, 44, 94 and 122. -/
def Obligations.ComparesAndPulses : Prop :=
  (∀ (s : State) (u : Fin 64) (v : Word), let w := s.writeReg (Reg.TIM_CMP_W0 u) v
    (s.cmpTaken u = true → (∃ t, exec (.compareArm u v) s = .next t ∧ t.bit Reg.TIM_ERRSTAT 0 = true ∧ WordsAndEvents [Reg.TIM_ERRSTAT] s t) ∧
      exec (.compareFire u) s = .next s) ∧
    (s.cmpTaken u = false → (w.bit (Reg.TIM_CMP_W0 u) 31 = false ∨ w.cmpDiff u < 0) → ∃ t, exec (.compareArm u v) s = .next t ∧
      (u.val ∈ t.lateUnits ↔ (w.bit (Reg.TIM_CMP_W0 u) 31 = true ∧ -2048 < w.cmpDiff u)) ∧ t = { w with lateUnits := t.lateUnits } ∧
      OnlyWords [Reg.TIM_CMP_W0 u] { s with lateUnits := t.lateUnits } t) ∧
    (s.cmpTaken u = false → w.bit (Reg.TIM_CMP_W0 u) 31 = true → 0 ≤ w.cmpDiff u → ∃ t, exec (.compareArm u v) s = .next t ∧
      t.bit (Reg.TIM_CMP_W2 u) 31 = true ∧ t.bit (Reg.TIM_CMP_W2 u) 30 = false ∧ t.bit Reg.TIM_ERRSTAT 2 = true ∧ t.out.head? = some (.trigger u) ∧
      (s.rd (Reg.TIM_CMP_W3 u) = 0#32 → t.bit (Reg.TIM_CMP_W0 u) 31 = false)) ∧
    (s.bit (Reg.TIM_CMP_W0 u) 31 = false → exec (.compareFire u) s = .next s) ∧
    (s.cmpTaken u = false → s.bit (Reg.TIM_CMP_W0 u) 31 = true → ∃ t, exec (.compareFire u) s = .next t ∧
      t.now = max s.now (s.cmpTarget u * nsUnit) ∧ t.bit (Reg.TIM_CMP_W2 u) 31 = (s.lateUnits.contains u.val && s.routed u) ∧ t.bit (Reg.TIM_CMP_W2 u) 30 = false ∧
      t.rdf (Reg.TIM_CMP_W2 u) 16 8 = (s.rdf (Reg.TIM_CMP_W2 u) 16 8 + 1) % 256 ∧ t.out.head? = some (.trigger u) ∧
      (s.rd (Reg.TIM_CMP_W3 u) = 0#32 → t.bit (Reg.TIM_CMP_W0 u) 31 = false ∧ t.cmpTarget u = s.cmpTarget u) ∧
      (s.rd (Reg.TIM_CMP_W3 u) ≠ 0#32 → t.bit (Reg.TIM_CMP_W0 u) 31 = true ∧
        t.cmpTarget u = (s.cmpTarget u + (s.rd (Reg.TIM_CMP_W3 u)).toNat) % (2 ^ 48 * 1000000000)))) ∧
  (∀ (s : State) (k : Fin 2) (ps : Nat),
    (s.role k = 3 → s.inGap = true → exec (.delayReqTransmit k ps) s = .next s) ∧
    (s.role k = 3 → s.inGap = false → ∃ t, exec (.delayReqTransmit k ps) s = .next t ∧ t.ptp.t3 = some ((ps : Int) + (s.rd (Reg.TIM_PORTCOMP_W1 k)).toInt) ∧
      t.ptp.reqSeq = (s.ptp.reqSeq + 1) % 65536 ∧
      t.out = .delayReq k s.ptpGroup (delayReqMessage (s.rdf Reg.TIM_PTPCFG 0 8) (portIdentity k) s.ptp.reqSeq) :: s.out ∧
      OnlyWords [netReg k 5] { s with ptp := t.ptp, out := t.out } t) ∧
    ((s.role k = 1 ∨ s.role k = 2) → ∃ t, exec (.delayReqTransmit k ps) s = .next t ∧
      (∃ q, t.out = .delayReq k s.ptpGroup (delayReqMessage (s.rdf Reg.TIM_PTPCFG 0 8) (portIdentity k) q) :: s.out) ∧
      t.rdf (netReg k 5) 0 32 = satN 32 (s.rdf (netReg k 5) 0 32 + 1) ∧ OnlyWords [netReg k 5] { s with fresh := t.fresh, out := t.out } t) ∧
    ((s.role k = 0 ∨ s.role k = 4) → exec (.delayReqTransmit k ps) s = .next s)) ∧
  ∀ s : State,
    ((s.rdf Reg.TIM_STAT 16 2 = 0 ∨ s.rdf Reg.TIM_STAT 16 2 = 3) → ∃ t, exec .ptpTimeout s = .next t ∧ t.ptp.gm = [] ∧ t.ptp.t3 = none ∧
      t = { s with ptp := t.ptp }) ∧
    ((s.rdf Reg.TIM_STAT 16 2 = 1 ∨ s.rdf Reg.TIM_STAT 16 2 = 2) → ∃ t, exec .ptpTimeout s = .next t ∧ t.rdf Reg.TIM_STAT 16 2 = 3 ∧
      t.bit Reg.PTH_STAT 30 = true ∧ t.bit Reg.TIM_ERRSTAT 1 = true ∧ t.ptp.inRun = 0 ∧ t.ptp.outRun = 0 ∧ t.ptp.gm = [] ∧
      WordsAndEvents [Reg.TIM_STAT, Reg.PTH_STAT, Reg.TIM_ERRSTAT] { s with ptp := t.ptp } t) ∧
    ((s.bit Reg.TIM_PPSCTL 0 = false ∨ s.ppsDriven = false) → exec .ppsoutPulse s = .next s) ∧
    (s.ppsDriven = true → s.bit Reg.TIM_PPSCTL 0 = true → (s.bit Reg.TIM_PPSCTL 3 = false ∨ s.rdf Reg.TIM_STAT 16 2 = 2) → ∃ t,
      exec .ppsoutPulse s = .next t ∧ t.now = max s.now (s.ppsEdge * nsUnit) ∧
      t = { s with now := t.now, out := .ppsPulse (!s.bit Reg.TIM_PPSCTL 1) (1000 * s.rdf Reg.TIM_PPSCTL 16 16) :: s.out }) ∧
    (s.bit Reg.TIM_CTRL 1 = false → ∃ t, exec .ppsinEdge s = .next t ∧ t.rd Reg.TIM_PPSINNS = wd (nsecOf s.ns) ∧
      t.rd Reg.TIM_PPSINSEC = wd (secOf s.ns) ∧ t.rdf Reg.TIM_STAT 0 16 = (s.rdf Reg.TIM_STAT 0 16 + 1) % 65536 ∧
      OnlyWords [Reg.TIM_PPSINNS, Reg.TIM_PPSINSEC, Reg.TIM_STAT] { s with ppsLast := s.ns } t) ∧
    (s.bit Reg.TIM_CTRL 1 = true → s.rdf Reg.TIM_STAT 16 2 = 0 → ∃ t, exec .ppsinEdge s = .next t ∧ t.rdf Reg.TIM_STAT 16 2 = 1 ∧
      t.rd Reg.TIM_PPSINNS = wd (nsecOf s.ns)) ∧
    (s.bit Reg.TIM_CTRL 1 = false → ∃ t, exec .ppsinLoss s = .next t ∧ t.bit Reg.TIM_ERRSTAT 4 = true ∧ WordsAndEvents [Reg.TIM_ERRSTAT] s t) ∧
    (s.bit Reg.TIM_CTRL 1 = true → s.rdf Reg.TIM_STAT 16 2 = 2 → ∃ t, exec .ppsinLoss s = .next t ∧ t.bit Reg.TIM_ERRSTAT 4 = true ∧
      t.rdf Reg.TIM_STAT 16 2 = 3)

/-! ## Chapters 15 and 16: power and heat -/

/-- Power requests (R24, R331 to R333, R340, R346, R376): one that fails a test of the matrix is answered by the default target, with ISOL
from a requester without full access; before UP it ends BADSTATE; with no change in progress it starts its entry at the first step of Table 15-4, or ends at once where nothing
is to be done; with one in progress it takes the slot, and where the slot is taken it is DROPPED. A group that is not idle is not put to
sleep, and waking groups of which none sleeps ends at once. Where the model had to choose: log entries 58 and 59. -/
def Obligations.PowerRequests : Prop :=
  ∀ (s : State) (rq : Requester) (repl : Bool),
    let res := fun (k target : Nat) => pack [(31, 1, 1), (24, 4, target), (16, 4, k), (4, 6, srcOf rq), (0, 4, masterOf rq)]
    let r := fun (target mask : Nat) => (⟨s.nextReq, masterOf rq, srcOf rq, target, mask⟩ : PowerReq)
    (∀ (c : Instr) (target mask : Nat), ((c = .powerRequestP0 rq repl ∧ target = 0 ∧ mask = 0) ∨ (c = .powerRequestP1 rq repl ∧ target = 1 ∧ mask = 0) ∨
        (c = .powerRequestP2 rq repl ∧ target = 2 ∧ mask = 0) ∨ (c = .powerRequestP3 rq repl ∧ target = 3 ∧ mask = 0) ∨
        (∃ m : BitVec 8, c = .tgsleep rq repl m ∧ target = 4 ∧ mask = m.toNat) ∨ (∃ m : BitVec 8, c = .tgwake rq repl m ∧ target = 5 ∧ mask = m.toNat)) →
      s.off = false → s.isDraining rq = false →
      (∀ e i, s.fails rq false true Reg.PWR_REQ 4 = some (e, i) → ∃ t, exec c s = .next t ∧ t.bit Reg.MTX_ERRSTAT e = true ∧
        WordsAndEvents [Reg.MTX_ERRSTAT, Reg.MTX_ERRADDR, Reg.MTX_ERRINFO] s t) ∧
      (s.isMgmt rq = false → rq ≠ .internal 11 → s.fails rq false true Reg.PWR_REQ 4 = some (1, 0)) ∧
      (s.isMgmt rq = true → s.fails rq false true Reg.PWR_REQ 4 = none → s.bit Reg.BOOT_STAT 31 = false → ∃ t, exec c s = .next t ∧ t.rd Reg.PWR_REQRES = res 6 target ∧
        t.rd Reg.PWR_REQ = pack [(30, 1, repl.toNat), (24, 4, target), (0, 8, mask)] ∧ t.nextReq = s.nextReq + 1 ∧
        WordsAndEvents [Reg.PWR_REQ, Reg.PWR_REQRES] { s with nextReq := s.nextReq + 1 } t) ∧
      (s.isMgmt rq = true → s.fails rq false true Reg.PWR_REQ 4 = none → s.bit Reg.BOOT_STAT 31 = true → target < 4 → ∀ k q, s.change = some k → s.slot = some q →
        (repl = false ∨ q.master ≠ masterOf rq ∨ q.src ≠ srcOf rq) → ∃ t, exec c s = .next t ∧ t.rd Reg.PWR_REQRES = res 3 target ∧
        OnlyWords [Reg.PWR_REQ, Reg.PWR_REQRES] { s with nextReq := s.nextReq + 1 } t) ∧
      (s.isMgmt rq = true → s.fails rq false true Reg.PWR_REQ 4 = none → s.bit Reg.BOOT_STAT 31 = true → target < 4 → ∀ k, s.change = some k →
        s.slot = none → ∃ t, exec c s = .next t ∧ t.slot = some (r target mask) ∧ t.bit Reg.PWR_STAT 30 = true ∧
        OnlyWords [Reg.PWR_REQ, Reg.PWR_REQRES, Reg.PWR_STAT, Reg.TOL_STAT] { s with nextReq := s.nextReq + 1, slot := t.slot } t)) ∧
    (s.off = false → s.isDraining rq = false → s.isMgmt rq = true → s.fails rq false true Reg.PWR_REQ 4 = none →
      s.bit Reg.BOOT_STAT 31 = true → s.change = none → s.slot = none →
      (s.pstate = 0 → ∃ t, exec (.powerRequestP0 rq repl) s = .next t ∧ t.rd Reg.PWR_REQRES = res 0 0 ∧ t.pstate = 0 ∧ t.change = none) ∧
      (s.pstate = 1 → s.batches = [] → s.ckts = [] → ∃ t, exec (.powerRequestP0 rq repl) s = .next t ∧ t.rd Reg.PWR_REQRES = res 0 0 ∧ t.pstate = 0 ∧
        t.change = none) ∧
      ((s.pstate = 0 ∨ s.pstate = 2) → ∃ t, exec (.powerRequestP1 rq repl) s = .next t ∧ t.change = some ⟨r 1 0, 4, false, 0⟩ ∧
        t.bit Reg.PWR_STAT 31 = true ∧ t.rdf Reg.PWR_STAT 24 3 = 4 ∧ t.pstate = s.pstate) ∧
      (s.pstate < 2 → ∃ t, exec (.powerRequestP2 rq repl) s = .next t ∧ t.change = some ⟨r 2 0, 2, false, 0⟩ ∧ t.bit Reg.PWR_STAT 31 = true ∧
        t.rdf Reg.PWR_STAT 24 3 = 2 ∧ t.pstate = s.pstate) ∧
      (s.pstate < 3 → ∃ t, exec (.powerRequestP3 rq repl) s = .next t ∧ t.change = some ⟨r 3 0, 1, false, 0⟩ ∧ t.bit Reg.PWR_STAT 31 = true ∧
        t.rdf Reg.PWR_STAT 24 3 = 1 ∧ t.pstate = s.pstate) ∧
      (∀ m : BitVec 8, s.pstate < 2 →
        ((maskGroups m.toNat).any s.groupBusy = true → ∃ t, exec (.tgsleep rq repl m) s = .next t ∧ t.rd Reg.PWR_REQRES = res 7 4 ∧ t.change = none) ∧
        ((maskGroups m.toNat).any s.groupBusy = false → m ≠ 0 → ∃ t, exec (.tgsleep rq repl m) s = .next t ∧
          t.change = some ⟨r 4 m.toNat, 3, false, 0⟩ ∧ t.rdf Reg.PWR_STAT 24 3 = 3 ∧ ∀ g, g < 8 → m.getLsbD g = true → t.bit Reg.PWR_STAT (8 + g) = true) ∧
        ((∀ g, g < 8 → m.getLsbD g = true → s.bit Reg.PWR_STAT (16 + g) = false) → ∃ t, exec (.tgwake rq repl m) s = .next t ∧
          t.rd Reg.PWR_REQRES = res 0 5 ∧ t.change = none) ∧
        ((∃ g, g < 8 ∧ m.getLsbD g = true ∧ s.bit Reg.PWR_STAT (16 + g) = true) → ∃ t, exec (.tgwake rq repl m) s = .next t ∧
          t.change = some ⟨r 5 m.toNat, 0, false, 0⟩ ∧ t.rdf Reg.PWR_STAT 24 3 = 0)))

/-- The power sequencer's progress (R334, R335, R338, R339, R343, R346, R359): a step done leads to the next one of the target, and the
last one to the state; a block that cannot stop yet holds the step, and one that refuses ends the request; a wake event that is enabled
starts the module from P3, or is latched during an entry; a tile group's wake ends. Where the model had to choose: log entries 58 and 60.
-/
def Obligations.PowerProgress : Prop :=
  (∀ s : State, s.change = none → exec .entryStepComplete s = .next s ∧ ∀ x, exec (.blockRefusal x) s = .next s) ∧
  (∀ (s : State) (k : PowerChange), s.change = some k →
    ((s.stepBusy k.req k.step = true ∨ s.fatalOn = true) → exec .entryStepComplete s = .next s) ∧
    (k.abandon = false → k.req.master ≠ 15 → s.fatalOn = false → s.stepBusy k.req k.step = false →
      (k.req.target = 1 → k.step = 4 → ∃ t, exec .entryStepComplete s = .next t ∧ t.change = some { k with step := 5 } ∧
        t.rdf Reg.PWR_STAT 24 3 = 5) ∧
      (k.req.target = 2 → k.step = 2 → ∃ t, exec .entryStepComplete s = .next t ∧ t.change = some { k with step := 3 } ∧
        t.rdf Reg.PWR_STAT 24 3 = 3) ∧
      (k.req.target = 1 → k.step = 6 → s.slot = none → ∃ t, exec .entryStepComplete s = .next t ∧ t.pstate = 1 ∧ t.change = none ∧
        t.bit Reg.PWR_STAT 31 = false) ∧
      (k.req.target = 2 → k.step = 6 → s.slot = none → ∃ t, exec .entryStepComplete s = .next t ∧ t.pstate = 2 ∧ t.change = none) ∧
      (k.req.target = 3 → k.step = 7 → s.latched = [] → ∃ t, exec .entryStepComplete s = .next t ∧ t.off = true) ∧
      (k.req.target = 4 → k.step = 7 → k.wakeAfter = 0 → s.slot = none → ∃ t, exec .entryStepComplete s = .next t ∧ t.change = none ∧
        ∀ g ∈ maskGroups k.req.mask, t.bit Reg.PWR_STAT (16 + g) = true)) ∧
    (∀ x, (k.req.master = 15 ∨ s.mayRefuse k x = false) → exec (.blockRefusal x) s = .next s) ∧
    (∀ x, k.req.master ≠ 15 → s.mayRefuse k x = true → s.slot = none → s.batches = [] → ∃ t, exec (.blockRefusal x) s = .next t ∧
      t.change = none ∧ t.bit Reg.PWR_ERRSTAT 1 = true ∧
      t.rd Reg.PWR_REFUSE = pack [(24, 4, k.req.target), (16, 3, k.step), (0, 4, refuseCode x)] ∧ t.pstate = s.pstate)) ∧
  (∀ s : State,
    (s.pstate ≠ 2 → exec .p2Timeout s = .next s) ∧
    (s.pstate = 2 → ∃ t, exec .p2Timeout s = .next t ∧ t.bit Reg.PWR_ERRSTAT 4 = true ∧ WordsAndEvents [Reg.PWR_ERRSTAT] s t) ∧
    (s.latched = [] → s.off = true → s.tooWarm = false → exec .wakeReplay s = .next { s with stopHeld := false }) ∧
    (s.latched = [] → (s.off = false ∨ s.tooWarm = true) → exec .wakeReplay s = .next s) ∧
    (∀ e es, s.latched = e :: es → s.off = true → s.stopHeld = true → s.tooWarm = true → exec .wakeReplay s = .next s) ∧
    (∀ e es, s.latched = e :: es → s.off = true → (s.stopHeld = false ∨ s.tooWarm = false) → ∃ t, exec .wakeReplay s = .next t ∧ t.off = false ∧ t.latched = [] ∧
      t.rd Reg.PWR_WAKESRC = pack [(31, 1, 1), (24, 4, (s.wakeCode e.1).1), (8, 1, 1), (0, 6, (s.wakeCode e.1).2)] ∧
      t.rd Reg.PWR_WAKENS = wd (nsecOf e.2)) ∧
    (∀ e es, s.latched = e :: es → s.off = false → exec .wakeReplay s = .next s)) ∧
  (∀ (s : State) (w : WakeSrc),
    (s.wakeEnabled w = false → exec (.wakeEvent w) s = .next s) ∧
    (s.wakeEnabled w = true → s.off = true → s.stopHeld = false → ∃ t, exec (.wakeEvent w) s = .next t ∧ t.off = false ∧ t.latched = [] ∧
      t.bit Reg.BOOT_STAT 29 = true ∧ .vcore ∈ t.enables ∧ t.rdf Reg.GEN_RSTCAUSE 0 4 = 6 ∧
      t.rd Reg.PWR_WAKESRC = pack [(31, 1, 1), (24, 4, (s.wakeCode w).1), (8, 1, 1), (0, 6, (s.wakeCode w).2)]) ∧
    (s.wakeEnabled w = true → s.off = true → s.stopHeld = true → s.tooWarm = true → ∃ t, exec (.wakeEvent w) s = .next t ∧
      t = { s with latched := s.latched ++ [(w, s.ns)] }) ∧
    (∀ k, s.wakeEnabled w = true → s.off = false → s.change = some k → k.req.target = 3 → ∃ t, exec (.wakeEvent w) s = .next t ∧
      t = { s with latched := s.latched ++ [(w, s.ns)] })) ∧
  ∀ (s : State) (g : Fin 8),
    (s.bit Reg.PWR_STAT (8 + g) = false → exec (.tileGroupWakeComplete g) s = .next s) ∧
    (s.bit Reg.PWR_STAT (8 + g) = true → s.change = none → ∃ t, exec (.tileGroupWakeComplete g) s = .next t ∧ t.bit Reg.PWR_STAT (8 + g) = false ∧
      OnlyWords [Reg.PWR_STAT] s t)

/-- Heat (R349 to R358): a sample becomes its sensor's TEMP; a sensor is declared faulty, and a rise critical, only on the runs that R352
and R354 ask for; thresholds are taken only in their order; the credit stays within its limits and sets the commit rate; two hot samples
in a row cut drive. Where the model had to choose: log entries 63 to 68. -/
def Obligations.Heat : Prop :=
  (∀ (s : State) (i : Fin 136) (raw : BitVec 16),
    (s.sampled i = false → exec (.sensorSample i raw) s = .next s) ∧
    (s.sampled i = true → s.sensFault i = false → s.off = false → s.levelOf (s.rdf (Reg.THM_SENS i) 26 2) raw.toInt < 3 → ∃ t,
      exec (.sensorSample i raw) s = .next t ∧ t.temp i = raw.toInt ∧ t.bit (Reg.THM_SENS i) 31 = true ∧
      t.rdf (Reg.THM_SENS i) 26 2 = s.levelOf (s.rdf (Reg.THM_SENS i) 26 2) raw.toInt ∧ t.bit (Reg.THM_SENS i) 30 = false) ∧
    (s.sampled i = true → s.off = true → ∃ t, exec (.sensorSample i raw) s = .next t ∧ t.temp i = s.sampleValue i raw.toInt ∧
      OnlyWords [Reg.THM_SENS i] { s with sensors := t.sensors } t) ∧
    (((s.sensor i).far < 8 ∨ s.sensFault i = true) → exec (.sensorFault i) s = .next s) ∧
    (8 ≤ (s.sensor i).far → s.sensFault i = false → s.off = false → s.levelOf (s.rdf (Reg.THM_SENS i) 26 2)
        ((s.wrBit (Reg.THM_SENS i) 30 true).sampleValue i (s.temp i)) < 3 → ∃ t, exec (.sensorFault i) s = .next t ∧
      t.sensFault i = true ∧ t.bit Reg.THM_ERRSTAT 6 = true) ∧
    (((s.sensor i).fastRise = none ∨ s.off = true) → exec (.risecrit i) s = .next s) ∧
    (∀ t0, s.off = false → (s.sensor i).fastRise = some t0 → t0 + 10000000 ≤ s.ns → s.rdf (Reg.THM_SENS i) 26 2 = 0 → ∃ t, exec (.risecrit i) s = .next t ∧
      t.bit Reg.THM_ERRSTAT 5 = true ∧ WordsAndEvents [Reg.THM_ERRSTAT] s t) ∧
    (((s.sensor i).hot < 2 ∨ s.sensFault i = true) → exec (.shutCut i) s = .next s) ∧
    (2 ≤ (s.sensor i).hot → s.sensFault i = false → ∃ t, exec (.shutCut i) s = .next t ∧ t.off = true ∧ t.stopHeld = true ∧ t.enables = [] ∧
      t.rdf Reg.THM_STOPLOG_W0 28 3 = 4 ∧ t.rdf Reg.THM_STOPLOG_W0 16 8 = i)) ∧
  (∀ (s : State) (v : Word),
    (fld v 0 8 < 136 → wbit v 31 = true → ∃ t, exec (.sensorClear v) s = .next t ∧ t.sensFault (fld v 0 8) = false ∧ (t.sensor (fld v 0 8)).far = 0 ∧
      t.temp (fld v 0 8) = s.temp (fld v 0 8) ∧ OnlyWords [Reg.THM_SENS (fld v 0 8), Reg.THM_STAT] { s with sensors := t.sensors } t) ∧
    (fld v 0 8 < 136 → wbit v 31 = false → exec (.sensorClear v) s = .next s) ∧
    (fld v 0 8 < fld v 8 8 → fld v 8 8 < fld v 16 8 → fld v 16 8 < 125 → ∃ t, exec (.thresholdWrite v) s = .next t ∧
      t.levelAt 1 = 16 * fld v 0 8 ∧ t.levelAt 2 = 16 * fld v 8 8 ∧ t.levelAt 3 = 16 * fld v 16 8 ∧ OnlyWords [Reg.THM_THR] s t) ∧
    (¬(fld v 0 8 < fld v 8 8 ∧ fld v 8 8 < fld v 16 8 ∧ fld v 16 8 < 125) → ∃ t, exec (.thresholdWrite v) s = .next t ∧
      t.bit Reg.THM_ERRSTAT 0 = true ∧ OnlyWords [Reg.THM_ERRSTAT] s t)) ∧
  ∀ (s : State) (a b : Nat), s.off = false → ∃ t, exec (.creditUpdate a b) s = .next t ∧
    1000 * (t.rd Reg.THM_CREDIT).toNat + t.creditUj ≤ 1000000 * s.rdf Reg.THM_CREDCFG 0 16 ∧ t.creditUj < 1000 ∧
    (2 ≤ s.rdf Reg.THM_STAT 28 2 → t.rdf Reg.LMP_THRSTAT 16 16 = s.rdf Reg.THM_RATE 0 16) ∧
    (s.rdf Reg.THM_STAT 28 2 < 2 → 1000000 * s.rdf Reg.THM_CREDCFG 16 16 ≤ 1000 * (t.rd Reg.THM_CREDIT).toNat + t.creditUj →
      t.rdf Reg.LMP_THRSTAT 16 16 = 0xFFFF) ∧
    t.rd Reg.THM_PEST = wd (a + (b + (if s.calEn then 50 else 0) - 2000))

/-! ## Chapters 17 and 19: resets, rails, start-up and trust -/

/-- Resets and rails (R225, R234, R363, R365, R406 to R408): the power-on reset starts the supplies over everything as reset leaves it, but
the OTP and the NOR, less the head of a bank that a save was writing; each good rail enables the next; a rail that fails drops them all
and, after the third failure, leaves the module down; a module reset or SWRST leaves every register at its reset value but
those AON keeps; the boot ROM samples BIFSEL, with STRAP for the reserved strap, and tests its engine. Where the model had to choose: log
entries 62 and 69. -/
def Obligations.ResetsAndRails : Prop :=
  (∀ s : State, ∃ t, exec .powerOn s = .next t ∧ t.now = 0 ∧ t.enables = [.vcore] ∧ t.batches = [] ∧ t.commits = [] ∧ t.off = false ∧
    (∀ a, a ≠ Reg.SEC_OTPSTAT → t.rd a = resetWord a) ∧ t.bit Reg.SEC_OTPSTAT 29 = false ∧
    (∀ i, i < 32 → i ≠ 29 → t.bit Reg.SEC_OTPSTAT i = s.bit Reg.SEC_OTPSTAT i) ∧
    (∀ a, norBase ≤ a → t.byte a = s.dropSave.byte a) ∧ (s.saving = none → ∀ a, norBase ≤ a → t.byte a = s.byte a) ∧ ∀ a, a < norBase → t.byte a = memDefault a) ∧
  (∀ (s : State) (r : Rail),
    (s.enables.getLast? ≠ some r → exec (.powerGood r) s = .next s ∧ exec (.sequenceFailure r) s = .next s) ∧
    (∀ r', s.enables.getLast? = some r → nextRail r = some r' → ∃ t, exec (.powerGood r) s = .next t ∧
      t = { s with enables := s.enables ++ [r'], out := .pin (railPin r') true :: s.out }) ∧
    (s.enables.getLast? = some r → s.bootPhase = 0 → ∃ t, exec (.sequenceFailure r) s = .next t ∧ t.enables = [] ∧ t.seqFails = s.seqFails + 1 ∧
      t.rdf Reg.GEN_RSTCAUSE 0 4 = 5 ∧ t.rdf Reg.GEN_RSTCAUSE 8 3 = railCode r ∧ (3 ≤ t.seqFails → t.out.head? = some (.pin "FAULT_N" false)) ∧
      OnlyWords [Reg.GEN_RSTCAUSE] { s with enables := [], seqFails := s.seqFails + 1, out := t.out } t) ∧
    ((r = .vio ∨ r ∈ s.enables) → ∃ t, exec (.undervoltage r) s = .next t ∧ t.now = 0 ∧ t.rdf Reg.GEN_RSTCAUSE 0 4 = 4 ∧
      t.rdf Reg.GEN_RSTCAUSE 8 3 = railCode r ∧ t.rdf Reg.GEN_RSTCAUSE 16 8 = satN 8 (s.rdf Reg.GEN_RSTCAUSE 16 8 + 1) ∧ t.commits = []) ∧
    (r ≠ .vio → r ∉ s.enables → exec (.undervoltage r) s = .next s)) ∧
  (∀ s : State,
    (s.enables = [] → 1 ≤ s.seqFails → s.seqFails < 3 → ∃ t, exec .sequenceRetry s = .next t ∧ t.enables = [.vcore] ∧
      t = { s with enables := t.enables, out := t.out }) ∧
    ((s.enables ≠ [] ∨ s.seqFails = 0 ∨ 3 ≤ s.seqFails) → exec .sequenceRetry s = .next s)) ∧
  (∀ (s : State) (c : Instr) (k : Nat), (c = .moduleReset ∧ k = 1) ∨ (c = .swrst ∧ k = 2) → ∃ t, exec c s = .next t ∧ t.now = 0 ∧ t.off = false ∧
    t.commits = [] ∧ t.batches = [] ∧ t.enables = (if s.enables = [] then [.vcore] else s.enables) ∧ t.rdf Reg.GEN_RSTCAUSE 0 4 = k ∧
    (∀ a, keptByReset a = false → a ≠ Reg.FLT_ERRSTAT → t.rd a = resetWord a) ∧
    (∀ a, keptByReset a = true → a ≠ Reg.GEN_RSTCAUSE → a ≠ Reg.SEC_OTPSTAT → t.rd a = s.rd a) ∧
    (t.bit Reg.FLT_ERRSTAT 5 = true ↔ s.bit Reg.FLT_LAST_W0 31 = true) ∧ (∀ a, 0x11000000 ≤ a → t.byte a = s.dropSave.byte a) ∧
    (s.saving = none → ∀ a, 0x11000000 ≤ a → t.byte a = s.byte a)) ∧
  ∀ (s : State) (b : Fin 4) (ok : Bool),
    (s.bootPhase ≠ 0 → exec (.bootRomStart b ok) s = .next s) ∧
    (s.bootPhase = 0 → s.bit Reg.BOOT_STAT 31 = false → s.off = false → ∃ t, exec (.bootRomStart b ok) s = .next t ∧
      (∀ k : Fin 4, t.rdf (Reg.HIF_LINKCFG k) 8 2 = b) ∧ t.released = s.ns ∧ t.seqFails = 0 ∧
      (t.bit Reg.SEC_OTPSTAT 29 = true ↔ s.rdf Reg.SEC_OTPSTAT 30 2 = 0) ∧
      (b = 3 → t.bit Reg.HIF_ERRSTAT 5 = true) ∧ (b ≠ 3 → t.rd Reg.HIF_ERRSTAT = s.rd Reg.HIF_ERRSTAT) ∧
      (ok = true → t.bootPhase = 1) ∧
      (ok = false → t.bootPhase = 10 ∧ t.bit Reg.BOOT_STAT 30 = true ∧ t.rd Reg.BOOT_REJ = 0x99#32 ∧
        t.out.head? = some (.pin "FAULT_N" false) ∧ (b ≠ 3 →
        t.out = .pin "FAULT_N" false :: .pin "XSPI_RST_N" true :: .pin "XSPI_RST_N" false :: s.out)))

/-- Start-up (R204, R226, R229, R365, R371 to R378): in phase IMAGE the slots are tried in order, and boot stops where neither is valid; the
phases follow each other as their work ends, ANALOG once no converter still calibrates; drive returns on the 4 ns grid; UP comes once every circuit is settled, and not later than LOCKLATE. Where
the model had to choose: log entries 70 to 75. -/
def Obligations.StartUp : Prop :=
  (∀ (s : State) (x y : SlotRead), let a := s.slotFound 0 x; let b := s.slotFound 0x1000000 y
    let f := if slotBFirst a b then b else a; let g := if slotBFirst a b then a else b
    (s.norOwn = [] → a = x ∧ b = y) ∧
    (s.bootPhase ≠ 1 → exec (.imageVerified x y) s = .next s) ∧
    (s.bootPhase = 1 → s.slotReason f = 0 → ∃ t, exec (.imageVerified x y) s = .next t ∧ t = s.loadImage (slotBFirst a b) f ∧
      (f.image.regwr = [] → s.bit Reg.BOOT_STAT 29 = false → t.bootPhase = 2 ∧ t.image = some f.image ∧
        t.rd Reg.BOOT_IMGSEQ = f.image.header.getD 3 0#32 ∧ t.bit Reg.BOOT_STAT 26 = slotBFirst a b)) ∧
    (s.bootPhase = 1 → s.slotReason f ≠ 0 → s.slotReason g ≠ 0 → ∃ t, exec (.imageVerified x y) s = .next t ∧ t.bootPhase = 10 ∧
      t.bit Reg.BOOT_STAT 30 = true ∧ t.rdf Reg.BOOT_REJ 0 4 = s.slotReason a ∧ t.rdf Reg.BOOT_REJ 4 4 = s.slotReason b ∧
      t.out = .pin "FAULT_N" false :: s.out)) ∧
  (∀ (s : State) (found : List Candidate) (bs : List (Option (Word × List (Nat × Word)))) (w : Option (List (Fin 4864 × Word))), s.image = none →
    exec (.bootPhaseComplete bs w) s = .next s ∧ exec (.driveReturn found) s = .next s ∧ exec .up s = .next s ∧ exec .locklate s = .next s) ∧
  (∀ (s : State) (m : Image) (bs : List (Option (Word × List (Nat × Word)))) (w : Option (List (Fin 4864 × Word))), s.image = some m →
    (s.bootPhase = 2 → ∃ t, exec (.bootPhaseComplete bs w) s = .next t ∧ t.bootPhase = 3 ∧ t.bit Reg.ASY_STAT 31 = true ∧ t.rdf Reg.ASY_STAT 28 3 = 4) ∧
    (s.bootPhase = 3 → ∃ t, exec (.bootPhaseComplete bs w) s = .next t ∧ t.bootPhase = 4 ∧
      (s.bankFound bs 0 = none → s.bankFound bs 1 = none → t.rd (Reg.ASY_BANKGEN 0) = 0xFFFFFFFF#32 ∧ t.rd (Reg.ASY_BANKGEN 1) = 0xFFFFFFFF#32 ∧
        t.bit Reg.ASY_ERRSTAT 4 = true) ∧
      (w = none → s.wearA = none → s.wearB = none → t.bit Reg.TNK_STAT 30 = true ∧ t.bit Reg.TNK_ERRSTAT 3 = true)) ∧
    (s.bootPhase = 4 → (∃ k ∈ s.awake, s.rdf (Reg.MON_CTRL k) 8 4 ≠ 0) → exec (.bootPhaseComplete bs w) s = .next s) ∧
    (s.bootPhase = 4 → (∀ k ∈ s.awake, s.rdf (Reg.MON_CTRL k) 8 4 = 0) → s.calWanted m = false → ∃ t, exec (.bootPhaseComplete bs w) s = .next t ∧ t.bootPhase = 7) ∧
    (s.bootPhase = 4 → (∀ k ∈ s.awake, s.rdf (Reg.MON_CTRL k) 8 4 = 0) → s.calWanted m = true → ∃ t,
      exec (.bootPhaseComplete bs w) s = .next t ∧ t.bootPhase = 5 ∧ t.fullcal = some ⟨true, false, [], none, []⟩ ∧ t.bit Reg.LMP_CTRL 8 = true) ∧
    (s.bootPhase = 5 → s.fullcal ≠ none → exec (.bootPhaseComplete bs w) s = .next s) ∧
    (s.bootPhase = 5 → s.fullcal = none → s.calMissed m = false → ∃ t, exec (.bootPhaseComplete bs w) s = .next t ∧ t.bootPhase = 7 ∧
      OnlyWords [Reg.BOOT_STAT, Reg.BOOT_TIME 4] s t) ∧
    (6 ≤ s.bootPhase → exec (.bootPhaseComplete bs w) s = .next s)) ∧
  (∀ s : State, (s.bootPhase ≠ 6 → exec .calwaitExpiry s = .next s) ∧
    (s.bootPhase = 6 → ∃ t, exec .calwaitExpiry s = .next t ∧ t.bootPhase = 5 ∧ t.fullcal = some ⟨true, false, [], none, []⟩)) ∧
  ∀ (s : State) (m : Image), s.image = some m →
    (∀ found, (s.bootPhase ≠ 7 → exec (.driveReturn found) s = .next s) ∧
      (s.bootPhase = 7 → ∃ t, exec (.driveReturn found) s = .next t ∧ t.bootPhase = 8 ∧ t.driveAt = roundUp 4 s.ns)) ∧
    (s.bootPhase = 8 → s.ckts.all s.settled = true → (∃ t, exec .up s = .next t ∧ t.bit Reg.BOOT_STAT 31 = true ∧ t.bootPhase = 9 ∧
      (s.bit Reg.BOOT_STAT 29 = true → t.pstate = 0)) ∧ exec .locklate s = .next s) ∧
    (s.bootPhase = 8 → s.ckts.all s.settled = false → exec .up s = .next s ∧ ∃ t, exec .locklate s = .next t ∧ t.bit Reg.BOOT_STAT 27 = true ∧
      t.bit Reg.BOOT_STAT 31 = true ∧ t.bootPhase = 9 ∧ t.now = max s.now ((s.driveAt + 200000000) * nsUnit)) ∧
    (s.bootPhase ≠ 8 → exec .up s = .next s ∧ exec .locklate s = .next s)

/-- Trust and the NOR (R382 to R386): attestation and sealing show BUSY until their work ends, and refuse what R382 and R383 refuse; a key
slot is revoked unless the running image or nothing else holds it; a token opens a locked debug port; a NOR command starts inside the
image slots only, and its end erases or writes what it names, and no other byte. Where the model had to choose: log entries 10, 76 and 77.
-/
def Obligations.TrustAndFlash : Prop :=
  (∀ (s : State) (c : Instr) (op : Nat), (c = .report ∧ op = 1) ∨ (c = .cert ∧ op = 2) →
    (s.bit Reg.SEC_ATTCTL 30 = true → ∃ t, exec c s = .next t ∧ t.bit Reg.SEC_ERRSTAT 0 = true ∧ WordsAndEvents [Reg.SEC_ERRSTAT] s t) ∧
    (s.bit Reg.SEC_ATTCTL 30 = false → ∃ t, exec c s = .next t ∧ t.bit Reg.SEC_ATTCTL 30 = true ∧ t.bit Reg.SEC_ATTCTL 29 = false ∧
      t.rdf Reg.SEC_ATTCTL 0 4 = op ∧ OnlyWords [Reg.SEC_ATTCTL] s t)) ∧
  (∀ (s : State) (w : List Word),
    (s.bit Reg.SEC_ATTCTL 30 = false → exec (.attestationDone w) s = .next s) ∧
    (s.bit Reg.SEC_ATTCTL 30 = true → s.rdf Reg.SEC_ATTCTL 0 4 = 1 → ∃ t, exec (.attestationDone w) s = .next t ∧
      t.rd (Reg.SEC_ATTWIN 0) = 0x4E474154#32 ∧ (∀ i, i < 8 → t.rd (Reg.SEC_ATTWIN (8 + i)) = s.rd (Reg.SEC_ATTNONCE i)) ∧
      (∀ i, 64 ≤ i → i < 8192 → t.rd (Reg.SEC_ATTWIN i) = w.getD i 0#32) ∧ t.rd Reg.SEC_ATTCNT = s.rd Reg.SEC_ATTCNT + 1#32 ∧
      t.bit Reg.SEC_ATTCTL 30 = false ∧ t.bit Reg.SEC_ATTCTL 29 = true ∧ t = { s with words := t.words }) ∧
    (s.bit Reg.SEC_ATTCTL 30 = true → s.rdf Reg.SEC_ATTCTL 0 4 ≠ 1 → ∃ t, exec (.attestationDone w) s = .next t ∧
      (∀ i, i < 8192 → t.rd (Reg.SEC_ATTWIN i) = Config.certificate i) ∧ t.bit Reg.SEC_ATTCTL 30 = false ∧ t.bit Reg.SEC_ATTCTL 29 = true ∧
      t = { s with words := t.words })) ∧
  (∀ s : State,
    (s.bit Reg.SEC_SEALCTL 30 = true → exec .sealData s = .next s) ∧
    (s.bit Reg.SEC_SEALCTL 30 = false → s.bit Reg.SEC_OTPSTAT 29 = true → ∃ t, exec .sealData s = .next t ∧ t.bit Reg.SEC_ERRSTAT 1 = true ∧
      WordsAndEvents [Reg.SEC_ERRSTAT] s t) ∧
    (s.bit Reg.SEC_SEALCTL 30 = false → s.bit Reg.SEC_OTPSTAT 29 = false → ∃ t, exec .sealData s = .next t ∧ t.bit Reg.SEC_SEALCTL 30 = true ∧
      t.bit Reg.SEC_SEALCTL 29 = false ∧ t.sealing = some ((List.range 20).map fun i => s.rd (Reg.SEC_SEALBUF i)) ∧
      OnlyWords [Reg.SEC_SEALCTL] { s with sealing := t.sealing } t) ∧
    (s.sealing = none → exec .sealingDone s = .next s) ∧
    (∀ b, s.sealing = some b → ∃ t, exec .sealingDone s = .next t ∧ t.sealing = none ∧ t.bit Reg.SEC_SEALCTL 30 = false ∧
      t.bit Reg.SEC_SEALCTL 29 = true ∧ (∀ i, i < 4 → i < b.length → t.rd (Reg.SEC_SEALBUF i) = b.getD i 0#32) ∧
      (b.length = 20 → ∀ i, i < 8 → t.rd (Reg.SEC_SEALBUF (4 + i)) = b.getD (4 + i) 0#32 ^^^ Config.sealPad (b.take 4) i))) ∧
  (∀ (s : State) (v : Word), let k := fld v 0 2
    (wbit v 31 = false → exec (.keyRevocation v) s = .next s) ∧
    (wbit v 31 = true → (∃ m, s.image = some m ∧ fld (m.header.getD 5 0#32) 0 2 = k) → ∃ t, exec (.keyRevocation v) s = .next t ∧ t.bit Reg.SEC_ERRSTAT 2 = true ∧
      WordsAndEvents [Reg.SEC_ERRSTAT] s t) ∧
    (wbit v 31 = true → (∀ m, s.image = some m → fld (m.header.getD 5 0#32) 0 2 ≠ k) →
      (∃ j, j < 4 ∧ j ≠ k ∧ s.bit Reg.SEC_OTPSTAT (24 + j) = false) → ∃ t, exec (.keyRevocation v) s = .next t ∧
      t.bit Reg.SEC_OTPSTAT (24 + k) = true ∧ (∀ i, i < 32 → i ≠ 24 + k → t.bit Reg.SEC_OTPSTAT i = s.bit Reg.SEC_OTPSTAT i) ∧
      OnlyWords [Reg.SEC_OTPSTAT] s t)) ∧
  (∀ s : State, (s.rdf Reg.SEC_OTPSTAT 30 2 = 1 → ∃ t, exec (.debugUnlock true) s = .next t ∧ t.bit Reg.SEC_OTPSTAT 29 = true ∧
      OnlyWords [Reg.SEC_OTPSTAT] s t) ∧ exec (.debugUnlock false) s = .next s ∧
    (s.rdf Reg.SEC_OTPSTAT 30 2 ≠ 1 → exec (.debugUnlock true) s = .next s)) ∧
  (∀ (s : State) (c : Instr) (op : Nat), (c = .erase ∧ op = 1) ∨ (c = .prog ∧ op = 2) ∨ (c = .verify ∧ op = 3) →
    (s.bit Reg.BOOT_FLSTAT 31 = true → exec c s = .next s) ∧
    (s.bit Reg.BOOT_FLSTAT 31 = false → s.flashRefused (s.rdf Reg.BOOT_FLADDR 0 26) = true → ∃ t, exec c s = .next t ∧
      t.rd Reg.BOOT_FLSTAT = pack [(30, 1, 1), (4, 4, 1)] ∧ OnlyWords [Reg.BOOT_FLSTAT] s t) ∧
    (s.bit Reg.BOOT_FLSTAT 31 = false → s.flashRefused (s.rdf Reg.BOOT_FLADDR 0 26) = false → ∃ t, exec c s = .next t ∧
      t.rd Reg.BOOT_FLSTAT = pack [(31, 1, 1)] ∧
      t.flash = some ⟨op, s.rdf Reg.BOOT_FLADDR 0 26, (List.range 64).map fun i => s.rd (Reg.BOOT_FLBUF i), s.saving.isSome⟩ ∧
      OnlyWords [Reg.BOOT_FLSTAT] { s with flash := t.flash } t)) ∧
  ∀ (s : State), (∀ o, s.flash = none → exec (.flashCommandDone o) s = .next s) ∧
    (∀ o f, s.flash = some f → f.behind = true → exec (.flashCommandDone o) s = .next s) ∧ ∀ f, s.flash = some f → f.behind = false →
    (f.op = 1 → let a := norBase + f.addr / 0x10000 * 0x10000; ∃ t, exec (.flashCommandDone .ok) s = .next t ∧
      (∀ b, a ≤ b → b < a + 0x10000 → t.byte b = memDefault b) ∧ (∀ b, (b < a ∨ a + 0x10000 ≤ b) → t.byte b = s.byte b) ∧ t.flash = none ∧
      t.rd Reg.BOOT_FLSTAT = pack [(30, 1, 1)]) ∧
    (f.op = 2 → f.data.length = 64 → let a := norBase + f.addr / 256 * 256; ∃ t, exec (.flashCommandDone .ok) s = .next t ∧
      (∀ i, i < 64 → t.memWord (a + 4 * i) = f.data.getD i 0#32) ∧ (∀ b, (b < a ∨ a + 256 ≤ b) → t.byte b = s.byte b) ∧ t.flash = none ∧
      t.rd Reg.BOOT_FLSTAT = pack [(30, 1, 1)]) ∧
    (f.op = 3 → ∃ t, exec (.flashCommandDone .ok) s = .next t ∧ let r := s.verifyReason f 0
      t.rd Reg.BOOT_FLSTAT = pack [(30, 1, 1), (4, 4, if r = 0 then 0 else 3), (0, 4, r)] ∧
      OnlyWords [Reg.BOOT_FLSTAT] { s with flash := none, saving := t.saving } t) ∧
    (∃ t, exec (.flashCommandDone .device) s = .next t ∧ t.rd Reg.BOOT_FLSTAT = pack [(30, 1, 1), (4, 4, 2)] ∧
      OnlyWords [Reg.BOOT_FLSTAT] { s with flash := none, saving := t.saving } t) ∧
    ∀ v : Fin 10, (f.op ≠ 3 → exec (.flashCommandDone (.verifyFail v)) s = .next s) ∧
      (f.op = 3 → ∃ t, exec (.flashCommandDone (.verifyFail v)) s = .next t ∧ let r := s.verifyReason f v
        t.rd Reg.BOOT_FLSTAT = pack [(30, 1, 1), (4, 4, if r = 0 then 0 else 3), (0, 4, r)] ∧ (s.norOwn = [] → r = v) ∧
        OnlyWords [Reg.BOOT_FLSTAT] { s with flash := none, saving := t.saving } t)

/-! ## Chapter 18: faults -/

/-- Memory errors, fences, fatal errors and the dump (R389 to R399): a corrected error is counted and logged; an uncorrectable one is
logged with its class and contained, fences its tile or is fatal by its row; a fenced tile comes back only locked and sound; the first
fatal error is recorded and starts the dump, a further one during the dump only counts, and one in P3
writes no dump; the dump's end tells where it lies, and DMP_NVMDATA reads it word by word for a requester that passes R24. Where the model had to choose:
log entries 78 to 81. -/
def Obligations.FaultsAndDump : Prop :=
  (∀ (s : State) (sweep : Bool) (a : Nat) (m : MemRow) (n : Option Requester),
    exec (.scrubRead sweep a .clean m n) s = .next s ∧
    (s.off = false → let shown := 1 + (s.ceTimes.filter fun p => decide (s.ns < p.2 + 1000000000) && p.1 == a / 8).length
      (∀ i, shown ≤ s.rdf Reg.FLT_CTRL 16 16 → ∃ t, exec (.scrubRead sweep a (.corrected i) m n) s = .next t ∧
        t.rdf Reg.FLT_CECNT 0 32 = satN 32 (s.rdf Reg.FLT_CECNT 0 32 + 1) ∧ t.rd Reg.FLT_CELOG = wd a ∧ t.bit Reg.FLT_ERRSTAT 1 = true ∧
        (a / 8, s.ns) ∈ t.ceTimes ∧ WordsAndEvents [Reg.FLT_CECNT, Reg.FLT_CELOG, Reg.FLT_ERRSTAT] { s with ceTimes := t.ceTimes } t) ∧
      (∀ i, s.rdf Reg.FLT_CTRL 16 16 < shown → ∃ t, exec (.scrubRead sweep a (.corrected i) m n) s = .next t ∧ t.bit Reg.FLT_ERRSTAT 4 = true) ∧
      (∀ rq, (∀ l f, rq ≠ .fn l f) → (∀ k, rq ≠ .session k) → ∃ t, exec (.scrubRead false a .uncorrectable .pattern (some rq)) s = .next t ∧
        t.out.head? = some (.busError rq false [])) ∧
      (∀ l f, ∃ t, exec (.scrubRead false a .uncorrectable .pattern (some (.fn l f))) s = .next t ∧
        t.out.head? = some (.poisoned (.fn l f))) ∧
      (∃ t, exec (.scrubRead sweep a .uncorrectable .pattern n) s = .next t ∧ t.rd Reg.FLT_UELOG_W0 = wd a ∧
        t.rdf Reg.FLT_UELOG_W1 30 2 = 1 ∧ t.rdf Reg.FLT_UELOG_W1 0 4 = 3 ∧ t.bit Reg.FLT_ERRSTAT 2 = true ∧
        (∀ i, i < 512 → a / 2048 * 2048 + 4 * i ∈ t.poisoned)) ∧
      (∀ tile, tile < 64 → tileOfAddr a = tile → s.bit (Reg.MTX_ISLSTAT tile) 1 = false → ∃ t,
        exec (.scrubRead sweep a .uncorrectable .tile n) s = .next t ∧ t.bit (Reg.MTX_ISLSTAT tile) 1 = true ∧ t.rdf Reg.FLT_UELOG_W1 30 2 = 2 ∧
        t.bit Reg.FLT_ERRSTAT 3 = true) ∧
      (s.fatalOn = false → ∃ t, exec (.scrubRead sweep a .uncorrectable .tables n) s = .next t ∧ t.fatalOn = true ∧ t.rdf Reg.FLT_UELOG_W1 30 2 = 3))) ∧
  (∀ (s : State) (t0 : Fin 64),
    (s.bit (Reg.MTX_ISLSTAT t0) 1 = false → ∃ t, exec (.unfence t0) s = .next t ∧ t.rd Reg.FLT_CMDRES = 0x80000001#32 ∧
      OnlyWords [Reg.FLT_CMDRES] s t) ∧
    (s.bit (Reg.MTX_ISLSTAT t0) 1 = true → ∃ t, exec (.unfence t0) s = .next t ∧ t.rd Reg.FLT_CMDRES = 0#32 ∧ t0.val ∈ t.unfencing ∧
      OnlyWords [Reg.FLT_CMDRES] { s with unfencing := t.unfencing } t) ∧
    (∀ l d, t0.val ∉ s.unfencing → exec (.unfenceComplete t0 l d) s = .next s) ∧
    (∀ l d, t0.val ∈ s.unfencing → (l && d) = false → ∃ t, exec (.unfenceComplete t0 l d) s = .next t ∧ t.rd Reg.FLT_CMDRES = 0x80000002#32 ∧
      t0.val ∉ t.unfencing ∧ OnlyWords [Reg.FLT_CMDRES] { s with unfencing := t.unfencing } t) ∧
    (t0.val ∈ s.unfencing → ∃ t, exec (.unfenceComplete t0 true true) s = .next t ∧ t.rd Reg.FLT_CMDRES = 0x80000000#32 ∧
      t.bit (Reg.MTX_ISLSTAT t0) 1 = false ∧ t.bit (Reg.MTX_ISLSTAT t0) 0 = true ∧ t.bit (Reg.MTX_ISLSTAT t0) 2 = true)) ∧
  (∀ (s : State) (c : Instr) (cause isl : Nat), (c = .fatal ∧ cause = 4 ∧ isl = 0x7F) ∨ (∃ k, c = .watchdog k ∧ cause = 2 ∧ isl = 67) →
    (s.fatalOn = true → s.bit Reg.FLT_STAT 30 = false → exec c s = .next s) ∧
    (s.fatalOn = true → s.bit Reg.FLT_STAT 30 = true → ∃ t, exec c s = .next t ∧ t.rdf Reg.FLT_LAST_W0 16 8 = satN 8 (s.rdf Reg.FLT_LAST_W0 16 8 + 1) ∧
      OnlyWords [Reg.FLT_LAST_W0] s t) ∧
    (s.fatalOn = false → s.off = false → s.bit Reg.THM_STAT 30 = false → ∃ t, exec c s = .next t ∧ t.fatalOn = true ∧ t.bit Reg.FLT_STAT 30 = true ∧
      t.rd Reg.FLT_LAST_W0 = pack [(31, 1, 1), (28, 3, cause), (0, 7, isl)] ∧ t.rd Reg.FLT_LAST_W1 = wd (nsecOf s.ns) ∧
      t.rd Reg.FLT_LAST_W2 = wd (secOf s.ns) ∧ t.bit Reg.FLT_ERRSTAT 5 = true ∧ t.saving = none ∧ t.flash = none ∧
      t.solveStart = none ∧ .pin "FAULT_N" false ∈ t.out) ∧
    (s.fatalOn = false → s.off = true → ∃ t, exec c s = .next t ∧ t.rd Reg.FLT_LAST_W0 = pack [(31, 1, 1), (28, 3, cause), (0, 7, isl)] ∧
      (∀ r, t.retained = some r → r.sound = false) ∧
      OnlyWords [Reg.FLT_LAST_W0, Reg.FLT_LAST_W1, Reg.FLT_LAST_W2] { s with retained := t.retained } t)) ∧
  (∀ (s : State) (silent : List (Fin 69)) (fw : List Word), let ps := s.dumpParts silent fw s.dumpSize
    (s.bit Reg.FLT_STAT 30 = false → exec (.dumpComplete silent fw) s = .next s ∧ exec .dumpStall s = .next s) ∧
    (s.bit Reg.FLT_STAT 30 = true → s.bit Reg.THM_STAT 30 = false → s.bit Reg.FLT_CTRL 12 = false →
      (∀ l, s.dumpLink = some l → ∃ t, exec (.dumpComplete silent fw) s = .next t ∧ t.bit Reg.FLT_STAT 30 = false ∧
        t.rd Reg.DMP_STAT = pack [(31, 1, 1), (28, 3, 1), (24, 4, if truncated ps then 2 else 0), (0, 16, s.rdf Reg.DMP_STAT 0 16 + 1)] ∧
        t.out = .dump l ((s.rd Reg.DMP_ADDRHI).toNat * 2 ^ 32 + s.rdf Reg.DMP_ADDRLO 12 20 * 4096) (s.dumpWords ps) :: s.out ∧
        OnlyWords [Reg.DMP_STAT, Reg.FLT_STAT] { s with out := t.out } t) ∧
      (∀ d, s.dumpLink = none → s.dumpNvm = some d → ∃ t, exec (.dumpComplete silent fw) s = .next t ∧ t.bit Reg.FLT_STAT 30 = false ∧
        t.rd Reg.DMP_STAT = pack [(31, 1, 1), (28, 3, 2), (24, 4, if truncated ps then 2 else 0), (0, 16, s.rdf Reg.DMP_STAT 0 16 + 1)] ∧
        t.memWord d.1 = 0x4E47444D#32 ∧
        (∀ b, (b < d.1 ∨ d.1 + max d.2 (4 * (s.dumpWords ps).length) ≤ b) → t.byte b = s.byte b) ∧
        OnlyWords [Reg.DMP_STAT, Reg.FLT_STAT] { s with mem := t.mem } t) ∧
      (s.dumpLink = none → s.dumpNvm = none → ∃ t, exec (.dumpComplete silent fw) s = .next t ∧ t.bit Reg.FLT_STAT 30 = false ∧
        OnlyWords [Reg.FLT_STAT] s t)) ∧
    (s.bit Reg.FLT_STAT 30 = true → s.bit Reg.THM_STAT 30 = false → ∃ t, exec .dumpStall s = .next t ∧ t.rdf Reg.GEN_RSTCAUSE 0 4 = 3 ∧
      t.rdf Reg.DMP_STAT 24 4 = 1 ∧ t.fatalOn = false)) ∧
  ∀ (s : State) (rq : Requester),
    (s.off = true → exec (.dumpDataRead rq) s = .next s) ∧
    (∀ e i, s.off = false → s.isDraining rq = false → s.fails rq false false Reg.DMP_NVMDATA 4 = some (e, i) → ∃ t,
      exec (.dumpDataRead rq) s = .next t ∧ t.bit Reg.MTX_ERRSTAT e = true ∧
      WordsAndEvents [Reg.MTX_ERRSTAT, Reg.MTX_ERRADDR, Reg.MTX_ERRINFO] s t) ∧
    (s.off = false → s.isDraining rq = false → s.fails rq false false Reg.DMP_NVMDATA 4 = none → Reg.DMP_NVMDATA ∉ s.poisoned → ∃ t, exec (.dumpDataRead rq) s = .next t ∧
      t.out = .readData rq [s.readDump.1] :: s.out ∧ (s.dumpNvm = none → s.readDump.1 = 0xFFFFFFFF#32) ∧
      (∀ d, s.dumpNvm = some d → s.readDump.1 = s.memWord (d.1 + 4 * s.rdf Reg.DMP_NVMPTR 2 16)) ∧
      t.rdf Reg.DMP_NVMPTR 2 16 = (s.rdf Reg.DMP_NVMPTR 2 16 + 1) % 65536 ∧ OnlyWords [Reg.DMP_NVMPTR] { s with out := t.out } t)
end

