-- ==== Sys2Proof/Laws/Store.lean ====
section
/-! SUPPORT. The laws of the sparse store: read after write, writes leave other addresses alone, every operation keeps the canonical
form, and canonical stores that read alike are equal. -/

namespace Sys2Proof.Machine

set_option Elab.async false

variable {α : Type}

theorem Store.get_del_same (d : α) (m : List (Nat × α)) (a : Nat) : Store.get d (Store.del m a) a = d := by
  induction m with
  | nil => rfl
  | cons p m ih =>
    by_cases h : p.1 = a
    · simpa [Store.del, h] using ih
    · have : (p.1 != a) = true := by simpa using h
      simp only [Store.del, List.filter_cons, this, if_true] at ih ⊢
      simpa [Store.get, h] using ih

theorem Store.get_del_ne (d : α) (m : List (Nat × α)) {a b : Nat} (h : b ≠ a) :
    Store.get d (Store.del m a) b = Store.get d m b := by
  induction m with
  | nil => rfl
  | cons p m ih =>
    by_cases ha : p.1 = a
    · have hb : p.1 ≠ b := fun e => h (e.symm.trans ha)
      simp only [Store.del, List.filter_cons, ha, bne_self_eq_false] at ih ⊢
      simpa [Store.get, hb, ha, Ne.symm h] using ih
    · have : (p.1 != a) = true := by simpa using ha
      simp only [Store.del, List.filter_cons, this, if_true] at ih ⊢
      by_cases hb : p.1 = b <;> simp [Store.get, hb, ih]

theorem Store.get_ins_same (d : α) (m : List (Nat × α)) (a : Nat) (v : α) (h : ∀ p ∈ m, p.1 ≠ a) :
    Store.get d (Store.ins m a v) a = v := by
  induction m with
  | nil => simp [Store.ins, Store.get]
  | cons p m ih =>
    have hp := h p (by simp)
    by_cases hlt : a < p.1
    · simp [Store.ins, hlt, Store.get]
    · simp [Store.ins, hlt, Store.get, hp, ih fun q hq => h q (by simp [hq])]

theorem Store.get_ins_ne (d : α) (m : List (Nat × α)) {a b : Nat} (v : α) (h : b ≠ a) :
    Store.get d (Store.ins m a v) b = Store.get d m b := by
  induction m with
  | nil => simp [Store.ins, Store.get, Ne.symm h]
  | cons p m ih =>
    by_cases hlt : a < p.1
    · simp [Store.ins, hlt, Store.get, Ne.symm h]
    · have hi : Store.ins (p :: m) a v = p :: Store.ins m a v := by simp [Store.ins, hlt]
      by_cases hb : p.1 = b <;> simp [hi, Store.get, hb, ih]

theorem Store.del_ne (m : List (Nat × α)) (a : Nat) : ∀ p ∈ Store.del m a, p.1 ≠ a := by
  intro p hp
  simpa using (List.mem_filter.1 hp).2

theorem Store.mem_ins {m : List (Nat × α)} {a : Nat} {v : α} {p : Nat × α} (h : p ∈ Store.ins m a v) : p = (a, v) ∨ p ∈ m := by
  induction m with
  | nil => simpa [Store.ins] using h
  | cons q m ih =>
    unfold Store.ins at h
    split at h
    · simpa using h
    · rcases List.mem_cons.1 h with rfl | h
      · simp
      · rcases ih h with h | h
        · exact .inl h
        · exact .inr (by simp [h])

section
variable [DecidableEq α]

/-- Read after write. -/
@[simp] theorem Store.get_set_same (d : α) (m : List (Nat × α)) (a : Nat) (v : α) : Store.get d (Store.set d m a v) a = v := by
  unfold Store.set
  split
  · next h => rw [h]; exact Store.get_del_same d m a
  · exact Store.get_ins_same d _ a v (Store.del_ne m a)

/-- A write leaves every other address alone. -/
theorem Store.get_set_ne (d d' : α) (m : List (Nat × α)) {a b : Nat} (v : α) (h : b ≠ a) :
    Store.get d' (Store.set d m a v) b = Store.get d' m b := by
  unfold Store.set
  split
  · exact Store.get_del_ne d' m h
  · rw [Store.get_ins_ne d' _ v h, Store.get_del_ne d' m h]

theorem Store.wf_iff (d : Nat → α) (m : List (Nat × α)) :
    Store.wf d m = true ↔ m.Pairwise (fun p q => p.1 < q.1) ∧ ∀ p ∈ m, p.2 ≠ d p.1 := by
  simp [Store.wf]

@[simp] theorem Store.wf_nil (d : Nat → α) : Store.wf d [] = true := by simp [Store.wf_iff]

/-- A part of a canonical store is canonical. -/
theorem Store.wf_filter (d : Nat → α) {m : List (Nat × α)} (f : Nat × α → Bool) (h : Store.wf d m = true) :
    Store.wf d (m.filter f) = true := by
  rw [Store.wf_iff] at h ⊢
  exact ⟨h.1.filter f, fun p hp => h.2 p (List.mem_filter.1 hp).1⟩

theorem Store.wf_ins (d : Nat → α) {m : List (Nat × α)} {a : Nat} {v : α} (h : Store.wf d m = true) (hv : v ≠ d a)
    (ha : ∀ p ∈ m, p.1 ≠ a) : Store.wf d (Store.ins m a v) = true := by
  rw [Store.wf_iff] at h ⊢
  refine ⟨?_, fun p hp => ?_⟩
  · induction m with
    | nil => simp [Store.ins]
    | cons q m ih =>
      have hm := List.pairwise_cons.1 h.1
      unfold Store.ins
      split
      · next hlt =>
        refine List.pairwise_cons.2 ⟨fun p hp => ?_, h.1⟩
        rcases List.mem_cons.1 hp with rfl | hp
        · exact hlt
        · exact Nat.lt_trans hlt (hm.1 p hp)
      · next hlt =>
        refine List.pairwise_cons.2 ⟨fun p hp => ?_, ih ⟨hm.2, fun p hp => h.2 p (by simp [hp])⟩ fun p hp => ha p (by simp [hp])⟩
        rcases Store.mem_ins hp with rfl | hp
        · exact Nat.lt_of_le_of_ne (Nat.le_of_not_lt hlt) (ha q (by simp))
        · exact hm.1 p hp
  · rcases Store.mem_ins hp with rfl | hp
    · exact hv
    · exact h.2 p hp

/-- A write keeps the canonical form. -/
theorem Store.wf_set (d : Nat → α) {m : List (Nat × α)} (a : Nat) (v : α) (h : Store.wf d m = true) :
    Store.wf d (Store.set (d a) m a v) = true := by
  unfold Store.set
  split
  · exact Store.wf_filter d _ h
  · next hv => exact Store.wf_ins d (Store.wf_filter d _ h) hv (Store.del_ne m a)

end

end Sys2Proof.Machine
end

