-- ==== Sys2Proof/Laws/Keeps.lean ====
section
/-! SUPPORT. What every operation of the model keeps: the canonical form of the stores, what has been sent, the waiting commands, and the
order of the free values. One lemma per shared operation follows in the files Keeps*.lean; these are its general rules. -/

namespace Sys2Proof.Machine

set_option Elab.async false

/-- `t` keeps what `s` had: canonical stores stay canonical, outputs stay sent, the queue is untouched, no free value is drawn twice. -/
def Keeps (s t : State) : Prop :=
  (s.canonical = true → t.canonical = true) ∧ Extends s t ∧ t.pending = s.pending ∧ s.fresh ≤ t.fresh

/-- `Keeps` over the parts of the state it speaks of. -/
def KeepsParts (s : State) (words live : List (Nat × Word)) (mem : List Host.Cell) (out : List Output) (pending : List Instr) (fresh : Nat) :
    Prop :=
  (s.canonical = true → Store.wf resetWord words = true ∧ Store.wf resetWord live = true ∧ Store.wf memDefault mem = true) ∧
    (∃ l, out = l ++ s.out) ∧ pending = s.pending ∧ s.fresh ≤ fresh

theorem State.canonical_iff (s : State) :
    s.canonical = true ↔ Store.wf resetWord s.words = true ∧ Store.wf resetWord s.live = true ∧ Store.wf memDefault s.mem = true := by
  simp [State.canonical, and_assoc]

theorem keeps_iff {s t : State} : Keeps s t ↔ KeepsParts s t.words t.live t.mem t.out t.pending t.fresh := by
  unfold Keeps KeepsParts Extends
  rw [State.canonical_iff t]

theorem Keeps.refl (s : State) : Keeps s s := ⟨id, ⟨[], rfl⟩, rfl, Nat.le_refl _⟩

theorem Keeps.trans {s t u : State} (h : Keeps s t) (k : Keeps t u) : Keeps s u := by
  obtain ⟨h1, ⟨l, h2⟩, h3, h4⟩ := h
  obtain ⟨k1, ⟨m, k2⟩, k3, k4⟩ := k
  exact ⟨fun x => k1 (h1 x), ⟨m ++ l, by rw [k2, h2, List.append_assoc]⟩, k3.trans h3, Nat.le_trans h4 k4⟩

theorem keeps_ite {s t u : State} {c : Prop} [Decidable c] (h : c → Keeps s t) (k : ¬c → Keeps s u) : Keeps s (if c then t else u) := by
  split
  · exact h ‹_›
  · exact k ‹_›

theorem keeps_foldl {α : Type} {s t : State} (f : State → α → State) (xs : List α) (hf : ∀ u x, Keeps s u → Keeps s (f u x))
    (h : Keeps s t) : Keeps s (xs.foldl f t) := by
  induction xs generalizing t with
  | nil => exact h
  | cons x xs ih => exact ih (hf t x h)

theorem State.each_keeps {α : Type} {s t : State} (xs : List α) (f : State → α → State) (hf : ∀ u x, Keeps s u → Keeps s (f u x))
    (h : Keeps s t) : Keeps s (t.each xs f) := keeps_foldl f xs hf h

theorem State.when_keeps {s t : State} (b : Bool) (f : State → State) (hf : Keeps s t → Keeps s (f t)) (h : Keeps s t) :
    Keeps s (t.when b f) := by
  unfold State.when
  split
  · exact hf h
  · exact h

theorem State.wr_keeps {s t : State} (a : Nat) (v : Word) (h : Keeps s t) : Keeps s (t.wr a v) := by
  rw [keeps_iff] at h ⊢
  exact ⟨fun x => ⟨Store.wf_set resetWord a v (h.1 x).1, (h.1 x).2⟩, h.2⟩

theorem State.wrLive_keeps {s t : State} (a : Nat) (v : Word) (h : Keeps s t) : Keeps s (t.wrLive a v) := by
  rw [keeps_iff] at h ⊢
  exact ⟨fun x => ⟨(h.1 x).1, Store.wf_set resetWord a v (h.1 x).2.1, (h.1 x).2.2⟩, h.2⟩

theorem State.putByte_keeps {s t : State} (a : Nat) (v : Byte) (h : Keeps s t) : Keeps s (t.putByte a v) := by
  rw [keeps_iff] at h ⊢
  exact ⟨fun x => ⟨(h.1 x).1, (h.1 x).2.1, Store.wf_set memDefault a v (h.1 x).2.2⟩, h.2⟩

theorem State.send_keeps {s t : State} (o : Output) (h : Keeps s t) : Keeps s (t.send o) := by
  obtain ⟨h1, ⟨l, h2⟩, h3, h4⟩ := h
  exact ⟨h1, ⟨o :: l, by simp [State.send, h2]⟩, h3, h4⟩

theorem State.draw_keeps {s t : State} (h : Keeps s t) : Keeps s t.draw :=
  ⟨h.1, h.2.1, h.2.2.1, Nat.le_trans h.2.2.2 (Nat.le_succ _)⟩

theorem State.drawMany_keeps {s t : State} (n : Nat) (h : Keeps s t) : Keeps s (t.drawMany n) :=
  ⟨h.1, h.2.1, h.2.2.1, Nat.le_trans h.2.2.2 (Nat.le_add_right _ n)⟩

theorem keeps_of_fst {α : Type} {s u : State} {p : State × α} {a : α} (e : p = (u, a)) (h : Keeps s p.1) : Keeps s u := by
  subst e
  exact h

theorem keeps_of_snd {α : Type} {s u : State} {p : α × State} {a : α} (e : p = (a, u)) (h : Keeps s p.2) : Keeps s u := by
  subst e
  exact h

theorem keeps_foldl_fst {α β : Type} {s : State} (f : State × β → α → State × β) (xs : List α)
    (hf : ∀ p x, Keeps s p.1 → Keeps s (f p x).1) {p : State × β} (h : Keeps s p.1) : Keeps s (xs.foldl f p).1 := by
  induction xs generalizing p with
  | nil => exact h
  | cons x xs ih => exact ih (hf p x h)

/-- A meaning that answers a next state, and keeps. -/
def Answers (s : State) (r : Host.Outcome State Fault Refusal) : Prop := ∃ t, r = .next t ∧ Keeps s t

theorem answers_next {s t : State} (h : Keeps s t) : Answers s (.next t) := ⟨t, rfl, h⟩

theorem answers_ite {s : State} {r q : Host.Outcome State Fault Refusal} {c : Prop} [Decidable c] (h : c → Answers s r)
    (k : ¬c → Answers s q) : Answers s (if c then r else q) := by
  split
  · exact h ‹_›
  · exact k ‹_›

end Sys2Proof.Machine
end

