-- ==== Sys2Proof/Laws/KeepsOps.lean ====
section
/-! SUPPORT. What the operations of Machine/Ops.lean keep (Laws/Keeps.lean). -/

namespace Sys2Proof.Machine

set_option Elab.async false
set_option linter.unreachableTactic false
set_option linter.unusedTactic false

theorem State.wrf_keeps {s t : State} (a : Nat) (lo : Nat) (n : Nat) (v : Nat) (h : Keeps s t) : Keeps s (State.wrf t a lo n v) := by
  unfold State.wrf
  with_reducible repeat' (first | assumption | apply State.wr_keeps)

theorem State.wrBit_keeps {s t : State} (a : Nat) (i : Nat) (b : Bool) (h : Keeps s t) : Keeps s (State.wrBit t a i b) := by
  unfold State.wrBit
  with_reducible repeat' (first | assumption | apply State.wrf_keeps)

theorem State.count_keeps {s t : State} (a : Nat) (lo : Nat) (n : Nat) (k : Nat) (h : Keeps s t) : Keeps s (State.count t a lo n k) := by
  unfold State.count
  with_reducible repeat' (first | assumption | apply State.wrf_keeps)

theorem State.bump_keeps {s t : State} (a : Nat) (h : Keeps s t) : Keeps s (State.bump t a) := by
  unfold State.bump
  with_reducible repeat' (first | assumption | apply State.wr_keeps)

theorem State.writeReg_keeps {s t : State} (a : Nat) (v : Word) (h : Keeps s t) : Keeps s (State.writeReg t a v) := by
  unfold State.writeReg
  with_reducible repeat' (first | assumption | apply State.wr_keeps | (rw [keeps_iff]; dsimp only; apply keeps_iff.1) | dsimp only | split)

theorem State.wrMask_keeps {s t : State} (a : Nat) (mask : Word) (v : Word) (h : Keeps s t) : Keeps s (State.wrMask t a mask v) := by
  unfold State.wrMask
  with_reducible repeat' (first | assumption | apply State.wr_keeps)

theorem State.putMemWord_keeps {s t : State} (a : Nat) (v : Word) (h : Keeps s t) : Keeps s (State.putMemWord t a v) := by
  unfold State.putMemWord
  with_reducible repeat' (first | assumption | apply State.putByte_keeps)

theorem State.putMem_keeps {s t : State} (a : Nat) (ws : List Word) (h : Keeps s t) : Keeps s (State.putMem t a ws) := by
  unfold State.putMem
  with_reducible repeat' (first | assumption | intro u | apply keeps_foldl | apply State.putMemWord_keeps | dsimp only)

theorem State.eraseMem_keeps {s t : State} (lo n : Nat) (h : Keeps s t) : Keeps s (State.eraseMem t lo n) := by
  rw [keeps_iff] at h ⊢
  exact ⟨fun x => ⟨(h.1 x).1, (h.1 x).2.1, Store.wf_filter _ _ (h.1 x).2.2⟩, h.2⟩

theorem State.raise_keeps {s t : State} (t_1 : Nat) (h : Keeps s t) : Keeps s (State.raise t t_1) := by
  unfold State.raise
  with_reducible repeat' (first | assumption | (rw [keeps_iff]; dsimp only; apply keeps_iff.1))

theorem State.setRing_keeps {s t : State} (r : Nat) (x : RingRec) (h : Keeps s t) : Keeps s (State.setRing t r x) := by
  unfold State.setRing
  with_reducible repeat' (first | assumption | (rw [keeps_iff]; dsimp only; apply keeps_iff.1))

theorem State.setCfg_keeps {s t : State} (g : Nat) (x : FnCfg) (h : Keeps s t) : Keeps s (State.setCfg t g x) := by
  unfold State.setCfg
  with_reducible repeat' (first | assumption | (rw [keeps_iff]; dsimp only; apply keeps_iff.1))

theorem State.msixSend_keeps {s t : State} (g : Nat) (v : Nat) (h : Keeps s t) : Keeps s (State.msixSend t g v) := by
  unfold State.msixSend
  with_reducible repeat' (first | assumption | intro u | apply keeps_ite | apply State.send_keeps | apply State.setCfg_keeps | (rw [keeps_iff]; dsimp only; apply keeps_iff.1) | dsimp only | split)

theorem State.ringSignal_keeps {s t : State} (r : Nat) (h : Keeps s t) : Keeps s (State.ringSignal t r) := by
  unfold State.ringSignal
  with_reducible repeat' (first | assumption | apply State.send_keeps | intro u | apply keeps_ite | apply State.setRing_keeps | apply State.msixSend_keeps | (rw [keeps_iff]; dsimp only; apply keeps_iff.1) | dsimp only | split)

theorem State.ringPut_keeps {s t : State} (r : Nat) (ws : List Word) (h : Keeps s t) : Keeps s (State.ringPut t r ws) := by
  unfold State.ringPut
  with_reducible repeat' (first | assumption | apply State.send_keeps | apply State.wrf_keeps | apply State.ringSignal_keeps | dsimp only)

theorem State.ringDrop_keeps {s t : State} (r : Nat) (h : Keeps s t) : Keeps s (State.ringDrop t r) := by
  unfold State.ringDrop
  with_reducible repeat' (first | assumption | apply State.count_keeps | apply State.setRing_keeps | (rw [keeps_iff]; dsimp only; apply keeps_iff.1))

theorem State.payEvlost_keeps {s t : State} (r : Nat) (h : Keeps s t) : Keeps s (State.payEvlost t r) := by
  unfold State.payEvlost
  with_reducible repeat' (first | assumption | intro u | apply keeps_ite | apply State.setRing_keeps | apply State.ringPut_keeps | (rw [keeps_iff]; dsimp only; apply keeps_iff.1) | split)

theorem State.eventToFn_keeps {s t : State} (ws : List Word) (g : Nat) (h : Keeps s t) : Keeps s (State.eventToFn t ws g) := by
  unfold State.eventToFn
  with_reducible repeat' (first | assumption | intro u | apply keeps_ite | apply State.ringPut_keeps | apply State.ringDrop_keeps | apply State.payEvlost_keeps | dsimp only | split)

theorem State.setSession_keeps {s t : State} (n : Nat) (x : SessRec) (h : Keeps s t) : Keeps s (State.setSession t n x) := by
  unfold State.setSession
  with_reducible repeat' (first | assumption | (rw [keeps_iff]; dsimp only; apply keeps_iff.1))

theorem State.eventToSession_keeps {s t : State} (ws : List Word) (n : Nat) (h : Keeps s t) : Keeps s (State.eventToSession t ws n) := by
  unfold State.eventToSession
  with_reducible repeat' (first | assumption | intro u | apply keeps_ite | apply State.setSession_keeps | (rw [keeps_iff]; dsimp only; apply keeps_iff.1) | split)

theorem State.eventMgmt_keeps {s t : State} (ws : List Word) (skip : Option Nat := none) (h : Keeps s t) : Keeps s (State.eventMgmt t ws skip) := by
  unfold State.eventMgmt
  with_reducible repeat' (first | assumption | intro u | apply State.each_keeps | apply State.eventToFn_keeps | apply State.eventToSession_keeps | dsimp only)

theorem State.eventPart_keeps {s t : State} (ws : List Word) (p : Nat) (h : Keeps s t) : Keeps s (State.eventPart t ws p) := by
  unfold State.eventPart
  with_reducible repeat' (first | assumption | intro u | apply State.each_keeps | apply State.eventToFn_keeps | apply State.eventToSession_keeps | dsimp only)

theorem State.err_keeps {s t : State} (a : Nat) (i : Nat) (h : Keeps s t) : Keeps s (State.err t a i) := by
  unfold State.err
  with_reducible repeat' (first | assumption | intro u | apply keeps_ite | apply State.wrBit_keeps | apply State.eventMgmt_keeps | split)

theorem State.errOtherLinks_keeps {s t : State} (a : Nat) (i : Nat) (link : Nat) (h : Keeps s t) : Keeps s (State.errOtherLinks t a i link) := by
  unfold State.errOtherLinks
  with_reducible repeat' (first | assumption | intro u | apply keeps_ite | apply State.wrBit_keeps | apply State.eventMgmt_keeps | split)

theorem State.errCores_keeps {s t : State} (a : Nat) (i : Nat) (h : Keeps s t) : Keeps s (State.errCores t a i) := by
  unfold State.errCores
  with_reducible repeat' (first | assumption | intro u | apply keeps_ite | apply State.send_keeps | apply State.wrBit_keeps | apply State.eventMgmt_keeps | split)

theorem State.mtxError_keeps {s t : State} (rq : Requester) (bar2 : Bool) (isWrite : Bool) (addr : Nat) (cause : Nat) (island : Nat) (h : Keeps s t) : Keeps s (State.mtxError t rq bar2 isWrite addr cause island) := by
  unfold State.mtxError
  with_reducible repeat' (first | assumption | intro u | apply keeps_ite | apply State.send_keeps | apply State.wr_keeps | apply State.errCores_keeps | dsimp only | split)

theorem State.answer_keeps {s t : State} (rq : Requester) (isWrite : Bool) (addr : Nat) (status : Nat) (n : Nat) (h : Keeps s t) : Keeps s (State.answer t rq isWrite addr status n) := by
  unfold State.answer
  with_reducible repeat' (first | assumption | intro u | apply keeps_ite | apply State.send_keeps | dsimp only | split)

theorem State.refuse_keeps {s t : State} (rq : Requester) (bar2 : Bool) (isWrite : Bool) (addr : Nat) (cause : Nat) (island : Nat) (n : Nat) (h : Keeps s t) : Keeps s (State.refuse t rq bar2 isWrite addr cause island n) := by
  unfold State.refuse
  with_reducible repeat' (first | assumption | apply State.mtxError_keeps | apply State.answer_keeps)

theorem State.unreserve_keeps {s t : State} (r : Nat) (k : Nat) (h : Keeps s t) : Keeps s (State.unreserve t r k) := by
  unfold State.unreserve
  with_reducible repeat' (first | assumption | apply State.setRing_keeps | (rw [keeps_iff]; dsimp only; apply keeps_iff.1))

theorem State.cqLost_keeps {s t : State} (r : Nat) (h : Keeps s t) : Keeps s (State.cqLost t r) := by
  unfold State.cqLost
  with_reducible repeat' (first | assumption | apply State.count_keeps | apply State.err_keeps | dsimp only | split)

theorem State.postCq_keeps {s t : State} (r : Nat) (ws : List Word) (h : Keeps s t) : Keeps s (State.postCq t r ws) := by
  unfold State.postCq
  with_reducible repeat' (first | assumption | intro u | apply keeps_ite | apply State.ringPut_keeps | apply State.unreserve_keeps | apply State.cqLost_keeps | (rw [keeps_iff]; dsimp only; apply keeps_iff.1) | dsimp only | split)

theorem State.postComplete_keeps {s t : State} (o : Origin) (ws : List Word) (h : Keeps s t) : Keeps s (State.postComplete t o ws) := by
  unfold State.postComplete
  with_reducible repeat' (first | assumption | apply State.setSession_keeps | apply State.postCq_keeps | (rw [keeps_iff]; dsimp only; apply keeps_iff.1) | dsimp only | split)

theorem State.sendOn_keeps {s t : State} (k : Nat) (o : Output) (h : Keeps s t) : Keeps s (State.sendOn t k o) := by
  unfold State.sendOn
  with_reducible repeat' (first | assumption | apply State.send_keeps | apply State.count_keeps)

theorem State.keepMessage_keeps {s t : State} (dest : List Byte) (bytes : List Byte) (h : Keeps s t) : Keeps s (State.keepMessage t dest bytes) := by
  unfold State.keepMessage
  with_reducible repeat' (first | assumption | (rw [keeps_iff]; dsimp only; apply keeps_iff.1))

theorem State.transmit_keeps {s t : State} (dest : List Byte) (bytes : List Byte) (h : Keeps s t) : Keeps s (State.transmit t dest bytes) := by
  unfold State.transmit
  with_reducible repeat' (first | assumption | intro u | apply keeps_ite | apply State.sendOn_keeps | apply State.keepMessage_keeps | dsimp only | split)

theorem State.flushGap_keeps {s t : State} (h : Keeps s t) : Keeps s (State.flushGap t) := by
  unfold State.flushGap
  with_reducible repeat' (first | assumption | intro u | apply keeps_foldl | apply State.transmit_keeps | (rw [keeps_iff]; dsimp only; apply keeps_iff.1) | dsimp only)

theorem State.noteReply_keeps {s t : State} (n : Nat) (seq : Nat) (m : List Byte) (h : Keeps s t) : Keeps s (State.noteReply t n seq m) := by
  unfold State.noteReply
  with_reducible repeat' (first | assumption | apply State.setSession_keeps | (rw [keeps_iff]; dsimp only; apply keeps_iff.1))

theorem State.ngcpReply_keeps {s t : State} (held : Bool) (n : Nat) (seq : Nat) (op : Nat) (status : Nat) (dest : List Byte) (d : List Byte) (h : Keeps s t) : Keeps s (State.ngcpReply t held n seq op status dest d) := by
  unfold State.ngcpReply
  with_reducible repeat' (first | assumption | intro u | apply keeps_ite | apply State.keepMessage_keeps | apply State.transmit_keeps | apply State.noteReply_keeps | dsimp only | split)

theorem State.ngcpAnswer_keeps {s t : State} (n : Nat) (seq : Nat) (op : Nat) (status : Nat) (dest : List Byte) (d : List Byte) (h : Keeps s t) : Keeps s (State.ngcpAnswer t n seq op status dest d) := by
  unfold State.ngcpAnswer
  with_reducible repeat' (first | assumption | apply State.setSession_keeps | apply State.transmit_keeps | (rw [keeps_iff]; dsimp only; apply keeps_iff.1) | dsimp only | apply State.ngcpReply_keeps)

end Sys2Proof.Machine
end

