-- ==== Sys2Proof/Laws/KeepsFabric.lean ====
section
/-! SUPPORT. What the operations of Machine/Fabric.lean keep (Laws/Keeps.lean). -/

namespace Sys2Proof.Machine

set_option Elab.async false
set_option linter.unreachableTactic false
set_option linter.unusedTactic false

theorem State.setCell_keeps {s t : State} (c : Nat) (x : CellRec) (h : Keeps s t) : Keeps s (State.setCell t c x) := by
  unfold State.setCell
  with_reducible repeat' (first | assumption | apply State.wr_keeps | (rw [keeps_iff]; dsimp only; apply keeps_iff.1) | dsimp only)

theorem State.setMode_keeps {s t : State} (c : Nat) (m : Nat) (h : Keeps s t) : Keeps s (State.setMode t c m) := by
  unfold State.setMode
  with_reducible repeat' (first | assumption | apply State.setCell_keeps | (rw [keeps_iff]; dsimp only; apply keeps_iff.1))

theorem State.putCkts_keeps {s t : State} (cs : List Ckt) (gen : Nat) (h : Keeps s t) : Keeps s (State.putCkts t cs gen) := by
  unfold State.putCkts
  with_reducible repeat' (first | assumption | intro u | apply keeps_ite | apply State.each_keeps | apply State.wr_keeps | dsimp only | split)

theorem State.fsTick_keeps {s t : State} (h : Keeps s t) : Keeps s (State.fsTick t) := by
  unfold State.fsTick
  with_reducible repeat' (first | assumption | apply State.bump_keeps)

theorem State.reportTile_keeps {s t : State} (t_1 : Nat) (h : Keeps s t) : Keeps s (State.reportTile t t_1) := by
  unfold State.reportTile
  with_reducible repeat' (first | assumption | intro u | apply State.each_keeps | apply State.wr_keeps | dsimp only)

theorem State.refreshMaps_keeps {s t : State} (h : Keeps s t) : Keeps s (State.refreshMaps t) := by
  unfold State.refreshMaps
  with_reducible repeat' (first | assumption | intro u | apply State.each_keeps | apply State.wr_keeps | apply State.wrf_keeps | dsimp only)

theorem State.reportAlone_keeps {s t : State} (t_1 : Nat) (h : Keeps s t) : Keeps s (State.reportAlone t t_1) := by
  unfold State.reportAlone
  with_reducible repeat' (first | assumption | apply State.fsTick_keeps | apply State.reportTile_keeps | apply State.refreshMaps_keeps)

end Sys2Proof.Machine
end

