-- ==== Sys2Proof/Laws/KeepsCircuits.lean ====
section
/-! SUPPORT. What the operations of Machine/Circuits.lean keep (Laws/Keeps.lean). -/

namespace Sys2Proof.Machine

set_option Elab.async false
set_option linter.unreachableTactic false
set_option linter.unusedTactic false

theorem State.completeCue_keeps {s t : State} (q : Nat) (ends : Bool) (tc : Option Nat) (h : Keeps s t) : Keeps s (State.completeCue t q ends tc) := by
  unfold State.completeCue
  with_reducible repeat' (first | assumption | intro u | apply keeps_ite | apply State.postComplete_keeps | split)

theorem State.completeBatch_keeps {s t : State} (qs : List Nat) (tc : Option Nat) (h : Keeps s t) : Keeps s (State.completeBatch t qs tc) := by
  unfold State.completeBatch
  with_reducible repeat' (first | assumption | intro u | apply State.each_keeps | apply State.completeCue_keeps | dsimp only)

theorem State.setCueStates_keeps {s t : State} (qs : List Nat) (st : Nat) (h : Keeps s t) : Keeps s (State.setCueStates t qs st) := by
  unfold State.setCueStates
  with_reducible repeat' (first | assumption | intro u | apply State.each_keeps | apply State.wrf_keeps | dsimp only)

theorem State.setBatch_keeps {s t : State} (b : Batch) (h : Keeps s t) : Keeps s (State.setBatch t b) := by
  unfold State.setBatch
  with_reducible repeat' (first | assumption | intro u | apply keeps_ite | (rw [keeps_iff]; dsimp only; apply keeps_iff.1) | dsimp only | split)

theorem State.dropBatch_keeps {s t : State} (id : Nat) (h : Keeps s t) : Keeps s (State.dropBatch t id) := by
  unfold State.dropBatch
  with_reducible repeat' (first | assumption | intro u | (rw [keeps_iff]; dsimp only; apply keeps_iff.1) | dsimp only)

theorem State.finishCues_keeps {s t : State} (qs : List Nat) (st : Nat) (status : Nat) (cause : Option Nat) (h : Keeps s t) : Keeps s (State.finishCues t qs st status cause) := by
  unfold State.finishCues
  with_reducible repeat' (first | assumption | intro u | apply State.each_keeps | apply State.wr_keeps | apply State.wrf_keeps | apply State.completeBatch_keeps | dsimp only)

end Sys2Proof.Machine
end

