-- ==== Sys2Proof/Laws/KeepsToll.lean ====
section
/-! SUPPORT. What the operations of Machine/Toll.lean keep (Laws/Keeps.lean). -/

namespace Sys2Proof.Machine

set_option Elab.async false
set_option linter.unreachableTactic false
set_option linter.unusedTactic false

theorem State.setToll_keeps {s t : State} (p : Nat) (x : TollPart) (h : Keeps s t) : Keeps s (State.setToll t p x) := by
  unfold State.setToll
  with_reducible repeat' (first | assumption | apply State.wr_keeps | apply State.reset_keeps | (rw [keeps_iff]; dsimp only; apply keeps_iff.1))

theorem State.tagHead_keeps {s t : State} (p : Nat) (cause : HeadCause) (h : Keeps s t) : Keeps s (State.tagHead t p cause) := by
  unfold State.tagHead
  with_reducible repeat' (first | assumption | intro u | apply keeps_ite | apply State.setToll_keeps | (rw [keeps_iff]; dsimp only; apply keeps_iff.1) | dsimp only | split)

theorem State.tollStat_keeps {s t : State} (p : Nat) (h : Keeps s t) : Keeps s (State.tollStat t p) := by
  unfold State.tollStat
  with_reducible repeat' (first | assumption | intro u | apply State.wr_keeps | dsimp only)

theorem State.enqueue_keeps {s t : State} (qs : List Nat) (p : Nat) (o : Origin) (h : Keeps s t) : Keeps s (State.enqueue t qs p o) := by
  unfold State.enqueue
  with_reducible repeat' (first | assumption | intro u | apply keeps_ite | apply State.tagHead_keeps | apply State.tollStat_keeps | (rw [keeps_iff]; dsimp only; apply keeps_iff.1) | dsimp only | split)

theorem State.admitBatch_keeps {s t : State} (qs : List Nat) (o : Origin) (h : Keeps s t) : Keeps s (State.admitBatch t qs o) := by
  unfold State.admitBatch
  with_reducible repeat' (first | assumption | intro u | apply State.count_keeps | apply State.err_keeps | apply State.finishCues_keeps | apply State.setToll_keeps | apply State.enqueue_keeps | (rw [keeps_iff]; dsimp only; apply keeps_iff.1) | dsimp only | split)

theorem State.submitRun_keeps {s t : State} (q : Nat) (n : Nat) (part : Option Nat) (o : Origin) (h : Keeps s t) : Keeps s (State.submitRun t q n part o) := by
  unfold State.submitRun
  with_reducible repeat' (first | assumption | intro u | apply State.each_keeps | apply State.wr_keeps | apply State.wrf_keeps | apply State.admitBatch_keeps | (rw [keeps_iff]; dsimp only; apply keeps_iff.1) | dsimp only | split)

theorem State.dequeue_keeps {s t : State} (b : Batch) (h : Keeps s t) : Keeps s (State.dequeue t b) := by
  unfold State.dequeue
  with_reducible repeat' (first | assumption | apply State.dropBatch_keeps | apply State.tagHead_keeps | apply State.tollStat_keeps)

theorem State.batchRelease_keeps {s t : State} (h : Keeps s t) : Keeps s (State.batchRelease t) := by
  unfold State.batchRelease
  with_reducible repeat' (first | assumption | intro u | apply keeps_ite | apply State.when_keeps | apply State.wrBit_keeps | apply State.count_keeps | apply State.setBatch_keeps | apply State.setToll_keeps | apply State.tagHead_keeps | apply State.tollStat_keeps | (rw [keeps_iff]; dsimp only; apply keeps_iff.1) | dsimp only | split)

theorem State.shaperFill_keeps {s t : State} (h : Keeps s t) : Keeps s (State.shaperFill t) := by
  unfold State.shaperFill
  with_reducible repeat' (first | assumption | intro u | apply keeps_ite | apply State.each_keeps | apply State.setToll_keeps | apply State.tagHead_keeps | (rw [keeps_iff]; dsimp only; apply keeps_iff.1) | dsimp only | split)

theorem State.policerFill_keeps {s t : State} (h : Keeps s t) : Keeps s (State.policerFill t) := by
  unfold State.policerFill
  with_reducible repeat' (first | assumption | intro u | apply State.each_keeps | apply State.setToll_keeps | (rw [keeps_iff]; dsimp only; apply keeps_iff.1) | dsimp only)

end Sys2Proof.Machine
end

