-- ==== Sys2Proof/Laws/KeepsLamp.lean ====
section
/-! SUPPORT. What the operations of Machine/Lamp.lean keep (Laws/Keeps.lean). -/

namespace Sys2Proof.Machine

set_option Elab.async false
set_option linter.unreachableTactic false
set_option linter.unusedTactic false

theorem State.lampStat_keeps {s t : State} (h : Keeps s t) : Keeps s (State.lampStat t) := by
  unfold State.lampStat
  with_reducible repeat' (first | assumption | apply State.wrBit_keeps | intro u | apply State.wr_keeps | dsimp only | split)

theorem State.setCommit_keeps {s t : State} (c : Commit) (h : Keeps s t) : Keeps s (State.setCommit t c) := by
  unfold State.setCommit
  with_reducible repeat' (first | assumption | intro u | apply keeps_ite | (rw [keeps_iff]; dsimp only; apply keeps_iff.1) | dsimp only | split)

theorem State.dropCommit_keeps {s t : State} (tc : Nat) (h : Keeps s t) : Keeps s (State.dropCommit t tc) := by
  unfold State.dropCommit
  with_reducible repeat' (first | assumption | intro u | (rw [keeps_iff]; dsimp only; apply keeps_iff.1) | dsimp only)

theorem State.leaveCommit_keeps {s t : State} (id : Nat) (h : Keeps s t) : Keeps s (State.leaveCommit t id) := by
  unfold State.leaveCommit
  with_reducible repeat' (first | assumption | intro u | apply keeps_ite | apply State.setCommit_keeps | apply State.dropCommit_keeps | (rw [keeps_iff]; dsimp only; apply keeps_iff.1) | dsimp only | split)

theorem State.endOne_keeps {s t : State} (b : Batch) (e : Ending) (h : Keeps s t) : Keeps s (State.endOne t b e) := by
  unfold State.endOne
  with_reducible repeat' (first | assumption | intro u | apply keeps_ite | apply State.finishCues_keeps | apply State.dequeue_keeps | apply State.leaveCommit_keeps | (rw [keeps_iff]; dsimp only; apply keeps_iff.1) | dsimp only | split)

theorem State.markStale_keeps {s t : State} (hit : Batch → Solution → Bool) (h : Keeps s t) : Keeps s (State.markStale t hit) := by
  unfold State.markStale
  with_reducible repeat' (first | assumption | intro u | apply keeps_ite | (rw [keeps_iff]; dsimp only; apply keeps_iff.1) | dsimp only | split)

theorem State.noteNamed_keeps {s t : State} (ids : List Nat) (h : Keeps s t) : Keeps s (State.noteNamed t ids) := by
  unfold State.noteNamed
  with_reducible repeat' (first | assumption | intro u | (rw [keeps_iff]; dsimp only; apply keeps_iff.1) | dsimp only)

theorem State.endBatches_keeps {s t : State} (n : Nat) (es : List Ending) (h : Keeps s t) :
    Keeps s (State.endBatches n t es) := by
  induction n generalizing t es with
  | zero => simpa [State.endBatches] using h
  | succ n ih =>
    cases es with
    | nil => simpa [State.endBatches] using h
    | cons e es =>
      rw [State.endBatches]
      split
      · exact ih _ h
      · exact ih _ (State.noteNamed_keeps _ (State.markStale_keeps _ (State.endOne_keeps _ _ h)))

theorem State.finish_keeps {s t : State} (es : List Ending) (h : Keeps s t) : Keeps s (State.finish t es) := by
  unfold State.finish
  with_reducible repeat' (first | assumption | intro u | apply keeps_ite | apply State.endBatches_keeps | apply State.lampStat_keeps | split)

theorem State.failBatch_keeps {s t : State} (b : Batch) (status : Nat) (cause : Option Nat := none) (h : Keeps s t) : Keeps s (State.failBatch t b status cause) := by
  unfold State.failBatch
  with_reducible repeat' (first | assumption | apply State.finish_keeps)

theorem State.invalidateBy_keeps {s t : State} (protection : Bool) (hit : Batch → Solution → Bool) (h : Keeps s t) : Keeps s (State.invalidateBy t protection hit) := by
  unfold State.invalidateBy
  with_reducible repeat' (first | assumption | intro u | apply keeps_ite | apply State.count_keeps | apply State.lampStat_keeps | apply State.markStale_keeps | apply State.finish_keeps | dsimp only | split)

theorem State.invalidate_keeps {s t : State} (protection : Bool) (cells : List Nat) (near : List Nat) (ckts : List Nat) (h : Keeps s t) : Keeps s (State.invalidate t protection cells near ckts) := by
  unfold State.invalidate
  with_reducible repeat' (first | assumption | intro u | apply State.invalidateBy_keeps | (rw [keeps_iff]; dsimp only; apply keeps_iff.1) | dsimp only)

theorem State.defer_keeps {s t : State} (b : Batch) (n : Nat) (h : Keeps s t) : Keeps s (State.defer t b n) := by
  unfold State.defer
  with_reducible repeat' (first | assumption | intro u | apply State.each_keeps | apply State.wrf_keeps | apply State.count_keeps | dsimp only)

theorem State.takeSteps_keeps {s t : State} (n : Nat) (h : Keeps s t) : Keeps s (State.takeSteps t n) := by
  unfold State.takeSteps
  with_reducible repeat' (first | assumption | intro u | apply keeps_ite | apply State.wrf_keeps | split)

theorem State.placeAt_keeps {s t : State} (b : Batch) (tc : Nat) (window : Option Nat) (h : Keeps s t) : Keeps s (State.placeAt t b tc window) := by
  unfold State.placeAt
  with_reducible repeat' (first | assumption | intro u | apply keeps_ite | apply State.setCueStates_keeps | apply State.setBatch_keeps | apply State.lampStat_keeps | apply State.setCommit_keeps | (rw [keeps_iff]; dsimp only; apply keeps_iff.1) | dsimp only | split)

theorem State.waitBucket_keeps {s t : State} (b : Batch) (h : Keeps s t) : Keeps s (State.waitBucket t b) := by
  unfold State.waitBucket
  with_reducible repeat' (first | assumption | intro u | apply keeps_ite | apply State.count_keeps | apply State.setBatch_keeps | apply State.lampStat_keeps | (rw [keeps_iff]; dsimp only; apply keeps_iff.1) | split)

theorem State.place_keeps {s t : State} (b : Batch) (h : Keeps s t) : Keeps s (State.place t b) := by
  unfold State.place
  with_reducible repeat' (first | assumption | intro u | apply keeps_ite | apply State.when_keeps | apply State.setBatch_keeps | apply State.failBatch_keeps | apply State.defer_keeps | apply State.takeSteps_keeps | apply State.placeAt_keeps | apply State.waitBucket_keeps | (rw [keeps_iff]; dsimp only; apply keeps_iff.1) | dsimp only | split)

end Sys2Proof.Machine
end

