-- ==== Sys2Proof/Laws/KeepsCommit.lean ====
section
/-! SUPPORT. What the operations of Machine/Commit.lean keep (Laws/Keeps.lean). -/

namespace Sys2Proof.Machine

set_option Elab.async false
set_option linter.unreachableTactic false
set_option linter.unusedTactic false

theorem State.setCoo_keeps {s t : State} (c : Nat) (x : CooRec) (h : Keeps s t) : Keeps s (State.setCoo t c x) := by
  unfold State.setCoo
  with_reducible repeat' (first | assumption | (rw [keeps_iff]; dsimp only; apply keeps_iff.1))

theorem State.setTileRec_keeps {s t : State} (t_1 : Nat) (x : TileRec) (h : Keeps s t) : Keeps s (State.setTileRec t t_1 x) := by
  unfold State.setTileRec
  with_reducible repeat' (first | assumption | (rw [keeps_iff]; dsimp only; apply keeps_iff.1))

theorem State.setHcode_keeps {s t : State} (c : Nat) (h_1 : Nat) (h : Keeps s t) : Keeps s (State.setHcode t c h_1) := by
  unfold State.setHcode
  with_reducible repeat' (first | assumption | apply State.wrf_keeps)

theorem State.setPbase_keeps {s t : State} (c : Nat) (y : Int) (h : Keeps s t) : Keeps s (State.setPbase t c y) := by
  unfold State.setPbase
  with_reducible repeat' (first | assumption | apply State.wrf_keeps)

theorem State.unplaceDependents_keeps {s t : State} (id : Nat) (h : Keeps s t) : Keeps s (State.unplaceDependents t id) := by
  unfold State.unplaceDependents
  with_reducible repeat' (first | assumption | intro u | apply keeps_foldl | apply State.setCueStates_keeps | apply State.setBatch_keeps | apply State.leaveCommit_keeps | (rw [keeps_iff]; dsimp only; apply keeps_iff.1) | dsimp only | split)

theorem State.unplace_keeps {s t : State} (b : Batch) (held : Bool) (h : Keeps s t) : Keeps s (State.unplace t b held) := by
  unfold State.unplace
  with_reducible repeat' (first | assumption | intro u | apply keeps_ite | apply State.setCueStates_keeps | apply State.setBatch_keeps | apply State.lampStat_keeps | apply State.leaveCommit_keeps | apply State.failBatch_keeps | apply State.unplaceDependents_keeps | (rw [keeps_iff]; dsimp only; apply keeps_iff.1) | split)

theorem State.unplaceAll_keeps {s t : State} (c : Commit) (held : Bool) (h : Keeps s t) : Keeps s (State.unplaceAll t c held) := by
  unfold State.unplaceAll
  with_reducible repeat' (first | assumption | intro u | apply keeps_foldl | apply State.unplace_keeps | dsimp only | split)

theorem State.abortCue_keeps {s t : State} (q : Nat) (part : Option Nat) (h : Keeps s t) : Keeps s (State.abortCue t q part).1 := by
  unfold State.abortCue
  with_reducible repeat' (first | assumption | intro u | apply keeps_ite | apply State.finish_keeps | dsimp only | split)

theorem State.abortResult_keeps {s t : State} (sink : AbortSink) (q : Nat) (w : Word) (h : Keeps s t) : Keeps s (State.abortResult t sink q w) := by
  unfold State.abortResult
  with_reducible repeat' (first | assumption | apply State.ngcpReply_keeps | apply State.wr_keeps | apply State.postCq_keeps | apply State.ngcpAnswer_keeps | dsimp only | split)

theorem State.abortFor_keeps {s t : State} (q : Nat) (part : Option Nat) (sink : AbortSink) (h : Keeps s t) : Keeps s (State.abortFor t q part sink) := by
  unfold State.abortFor
  with_reducible repeat' (first | assumption | apply State.abortCue_keeps | apply State.abortResult_keeps | (rw [keeps_iff]; dsimp only; apply keeps_iff.1) | dsimp only | refine keeps_of_fst (by assumption) ?_ | split)

theorem State.settleAborts_keeps {s t : State} (qs : List Nat) (h : Keeps s t) : Keeps s (State.settleAborts t qs) := by
  unfold State.settleAborts
  with_reducible repeat' (first | assumption | intro u | apply State.each_keeps | apply State.abortResult_keeps | (rw [keeps_iff]; dsimp only; apply keeps_iff.1) | dsimp only)

theorem State.setProt_keeps {s t : State} (k : Nat) (x : ProtRec) (h : Keeps s t) : Keeps s (State.setProt t k x) := by
  unfold State.setProt
  with_reducible repeat' (first | assumption | (rw [keeps_iff]; dsimp only; apply keeps_iff.1))

theorem State.eventBoth_keeps {s t : State} (code : Nat) (part : Nat) (tile : Nat) (gen : Nat) (data : List Word) (h : Keeps s t) : Keeps s (State.eventBoth t code part tile gen data) := by
  unfold State.eventBoth
  with_reducible repeat' (first | assumption | apply State.eventMgmt_keeps | apply State.eventPart_keeps | dsimp only)

theorem State.placeSwitch_keeps {s t : State} (c : Ckt) (h : Keeps s t) : Keeps s (State.placeSwitch t c) := by
  unfold State.placeSwitch
  with_reducible repeat' (first | assumption | intro u | apply State.setCommit_keeps | apply State.invalidate_keeps | (rw [keeps_iff]; dsimp only; apply keeps_iff.1) | dsimp only | split)

theorem State.decideSwitch_keeps {s t : State} (c : Ckt) (h : Keeps s t) : Keeps s (State.decideSwitch t c) := by
  unfold State.decideSwitch
  with_reducible repeat' (first | assumption | intro u | apply keeps_ite | apply State.setProt_keeps | apply State.eventBoth_keeps | apply State.placeSwitch_keeps | (rw [keeps_iff]; dsimp only; apply keeps_iff.1) | dsimp only | split)

theorem State.decideProtection_keeps {s t : State} (h : Keeps s t) : Keeps s (State.decideProtection t) := by
  unfold State.decideProtection
  with_reducible repeat' (first | assumption | intro u | apply keeps_foldl | apply State.decideSwitch_keeps | dsimp only)

theorem State.decideFor_keeps {s t : State} (k : Nat) (h : Keeps s t) : Keeps s (State.decideFor t k) := by
  unfold State.decideFor
  with_reducible repeat' (first | assumption | intro u | apply keeps_foldl | apply State.decideSwitch_keeps | dsimp only)

theorem State.putJournal_keeps {s t : State} (i : Nat) (ws : List Word) (h : Keeps s t) : Keeps s (State.putJournal t i ws) := by
  unfold State.putJournal
  with_reducible repeat' (first | assumption | intro u | apply keeps_foldl | apply State.wr_keeps | dsimp only)

theorem State.markWindows_keeps {s t : State} (c : Commit) (h : Keeps s t) : Keeps s (State.markWindows t c) := by
  unfold State.markWindows
  with_reducible repeat' (first | assumption | intro u | (rw [keeps_iff]; dsimp only; apply keeps_iff.1) | dsimp only)

theorem State.armGo_keeps {s t : State} (c : Commit) (h : Keeps s t) : Keeps s (State.armGo t c) := by
  unfold State.armGo
  with_reducible repeat' (first | assumption | intro u | apply State.wr_keeps | apply State.wrf_keeps | apply State.lampStat_keeps | apply State.setCommit_keeps | apply State.putJournal_keeps | apply State.markWindows_keeps | (rw [keeps_iff]; dsimp only; apply keeps_iff.1) | dsimp only)

theorem State.armProtection_keeps {s t : State} (c : Commit) (h : Keeps s t) : Keeps s (State.armProtection t c) := by
  unfold State.armProtection
  with_reducible repeat' (first | assumption | intro u | apply keeps_ite | apply State.dropCommit_keeps | apply State.takeSteps_keeps | apply State.armGo_keeps | (rw [keeps_iff]; dsimp only; apply keeps_iff.1) | dsimp only | split)

theorem State.arm_keeps {s t : State} (c : Commit) (h : Keeps s t) : Keeps s (State.arm t c) := by
  unfold State.arm
  with_reducible repeat' (first | assumption | intro u | apply keeps_ite | apply State.err_keeps | apply State.lampStat_keeps | apply State.dropCommit_keeps | apply State.finish_keeps | apply State.unplaceAll_keeps | apply State.armGo_keeps | apply State.armProtection_keeps | dsimp only | split)

theorem State.reportDisturbance_keeps {s t : State} (b : Batch) (gen : Nat) (h : Keeps s t) : Keeps s (State.reportDisturbance t b gen) := by
  unfold State.reportDisturbance
  with_reducible repeat' (first | assumption | intro u | apply keeps_ite | apply keeps_foldl | apply State.wr_keeps | apply State.wrf_keeps | apply State.count_keeps | apply State.eventBoth_keeps | dsimp only | split)

theorem State.protLost_keeps {s t : State} (c : Ckt) (h : Keeps s t) : Keeps s (State.protLost t c) := by
  unfold State.protLost
  with_reducible repeat' (first | assumption | apply State.eventBoth_keeps)

theorem State.shutCouplers_keeps {s t : State} (h : Keeps s t) : Keeps s (State.shutCouplers t) := by
  unfold State.shutCouplers
  with_reducible repeat' (first | assumption | intro u | (rw [keeps_iff]; dsimp only; apply keeps_iff.1) | dsimp only)

theorem State.carryHoldoffs_keeps {s t : State} (qs : List Nat) (cs : List Ckt) (h : Keeps s t) : Keeps s (State.carryHoldoffs t qs cs) := by
  unfold State.carryHoldoffs
  refine keeps_foldl_fst _ _ (fun p x hp => ?_) h
  exact keeps_foldl _ _ (fun u y hu => State.setProt_keeps _ _ hu) (keeps_foldl _ _ (fun u y hu => State.setProt_keeps _ _ hu) hp)

theorem State.closeHost_keeps {s t : State} (c : Commit) (applied : List Nat) (partly : Bool) (h : Keeps s t) : Keeps s (State.closeHost t c applied partly) := by
  unfold State.closeHost
  with_reducible repeat' (first | assumption | intro u | apply keeps_ite | apply keeps_foldl | apply State.wr_keeps | apply State.wrf_keeps | apply State.putCkts_keeps | apply State.completeBatch_keeps | apply State.noteNamed_keeps | apply State.finish_keeps | apply State.invalidateBy_keeps | apply State.invalidate_keeps | apply State.settleAborts_keeps | apply State.reportDisturbance_keeps | apply State.protLost_keeps | apply State.carryHoldoffs_keeps | (rw [keeps_iff]; dsimp only; apply keeps_iff.1) | dsimp only | split)

theorem State.refitAlts_keeps {s t : State} (k : Nat) (gen : Nat) (h : Keeps s t) : Keeps s (State.refitAlts t k gen) := by
  unfold State.refitAlts
  with_reducible repeat' (first | assumption | intro u | apply keeps_foldl | apply State.putCkts_keeps | apply State.protLost_keeps | (rw [keeps_iff]; dsimp only; apply keeps_iff.1) | dsimp only)

theorem State.closeProtection_keeps {s t : State} (c : Commit) (applied : List Nat) (h : Keeps s t) : Keeps s (State.closeProtection t c applied) := by
  unfold State.closeProtection
  with_reducible repeat' (first | assumption | intro u | apply keeps_ite | apply keeps_foldl | apply State.putCkts_keeps | apply State.invalidate_keeps | apply State.setProt_keeps | apply State.eventBoth_keeps | apply State.protLost_keeps | apply State.refitAlts_keeps | (rw [keeps_iff]; dsimp only; apply keeps_iff.1) | dsimp only | split)

theorem State.closeCommit_keeps {s t : State} (c : Commit) (h : Keeps s t) : Keeps s (State.closeCommit t c) := by
  unfold State.closeCommit
  with_reducible repeat' (first | assumption | intro u | apply keeps_ite | apply State.when_keeps | apply State.wr_keeps | apply State.err_keeps | apply State.fsTick_keeps | apply State.refreshMaps_keeps | apply State.lampStat_keeps | apply State.dropCommit_keeps | apply State.decideProtection_keeps | apply State.shutCouplers_keeps | apply State.closeHost_keeps | apply State.closeProtection_keeps | (rw [keeps_iff]; dsimp only; apply keeps_iff.1) | dsimp only | split)

end Sys2Proof.Machine
end

