-- ==== Sys2Proof/Laws/KeepsMonitor.lean ====
section
/-! SUPPORT. What the operations of Machine/Monitor.lean keep (Laws/Keeps.lean). -/

namespace Sys2Proof.Machine

set_option Elab.async false
set_option linter.unreachableTactic false
set_option linter.unusedTactic false

theorem State.setMon_keeps {s t : State} (t_1 : Nat) (x : MonRec) (h : Keeps s t) : Keeps s (State.setMon t t_1 x) := by
  unfold State.setMon
  with_reducible repeat' (first | assumption | (rw [keeps_iff]; dsimp only; apply keeps_iff.1))

theorem State.setChan_keeps {s t : State} (t_1 : Nat) (ch : Nat) (x : ChanRec) (h : Keeps s t) : Keeps s (State.setChan t t_1 ch x) := by
  unfold State.setChan
  with_reducible repeat' (first | assumption | (rw [keeps_iff]; dsimp only; apply keeps_iff.1))

theorem State.noteStale_keeps {s t : State} (t_1 : Nat) (ch : Nat) (h : Keeps s t) : Keeps s (State.noteStale t t_1 ch) := by
  unfold State.noteStale
  with_reducible repeat' (first | assumption | intro u | apply keeps_ite | apply State.wr_keeps | dsimp only | split)

theorem State.powerMon_keeps {s t : State} (t_1 : Nat) (h : Keeps s t) : Keeps s (State.powerMon t t_1) := by
  unfold State.powerMon
  with_reducible repeat' (first | assumption | apply State.wrf_keeps | apply State.setMon_keeps | (rw [keeps_iff]; dsimp only; apply keeps_iff.1))

end Sys2Proof.Machine
end

