-- ==== Sys2Proof/Laws/KeepsCooper.lean ====
section
/-! SUPPORT. What the operations of Machine/Cooper.lean keep (Laws/Keeps.lean). -/

namespace Sys2Proof.Machine

set_option Elab.async false
set_option linter.unreachableTactic false
set_option linter.unusedTactic false

theorem State.traceWrite_keeps {s t : State} (t_1 : Nat) (l : Nat) (p : Nat) (v : Word) (h : Keeps s t) : Keeps s (State.traceWrite t t_1 l p v) := by
  unfold State.traceWrite
  with_reducible repeat' (first | assumption | intro u | apply keeps_ite | apply State.wrf_keeps | apply State.wrBit_keeps | apply State.setTileRec_keeps | (rw [keeps_iff]; dsimp only; apply keeps_iff.1) | dsimp only | split)

theorem State.traceCell_keeps {s t : State} (c : Nat) (vals : List Word) (h : Keeps s t) : Keeps s (State.traceCell t c vals) := by
  unfold State.traceCell
  with_reducible repeat' (first | assumption | intro u | apply keeps_ite | apply keeps_foldl | apply State.traceWrite_keeps | dsimp only | split)

theorem State.traceFire_keeps {s t : State} (t_1 : Nat) (h : Keeps s t) : Keeps s (State.traceFire t t_1) := by
  unfold State.traceFire
  with_reducible repeat' (first | assumption | intro u | apply keeps_ite | apply State.wrBit_keeps | apply State.setTileRec_keeps | (rw [keeps_iff]; dsimp only; apply keeps_iff.1) | dsimp only | split)

theorem State.traceFireCell_keeps {s t : State} (c : Nat) (b : Nat) (h : Keeps s t) : Keeps s (State.traceFireCell t c b) := by
  unfold State.traceFireCell
  with_reducible repeat' (first | assumption | intro u | apply keeps_ite | apply State.traceFire_keeps | dsimp only | split)

theorem State.cooStat_keeps {s t : State} (t_1 : Nat) (h : Keeps s t) : Keeps s (State.cooStat t t_1) := by
  unfold State.cooStat
  with_reducible repeat' (first | assumption | intro u | apply State.wr_keeps | dsimp only)

theorem State.judgeBand_keeps {s t : State} (c : Nat) (e : Int) (thr : Int) (h : Keeps s t) : Keeps s (State.judgeBand t c e thr) := by
  unfold State.judgeBand
  with_reducible repeat' (first | assumption | intro u | apply keeps_ite | apply State.wrBit_keeps | apply State.count_keeps | apply State.err_keeps | apply State.setCoo_keeps | apply State.traceFireCell_keeps | (rw [keeps_iff]; dsimp only; apply keeps_iff.1) | dsimp only | split)

theorem State.notePsat_keeps {s t : State} (c : Nat) (sat : Int) (h : Keeps s t) : Keeps s (State.notePsat t c sat) := by
  unfold State.notePsat
  with_reducible repeat' (first | assumption | apply State.when_keeps | apply State.wrBit_keeps | apply State.err_keeps | apply State.setCoo_keeps | (rw [keeps_iff]; dsimp only; apply keeps_iff.1))

theorem State.noteHsat_keeps {s t : State} (c : Nat) (sat : Int) (h : Keeps s t) : Keeps s (State.noteHsat t c sat) := by
  unfold State.noteHsat
  with_reducible repeat' (first | assumption | apply State.when_keeps | apply State.wrBit_keeps | apply State.err_keeps)

theorem State.lawEntry_keeps {s t : State} (c : Nat) (y : Int) (h : Keeps s t) : Keeps s (State.lawEntry t c y) := by
  unfold State.lawEntry
  with_reducible repeat' (first | assumption | intro u | apply keeps_ite | apply State.setCoo_keeps | apply State.setPbase_keeps | (rw [keeps_iff]; dsimp only; apply keeps_iff.1) | dsimp only | split)

theorem State.feedback_keeps {s t : State} (c : Nat) (tb : Nat) (m : CycleSums) (h : Keeps s t) : Keeps s (State.feedback t c tb m).1 := by
  unfold State.feedback
  with_reducible repeat' (first | assumption | intro u | apply keeps_ite | apply State.wr_keeps | apply State.setCoo_keeps | (rw [keeps_iff]; dsimp only; apply keeps_iff.1) | dsimp only | split)

theorem State.traceIdle_keeps {s t : State} (c : Nat) (tb : Nat) (h : Keeps s t) : Keeps s (State.traceIdle t c tb) := by
  unfold State.traceIdle
  with_reducible repeat' (first | assumption | apply State.traceCell_keeps | dsimp only)

theorem State.law_keeps {s t : State} (c : Nat) (tb : Nat) (m : CycleSums) (h : Keeps s t) : Keeps s (State.law t c tb m) := by
  unfold State.law
  with_reducible repeat' (first | assumption | intro u | apply keeps_ite | apply State.when_keeps | apply State.wr_keeps | apply State.wrBit_keeps | apply State.count_keeps | apply State.setCoo_keeps | apply State.traceCell_keeps | apply State.cooStat_keeps | apply State.judgeBand_keeps | apply State.notePsat_keeps | apply State.noteHsat_keeps | apply State.lawEntry_keeps | apply State.feedback_keeps | (rw [keeps_iff]; dsimp only; apply keeps_iff.1) | dsimp only | split)

theorem State.queueHeater_keeps {s t : State} (c : Nat) (tb : Nat) (h : Keeps s t) : Keeps s (State.queueHeater t c tb) := by
  unfold State.queueHeater
  with_reducible repeat' (first | assumption | apply State.setCoo_keeps | apply State.noteHsat_keeps | (rw [keeps_iff]; dsimp only; apply keeps_iff.1) | dsimp only)

theorem State.offload_keeps {s t : State} (c : Nat) (tb : Nat) (h : Keeps s t) : Keeps s (State.offload t c tb) := by
  unfold State.offload
  with_reducible repeat' (first | assumption | intro u | apply keeps_ite | apply State.when_keeps | apply State.wr_keeps | apply State.setCoo_keeps | apply State.noteHsat_keeps | apply State.queueHeater_keeps | (rw [keeps_iff]; dsimp only; apply keeps_iff.1) | dsimp only | split)

theorem State.countStaged_keeps {s t : State} (h : Keeps s t) : Keeps s (State.countStaged t) := by
  unfold State.countStaged
  with_reducible repeat' (first | assumption | intro u | apply State.wrf_keeps | dsimp only)

theorem State.markStaged_keeps {s t : State} (c : Nat) (h : Keeps s t) : Keeps s (State.markStaged t c) := by
  unfold State.markStaged
  with_reducible repeat' (first | assumption | apply State.wrBit_keeps | apply State.countStaged_keeps | dsimp only)

theorem State.forceFactors_keeps {s t : State} (c : Nat) (h : Keeps s t) : Keeps s (State.forceFactors t c) := by
  unfold State.forceFactors
  with_reducible repeat' (first | assumption | intro u | apply State.each_keeps | apply State.wrLive_keeps | dsimp only)

theorem State.showSpans_keeps {s t : State} (c : Nat) (h : Keeps s t) : Keeps s (State.showSpans t c) := by
  unfold State.showSpans
  with_reducible repeat' (first | assumption | apply State.wrf_keeps | dsimp only)

theorem State.loadFactors_keeps {s t : State} (c : Nat) (h : Keeps s t) : Keeps s (State.loadFactors t c) := by
  unfold State.loadFactors
  with_reducible repeat' (first | assumption | apply State.wrBit_keeps | apply State.forceFactors_keeps | apply State.showSpans_keeps)

theorem State.settleClamps_keeps {s t : State} (c : Nat) (h : Keeps s t) : Keeps s (State.settleClamps t c) := by
  unfold State.settleClamps
  with_reducible repeat' (first | assumption | intro u | apply keeps_ite | apply State.count_keeps | apply State.err_keeps | apply State.setCoo_keeps | (rw [keeps_iff]; dsimp only; apply keeps_iff.1) | dsimp only | split)

theorem State.toMode_keeps {s t : State} (c : Nat) (m : Nat) (h : Keeps s t) : Keeps s (State.toMode t c m) := by
  unfold State.toMode
  with_reducible repeat' (first | assumption | intro u | apply keeps_ite | apply State.wr_keeps | apply State.setMode_keeps | apply State.settleClamps_keeps | dsimp only | split)

theorem State.thaw_keeps {s t : State} (ls : List Nat) (c : Nat) (h : Keeps s t) : Keeps s (State.thaw t ls c) := by
  unfold State.thaw
  with_reducible repeat' (first | assumption | apply State.wr_keeps | apply State.setMode_keeps | dsimp only | apply State.setPbase_keeps | apply State.toMode_keeps)

theorem State.dropBand_keeps {s t : State} (c : Nat) (h : Keeps s t) : Keeps s (State.dropBand t c) := by
  unfold State.dropBand
  with_reducible repeat' (first | assumption | intro u | apply keeps_ite | apply State.wrBit_keeps | apply State.traceFireCell_keeps | split)

theorem State.ownNow_keeps {s t : State} (c : Nat) (h : Keeps s t) : Keeps s (State.ownNow t c) := by
  unfold State.ownNow
  with_reducible repeat' (first | assumption | intro u | apply keeps_ite | (rw [keeps_iff]; dsimp only; apply keeps_iff.1) | dsimp only | split)

theorem State.timeCodes_keeps {s t : State} (k : Commit) (cells : List Nat) (h : Keeps s t) : Keeps s (State.timeCodes t k cells) := by
  unfold State.timeCodes
  with_reducible repeat' (first | assumption | intro u | apply State.setCommit_keeps | (rw [keeps_iff]; dsimp only; apply keeps_iff.1) | dsimp only)

theorem State.retime_keeps {s t : State} (t_1 : Nat) (cells : List Nat) (h : Keeps s t) : Keeps s (State.retime t t_1 cells) := by
  unfold State.retime
  with_reducible repeat' (first | assumption | intro u | apply keeps_foldl | apply State.timeCodes_keeps | dsimp only)

theorem State.fixCodes_keeps {s t : State} (tc : Nat) (h : Keeps s t) : Keeps s (State.fixCodes t tc) := by
  unfold State.fixCodes
  with_reducible repeat' (first | assumption | intro u | apply keeps_ite | apply State.timeCodes_keeps | dsimp only | split)

theorem State.takeFactors_keeps {s t : State} (c : Nat) (tb : Nat) (lit : Bool) (h : Keeps s t) : Keeps s (State.takeFactors t c tb lit).1 := by
  unfold State.takeFactors
  with_reducible repeat' (first | assumption | (rw [keeps_iff]; dsimp only; apply keeps_iff.1) | intro u | apply keeps_ite | apply State.when_keeps | apply State.err_keeps | apply State.queueHeater_keeps | apply State.markStaged_keeps | apply State.forceFactors_keeps | apply State.showSpans_keeps | apply State.ownNow_keeps | dsimp only | split)

theorem State.reexpress_keeps {s t : State} (c : Nat) (h : Keeps s t) : Keeps s (State.reexpress t c) := by
  unfold State.reexpress
  with_reducible repeat' (first | assumption | apply State.wr_keeps | dsimp only)

theorem State.stepDrive_keeps {s t : State} (c : Nat) (tc : Nat) (band : Nat) (old : CellRec) (stages : List Nat) (y : Int) (h : Keeps s t) : Keeps s (State.stepDrive t c tc band old stages y) := by
  unfold State.stepDrive
  with_reducible repeat' (first | assumption | intro u | apply keeps_ite | apply State.count_keeps | apply State.setCoo_keeps | apply State.setHcode_keeps | apply State.setPbase_keeps | apply State.countClamps_keeps | (rw [keeps_iff]; dsimp only; apply keeps_iff.1) | dsimp only | split)

theorem State.stepCell_keeps {s t : State} (k : Commit) (before : List Nat) (after : List Nat) (c : Nat) (h : Keeps s t) : Keeps s (State.stepCell t k before after c) := by
  unfold State.stepCell
  with_reducible repeat' (first | assumption | apply State.setMode_keeps | intro u | apply keeps_ite | apply State.wrf_keeps | apply State.setCell_keeps | apply State.setCoo_keeps | apply State.traceFireCell_keeps | apply State.notePsat_keeps | apply State.settleClamps_keeps | apply State.toMode_keeps | apply State.takeFactors_keeps | apply State.reexpress_keeps | apply State.stepDrive_keeps | (rw [keeps_iff]; dsimp only; apply keeps_iff.1) | dsimp only | refine keeps_of_fst (by assumption) ?_ | split)

theorem State.applyCommit_keeps {s t : State} (k : Commit) (h : Keeps s t) : Keeps s (State.applyCommit t k) := by
  unfold State.applyCommit
  with_reducible repeat' (first | assumption | apply State.markWindows_keeps | intro u | apply keeps_ite | apply keeps_foldl | apply State.when_keeps | apply State.raise_keeps | apply State.err_keeps | apply State.lampStat_keeps | apply State.setCommit_keeps | apply State.cooStat_keeps | apply State.stepCell_keeps | (rw [keeps_iff]; dsimp only; apply keeps_iff.1) | dsimp only | split)

theorem State.asyResult_keeps {s t : State} (status : Nat) (result : Nat) (h : Keeps s t) : Keeps s (State.asyResult t status result) := by
  unfold State.asyResult
  with_reducible repeat' (first | assumption | apply State.wr_keeps | (rw [keeps_iff]; dsimp only; apply keeps_iff.1))

theorem State.asyBegin_keeps {s t : State} (k : Nat) (h : Keeps s t) : Keeps s (State.asyBegin t k) := by
  unfold State.asyBegin
  with_reducible repeat' (first | assumption | apply State.wr_keeps | (rw [keeps_iff]; dsimp only; apply keeps_iff.1))

theorem State.asyFinish_keeps {s t : State} (k : Nat) (status : Nat) (result : Nat) (h : Keeps s t) : Keeps s (State.asyFinish t k status result) := by
  unfold State.asyFinish
  with_reducible repeat' (first | assumption | intro u | apply keeps_ite | apply State.asyResult_keeps | split)

theorem State.qualResult_keeps {s t : State} (c : Nat) (band : Bool) (res : Nat) (h : Keeps s t) : Keeps s (State.qualResult t c band res) := by
  unfold State.qualResult
  with_reducible repeat' (first | assumption | intro u | apply keeps_ite | apply State.wrf_keeps | split)

theorem State.leaveCal_keeps {s t : State} (x : CalRec) (h : Keeps s t) : Keeps s (State.leaveCal t x) := by
  unfold State.leaveCal
  with_reducible repeat' (first | assumption | intro u | apply keeps_ite | apply State.noteStale_keeps | apply State.setHcode_keeps | apply State.cooStat_keeps | apply State.settleClamps_keeps | apply State.toMode_keeps | (rw [keeps_iff]; dsimp only; apply keeps_iff.1) | dsimp only | split)

theorem State.calSource_keeps {s t : State} (en : Bool) (band : Bool) (h : Keeps s t) : Keeps s (State.calSource t en band) := by
  unfold State.calSource
  with_reducible repeat' (first | assumption | intro u | apply keeps_ite | apply State.send_keeps | (rw [keeps_iff]; dsimp only; apply keeps_iff.1) | split)

theorem State.asyStat_keeps {s t : State} (h : Keeps s t) : Keeps s (State.asyStat t) := by
  unfold State.asyStat
  with_reducible repeat' (first | assumption | intro u | apply keeps_ite | apply State.wrf_keeps | apply State.wrBit_keeps | dsimp only | split)

theorem State.tnkStat_keeps {s t : State} (h : Keeps s t) : Keeps s (State.tnkStat t) := by
  unfold State.tnkStat
  with_reducible repeat' (first | assumption | apply State.wrBit_keeps)

theorem State.afterCal_keeps {s t : State} (h : Keeps s t) : Keeps s (State.afterCal t) := by
  unfold State.afterCal
  with_reducible repeat' (first | assumption | intro u | apply keeps_ite | apply State.calSource_keeps | apply State.asyStat_keeps | apply State.tnkStat_keeps | (rw [keeps_iff]; dsimp only; apply keeps_iff.1) | dsimp only | split)

theorem State.yieldCell_keeps {s t : State} (x : CalRec) (h : Keeps s t) : Keeps s (State.yieldCell t x) := by
  unfold State.yieldCell
  with_reducible repeat' (first | assumption | intro u | apply keeps_ite | apply State.when_keeps | apply State.count_keeps | apply State.asyFinish_keeps | apply State.qualResult_keeps | apply State.leaveCal_keeps | apply State.afterCal_keeps | (rw [keeps_iff]; dsimp only; apply keeps_iff.1) | dsimp only | split)

theorem State.deferCal_keeps {s t : State} (x : CalRec) (h : Keeps s t) : Keeps s (State.deferCal t x) := by
  unfold State.deferCal
  with_reducible repeat' (first | assumption | intro u | apply keeps_ite | apply State.asyFinish_keeps | (rw [keeps_iff]; dsimp only; apply keeps_iff.1) | dsimp only | split)

theorem State.yieldCells_keeps {s t : State} (cells : List Nat) (h : Keeps s t) : Keeps s (State.yieldCells t cells) := by
  unfold State.yieldCells
  with_reducible repeat' (first | assumption | intro u | apply keeps_foldl | apply State.yieldCell_keeps | dsimp only)

end Sys2Proof.Machine
end

