-- ==== Sys2Proof/Laws/KeepsCueCommands.lean ====
section
/-! SUPPORT. What the operations of Machine/CueCommands.lean keep (Laws/Keeps.lean). -/

namespace Sys2Proof.Machine

set_option Elab.async false
set_option linter.unreachableTactic false
set_option linter.unusedTactic false

theorem stateOf_keeps {s t : State} (r : Result) (hr : Answers s r) (_ : Keeps s t) : Keeps s (stateOf t r) := by
  obtain ⟨u, rfl, hu⟩ := hr
  exact hu

theorem execTileStateReport_keeps {s t : State} (tile : Fin 64) (h : Keeps s t) : Answers s (execTileStateReport tile t) := by
  unfold execTileStateReport
  with_reducible repeat' (first | assumption | intro u | apply answers_next | apply answers_ite | apply keeps_ite | apply State.when_keeps | apply State.err_keeps | apply State.fsTick_keeps | apply State.reportTile_keeps | apply State.refreshMaps_keeps | apply State.reportAlone_keeps | apply State.setCommit_keeps | (rw [keeps_iff]; dsimp only; apply keeps_iff.1) | dsimp only | split)

theorem execFabricSnapshot_keeps {s t : State} (v : Word) (h : Keeps s t) : Answers s (execFabricSnapshot v t) := by
  unfold execFabricSnapshot
  with_reducible repeat' (first | assumption | apply answers_next | apply State.when_keeps | apply State.wrBit_keeps)

theorem State.snapshotFabric_keeps {s t : State} (h : Keeps s t) : Keeps s (State.snapshotFabric t) := by
  unfold State.snapshotFabric
  with_reducible repeat' (first | assumption | intro u | apply State.each_keeps | apply State.wr_keeps | dsimp only)

theorem execFabricSnapshotCopy_keeps {s t : State} (h : Keeps s t) : Answers s (execFabricSnapshotCopy t) := by
  unfold execFabricSnapshotCopy
  with_reducible repeat' (first | assumption | intro u | apply answers_next | apply answers_ite | apply keeps_ite | apply State.wr_keeps | apply State.wrBit_keeps | apply State.snapshotFabric_keeps | split)

theorem execOverpowerChange_keeps {s t : State} (out : Bool) (port : Fin 512) (high : Bool) (h : Keeps s t) : Answers s (execOverpowerChange out port high t) := by
  unfold execOverpowerChange
  with_reducible repeat' (first | assumption | intro u | apply answers_next | apply answers_ite | apply keeps_ite | apply State.wrBit_keeps | apply State.eventBoth_keeps | dsimp only | split)

theorem State.writeCueWord_keeps {s t : State} (q : Nat) (w : Nat) (v : Word) (h : Keeps s t) : Keeps s (State.writeCueWord t q w v) := by
  unfold State.writeCueWord
  with_reducible repeat' (first | assumption | intro u | apply keeps_ite | apply State.writeReg_keeps | apply State.err_keeps | split)

theorem State.writeWords_keeps {s t : State} (f : State → Nat → Word → State) (i : Nat) (vs : List Word)
    (hf : ∀ u i v, Keeps s u → Keeps s (f u i v)) (h : Keeps s t) : Keeps s (State.writeWords f t i vs) := by
  induction vs generalizing t i with
  | nil => exact h
  | cons v vs ih => exact ih (i + 1) (hf t i v h)

theorem execCueWrite_keeps {s t : State} (cue : Fin 65536) (word : Fin 8) (vals : List Word) (h : Keeps s t) : Answers s (execCueWrite cue word vals t) := by
  unfold execCueWrite
  with_reducible repeat' (first | assumption | intro u | apply answers_next | apply answers_ite | apply keeps_ite | apply State.writeWords_keeps | apply State.writeCueWord_keeps | dsimp only | split)

theorem State.writePatWord_keeps {s t : State} (n : Nat) (j : Nat) (v : Word) (h : Keeps s t) : Keeps s (State.writePatWord t n j v) := by
  unfold State.writePatWord
  with_reducible repeat' (first | assumption | intro u | apply keeps_ite | apply State.writeReg_keeps | apply State.err_keeps | split)

theorem execPatternWrite_keeps {s t : State} (pat : Fin 256) (word : Fin 512) (vals : List Word) (h : Keeps s t) : Answers s (execPatternWrite pat word vals t) := by
  unfold execPatternWrite
  with_reducible repeat' (first | assumption | intro u | apply answers_next | apply answers_ite | apply keeps_ite | apply State.writeWords_keeps | apply State.writePatWord_keeps | dsimp only | split)

theorem execPatternCapture_keeps {s t : State} (v : Word) (h : Keeps s t) : Answers s (execPatternCapture v t) := by
  unfold execPatternCapture
  with_reducible repeat' (first | assumption | intro u | apply answers_next | apply answers_ite | apply keeps_ite | apply State.wrBit_keeps | apply State.wrMask_keeps | apply State.err_keeps | dsimp only | split)

theorem execPatternCaptureDone_keeps {s t : State} (h : Keeps s t) : Answers s (execPatternCaptureDone t) := by
  unfold execPatternCaptureDone
  with_reducible repeat' (first | assumption | intro u | apply answers_next | apply answers_ite | apply keeps_ite | apply State.each_keeps | apply State.wr_keeps | apply State.wrBit_keeps | (rw [keeps_iff]; dsimp only; apply keeps_iff.1) | dsimp only | split)

theorem execPortOwnershipWrite_keeps {s t : State} (port : Fin 512) (v : Word) (h : Keeps s t) : Answers s (execPortOwnershipWrite port v t) := by
  unfold execPortOwnershipWrite
  with_reducible repeat' (first | assumption | intro u | apply answers_next | apply answers_ite | apply keeps_ite | apply State.when_keeps | apply State.writeReg_keeps | apply State.err_keeps | dsimp only | split)

theorem execPartitionRangeWrite_keeps {s t : State} (part : Fin 64) (pat : Bool) (v : Word) (h : Keeps s t) : Answers s (execPartitionRangeWrite part pat v t) := by
  unfold execPartitionRangeWrite
  with_reducible repeat' (first | assumption | intro u | apply answers_next | apply answers_ite | apply keeps_ite | apply State.wrMask_keeps | apply State.err_keeps | dsimp only | split)

theorem execPartitionControlWrite_keeps {s t : State} (part : Fin 64) (v : Word) (h : Keeps s t) : Answers s (execPartitionControlWrite part v t) := by
  unfold execPartitionControlWrite
  with_reducible repeat' (first | assumption | apply answers_next | apply State.wrMask_keeps)

theorem State.setLightRun_keeps {s t : State} (out : Bool) (k : Nat) (r : LightRun) (h : Keeps s t) : Keeps s (State.setLightRun t out k r) := by
  unfold State.setLightRun
  with_reducible repeat' (first | assumption | (rw [keeps_iff]; dsimp only; apply keeps_iff.1))

theorem execLossOfLight_keeps {s t : State} (out : Bool) (port : Fin 512) (h : Keeps s t) : Answers s (execLossOfLight out port t) := by
  unfold execLossOfLight
  with_reducible repeat' (first | assumption | intro u | apply answers_next | apply answers_ite | apply keeps_ite | apply State.wrBit_keeps | apply State.decideFor_keeps | (rw [keeps_iff]; dsimp only; apply keeps_iff.1) | dsimp only | split)

theorem execLightRegained_keeps {s t : State} (out : Bool) (port : Fin 512) (h : Keeps s t) : Answers s (execLightRegained out port t) := by
  unfold execLightRegained
  with_reducible repeat' (first | assumption | intro u | apply answers_next | apply answers_ite | apply keeps_ite | apply State.wrBit_keeps | apply State.decideFor_keeps | apply State.shutCouplers_keeps | (rw [keeps_iff]; dsimp only; apply keeps_iff.1) | dsimp only | split)

theorem execHoldoffExpiry_keeps {s t : State} (input : Fin 512) (h : Keeps s t) : Answers s (execHoldoffExpiry input t) := by
  unfold execHoldoffExpiry
  with_reducible repeat' (first | assumption | apply answers_next | apply State.raise_keeps | apply State.setProt_keeps | apply State.decideFor_keeps | (rw [keeps_iff]; dsimp only; apply keeps_iff.1) | dsimp only | split)

theorem execBatchRelease_keeps {s t : State} (h : Keeps s t) : Answers s (execBatchRelease t) := by
  unfold execBatchRelease
  with_reducible repeat' (first | assumption | apply answers_next | apply State.batchRelease_keeps | apply State.lampStat_keeps)

theorem State.noteClamp_keeps {s t : State} (b : Batch) (clamps : Bool) (h : Keeps s t) : Keeps s (State.noteClamp t b clamps) := by
  unfold State.noteClamp
  with_reducible repeat' (first | assumption | apply State.when_keeps | apply State.count_keeps)

theorem execSolveComplete_keeps {s t : State} (found : List Candidate) (ns : Nat) (h : Keeps s t) : Answers s (execSolveComplete found ns t) := by
  unfold execSolveComplete
  with_reducible repeat' (first | assumption | apply State.when_keeps | apply State.count_keeps | intro u | apply answers_next | apply answers_ite | apply keeps_ite | apply State.wr_keeps | apply State.setCueStates_keeps | apply State.setBatch_keeps | apply State.asSolved_keeps | apply State.lampStat_keeps | apply State.failBatch_keeps | apply State.yieldCells_keeps | apply State.noteClamp_keeps | (rw [keeps_iff]; dsimp only; apply keeps_iff.1) | dsimp only | split)

theorem execResolveComplete_keeps {s t : State} (batch : Nat) (found : List Candidate) (h : Keeps s t) : Answers s (execResolveComplete batch found t) := by
  unfold execResolveComplete
  with_reducible repeat' (first | assumption | intro u | apply answers_next | apply answers_ite | apply keeps_ite | apply State.count_keeps | apply State.setBatch_keeps | apply State.lampStat_keeps | apply State.setCommit_keeps | apply State.failBatch_keeps | apply State.yieldCells_keeps | apply State.noteClamp_keeps | (rw [keeps_iff]; dsimp only; apply keeps_iff.1) | dsimp only | split)

theorem execResolveDeadline_keeps {s t : State} (batch : Nat) (h : Keeps s t) : Answers s (execResolveDeadline batch t) := by
  unfold execResolveDeadline
  with_reducible repeat' (first | assumption | intro u | apply answers_next | apply answers_ite | apply keeps_ite | apply State.count_keeps | apply State.raise_keeps | apply State.failBatch_keeps | dsimp only | split)

theorem State.narrowed_keeps {s t u : State} (h : Keeps s u) : Keeps s (State.narrowed t u) := by
  unfold State.narrowed
  exact State.invalidateBy_keeps _ _ h

theorem execWinshareWrite_keeps {s t : State} (n : Fin 8) (hi : Bool) (v : Word) (h : Keeps s t) : Answers s (execWinshareWrite n hi v t) := by
  unfold execWinshareWrite
  with_reducible repeat' (first | assumption | intro u | apply answers_next | apply answers_ite | apply keeps_ite | apply State.wr_keeps | apply State.narrowed_keeps | split)

theorem execPolicyCeilingWrite_keeps {s t : State} (part : Fin 64) (v : Word) (h : Keeps s t) : Answers s (execPolicyCeilingWrite part v t) := by
  unfold execPolicyCeilingWrite
  with_reducible repeat' (first | assumption | intro u | apply answers_next | apply answers_ite | apply keeps_ite | apply State.narrowed_keeps | apply State.wrf_keeps | split)

theorem execBatchPlacement_keeps {s t : State} (batch : Nat) (h : Keeps s t) : Answers s (execBatchPlacement batch t) := by
  unfold execBatchPlacement
  with_reducible repeat' (first | assumption | apply answers_next | apply State.place_keeps | dsimp only | split)

theorem State.rePlace_keeps {s t : State} (b : Batch) (h : Keeps s t) : Keeps s (State.rePlace t b) := by
  unfold State.rePlace
  with_reducible repeat' (first | assumption | intro u | apply keeps_ite | apply State.setBatch_keeps | apply State.leaveCommit_keeps | apply State.failBatch_keeps | apply State.place_keeps | apply State.unplaceDependents_keeps | (rw [keeps_iff]; dsimp only; apply keeps_iff.1) | dsimp only | split)

theorem execSetpointSending_keeps {s t : State} (tc : Nat) (h : Keeps s t) : Answers s (execSetpointSending tc t) := by
  unfold execSetpointSending
  with_reducible repeat' (first | assumption | intro u | apply answers_next | apply answers_ite | apply keeps_ite | apply keeps_foldl | apply State.raise_keeps | apply State.setCueStates_keeps | apply State.lampStat_keeps | apply State.setCommit_keeps | apply State.rePlace_keeps | (rw [keeps_iff]; dsimp only; apply keeps_iff.1) | dsimp only | split)

theorem execSetpointArrival_keeps {s t : State} (tc : Nat) (tile : Fin 64) (h : Keeps s t) : Answers s (execSetpointArrival tc tile t) := by
  unfold execSetpointArrival
  with_reducible repeat' (first | assumption | intro u | apply answers_next | apply answers_ite | apply keeps_ite | apply State.setCommit_keeps | apply State.timeCodes_keeps | (rw [keeps_iff]; dsimp only; apply keeps_iff.1) | dsimp only | split)

theorem execArmPoint_keeps {s t : State} (tc : Nat) (h : Keeps s t) : Answers s (execArmPoint tc t) := by
  unfold execArmPoint
  with_reducible repeat' (first | assumption | intro u | apply answers_next | apply answers_ite | apply keeps_ite | apply State.count_keeps | apply State.raise_keeps | apply State.finish_keeps | apply State.arm_keeps | apply State.fixCodes_keeps | dsimp only | split)

theorem execJournalClose_keeps {s t : State} (tc : Nat) (h : Keeps s t) : Answers s (execJournalClose tc t) := by
  unfold execJournalClose
  with_reducible repeat' (first | assumption | intro u | apply answers_next | apply answers_ite | apply keeps_ite | apply State.raise_keeps | apply State.closeCommit_keeps | apply State.yieldCells_keeps | dsimp only | split)

theorem execTimedDeadlinePass_keeps {s t : State} (batch : Nat) (h : Keeps s t) : Answers s (execTimedDeadlinePass batch t) := by
  unfold execTimedDeadlinePass
  with_reducible repeat' (first | assumption | intro u | apply answers_next | apply answers_ite | apply keeps_ite | apply State.raise_keeps | apply State.failBatch_keeps | dsimp only | split)

theorem execGuardWindowClose_keeps {s t : State} (n : Fin 8) (h : Keeps s t) : Answers s (execGuardWindowClose n t) := by
  unfold execGuardWindowClose
  with_reducible repeat' (first | assumption | intro u | apply answers_next | apply answers_ite | apply keeps_ite | apply State.wrf_keeps | apply State.raise_keeps | (rw [keeps_iff]; dsimp only; apply keeps_iff.1) | dsimp only | split)

theorem execWindowScheduleWrite_keeps {s t : State} (n : Fin 8) (word : Fin 5) (v : Word) (h : Keeps s t) : Answers s (execWindowScheduleWrite n word v t) := by
  unfold execWindowScheduleWrite
  with_reducible repeat' (first | assumption | intro u | apply answers_next | apply answers_ite | apply keeps_ite | apply State.wr_keeps | apply State.wrf_keeps | apply State.wrMask_keeps | dsimp only | split)

theorem execLmpAbort_keeps {s t : State} (x_rq : Requester) (v : Word) (h : Keeps s t) : Answers s (execLmpAbort x_rq v t) := by
  unfold execLmpAbort
  with_reducible repeat' (first | assumption | intro u | apply answers_next | apply State.wr_keeps | apply State.abortFor_keeps | (rw [keeps_iff]; dsimp only; apply keeps_iff.1) | dsimp only)

theorem execLmpHoldWrite_keeps {s t : State} (v : Word) (h : Keeps s t) : Answers s (execLmpHoldWrite v t) := by
  unfold execLmpHoldWrite
  with_reducible repeat' (first | assumption | apply answers_next | apply State.wrMask_keeps | apply State.lampStat_keeps)

theorem execThrottleBucketFill_keeps {s t : State} (h : Keeps s t) : Answers s (execThrottleBucketFill t) := by
  unfold execThrottleBucketFill
  with_reducible repeat' (first | assumption | intro u | apply answers_next | apply answers_ite | apply keeps_ite | apply State.wrf_keeps | apply State.lampStat_keeps | dsimp only | split)

theorem execShaperFill_keeps {s t : State} (h : Keeps s t) : Answers s (execShaperFill t) := by
  unfold execShaperFill
  with_reducible repeat' (first | assumption | apply answers_next | apply State.shaperFill_keeps)

theorem execPolicerFill_keeps {s t : State} (h : Keeps s t) : Answers s (execPolicerFill t) := by
  unfold execPolicerFill
  with_reducible repeat' (first | assumption | apply answers_next | apply State.policerFill_keeps)

theorem State.writePctl_keeps {s t : State} (p : Nat) (v : Word) (h : Keeps s t) : Keeps s (State.writePctl t p v) := by
  unfold State.writePctl
  with_reducible repeat' (first | assumption | intro u | apply keeps_ite | apply State.wrMask_keeps | apply State.setToll_keeps | apply State.tagHead_keeps | (rw [keeps_iff]; dsimp only; apply keeps_iff.1) | dsimp only | split)

theorem execShaperControlWrite_keeps {s t : State} (part : Fin 64) (shape : Bool) (v : Word) (h : Keeps s t) : Answers s (execShaperControlWrite part shape v t) := by
  unfold execShaperControlWrite
  with_reducible repeat' (first | assumption | apply State.wrMask_keeps | apply State.tagHead_keeps | intro u | apply answers_next | apply answers_ite | apply keeps_ite | apply State.writeReg_keeps | apply State.setToll_keeps | apply State.writePctl_keeps | (rw [keeps_iff]; dsimp only; apply keeps_iff.1) | dsimp only | split)

theorem execShaperDebtClear_keeps {s t : State} (part : Fin 64) (v : Word) (h : Keeps s t) : Answers s (execShaperDebtClear part v t) := by
  unfold execShaperDebtClear
  with_reducible repeat' (first | assumption | intro u | apply answers_ite | apply keeps_ite | apply State.setToll_keeps | apply State.tagHead_keeps | (rw [keeps_iff]; dsimp only; apply keeps_iff.1) | dsimp only | split | apply answers_next | apply State.writePctl_keeps)

end Sys2Proof.Machine
end

