-- ==== Sys2Proof/Laws/KeepsHostCommands.lean ====
section
/-! SUPPORT. What the operations of Machine/HostCommands.lean keep (Laws/Keeps.lean). -/

namespace Sys2Proof.Machine

set_option Elab.async false
set_option linter.unreachableTactic false
set_option linter.unusedTactic false

theorem execPerstDeassert_keeps {s t : State} (link : Fin 4) (h : Keeps s t) : Answers s (execPerstDeassert link t) := by
  unfold execPerstDeassert
  with_reducible repeat' (first | assumption | intro u | apply answers_next | apply answers_ite | apply keeps_ite | (rw [keeps_iff]; dsimp only; apply keeps_iff.1) | dsimp only | split)

theorem execPcieLinkUp_keeps {s t : State} (link : Fin 4) (width : Fin 32) (speed : Fin 16) (flit : Bool) (h : Keeps s t) : Answers s (execPcieLinkUp link width speed flit t) := by
  unfold execPcieLinkUp
  with_reducible repeat' (first | assumption | apply answers_next | apply State.wr_keeps | (rw [keeps_iff]; dsimp only; apply keeps_iff.1) | dsimp only)

theorem State.writeRingRange_keeps {s t : State} (g : Nat) (v : Word) (h : Keeps s t) : Keeps s (State.writeRingRange t g v) := by
  unfold State.writeRingRange
  with_reducible repeat' (first | assumption | intro u | apply keeps_ite | apply State.wrMask_keeps | apply State.err_keeps | dsimp only | split)

theorem State.writeEventRing_keeps {s t : State} (g : Nat) (v : Word) (h : Keeps s t) : Keeps s (State.writeEventRing t g v) := by
  unfold State.writeEventRing
  with_reducible repeat' (first | assumption | intro u | apply keeps_ite | apply State.wrMask_keeps | split)

theorem State.writeBinding_keeps {s t : State} (g : Nat) (v : Word) (h : Keeps s t) : Keeps s (State.writeBinding t g v) := by
  unfold State.writeBinding
  with_reducible repeat' (first | assumption | intro u | apply keeps_ite | apply State.wrMask_keeps | apply State.err_keeps | dsimp only | split)

theorem State.payOwed_keeps {s t : State} (h : Keeps s t) : Keeps s (State.payOwed t) := by
  unfold State.payOwed
  with_reducible repeat' (first | assumption | intro u | apply keeps_ite | apply keeps_foldl | apply State.eventMgmt_keeps | (rw [keeps_iff]; dsimp only; apply keeps_iff.1) | dsimp only | split)

theorem execFunctionConfigWrite_keeps {s t : State} (link : Fin 4) (f : Fin 17) (word : Fin 4) (v : Word) (h : Keeps s t) : Answers s (execFunctionConfigWrite link f word v t) := by
  unfold execFunctionConfigWrite
  with_reducible repeat' (first | assumption | apply answers_next | apply State.writeRingRange_keeps | apply State.writeEventRing_keeps | apply State.writeBinding_keeps | apply State.payOwed_keeps | dsimp only | split)

theorem State.setRingState_keeps {s t : State} (r : Nat) (st : Nat) (e : Nat) (h : Keeps s t) : Keeps s (State.setRingState t r st e) := by
  unfold State.setRingState
  with_reducible repeat' (first | assumption | apply State.wrf_keeps)

theorem State.dropOrigins_keeps {s t : State} (r : Nat) (h : Keeps s t) : Keeps s (State.dropOrigins t r) := by
  unfold State.dropOrigins
  with_reducible repeat' (first | assumption | intro u | (rw [keeps_iff]; dsimp only; apply keeps_iff.1) | dsimp only | split)

theorem State.haltNocq_keeps {s t : State} (r : Nat) (h : Keeps s t) : Keeps s (State.haltNocq t r) := by
  unfold State.haltNocq
  with_reducible repeat' (first | assumption | intro u | apply State.each_keeps | apply State.setRingState_keeps | dsimp only)

theorem State.ringOff_keeps {s t : State} (r : Nat) (h : Keeps s t) : Keeps s (State.ringOff t r) := by
  unfold State.ringOff
  with_reducible repeat' (first | assumption | apply State.wrBit_keeps | apply State.setRing_keeps | apply State.setRingState_keeps)

theorem State.disableRing_keeps {s t : State} (r : Nat) (h : Keeps s t) : Keeps s (State.disableRing t r) := by
  unfold State.disableRing
  with_reducible repeat' (first | assumption | intro u | apply keeps_ite | apply State.when_keeps | apply State.count_keeps | apply State.err_keeps | apply State.dropOrigins_keeps | apply State.haltNocq_keeps | apply State.ringOff_keeps | dsimp only | split)

theorem State.writeRingW2_keeps {s t : State} (r : Nat) (v : Word) (h : Keeps s t) : Keeps s (State.writeRingW2 t r v) := by
  unfold State.writeRingW2
  with_reducible repeat' (first | assumption | intro u | apply keeps_ite | apply State.wr_keeps | apply State.writeReg_keeps | apply State.setRing_keeps | apply State.err_keeps | apply State.setRingState_keeps | apply State.disableRing_keeps | dsimp only | split)

theorem State.writeRingWord_keeps {s t : State} (r : Nat) (w : Nat) (v : Word) (h : Keeps s t) : Keeps s (State.writeRingWord t r w v) := by
  unfold State.writeRingWord
  with_reducible repeat' (first | assumption | intro u | apply keeps_ite | apply State.writeReg_keeps | apply State.err_keeps | apply State.writeRingW2_keeps | split)

theorem execRingConfigure_keeps {s t : State} (ring : Fin 32768) (v : Word) (h : Keeps s t) : Answers s (execRingConfigure ring v t) := by
  unfold execRingConfigure
  with_reducible repeat' (first | assumption | apply answers_next | apply State.writeRingW2_keeps)

theorem execRingEnable_keeps {s t : State} (ring : Fin 32768) (v : Word) (h : Keeps s t) : Answers s (execRingEnable ring v t) := by
  unfold execRingEnable
  with_reducible repeat' (first | assumption | apply answers_next | apply State.payOwed_keeps | apply State.writeRingW2_keeps)

theorem execRingDisable_keeps {s t : State} (ring : Fin 32768) (v : Word) (h : Keeps s t) : Answers s (execRingDisable ring v t) := by
  unfold execRingDisable
  with_reducible repeat' (first | assumption | intro u | apply answers_next | apply answers_ite | apply keeps_ite | apply State.disableRing_keeps | apply State.writeRingW2_keeps | split)

theorem State.issueFetch_keeps {s t : State} (r : Nat) (h : Keeps s t) : Keeps s (State.issueFetch t r) := by
  unfold State.issueFetch
  with_reducible repeat' (first | assumption | intro u | apply keeps_ite | apply State.send_keeps | apply State.setRing_keeps | (rw [keeps_iff]; dsimp only; apply keeps_iff.1) | dsimp only | split)

theorem State.fetchAll_keeps {s t : State} (h : Keeps s t) : Keeps s (State.fetchAll t) := by
  unfold State.fetchAll
  with_reducible repeat' (first | assumption | intro u | apply keeps_foldl | apply State.issueFetch_keeps | dsimp only)

theorem State.ringDoorbell_keeps {s t : State} (r : Nat) (v : Word) (h : Keeps s t) : Keeps s (State.ringDoorbell t r v) := by
  unfold State.ringDoorbell
  with_reducible repeat' (first | assumption | intro u | apply keeps_ite | apply State.wrf_keeps | apply State.err_keeps | apply State.issueFetch_keeps | dsimp only | split)

theorem execSubmitFetch_keeps {s t : State} (ring : Fin 32768) (entries : List (List Word)) (h : Keeps s t) : Answers s (execSubmitFetch ring entries t) := by
  unfold execSubmitFetch
  with_reducible repeat' (first | assumption | intro u | apply answers_next | apply answers_ite | apply keeps_ite | apply State.setRing_keeps | apply State.issueFetch_keeps | (rw [keeps_iff]; dsimp only; apply keeps_iff.1) | dsimp only | split)

theorem State.reserve_keeps {s t : State} (cq : Nat) (k : Nat) (h : Keeps s t) : Keeps s (State.reserve t cq k) := by
  unfold State.reserve
  with_reducible repeat' (first | assumption | apply State.setRing_keeps | (rw [keeps_iff]; dsimp only; apply keeps_iff.1))

theorem State.entryDone_keeps {s t : State} (r : Nat) (h : Keeps s t) : Keeps s (State.entryDone t r) := by
  unfold State.entryDone
  with_reducible repeat' (first | assumption | apply State.wrf_keeps | apply State.setRing_keeps | (rw [keeps_iff]; dsimp only; apply keeps_iff.1))

theorem State.cqWait_keeps {s t : State} (r : Nat) (h : Keeps s t) : Keeps s (State.cqWait t r) := by
  unfold State.cqWait
  with_reducible repeat' (first | assumption | apply State.wrf_keeps)

theorem State.entryResult_keeps {s t : State} (r : Nat) (e : List Word) (res : Nat) (h : Keeps s t) : Keeps s (State.entryResult t r e res) := by
  unfold State.entryResult
  with_reducible repeat' (first | assumption | intro u | apply keeps_ite | apply State.postCq_keeps | apply State.reserve_keeps | apply State.entryDone_keeps | apply State.cqWait_keeps | dsimp only | split)

theorem State.cuesEntry_keeps {s t : State} (r : Nat) (e : List Word) (h : Keeps s t) : Keeps s (State.cuesEntry t r e) := by
  unfold State.cuesEntry
  with_reducible repeat' (first | assumption | intro u | apply keeps_ite | apply State.postCq_keeps | apply State.submitRun_keeps | apply State.reserve_keeps | apply State.entryDone_keeps | apply State.cqWait_keeps | apply State.entryResult_keeps | dsimp only | split)

theorem State.nopEntry_keeps {s t : State} (r : Nat) (e : List Word) (h : Keeps s t) : Keeps s (State.nopEntry t r e) := by
  unfold State.nopEntry
  with_reducible repeat' (first | assumption | intro u | apply keeps_ite | apply State.entryDone_keeps | apply State.cqWait_keeps | apply State.entryResult_keeps | split)

theorem State.abortEntry_keeps {s t : State} (r : Nat) (e : List Word) (h : Keeps s t) : Keeps s (State.abortEntry t r e) := by
  unfold State.abortEntry
  with_reducible repeat' (first | assumption | intro u | apply keeps_ite | apply State.abortFor_keeps | apply State.reserve_keeps | apply State.entryDone_keeps | apply State.cqWait_keeps | apply State.entryResult_keeps | dsimp only | split)

theorem State.processHead_keeps {s t : State} (r : Nat) (want : Nat → Bool) (h : Keeps s t) : Keeps s (State.processHead t r want) := by
  unfold State.processHead
  with_reducible repeat' (first | assumption | intro u | apply keeps_ite | apply State.issueFetch_keeps | apply State.cuesEntry_keeps | apply State.nopEntry_keeps | apply State.abortEntry_keeps | (rw [keeps_iff]; dsimp only; apply keeps_iff.1) | dsimp only | split)

theorem execNop_keeps {s t : State} (ring : Fin 32768) (h : Keeps s t) : Answers s (execNop ring t) := by
  unfold execNop
  with_reducible repeat' (first | assumption | intro u | apply answers_next | apply State.processHead_keeps | dsimp only)

theorem execCues_keeps {s t : State} (ring : Fin 32768) (h : Keeps s t) : Answers s (execCues ring t) := by
  unfold execCues
  with_reducible repeat' (first | assumption | apply answers_next | apply State.lampStat_keeps | apply State.processHead_keeps)

theorem execAbort_keeps {s t : State} (ring : Fin 32768) (h : Keeps s t) : Answers s (execAbort ring t) := by
  unfold execAbort
  with_reducible repeat' (first | assumption | apply answers_next | apply State.processHead_keeps)

theorem execCqSpaceFreed_keeps {s t : State} (ring : Fin 32768) (h : Keeps s t) : Answers s (execCqSpaceFreed ring t) := by
  unfold execCqSpaceFreed
  with_reducible repeat' (first | assumption | intro u | apply answers_next | apply answers_ite | apply keeps_ite | apply State.processHead_keeps | dsimp only | split)

theorem execInterruptTimer_keeps {s t : State} (ring : Fin 32768) (h : Keeps s t) : Answers s (execInterruptTimer ring t) := by
  unfold execInterruptTimer
  with_reducible repeat' (first | assumption | apply State.send_keeps | intro u | apply answers_next | apply answers_ite | apply keeps_ite | apply State.setRing_keeps | apply State.msixSend_keeps | (rw [keeps_iff]; dsimp only; apply keeps_iff.1) | dsimp only | split)

theorem execDmaErrorCompletion_keeps {s t : State} (ring : Fin 32768) (poisoned : Bool) (h : Keeps s t) : Answers s (execDmaErrorCompletion ring poisoned t) := by
  unfold execDmaErrorCompletion
  with_reducible repeat' (first | assumption | intro u | apply answers_next | apply answers_ite | apply keeps_ite | apply State.setRing_keeps | apply State.err_keeps | apply State.setRingState_keeps | (rw [keeps_iff]; dsimp only; apply keeps_iff.1) | split)

theorem execPoisonedWrite_keeps {s t : State} (x_a : Access) (h : Keeps s t) : Answers s (execPoisonedWrite x_a t) := by
  unfold execPoisonedWrite
  with_reducible repeat' (first | assumption | apply answers_next | apply State.err_keeps)

theorem execBusMasterEnable_keeps {s t : State} (link : Fin 4) (f : Fin 17) (h : Keeps s t) : Answers s (execBusMasterEnable link f t) := by
  unfold execBusMasterEnable
  with_reducible repeat' (first | assumption | intro u | apply answers_next | apply answers_ite | apply keeps_ite | apply keeps_foldl | apply State.send_keeps | apply State.postCq_keeps | apply State.issueFetch_keeps | (rw [keeps_iff]; dsimp only; apply keeps_iff.1) | dsimp only | split)

theorem State.resetFn_keeps {s t : State} (g : Nat) (h : Keeps s t) : Keeps s (State.resetFn t g) := by
  unfold State.resetFn
  with_reducible repeat' (first | assumption | intro u | apply keeps_ite | apply State.each_keeps | apply State.wrBit_keeps | apply State.setCfg_keeps | apply State.finish_keeps | apply State.dropOrigins_keeps | apply State.ringOff_keeps | (rw [keeps_iff]; dsimp only; apply keeps_iff.1) | dsimp only | split)

theorem execStreamEnable_keeps {s t : State} (stream : Fin 64) (v : Word) (h : Keeps s t) : Answers s (execStreamEnable stream v t) := by
  unfold execStreamEnable
  with_reducible repeat' (first | assumption | intro u | apply answers_next | apply answers_ite | apply keeps_ite | apply State.writeReg_keeps | apply State.err_keeps | dsimp only | split)

end Sys2Proof.Machine
end

