-- ==== Sys2Proof/Laws/KeepsCooperCommands.lean ====
section
/-! SUPPORT. What the operations of Machine/CooperCommands.lean keep (Laws/Keeps.lean). -/

namespace Sys2Proof.Machine

set_option Elab.async false
set_option linter.unreachableTactic false
set_option linter.unusedTactic false

theorem State.takeCycle_keeps {s t : State} (t_1 : Nat) (h : Keeps s t) : Keeps s (State.takeCycle t t_1) := by
  unfold State.takeCycle
  with_reducible repeat' (first | assumption | intro u | apply keeps_ite | apply State.wrLive_keeps | dsimp only | split)

theorem State.cooSample_keeps {s t : State} (c : Nat) (d : Int) (valid : Bool) (h : Keeps s t) : Keeps s (State.cooSample t c d valid) := by
  unfold State.cooSample
  with_reducible repeat' (first | assumption | intro u | apply keeps_ite | apply State.setCoo_keeps | apply State.takeCycle_keeps | (rw [keeps_iff]; dsimp only; apply keeps_iff.1) | dsimp only | split)

theorem State.lawAt_keeps {s t : State} (tb : Nat) (late : List Nat) (c : Nat) (h : Keeps s t) : Keeps s (State.lawAt t tb late c) := by
  unfold State.lawAt
  with_reducible repeat' (first | assumption | apply State.countClamps_keeps | intro u | apply keeps_ite | apply State.setCoo_keeps | apply State.law_keeps | apply State.settleClamps_keeps | (rw [keeps_iff]; dsimp only; apply keeps_iff.1) | dsimp only | split)

theorem State.payBand_keeps {s t : State} (t_1 : Nat) (h : Keeps s t) : Keeps s (State.payBand t t_1) := by
  unfold State.payBand
  with_reducible repeat' (first | assumption | intro u | apply keeps_foldl | apply State.setCoo_keeps | apply State.queueHeater_keeps | (rw [keeps_iff]; dsimp only; apply keeps_iff.1) | dsimp only)

theorem State.takeBand_keeps {s t : State} (t_1 : Nat) (b : Nat) (h : Keeps s t) : Keeps s (State.takeBand t t_1 b) := by
  unfold State.takeBand
  with_reducible repeat' (first | assumption | apply State.queueHeater_keeps | intro u | apply keeps_ite | apply keeps_foldl | apply State.wrf_keeps | apply State.setCoo_keeps | apply State.setTileRec_keeps | apply State.payBand_keeps | (rw [keeps_iff]; dsimp only; apply keeps_iff.1) | dsimp only | split)

theorem State.pendingBand_keeps {s t : State} (t_1 : Nat) (h : Keeps s t) : Keeps s (State.pendingBand t t_1) := by
  unfold State.pendingBand
  with_reducible repeat' (first | assumption | intro u | apply keeps_ite | apply State.takeBand_keeps | dsimp only | split)

theorem State.takeGains_keeps {s t : State} (t_1 : Nat) (h : Keeps s t) : Keeps s (State.takeGains t t_1) := by
  unfold State.takeGains
  with_reducible repeat' (first | assumption | intro u | apply keeps_ite | apply State.each_keeps | apply State.wrLive_keeps | dsimp only | split)

theorem State.thawTile_keeps {s t : State} (t_1 : Nat) (h : Keeps s t) : Keeps s (State.thawTile t t_1) := by
  unfold State.thawTile
  with_reducible repeat' (first | assumption | intro u | apply keeps_ite | apply keeps_foldl | apply State.wrBit_keeps | apply State.queueHeater_keeps | apply State.thaw_keeps | dsimp only | split)

theorem execControlLaw_keeps {s t : State} (tile : Fin 64) (h : Keeps s t) : Answers s (execControlLaw tile t) := by
  unfold execControlLaw
  with_reducible repeat' (first | assumption | apply State.wrLive_keeps | intro u | apply answers_next | apply answers_ite | apply keeps_ite | apply keeps_foldl | apply State.setTileRec_keeps | apply State.cooStat_keeps | apply State.traceIdle_keeps | apply State.retime_keeps | apply State.takeCycle_keeps | apply State.lawAt_keeps | apply State.payBand_keeps | apply State.pendingBand_keeps | apply State.takeGains_keeps | apply State.thawTile_keeps | (rw [keeps_iff]; dsimp only; apply keeps_iff.1) | dsimp only | split)

theorem execHeaterOffload_keeps {s t : State} (tile : Fin 64) (h : Keeps s t) : Answers s (execHeaterOffload tile t) := by
  unfold execHeaterOffload
  with_reducible repeat' (first | assumption | intro u | apply answers_next | apply answers_ite | apply keeps_ite | apply keeps_foldl | apply State.setCoo_keeps | apply State.offload_keeps | (rw [keeps_iff]; dsimp only; apply keeps_iff.1) | dsimp only | split)

theorem execCycleTrigger_keeps {s t : State} (tile : Fin 64) (h : Keeps s t) : Answers s (execCycleTrigger tile t) := by
  unfold execCycleTrigger
  with_reducible repeat' (first | assumption | intro u | apply answers_next | apply answers_ite | apply keeps_ite | apply keeps_foldl | apply State.setCoo_keeps | apply State.setTileRec_keeps | (rw [keeps_iff]; dsimp only; apply keeps_iff.1) | dsimp only | split)

theorem execThermalBandArrival_keeps {s t : State} (tile : Fin 64) (band : Fin 8) (h : Keeps s t) : Answers s (execThermalBandArrival tile band t) := by
  unfold execThermalBandArrival
  with_reducible repeat' (first | assumption | intro u | apply answers_next | apply answers_ite | apply keeps_ite | apply State.setTileRec_keeps | (rw [keeps_iff]; dsimp only; apply keeps_iff.1) | split)

theorem execFreezeWrite_keeps {s t : State} (tile : Fin 64) (v : Word) (h : Keeps s t) : Answers s (execFreezeWrite tile v t) := by
  unfold execFreezeWrite
  with_reducible repeat' (first | assumption | apply State.setMode_keeps | intro u | apply answers_next | apply answers_ite | apply keeps_ite | apply keeps_foldl | apply State.wrBit_keeps | apply State.wrMask_keeps | apply State.cooStat_keeps | apply State.toMode_keeps | dsimp only | split)

theorem execLoopStateWrite_keeps {s t : State} (tile : Fin 64) (cell : Fin 76) (word : Fin 3) (v : Word) (h : Keeps s t) : Answers s (execLoopStateWrite tile cell word v t) := by
  unfold execLoopStateWrite
  with_reducible repeat' (first | assumption | intro u | apply answers_next | apply answers_ite | apply keeps_ite | apply State.wr_keeps | apply State.err_keeps | dsimp only | split)

theorem State.writeFactor_keeps {s t : State} (t_1 : Nat) (o : Nat) (v : Word) (h : Keeps s t) : Keeps s (State.writeFactor t t_1 o v) := by
  unfold State.writeFactor
  with_reducible repeat' (first | assumption | intro u | apply keeps_ite | apply State.when_keeps | apply State.writeReg_keeps | apply State.err_keeps | apply State.markStaged_keeps | dsimp only | split)

theorem execFactorWrite_keeps {s t : State} (tile : Fin 64) (offset : Nat) (v : Word) (h : Keeps s t) : Answers s (execFactorWrite tile offset v t) := by
  unfold execFactorWrite
  with_reducible repeat' (first | assumption | apply answers_next | apply State.writeFactor_keeps)

theorem execCycleConfigWrite_keeps {s t : State} (tile : Fin 64) (v : Word) (h : Keeps s t) : Answers s (execCycleConfigWrite tile v t) := by
  unfold execCycleConfigWrite
  with_reducible repeat' (first | assumption | intro u | apply answers_next | apply answers_ite | apply keeps_ite | apply State.when_keeps | apply State.writeReg_keeps | apply State.err_keeps | dsimp only | split)

theorem execTraceEnable_keeps {s t : State} (tile : Fin 64) (v : Word) (h : Keeps s t) : Answers s (execTraceEnable tile v t) := by
  unfold execTraceEnable
  with_reducible repeat' (first | assumption | intro u | apply answers_next | apply answers_ite | apply keeps_ite | apply State.wr_keeps | apply State.writeReg_keeps | apply State.setTileRec_keeps | (rw [keeps_iff]; dsimp only; apply keeps_iff.1) | dsimp only | split)

theorem execTraceTrigger_keeps {s t : State} (tile : Fin 64) (cause : TraceCause) (h : Keeps s t) : Answers s (execTraceTrigger tile cause t) := by
  unfold execTraceTrigger
  with_reducible repeat' (first | assumption | intro u | apply answers_next | apply answers_ite | apply keeps_ite | apply State.traceFire_keeps | dsimp only | split)

theorem State.readTrace_keeps {s t : State} (t_1 : Nat) (h : Keeps s t) : Keeps s (State.readTrace t t_1).2 := by
  unfold State.readTrace
  with_reducible repeat' (first | assumption | apply State.wrf_keeps | dsimp only)

end Sys2Proof.Machine
end

