-- ==== Sys2Proof/Laws/KeepsDriverCommands.lean ====
section
/-! SUPPORT. What the operations of Machine/DriverCommands.lean keep (Laws/Keeps.lean). -/

namespace Sys2Proof.Machine

set_option Elab.async false
set_option linter.unreachableTactic false
set_option linter.unusedTactic false

theorem State.takeReading_keeps {s t : State} (c : Nat) (res : Nat) (h : Keeps s t) : Keeps s (State.takeReading t c res) := by
  unfold State.takeReading
  with_reducible repeat' (first | assumption | intro u | apply keeps_ite | apply State.wrf_keeps | apply State.setCoo_keeps | (rw [keeps_iff]; dsimp only; apply keeps_iff.1) | dsimp only | split)

theorem State.readHeater_keeps {s t : State} (readings : List HeaterReading) (c : Nat) (h : Keeps s t) : Keeps s (State.readHeater t readings c) := by
  unfold State.readHeater
  with_reducible repeat' (first | assumption | intro u | apply keeps_ite | apply State.takeReading_keeps | dsimp only | split)

theorem State.updateHeater_keeps {s t : State} (readings : List HeaterReading) (c : Nat) (h : Keeps s t) : Keeps s (State.updateHeater t readings c) := by
  unfold State.updateHeater
  with_reducible repeat' (first | assumption | apply State.takeReading_keeps | intro u | apply keeps_ite | apply State.setHcode_keeps | apply State.readHeater_keeps | dsimp only | split)

theorem State.rampCell_keeps {s t : State} (k : Nat) (len : Nat) (c : Nat) (h : Keeps s t) : Keeps s (State.rampCell t k len c) := by
  unfold State.rampCell
  with_reducible repeat' (first | assumption | apply State.setHcode_keeps | apply State.setPbase_keeps | dsimp only)

theorem execHeaterUpdate_keeps {s t : State} (tile : Fin 64) (readings : List HeaterReading) (h : Keeps s t) : Answers s (execHeaterUpdate tile readings t) := by
  unfold execHeaterUpdate
  with_reducible repeat' (first | assumption | intro u | apply answers_next | apply answers_ite | apply keeps_ite | apply keeps_foldl | apply State.drawMany_keeps | apply State.count_keeps | apply State.setTileRec_keeps | apply State.readHeater_keeps | apply State.updateHeater_keeps | apply State.rampCell_keeps | (rw [keeps_iff]; dsimp only; apply keeps_iff.1) | dsimp only | split)

theorem State.countFaults_keeps {s t : State} (t_1 : Nat) (h : Keeps s t) : Keeps s (State.countFaults t t_1) := by
  unfold State.countFaults
  with_reducible repeat' (first | assumption | intro u | apply State.wrf_keeps | dsimp only)

theorem execHeaterFault_keeps {s t : State} (tile : Fin 64) (cell : Fin 76) (h : Keeps s t) : Answers s (execHeaterFault tile cell t) := by
  unfold execHeaterFault
  with_reducible repeat' (first | assumption | apply State.setMode_keeps | intro u | apply answers_next | apply answers_ite | apply keeps_ite | apply State.when_keeps | apply State.wr_keeps | apply State.count_keeps | apply State.err_keeps | apply State.invalidate_keeps | apply State.setCoo_keeps | apply State.setHcode_keeps | apply State.setPbase_keeps | apply State.cooStat_keeps | apply State.toMode_keeps | apply State.asyFinish_keeps | apply State.qualResult_keeps | apply State.afterCal_keeps | apply State.countFaults_keeps | (rw [keeps_iff]; dsimp only; apply keeps_iff.1) | dsimp only | split)

theorem State.clearFault_keeps {s t : State} (c : Nat) (v : Word) (h : Keeps s t) : Keeps s (State.clearFault t c v) := by
  unfold State.clearFault
  with_reducible repeat' (first | assumption | apply State.setMode_keeps | intro u | apply keeps_ite | apply State.wr_keeps | apply State.cooStat_keeps | apply State.toMode_keeps | apply State.countFaults_keeps | dsimp only | split)

theorem execHeaterFaultClear_keeps {s t : State} (tile : Fin 64) (cell : Fin 76) (v : Word) (h : Keeps s t) : Answers s (execHeaterFaultClear tile cell v t) := by
  unfold execHeaterFaultClear
  with_reducible repeat' (first | assumption | apply answers_next | apply State.clearFault_keeps)

/-- The second half of a fade's start. -/
theorem startFade_rest_keeps {s u : State} (i len : Nat) (h : Keeps s u) : Keeps s (
    let s2 := { u with commits := u.commits.map fun (k : Commit) =>
      if k.phase == CommitPhase.placed || k.phase == CommitPhase.armed then { k with resident := k.resident.filter (· != i) } else k }
    (s2.setTileRec i { s2.tileRec i with fade := some ⟨0, len⟩ }).wrBit (Reg.DRV_STAT i) 24 true) := by
  refine State.wrBit_keeps _ _ _ (State.setTileRec_keeps _ _ ?_)
  exact h

theorem State.startFade_keeps {s t : State} (i len : Nat) (h : Keeps s t) : Keeps s (State.startFade t i len) := by
  refine startFade_rest_keeps i len (keeps_foldl _ _ (fun u c hu => ?_) h)
  exact State.setCoo_keeps _ _ (State.settleClamps_keeps _ hu)

theorem execFadeStart_keeps {s t : State} (tile : Fin 64) (len : Option Nat) (h : Keeps s t) : Answers s (execFadeStart tile len t) := by
  unfold execFadeStart
  with_reducible repeat' (first | assumption | intro u | apply answers_next | apply answers_ite | apply keeps_ite | apply State.startFade_keeps | dsimp only | split)

theorem State.restTile_keeps {s t : State} (t_1 : Nat) (h : Keeps s t) : Keeps s (State.restTile t t_1) := by
  unfold State.restTile
  with_reducible repeat' (first | assumption | apply State.wrBit_keeps | intro u | apply keeps_foldl | apply State.setCell_keeps | apply State.setCoo_keeps | apply State.setHcode_keeps | apply State.setPbase_keeps | apply State.cooStat_keeps | apply State.toMode_keeps | apply State.dropBand_keeps | (rw [keeps_iff]; dsimp only; apply keeps_iff.1) | dsimp only)

theorem execFadeEnd_keeps {s t : State} (tile : Fin 64) (h : Keeps s t) : Answers s (execFadeEnd tile t) := by
  unfold execFadeEnd
  with_reducible repeat' (first | assumption | intro u | apply answers_next | apply answers_ite | apply keeps_ite | apply State.wrBit_keeps | apply State.setTileRec_keeps | apply State.restTile_keeps | (rw [keeps_iff]; dsimp only; apply keeps_iff.1) | dsimp only | split)

theorem State.writeOverride_keeps {s t : State} (c : Nat) (v : Word) (h : Keeps s t) : Keeps s (State.writeOverride t c v) := by
  unfold State.writeOverride
  with_reducible repeat' (first | assumption | intro u | apply keeps_ite | apply State.wr_keeps | apply State.err_keeps | apply State.setPbase_keeps | split)

theorem execDriveOverrideWrite_keeps {s t : State} (tile : Fin 64) (cell : Fin 76) (v : Word) (h : Keeps s t) : Answers s (execDriveOverrideWrite tile cell v t) := by
  unfold execDriveOverrideWrite
  with_reducible repeat' (first | assumption | apply answers_next | apply State.writeOverride_keeps)

theorem State.writeWave_keeps {s t : State} (t_1 : Nat) (o : Nat) (v : Word) (h : Keeps s t) : Keeps s (State.writeWave t t_1 o v) := by
  unfold State.writeWave
  with_reducible repeat' (first | assumption | intro u | apply keeps_ite | apply State.writeReg_keeps | apply State.err_keeps | split)

theorem execWaveformWrite_keeps {s t : State} (tile : Fin 64) (offset : Nat) (v : Word) (h : Keeps s t) : Answers s (execWaveformWrite tile offset v t) := by
  unfold execWaveformWrite
  with_reducible repeat' (first | assumption | apply answers_next | apply State.writeWave_keeps)

theorem execWaveformBankSelect_keeps {s t : State} (tile : Fin 64) (v : Word) (h : Keeps s t) : Answers s (execWaveformBankSelect tile v t) := by
  unfold execWaveformBankSelect
  with_reducible repeat' (first | assumption | apply answers_next | apply State.wrMask_keeps)

theorem execCommitInstant_keeps {s t : State} (tc : Nat) (h : Keeps s t) : Answers s (execCommitInstant tc t) := by
  unfold execCommitInstant
  with_reducible repeat' (first | assumption | intro u | apply answers_next | apply answers_ite | apply keeps_ite | apply State.applyCommit_keeps | dsimp only | split)

theorem State.applyPostponed_keeps {s t : State} (tc : Nat) (c : Nat) (h : Keeps s t) : Keeps s (State.applyPostponed t tc c) := by
  unfold State.applyPostponed
  with_reducible repeat' (first | assumption | intro u | apply keeps_ite | apply State.setCoo_keeps | apply State.law_keeps | apply State.offload_keeps | apply State.settleClamps_keeps | (rw [keeps_iff]; dsimp only; apply keeps_iff.1) | dsimp only | split)

theorem execPostponedApplication_keeps {s t : State} (tc : Nat) (h : Keeps s t) : Answers s (execPostponedApplication tc t) := by
  unfold execPostponedApplication
  with_reducible repeat' (first | assumption | intro u | apply answers_next | apply keeps_foldl | apply State.raise_keeps | apply State.retime_keeps | apply State.pendingBand_keeps | apply State.applyPostponed_keeps | (rw [keeps_iff]; dsimp only; apply keeps_iff.1) | dsimp only | split)

theorem State.passStage_keeps {s t : State} (c : Nat) (k : Nat) (inst : Nat) (rest : List (Nat × Nat)) (h : Keeps s t) : Keeps s (State.passStage t c k inst rest) := by
  unfold State.passStage
  with_reducible repeat' (first | assumption | intro u | apply keeps_ite | apply State.wrf_keeps | apply State.raise_keeps | apply State.setCoo_keeps | apply State.setPbase_keeps | apply State.settleClamps_keeps | (rw [keeps_iff]; dsimp only; apply keeps_iff.1) | dsimp only | split)

theorem execSpanPassageStage_keeps {s t : State} (cell : Fin 4864) (h : Keeps s t) : Answers s (execSpanPassageStage cell t) := by
  unfold execSpanPassageStage
  with_reducible repeat' (first | assumption | apply answers_next | apply State.passStage_keeps | dsimp only | split)

end Sys2Proof.Machine
end

