-- ==== Sys2Proof/Laws/KeepsMonitorCommands.lean ====
section
/-! SUPPORT. What the operations of Machine/MonitorCommands.lean keep (Laws/Keeps.lean). -/

namespace Sys2Proof.Machine

set_option Elab.async false
set_option linter.unreachableTactic false
set_option linter.unusedTactic false

theorem State.showSeq_keeps {s t : State} (t_1 : Nat) (h : Keeps s t) : Keeps s (State.showSeq t t_1) := by
  unfold State.showSeq
  with_reducible repeat' (first | assumption | apply State.wrBit_keeps)

theorem State.writeSeq_keeps {s t : State} (t_1 : Nat) (i : Nat) (v : Word) (h : Keeps s t) : Keeps s (State.writeSeq t t_1 i v) := by
  unfold State.writeSeq
  with_reducible repeat' (first | assumption | apply State.writeReg_keeps | apply State.showSeq_keeps)

theorem State.invalidateChan_keeps {s t : State} (t_1 : Nat) (ch : Nat) (n : Nat) (h : Keeps s t) : Keeps s (State.invalidateChan t t_1 ch n) := by
  unfold State.invalidateChan
  with_reducible repeat' (first | assumption | apply State.wrf_keeps)

theorem State.putSum_keeps {s t : State} (a : Nat) (x : Int) (h : Keeps s t) : Keeps s (State.putSum t a x) := by
  unfold State.putSum
  with_reducible repeat' (first | assumption | apply State.wr_keeps | dsimp only)

theorem State.accumulate_keeps {s t : State} (t_1 : Nat) (ch : Nat) (d : BitVec 16) (h : Keeps s t) : Keeps s (State.accumulate t t_1 ch d) := by
  unfold State.accumulate
  with_reducible repeat' (first | assumption | intro u | apply keeps_ite | apply State.when_keeps | apply State.wr_keeps | apply State.wrBit_keeps | apply State.putSum_keeps | dsimp only | split)

theorem State.countInvalid_keeps {s t : State} (t_1 : Nat) (ch : Nat) (h : Keeps s t) : Keeps s (State.countInvalid t t_1 ch) := by
  unfold State.countInvalid
  with_reducible repeat' (first | assumption | apply State.count_keeps)

theorem State.clearBlock_keeps {s t : State} (t_1 : Nat) (ch : Nat) (h : Keeps s t) : Keeps s (State.clearBlock t t_1 ch) := by
  unfold State.clearBlock
  with_reducible repeat' (first | assumption | intro u | apply keeps_foldl | apply State.wr_keeps | dsimp only)

theorem State.windowTest_keeps {s t : State} (t_1 : Nat) (ch : Nat) (d : BitVec 16) (h : Keeps s t) : Keeps s (State.windowTest t t_1 ch d) := by
  unfold State.windowTest
  with_reducible repeat' (first | assumption | intro u | apply keeps_ite | apply State.wr_keeps | apply State.wrBit_keeps | apply State.errCores_keeps | apply State.setChan_keeps | (rw [keeps_iff]; dsimp only; apply keeps_iff.1) | dsimp only | split)

theorem State.lightSample_keeps {s t : State} (t_1 : Nat) (ch : Nat) (d : BitVec 16) (h : Keeps s t) : Keeps s (State.lightSample t t_1 ch d) := by
  unfold State.lightSample
  with_reducible repeat' (first | assumption | intro u | apply keeps_ite | apply State.setLightRun_keeps | dsimp only | split)

theorem State.sample_keeps {s t : State} (t_1 : Nat) (ch : Nat) (first : Bool) (d : BitVec 16) (h : Keeps s t) : Keeps s (State.sample t t_1 ch first d) := by
  unfold State.sample
  with_reducible repeat' (first | assumption | intro u | apply keeps_ite | apply State.wrf_keeps | apply State.cooSample_keeps | apply State.setMon_keeps | apply State.setChan_keeps | apply State.accumulate_keeps | apply State.countInvalid_keeps | apply State.windowTest_keeps | apply State.lightSample_keeps | (rw [keeps_iff]; dsimp only; apply keeps_iff.1) | dsimp only | split)

theorem execMonitorSample_keeps {s t : State} (tile : Fin 64) (ch : Fin 92) (second : Bool) (code : BitVec 16) (h : Keeps s t) : Answers s (execMonitorSample tile ch second code t) := by
  unfold execMonitorSample
  with_reducible repeat' (first | assumption | intro u | apply answers_next | apply answers_ite | apply keeps_ite | apply State.setMon_keeps | apply State.sample_keeps | (rw [keeps_iff]; dsimp only; apply keeps_iff.1) | dsimp only | split)

theorem State.endFrameChan_keeps {s t : State} (t_1 : Nat) (ch : Nat) (h : Keeps s t) : Keeps s (State.endFrameChan t t_1 ch) := by
  unfold State.endFrameChan
  with_reducible repeat' (first | assumption | intro u | apply keeps_ite | apply State.when_keeps | apply State.cooSample_keeps | apply State.setChan_keeps | apply State.countInvalid_keeps | (rw [keeps_iff]; dsimp only; apply keeps_iff.1) | dsimp only | split)

theorem State.takeConfig_keeps {s t : State} (t_1 : Nat) (ch : Nat) (h : Keeps s t) : Keeps s (State.takeConfig t t_1 ch) := by
  unfold State.takeConfig
  with_reducible repeat' (first | assumption | intro u | apply keeps_ite | apply State.when_keeps | apply State.wrLive_keeps | apply State.wrBit_keeps | apply State.invalidateChan_keeps | apply State.clearBlock_keeps | dsimp only | split)

theorem State.takeSequence_keeps {s t : State} (t_1 : Nat) (h : Keeps s t) : Keeps s (State.takeSequence t t_1) := by
  unfold State.takeSequence
  with_reducible repeat' (first | assumption | intro u | apply keeps_ite | apply keeps_foldl | apply State.wrLive_keeps | apply State.wrBit_keeps | apply State.err_keeps | apply State.showSeq_keeps | apply State.invalidateChan_keeps | dsimp only | split)

theorem State.takeMode_keeps {s t : State} (t_1 : Nat) (h : Keeps s t) : Keeps s (State.takeMode t t_1) := by
  unfold State.takeMode
  with_reducible repeat' (first | assumption | apply State.err_keeps | intro u | apply keeps_ite | apply keeps_foldl | apply State.wrf_keeps | apply State.setChan_keeps | (rw [keeps_iff]; dsimp only; apply keeps_iff.1) | dsimp only | split)

theorem State.takeBurst_keeps {s t : State} (t_1 : Nat) (h : Keeps s t) : Keeps s (State.takeBurst t t_1) := by
  unfold State.takeBurst
  with_reducible repeat' (first | assumption | intro u | apply keeps_ite | apply State.wrBit_keeps | apply State.setMon_keeps | (rw [keeps_iff]; dsimp only; apply keeps_iff.1) | dsimp only | split)

theorem execFrameBoundary_keeps {s t : State} (tile : Fin 64) (h : Keeps s t) : Answers s (execFrameBoundary tile t) := by
  unfold execFrameBoundary
  with_reducible repeat' (first | assumption | intro u | apply answers_next | apply answers_ite | apply keeps_ite | apply keeps_foldl | apply State.wr_keeps | apply State.setMon_keeps | apply State.noteStale_keeps | apply State.clearBlock_keeps | apply State.endFrameChan_keeps | apply State.takeConfig_keeps | apply State.takeSequence_keeps | apply State.takeMode_keeps | apply State.takeBurst_keeps | (rw [keeps_iff]; dsimp only; apply keeps_iff.1) | dsimp only | split)

theorem State.askSequence_keeps {s t : State} (t_1 : Nat) (h : Keeps s t) : Keeps s (State.askSequence t t_1) := by
  unfold State.askSequence
  with_reducible repeat' (first | assumption | intro u | apply keeps_ite | apply State.wrBit_keeps | apply State.err_keeps | split)

theorem execSequenceApply_keeps {s t : State} (tile : Fin 64) (h : Keeps s t) : Answers s (execSequenceApply tile t) := by
  unfold execSequenceApply
  with_reducible repeat' (first | assumption | apply answers_next | apply State.askSequence_keeps)

theorem State.writeChcfg_keeps {s t : State} (t_1 : Nat) (ch : Nat) (v : Word) (h : Keeps s t) : Keeps s (State.writeChcfg t t_1 ch v) := by
  unfold State.writeChcfg
  with_reducible repeat' (first | assumption | intro u | apply keeps_ite | apply State.writeReg_keeps | apply State.setChan_keeps | (rw [keeps_iff]; dsimp only; apply keeps_iff.1) | dsimp only | split)

theorem execChannelConfigWrite_keeps {s t : State} (tile : Fin 64) (ch : Fin 92) (v : Word) (h : Keeps s t) : Answers s (execChannelConfigWrite tile ch v t) := by
  unfold execChannelConfigWrite
  with_reducible repeat' (first | assumption | apply answers_next | apply State.writeChcfg_keeps)

theorem State.writeMode_keeps {s t : State} (t_1 : Nat) (v : Word) (h : Keeps s t) : Keeps s (State.writeMode t t_1 v) := by
  unfold State.writeMode
  with_reducible repeat' (first | assumption | intro u | apply keeps_ite | apply State.when_keeps | apply State.writeReg_keeps | apply State.err_keeps | dsimp only | split)

theorem execMonitorModeWrite_keeps {s t : State} (tile : Fin 64) (v : Word) (h : Keeps s t) : Answers s (execMonitorModeWrite tile v t) := by
  unfold execMonitorModeWrite
  with_reducible repeat' (first | assumption | apply answers_next | apply State.writeMode_keeps)

theorem State.writeUrgent_keeps {s t : State} (t_1 : Nat) (v : Word) (h : Keeps s t) : Keeps s (State.writeUrgent t t_1 v) := by
  unfold State.writeUrgent
  with_reducible repeat' (first | assumption | intro u | apply keeps_ite | apply State.wr_keeps | apply State.writeReg_keeps | apply State.err_keeps | dsimp only | split)

theorem execUrgentRequest_keeps {s t : State} (tile : Fin 64) (v : Word) (h : Keeps s t) : Answers s (execUrgentRequest tile v t) := by
  unfold execUrgentRequest
  with_reducible repeat' (first | assumption | apply answers_next | apply State.writeUrgent_keeps)

theorem State.urgentSample_keeps {s t : State} (t_1 : Nat) (ch : Nat) (tal : Bool) (d : BitVec 16) (h : Keeps s t) : Keeps s (State.urgentSample t t_1 ch tal d).1 := by
  unfold State.urgentSample
  with_reducible repeat' (first | assumption | intro u | apply keeps_ite | apply State.wrf_keeps | apply State.accumulate_keeps | apply State.countInvalid_keeps | apply State.windowTest_keeps | dsimp only | split)

theorem execUrgentConversion_keeps {s t : State} (tile : Fin 64) (adc : Fin 4) (slot : Fin 23) (assayer : Option (Fin 92)) (code : BitVec 16) (h : Keeps s t) : Answers s (execUrgentConversion tile adc slot assayer code t) := by
  unfold execUrgentConversion
  with_reducible repeat' (first | assumption | apply State.setMon_keeps | intro u | apply answers_next | apply answers_ite | apply keeps_ite | apply State.wr_keeps | apply State.urgentSample_keeps | (rw [keeps_iff]; dsimp only; apply keeps_iff.1) | dsimp only | refine keeps_of_fst (by assumption) ?_ | split)

theorem State.startScal_keeps {s t : State} (t_1 : Nat) (v : Word) (h : Keeps s t) : Keeps s (State.startScal t t_1 v) := by
  unfold State.startScal
  with_reducible repeat' (first | assumption | intro u | apply keeps_ite | apply State.wr_keeps | apply State.err_keeps | split)

theorem execSelfCalibrationCommand_keeps {s t : State} (tile : Fin 64) (v : Word) (h : Keeps s t) : Answers s (execSelfCalibrationCommand tile v t) := by
  unfold execSelfCalibrationCommand
  with_reducible repeat' (first | assumption | apply answers_next | apply State.startScal_keeps)

theorem execAdcCalibrationDone_keeps {s t : State} (tile : Fin 64) (adc : Fin 4) (ok : Bool) (h : Keeps s t) : Answers s (execAdcCalibrationDone tile adc ok t) := by
  unfold execAdcCalibrationDone
  with_reducible repeat' (first | assumption | intro u | apply answers_next | apply answers_ite | apply keeps_ite | apply keeps_foldl | apply State.wrBit_keeps | apply State.err_keeps | apply State.setMon_keeps | apply State.invalidateChan_keeps | (rw [keeps_iff]; dsimp only; apply keeps_iff.1) | dsimp only | split)

theorem execConversionTrigger_keeps {s t : State} (tile : Fin 64) (h : Keeps s t) : Answers s (execConversionTrigger tile t) := by
  unfold execConversionTrigger
  with_reducible repeat' (first | assumption | intro u | apply answers_next | apply answers_ite | apply keeps_ite | apply State.setMon_keeps | (rw [keeps_iff]; dsimp only; apply keeps_iff.1) | dsimp only | split)

theorem State.askSnapshot_keeps {s t : State} (t_1 : Nat) (clr : Bool) (h : Keeps s t) : Keeps s (State.askSnapshot t t_1 clr) := by
  unfold State.askSnapshot
  with_reducible repeat' (first | assumption | apply State.setMon_keeps | (rw [keeps_iff]; dsimp only; apply keeps_iff.1))

theorem State.writeSnap_keeps {s t : State} (t_1 : Nat) (v : Word) (h : Keeps s t) : Keeps s (State.writeSnap t t_1 v) := by
  unfold State.writeSnap
  with_reducible repeat' (first | assumption | intro u | apply keeps_ite | apply State.wrBit_keeps | apply State.wrMask_keeps | apply State.askSnapshot_keeps | dsimp only | split)

theorem execSnapshotRequest_keeps {s t : State} (tile : Fin 64) (v : Word) (h : Keeps s t) : Answers s (execSnapshotRequest tile v t) := by
  unfold execSnapshotRequest
  with_reducible repeat' (first | assumption | apply answers_next | apply State.writeSnap_keeps)

theorem execSnapshotTrigger_keeps {s t : State} (tile : Fin 64) (h : Keeps s t) : Answers s (execSnapshotTrigger tile t) := by
  unfold execSnapshotTrigger
  with_reducible repeat' (first | assumption | intro u | apply answers_next | apply answers_ite | apply keeps_ite | apply State.when_keeps | apply State.err_keeps | apply State.askSnapshot_keeps | dsimp only | split)

theorem execTallySnapshot_keeps {s t : State} (tile : Fin 64) (h : Keeps s t) : Answers s (execTallySnapshot tile t) := by
  unfold execTallySnapshot
  with_reducible repeat' (first | assumption | intro u | apply answers_next | apply answers_ite | apply keeps_ite | apply keeps_foldl | apply State.wr_keeps | apply State.wrBit_keeps | apply State.bump_keeps | apply State.setMon_keeps | apply State.noteStale_keeps | apply State.clearBlock_keeps | (rw [keeps_iff]; dsimp only; apply keeps_iff.1) | dsimp only | split)

theorem State.writeClr_keeps {s t : State} (t_1 : Nat) (i : Nat) (v : Word) (h : Keeps s t) : Keeps s (State.writeClr t t_1 i v) := by
  unfold State.writeClr
  with_reducible repeat' (first | assumption | intro u | apply keeps_ite | apply State.wr_keeps | dsimp only | split)

theorem execChannelClear_keeps {s t : State} (tile : Fin 64) (word : Fin 3) (v : Word) (h : Keeps s t) : Answers s (execChannelClear tile word v t) := by
  unfold execChannelClear
  with_reducible repeat' (first | assumption | apply answers_next | apply State.writeClr_keeps)

end Sys2Proof.Machine
end

