-- ==== Sys2Proof/Laws/KeepsAssayerCommands.lean ====
section
/-! SUPPORT. What the operations of Machine/AssayerCommands.lean keep (Laws/Keeps.lean). -/

namespace Sys2Proof.Machine

set_option Elab.async false
set_option linter.unreachableTactic false
set_option linter.unusedTactic false

theorem State.stampNow_keeps {s t : State} (k : Nat) (h : Keeps s t) : Keeps s (State.stampNow t k) := by
  unfold State.stampNow
  with_reducible repeat' (first | assumption | (rw [keeps_iff]; dsimp only; apply keeps_iff.1))

theorem State.takeCal_keeps {s t : State} (x : CalRec) (h : Keeps s t) : Keeps s (State.takeCal t x) := by
  unfold State.takeCal
  with_reducible repeat' (first | assumption | apply State.setMode_keeps | apply State.draw_keeps | apply State.noteStale_keeps | apply State.setCoo_keeps | apply State.cooStat_keeps | apply State.toMode_keeps | (rw [keeps_iff]; dsimp only; apply keeps_iff.1) | dsimp only)

theorem State.asyRefuse_keeps {s t : State} (h : Keeps s t) : Keeps s (State.asyRefuse t) := by
  unfold State.asyRefuse
  with_reducible repeat' (first | assumption | apply State.err_keeps | apply State.asyResult_keeps | apply State.asyBegin_keeps | apply State.asyFinish_keeps)

theorem State.startFull_keeps {s t : State} (boot : Bool) (h : Keeps s t) : Keeps s (State.startFull t boot) := by
  unfold State.startFull
  with_reducible repeat' (first | assumption | intro u | apply keeps_foldl | apply State.wr_keeps | apply State.wrBit_keeps | apply State.lampStat_keeps | apply State.takeCal_keeps | apply State.asyStat_keeps | apply State.calSource_keeps | (rw [keeps_iff]; dsimp only; apply keeps_iff.1) | dsimp only)

theorem execFullcal_keeps {s t : State} (h : Keeps s t) : Answers s (execFullcal t) := by
  unfold execFullcal
  with_reducible repeat' (first | assumption | apply State.asyBegin_keeps | intro u | apply answers_next | apply answers_ite | apply keeps_ite | apply State.wr_keeps | apply State.asyRefuse_keeps | apply State.startFull_keeps | split)

theorem State.openCouplers_keeps {s t : State} (h : Keeps s t) : Keeps s (State.openCouplers t) := by
  unfold State.openCouplers
  with_reducible repeat' (first | assumption | intro u | apply keeps_ite | (rw [keeps_iff]; dsimp only; apply keeps_iff.1) | dsimp only | split)

theorem State.probeLight_keeps {s t : State} (band : Bool) (h : Keeps s t) : Keeps s (State.probeLight t band) := by
  unfold State.probeLight
  with_reducible repeat' (first | assumption | intro u | apply keeps_ite | apply State.calSource_keeps | apply State.openCouplers_keeps | dsimp only | split)

theorem State.cellcal_keeps {s t : State} (c : Nat) (full : Bool) (h : Keeps s t) : Keeps s (State.cellcal t c full) := by
  unfold State.cellcal
  with_reducible repeat' (first | assumption | apply State.wr_keeps | apply State.asyFinish_keeps | apply State.calSource_keeps | intro u | apply keeps_ite | apply State.asyResult_keeps | apply State.asyBegin_keeps | apply State.asyStat_keeps | apply State.takeCal_keeps | apply State.probeLight_keeps | (rw [keeps_iff]; dsimp only; apply keeps_iff.1) | dsimp only | split)

theorem execCellcal_keeps {s t : State} (cell : Fin 4864) (full : Bool) (h : Keeps s t) : Answers s (execCellcal cell full t) := by
  unfold execCellcal
  with_reducible repeat' (first | assumption | apply answers_next | apply State.cellcal_keeps)

theorem State.eraseHead_keeps {s t : State} (i : Nat) (h : Keeps s t) : Keeps s (State.eraseHead t i) := by
  unfold State.eraseHead
  with_reducible repeat' (first | assumption | apply State.eraseMem_keeps | (rw [keeps_iff]; dsimp only; apply keeps_iff.1))

theorem State.storeBank_keeps {s t : State} (i : Nat) (gen : Nat) (r : SaveRun) (h : Keeps s t) : Keeps s (State.storeBank t i gen r) := by
  unfold State.storeBank
  with_reducible repeat' (first | assumption | apply State.eraseMem_keeps | apply State.putMem_keeps | apply State.eraseHead_keeps | dsimp only)

theorem State.noSave_keeps {s t : State} (h : Keeps s t) : Keeps s (State.noSave t) := by
  unfold State.noSave
  with_reducible repeat' (first | assumption | intro u | (rw [keeps_iff]; dsimp only; apply keeps_iff.1) | dsimp only)

theorem State.dropSave_keeps {s t : State} (h : Keeps s t) : Keeps s (State.dropSave t) := by
  unfold State.dropSave
  with_reducible repeat' (first | assumption | (rw [keeps_iff]; dsimp only; apply keeps_iff.1) | intro u | apply keeps_ite | apply State.eraseHead_keeps | apply State.noSave_keeps | dsimp only | split)

theorem State.startSave_keeps {s t : State} (h : Keeps s t) : Keeps s (State.startSave t) := by
  unfold State.startSave
  with_reducible repeat' (first | assumption | intro u | apply State.asyStat_keeps | (rw [keeps_iff]; dsimp only; apply keeps_iff.1) | dsimp only)

theorem State.autosave_keeps {s t : State} (h : Keeps s t) : Keeps s (State.autosave t) := by
  unfold State.autosave
  with_reducible repeat' (first | assumption | intro u | apply keeps_ite | apply State.err_keeps | apply State.startSave_keeps | split)

theorem execSave_keeps {s t : State} (h : Keeps s t) : Answers s (execSave t) := by
  unfold execSave
  with_reducible repeat' (first | assumption | apply State.asyBegin_keeps | intro u | apply answers_next | apply answers_ite | apply keeps_ite | apply State.wr_keeps | apply State.asyRefuse_keeps | apply State.startSave_keeps | split)

theorem State.releaseCal_keeps {s t : State} (h : Keeps s t) : Keeps s (State.releaseCal t) := by
  unfold State.releaseCal
  with_reducible repeat' (first | assumption | intro u | apply keeps_foldl | apply State.leaveCal_keeps | dsimp only)

theorem State.stopFull_keeps {s t : State} (hold : Bool) (h : Keeps s t) : Keeps s (State.stopFull t hold) := by
  unfold State.stopFull
  with_reducible repeat' (first | assumption | apply State.asyStat_keeps | apply State.when_keeps | apply State.wrBit_keeps | apply State.lampStat_keeps | apply State.calSource_keeps | apply State.afterCal_keeps | apply State.releaseCal_keeps | (rw [keeps_iff]; dsimp only; apply keeps_iff.1) | dsimp only)

theorem execCalAbort_keeps {s t : State} (h : Keeps s t) : Answers s (execCalAbort t) := by
  unfold execCalAbort
  with_reducible repeat' (first | assumption | apply State.asyBegin_keeps | apply State.asyFinish_keeps | apply State.asyStat_keeps | intro u | apply answers_next | apply answers_ite | apply keeps_ite | apply keeps_foldl | apply State.asyResult_keeps | apply State.leaveCal_keeps | apply State.afterCal_keeps | apply State.stopFull_keeps | (rw [keeps_iff]; dsimp only; apply keeps_iff.1) | dsimp only | split)

theorem execCalsrcSettled_keeps {s t : State} (h : Keeps s t) : Answers s (execCalsrcSettled t) := by
  unfold execCalsrcSettled
  with_reducible repeat' (first | assumption | intro u | apply answers_next | apply answers_ite | apply keeps_ite | apply State.openCouplers_keeps | (rw [keeps_iff]; dsimp only; apply keeps_iff.1) | dsimp only | split)

theorem execBackgroundVisit_keeps {s t : State} (cell : Fin 4864) (h : Keeps s t) : Answers s (execBackgroundVisit cell t) := by
  unfold execBackgroundVisit
  with_reducible repeat' (first | assumption | apply State.calSource_keeps | intro u | apply answers_next | apply answers_ite | apply keeps_ite | apply State.asyStat_keeps | apply State.stampNow_keeps | apply State.takeCal_keeps | apply State.probeLight_keeps | (rw [keeps_iff]; dsimp only; apply keeps_iff.1) | dsimp only | split)

theorem State.stageWord_keeps {s t : State} (c : Nat) (q : Nat × Word) (v : Word) (h : Keeps s t) : Keeps s (State.stageWord t c q v) := by
  unfold State.stageWord
  with_reducible repeat' (first | assumption | intro u | apply keeps_ite | apply State.when_keeps | apply State.wrMask_keeps | apply State.err_keeps | dsimp only | split)

theorem State.stageMeasured_keeps {s t : State} (c : Nat) (band : Bool) (full : Bool) (fs : List (Nat × Word)) (h : Keeps s t) : Keeps s (State.stageMeasured t c band full fs) := by
  unfold State.stageMeasured
  with_reducible repeat' (first | assumption | apply State.wrMask_keeps | intro u | apply keeps_ite | apply keeps_foldl | apply State.markStaged_keeps | apply State.stageWord_keeps | (rw [keeps_iff]; dsimp only; apply keeps_iff.1) | dsimp only | split)

theorem State.recordMeasured_keeps {s t : State} (c : Nat) (band : Bool) (full : Bool) (res : Nat) (m : Measured) (h : Keeps s t) : Keeps s (State.recordMeasured t c band full res m) := by
  unfold State.recordMeasured
  with_reducible repeat' (first | assumption | intro u | apply keeps_ite | apply State.wrf_keeps | apply State.count_keeps | apply State.err_keeps | apply State.qualResult_keeps | apply State.stampNow_keeps | apply State.stageMeasured_keeps | (rw [keeps_iff]; dsimp only; apply keeps_iff.1) | dsimp only | split)

theorem execMeasurementComplete_keeps {s t : State} (cell : Fin 4864) (m : Measured) (h : Keeps s t) : Answers s (execMeasurementComplete cell m t) := by
  unfold execMeasurementComplete
  with_reducible repeat' (first | assumption | apply State.asyResult_keeps | apply State.asyBegin_keeps | apply State.asyStat_keeps | intro u | apply answers_next | apply answers_ite | apply keeps_ite | apply State.when_keeps | apply State.asyFinish_keeps | apply State.leaveCal_keeps | apply State.afterCal_keeps | apply State.recordMeasured_keeps | (rw [keeps_iff]; dsimp only; apply keeps_iff.1) | dsimp only | split)

theorem State.placeCal_keeps {s t : State} (cs : List Nat) (tc : Nat) (h : Keeps s t) : Keeps s (State.placeCal t cs tc) := by
  unfold State.placeCal
  with_reducible repeat' (first | assumption | apply State.lampStat_keeps | (rw [keeps_iff]; dsimp only; apply keeps_iff.1) | dsimp only)

theorem State.ride_keeps {s t : State} (tc : Nat) (cs : List Nat) (h : Keeps s t) : Keeps s (State.ride t tc cs) := by
  unfold State.ride
  with_reducible repeat' (first | assumption | apply State.setCommit_keeps | (rw [keeps_iff]; dsimp only; apply keeps_iff.1) | dsimp only | split)

theorem State.placeDark_keeps {s t : State} (cs : List Nat) (h : Keeps s t) : Keeps s (State.placeDark t cs) := by
  unfold State.placeDark
  with_reducible repeat' (first | assumption | intro u | apply keeps_ite | apply keeps_foldl | apply State.placeCal_keeps | apply State.ride_keeps | dsimp only | split)

theorem execCalibrationCommitPlacement_keeps {s t : State} (h : Keeps s t) : Answers s (execCalibrationCommitPlacement t) := by
  unfold execCalibrationCommitPlacement
  with_reducible repeat' (first | assumption | intro u | apply answers_next | apply answers_ite | apply keeps_ite | apply State.placeDark_keeps | dsimp only | split)

theorem State.openWindow_keeps {s t : State} (n : Nat) (o : Nat) (h : Keeps s t) : Keeps s (State.openWindow t n o) := by
  unfold State.openWindow
  with_reducible repeat' (first | assumption | intro u | apply keeps_ite | apply State.wrBit_keeps | apply State.placeCal_keeps | apply State.ride_keeps | dsimp only | split)

theorem execGuardWindowOpen_keeps {s t : State} (n : Fin 8) (h : Keeps s t) : Answers s (execGuardWindowOpen n t) := by
  unfold execGuardWindowOpen
  with_reducible repeat' (first | assumption | apply State.wrBit_keeps | apply State.placeCal_keeps | apply State.ride_keeps | intro u | apply answers_next | apply answers_ite | apply keeps_ite | apply State.raise_keeps | apply State.openWindow_keeps | dsimp only | split)

theorem State.unstage_keeps {s t : State} (f : FullCal) (h : Keeps s t) : Keeps s (State.unstage t f) := by
  unfold State.unstage
  with_reducible repeat' (first | assumption | apply State.wrMask_keeps | intro u | apply keeps_foldl | apply State.wr_keeps | apply State.markStaged_keeps | dsimp only)

theorem State.stillCal_keeps {s t : State} (h : Keeps s t) : Keeps s (State.stillCal t) := by
  unfold State.stillCal
  with_reducible repeat' (first | assumption | intro u | (rw [keeps_iff]; dsimp only; apply keeps_iff.1) | dsimp only)

theorem State.endBand_keeps {s t : State} (f : FullCal) (band : Bool) (h : Keeps s t) : Keeps s (State.endBand t f band) := by
  unfold State.endBand
  with_reducible repeat' (first | assumption | intro u | apply keeps_ite | apply State.wr_keeps | apply State.calSource_keeps | apply State.releaseCal_keeps | apply State.placeCal_keeps | apply State.stillCal_keeps | (rw [keeps_iff]; dsimp only; apply keeps_iff.1) | dsimp only | split)

theorem State.closeFull_keeps {s t : State} (f : FullCal) (h : Keeps s t) : Keeps s (State.closeFull t f) := by
  unfold State.closeFull
  with_reducible repeat' (first | assumption | apply State.asyResult_keeps | apply State.asyBegin_keeps | apply State.startSave_keeps | intro u | apply keeps_ite | apply State.wrBit_keeps | apply State.lampStat_keeps | apply State.asyFinish_keeps | apply State.asyStat_keeps | apply State.autosave_keeps | (rw [keeps_iff]; dsimp only; apply keeps_iff.1) | dsimp only | split)

theorem execFullcalStageComplete_keeps {s t : State} (h : Keeps s t) : Answers s (execFullcalStageComplete t) := by
  unfold execFullcalStageComplete
  with_reducible repeat' (first | assumption | apply keeps_foldl | intro u | apply answers_next | apply answers_ite | apply keeps_ite | apply State.wrf_keeps | apply State.unstage_keeps | apply State.stillCal_keeps | apply State.endBand_keeps | apply State.closeFull_keeps | (rw [keeps_iff]; dsimp only; apply keeps_iff.1) | dsimp only | split)

theorem State.noteSave_keeps {s t : State} (h : Keeps s t) : Keeps s (State.noteSave t) := by
  unfold State.noteSave
  with_reducible repeat' (first | assumption | (rw [keeps_iff]; dsimp only; apply keeps_iff.1))

theorem State.endSave_keeps {s t : State} (h : Keeps s t) : Keeps s (State.endSave t) := by
  unfold State.endSave
  with_reducible repeat' (first | assumption | apply State.noSave_keeps | (rw [keeps_iff]; dsimp only; apply keeps_iff.1))

theorem execSaveComplete_keeps {s t : State} (readBackOk : Bool) (h : Keeps s t) : Answers s (execSaveComplete readBackOk t) := by
  unfold execSaveComplete
  with_reducible repeat' (first | assumption | apply State.asyResult_keeps | apply State.asyBegin_keeps | (rw [keeps_iff]; dsimp only; apply keeps_iff.1) | intro u | apply answers_next | apply answers_ite | apply keeps_ite | apply State.wr_keeps | apply State.err_keeps | apply State.asyFinish_keeps | apply State.asyStat_keeps | apply State.eraseHead_keeps | apply State.storeBank_keeps | apply State.noteSave_keeps | apply State.endSave_keeps | dsimp only | split)

theorem execAutosave_keeps {s t : State} (h : Keeps s t) : Answers s (execAutosave t) := by
  unfold execAutosave
  with_reducible repeat' (first | assumption | apply State.startSave_keeps | intro u | apply answers_next | apply answers_ite | apply keeps_ite | apply State.autosave_keeps | split)

theorem execRestErrorMeasurement_keeps {s t : State} (cell : Fin 4864) (h : Keeps s t) : Answers s (execRestErrorMeasurement cell t) := by
  unfold execRestErrorMeasurement
  with_reducible repeat' (first | assumption | intro u | apply answers_next | apply answers_ite | apply keeps_ite | apply State.stampNow_keeps | apply State.takeCal_keeps | apply State.tnkStat_keeps | dsimp only | split)

theorem State.recordRest_keeps {s t : State} (c : Nat) (err : Option (BitVec 16)) (h : Keeps s t) : Keeps s (State.recordRest t c err) := by
  unfold State.recordRest
  with_reducible repeat' (first | assumption | apply State.wrf_keeps | apply State.stampNow_keeps | dsimp only | split)

theorem execRestErrorMeasured_keeps {s t : State} (cell : Fin 4864) (err : Option (BitVec 16)) (h : Keeps s t) : Answers s (execRestErrorMeasured cell err t) := by
  unfold execRestErrorMeasured
  with_reducible repeat' (first | assumption | apply State.tnkStat_keeps | intro u | apply answers_next | apply answers_ite | apply keeps_ite | apply State.leaveCal_keeps | apply State.afterCal_keeps | apply State.recordRest_keeps | dsimp only | split)

theorem State.countWrite_keeps {s t : State} (c : Nat) (h : Keeps s t) : Keeps s (State.countWrite t c) := by
  unfold State.countWrite
  with_reducible repeat' (first | assumption | intro u | apply keeps_ite | apply State.wrf_keeps | apply State.wrBit_keeps | apply State.err_keeps | dsimp only | split)

theorem execTinkerWriteOperation_keeps {s t : State} (cell : Fin 4864) (h : Keeps s t) : Answers s (execTinkerWriteOperation cell t) := by
  unfold execTinkerWriteOperation
  with_reducible repeat' (first | assumption | intro u | apply answers_next | apply answers_ite | apply keeps_ite | apply State.tnkStat_keeps | apply State.stampNow_keeps | apply State.countWrite_keeps | (rw [keeps_iff]; dsimp only; apply keeps_iff.1) | dsimp only | split)

theorem State.logWear_keeps {s t : State} (c : Nat) (h : Keeps s t) : Keeps s (State.logWear t c) := by
  unfold State.logWear
  with_reducible repeat' (first | assumption | (rw [keeps_iff]; dsimp only; apply keeps_iff.1))

theorem execWearLogProgrammed_keeps {s t : State} (h : Keeps s t) : Answers s (execWearLogProgrammed t) := by
  unfold execWearLogProgrammed
  with_reducible repeat' (first | assumption | intro u | apply answers_next | apply answers_ite | apply keeps_ite | apply State.logWear_keeps | (rw [keeps_iff]; dsimp only; apply keeps_iff.1) | dsimp only | split)

theorem State.endVisit_keeps {s t : State} (c : Nat) (h : Keeps s t) : Keeps s (State.endVisit t c) := by
  unfold State.endVisit
  with_reducible repeat' (first | assumption | apply State.tnkStat_keeps | intro u | apply State.leaveCal_keeps | apply State.afterCal_keeps | apply State.stampNow_keeps | (rw [keeps_iff]; dsimp only; apply keeps_iff.1) | dsimp only | split)

theorem State.markStuck_keeps {s t : State} (c : Nat) (h : Keeps s t) : Keeps s (State.markStuck t c) := by
  unfold State.markStuck
  with_reducible repeat' (first | assumption | apply State.wrf_keeps | apply State.wrBit_keeps | apply State.err_keeps | apply State.logWear_keeps)

theorem State.endOperation_keeps {s t : State} (t_1 : TinkOp) (h : Keeps s t) : Keeps s (State.endOperation t t_1) := by
  unfold State.endOperation
  with_reducible repeat' (first | assumption | intro u | apply keeps_ite | apply State.endVisit_keeps | apply State.markStuck_keeps | (rw [keeps_iff]; dsimp only; apply keeps_iff.1) | split)

theorem execTrimPulseRemeasure_keeps {s t : State} (cell : Fin 4864) (err : BitVec 16) (h : Keeps s t) : Answers s (execTrimPulseRemeasure cell err t) := by
  unfold execTrimPulseRemeasure
  with_reducible repeat' (first | assumption | intro u | apply answers_next | apply answers_ite | apply keeps_ite | apply State.recordRest_keeps | apply State.endOperation_keeps | (rw [keeps_iff]; dsimp only; apply keeps_iff.1) | dsimp only | split)

theorem State.refreshWarn_keeps {s t : State} (h : Keeps s t) : Keeps s (State.refreshWarn t) := by
  unfold State.refreshWarn
  with_reducible repeat' (first | assumption | intro u | apply keeps_ite | apply keeps_foldl | apply State.when_keeps | apply State.wrf_keeps | apply State.wrBit_keeps | apply State.err_keeps | dsimp only | split)

theorem State.clearStuck_keeps {s t : State} (v : Word) (h : Keeps s t) : Keeps s (State.clearStuck t v) := by
  unfold State.clearStuck
  with_reducible repeat' (first | assumption | intro u | apply keeps_ite | apply State.wrf_keeps | apply State.wrBit_keeps | apply State.logWear_keeps | dsimp only | split)

theorem execStuckClear_keeps {s t : State} (v : Word) (h : Keeps s t) : Answers s (execStuckClear v t) := by
  unfold execStuckClear
  with_reducible repeat' (first | assumption | apply answers_next | apply State.clearStuck_keeps)

end Sys2Proof.Machine
end

