-- ==== Sys2Proof/Laws/KeepsTimeCommands.lean ====
section
/-! SUPPORT. What the operations of Machine/TimeCommands.lean keep (Laws/Keeps.lean). -/

namespace Sys2Proof.Machine

set_option Elab.async false
set_option linter.unreachableTactic false
set_option linter.unusedTactic false

theorem State.timeEvent_keeps {s t : State} (kind : Nat) (st : Nat) (unit : Nat) (w5 : Word) (h : Keeps s t) : Keeps s (State.timeEvent t kind st unit w5) := by
  unfold State.timeEvent
  with_reducible repeat' (first | assumption | apply State.eventMgmt_keeps)

theorem State.takeIncr_keeps {s t : State} (h : Keeps s t) : Keeps s (State.takeIncr t) := by
  unfold State.takeIncr
  with_reducible repeat' (first | assumption | intro u | apply keeps_ite | apply State.wrLive_keeps | apply State.wrBit_keeps | (rw [keeps_iff]; dsimp only; apply keeps_iff.1) | dsimp only | split)

theorem State.tick_keeps {s t : State} (h : Keeps s t) : Keeps s (State.tick t) := by
  unfold State.tick
  with_reducible repeat' (first | assumption | intro u | apply keeps_ite | apply State.wr_keeps | apply State.wrBit_keeps | apply State.takeIncr_keeps | (rw [keeps_iff]; dsimp only; apply keeps_iff.1) | dsimp only | split)

theorem State.writeIncr_keeps {s t : State} (v : Word) (h : Keeps s t) : Keeps s (State.writeIncr t v) := by
  unfold State.writeIncr
  with_reducible repeat' (first | assumption | intro u | apply keeps_ite | apply State.writeReg_keeps | (rw [keeps_iff]; dsimp only; apply keeps_iff.1) | dsimp only | split)

theorem execIncrementWrite_keeps {s t : State} (v : Word) (h : Keeps s t) : Answers s (execIncrementWrite v t) := by
  unfold execIncrementWrite
  with_reducible repeat' (first | assumption | apply answers_next | apply State.writeIncr_keeps)

theorem State.writeAdj_keeps {s t : State} (v : Word) (h : Keeps s t) : Keeps s (State.writeAdj t v) := by
  unfold State.writeAdj
  with_reducible repeat' (first | assumption | intro u | apply keeps_ite | apply State.wr_keeps | apply State.wrBit_keeps | (rw [keeps_iff]; dsimp only; apply keeps_iff.1) | dsimp only | split)

theorem execAdjustmentStart_keeps {s t : State} (v : Word) (h : Keeps s t) : Answers s (execAdjustmentStart v t) := by
  unfold execAdjustmentStart
  with_reducible repeat' (first | assumption | apply answers_next | apply State.writeAdj_keeps)

theorem execAdjustmentEnd_keeps {s t : State} (h : Keeps s t) : Answers s (execAdjustmentEnd t) := by
  unfold execAdjustmentEnd
  with_reducible repeat' (first | assumption | intro u | apply answers_next | apply answers_ite | apply keeps_ite | apply State.wr_keeps | apply State.wrBit_keeps | apply State.takeIncr_keeps | (rw [keeps_iff]; dsimp only; apply keeps_iff.1) | dsimp only | split)

theorem State.askStep_keeps {s t : State} (op : Nat) (h : Keeps s t) : Keeps s (State.askStep t op) := by
  unfold State.askStep
  with_reducible repeat' (first | assumption | intro u | apply keeps_ite | apply State.wrBit_keeps | apply State.err_keeps | (rw [keeps_iff]; dsimp only; apply keeps_iff.1) | split)

theorem State.writeStepctl_keeps {s t : State} (v : Word) (h : Keeps s t) : Keeps s (State.writeStepctl t v) := by
  unfold State.writeStepctl
  with_reducible repeat' (first | assumption | intro u | apply keeps_ite | apply State.askStep_keeps | split)

theorem execSet_keeps {s t : State} (h : Keeps s t) : Answers s (execSet t) := by
  unfold execSet
  with_reducible repeat' (first | assumption | apply answers_next | apply State.askStep_keeps)

theorem execStep_keeps {s t : State} (h : Keeps s t) : Answers s (execStep t) := by
  unfold execStep
  with_reducible repeat' (first | assumption | apply answers_next | apply State.askStep_keeps)

theorem State.setTarget_keeps {s t : State} (u : Nat) (t_1 : Nat) (h : Keeps s t) : Keeps s (State.setTarget t u t_1) := by
  unfold State.setTarget
  with_reducible repeat' (first | assumption | apply State.wr_keeps | apply State.wrf_keeps | dsimp only)

theorem State.driveTriggers_keeps {s t : State} (u : Nat) (h : Keeps s t) : Keeps s (State.driveTriggers t u) := by
  unfold State.driveTriggers
  refine State.send_keeps _ (keeps_foldl _ _ (fun v i hv => ?_) h)
  have step : ∀ {w : State} {c : Prop} [Decidable c] {r : Result}, Keeps s w → Answers s r → Keeps s (if c then stateOf w r else w) := by
    intro w c _ r hw hr
    exact keeps_ite (fun _ => stateOf_keeps r hr hw) fun _ => hw
  have h1 := step (c := wbit (v.rd (Reg.TIM_TILESEL i)) 31 && fld (v.rd (Reg.TIM_TILESEL i)) 24 6 == u) hv
    (execConversionTrigger_keeps (Fin.ofNat 64 i) hv)
  have h2 := step (c := wbit (v.rd (Reg.TIM_TILESEL i)) 23 && fld (v.rd (Reg.TIM_TILESEL i)) 16 6 == u) h1
    (execSnapshotTrigger_keeps (Fin.ofNat 64 i) h1)
  exact step (c := wbit (v.rd (Reg.TIM_TILESEL i)) 15 && fld (v.rd (Reg.TIM_TILESEL i)) 8 6 == u) h2
    (execCycleTrigger_keeps (Fin.ofNat 64 i) h2)

theorem State.noteAhead_keeps {s t : State} (u : Nat) (h : Keeps s t) : Keeps s (State.noteAhead t u) := by
  unfold State.noteAhead
  with_reducible repeat' (first | assumption | intro u | apply keeps_ite | (rw [keeps_iff]; dsimp only; apply keeps_iff.1) | dsimp only | split)

theorem State.fireUnit_keeps {s t : State} (u : Nat) (arming : Bool) (skip : Bool) (h : Keeps s t) : Keeps s (State.fireUnit t u arming skip) := by
  unfold State.fireUnit
  with_reducible repeat' (first | assumption | intro u | apply keeps_ite | apply State.when_keeps | apply State.driveTriggers_keeps | apply State.wrf_keeps | apply State.wrBit_keeps | apply State.err_keeps | apply State.timeEvent_keeps | apply State.setTarget_keeps | apply State.noteAhead_keeps | dsimp only | split)

theorem State.writeCmp_keeps {s t : State} (u : Nat) (w : Nat) (v : Word) (h : Keeps s t) : Keeps s (State.writeCmp t u w v) := by
  unfold State.writeCmp
  with_reducible repeat' (first | assumption | apply State.noteAhead_keeps | intro u | apply keeps_ite | apply State.writeReg_keeps | apply State.err_keeps | apply State.fireUnit_keeps | dsimp only | split)

theorem execCompareArm_keeps {s t : State} (unit : Fin 64) (v : Word) (h : Keeps s t) : Answers s (execCompareArm unit v t) := by
  unfold execCompareArm
  with_reducible repeat' (first | assumption | apply answers_next | apply State.writeCmp_keeps)

theorem execCompareFire_keeps {s t : State} (unit : Fin 64) (h : Keeps s t) : Answers s (execCompareFire unit t) := by
  unfold execCompareFire
  with_reducible repeat' (first | assumption | intro u | apply answers_next | apply answers_ite | apply keeps_ite | apply State.raise_keeps | apply State.fireUnit_keeps | dsimp only | split)

theorem State.cmpStep_keeps {s t : State} (old : Nat) (u : Nat) (h : Keeps s t) : Keeps s (State.cmpStep t old u) := by
  unfold State.cmpStep
  with_reducible repeat' (first | assumption | intro u | apply keeps_ite | apply State.setTarget_keeps | apply State.fireUnit_keeps | dsimp only | split)

theorem State.holdCut_keeps {s t : State} (c : Nat) (h : Keeps s t) : Keeps s (State.holdCut t c) := by
  unfold State.holdCut
  with_reducible repeat' (first | assumption | intro u | apply keeps_ite | apply State.setCoo_keeps | (rw [keeps_iff]; dsimp only; apply keeps_iff.1) | dsimp only | split)

theorem State.cutFrame_keeps {s t : State} (t_1 : Nat) (h : Keeps s t) : Keeps s (State.cutFrame t t_1) := by
  unfold State.cutFrame
  with_reducible repeat' (first | assumption | intro u | apply keeps_foldl | apply State.setMon_keeps | apply State.endFrameChan_keeps | apply State.holdCut_keeps | (rw [keeps_iff]; dsimp only; apply keeps_iff.1) | dsimp only)

theorem State.tilesStep_keeps {s t : State} (old : Nat) (h : Keeps s t) : Keeps s (State.tilesStep t old) := by
  unfold State.tilesStep
  with_reducible repeat' (first | assumption | apply State.setMon_keeps | apply State.endFrameChan_keeps | intro u | apply keeps_ite | apply keeps_foldl | apply State.setTileRec_keeps | apply State.cutFrame_keeps | (rw [keeps_iff]; dsimp only; apply keeps_iff.1) | dsimp only | split)

theorem State.windowsStep_keeps {s t : State} (h : Keeps s t) : Keeps s (State.windowsStep t) := by
  unfold State.windowsStep
  with_reducible repeat' (first | assumption | intro u | apply keeps_ite | apply keeps_foldl | apply State.wrBit_keeps | apply State.openWindow_keeps | dsimp only | split)

theorem execStepApply_keeps {s t : State} (h : Keeps s t) : Answers s (execStepApply t) := by
  unfold execStepApply
  with_reducible repeat' (first | assumption | apply State.dropCommit_keeps | apply State.unplaceAll_keeps | apply State.lampStat_keeps | intro u | apply answers_next | apply answers_ite | apply keeps_ite | apply keeps_foldl | apply State.wr_keeps | apply State.wrBit_keeps | apply State.raise_keeps | apply State.place_keeps | apply State.timeEvent_keeps | apply State.cmpStep_keeps | apply State.tilesStep_keeps | apply State.windowsStep_keeps | (rw [keeps_iff]; dsimp only; apply keeps_iff.1) | dsimp only | split)

theorem State.servoTo_keeps {s t : State} (st : Nat) (h : Keeps s t) : Keeps s (State.servoTo t st) := by
  unfold State.servoTo
  with_reducible repeat' (first | assumption | intro u | apply keeps_ite | apply State.when_keeps | apply State.wrf_keeps | apply State.wrBit_keeps | apply State.err_keeps | apply State.timeEvent_keeps | (rw [keeps_iff]; dsimp only; apply keeps_iff.1) | dsimp only | split)

theorem State.enterHoldover_keeps {s t : State} (h : Keeps s t) : Keeps s (State.enterHoldover t) := by
  unfold State.enterHoldover
  with_reducible repeat' (first | assumption | intro u | apply keeps_ite | apply State.servoTo_keeps | dsimp only | split)

theorem State.servoStep_keeps {s t : State} (ps : Int) (h : Keeps s t) : Keeps s (State.servoStep t ps) := by
  unfold State.servoStep
  with_reducible repeat' (first | assumption | intro u | apply keeps_ite | apply State.servoTo_keeps | (rw [keeps_iff]; dsimp only; apply keeps_iff.1) | dsimp only | split)

theorem State.writeTimCtrl_keeps {s t : State} (v : Word) (h : Keeps s t) : Keeps s (State.writeTimCtrl t v) := by
  unfold State.writeTimCtrl
  with_reducible repeat' (first | assumption | intro u | apply keeps_ite | apply State.wrMask_keeps | apply State.servoTo_keeps | dsimp only | split)

theorem State.publish_keeps {s t : State} (t1 : Int) (t2 : Int) (t3 : Int) (t4 : Int) (h : Keeps s t) : Keeps s (State.publish t t1 t2 t3 t4) := by
  unfold State.publish
  with_reducible repeat' (first | assumption | intro u | apply keeps_ite | apply State.wr_keeps | apply State.bump_keeps | apply State.servoStep_keeps | dsimp only | split)

theorem State.ptpMessage_keeps {s t : State} (b : List Byte) (stamp : Int) (h : Keeps s t) : Keeps s (State.ptpMessage t b stamp) := by
  unfold State.ptpMessage
  with_reducible repeat' (first | assumption | intro u | apply keeps_ite | apply State.count_keeps | apply State.publish_keeps | (rw [keeps_iff]; dsimp only; apply keeps_iff.1) | dsimp only | split)

theorem execDelayReqTransmit_keeps {s t : State} (net : Fin 2) (landPs : Nat) (h : Keeps s t) : Answers s (execDelayReqTransmit net landPs t) := by
  unfold execDelayReqTransmit
  with_reducible repeat' (first | assumption | intro u | apply answers_next | apply answers_ite | apply keeps_ite | apply State.draw_keeps | apply State.sendOn_keeps | (rw [keeps_iff]; dsimp only; apply keeps_iff.1) | dsimp only | split)

theorem execPtpTimeout_keeps {s t : State} (h : Keeps s t) : Answers s (execPtpTimeout t) := by
  unfold execPtpTimeout
  with_reducible repeat' (first | assumption | apply answers_next | apply State.enterHoldover_keeps | (rw [keeps_iff]; dsimp only; apply keeps_iff.1))

theorem execPpsoutPulse_keeps {s t : State} (h : Keeps s t) : Answers s (execPpsoutPulse t) := by
  unfold execPpsoutPulse
  with_reducible repeat' (first | assumption | intro u | apply answers_next | apply answers_ite | apply keeps_ite | apply State.send_keeps | apply State.raise_keeps | dsimp only | split)

theorem execPpsinEdge_keeps {s t : State} (h : Keeps s t) : Answers s (execPpsinEdge t) := by
  unfold execPpsinEdge
  with_reducible repeat' (first | assumption | intro u | apply answers_next | apply answers_ite | apply keeps_ite | apply State.wr_keeps | apply State.wrf_keeps | apply State.servoStep_keeps | (rw [keeps_iff]; dsimp only; apply keeps_iff.1) | dsimp only | split)

theorem execPpsinLoss_keeps {s t : State} (h : Keeps s t) : Answers s (execPpsinLoss t) := by
  unfold execPpsinLoss
  with_reducible repeat' (first | assumption | intro u | apply answers_next | apply answers_ite | apply keeps_ite | apply State.err_keeps | apply State.timeEvent_keeps | apply State.enterHoldover_keeps | dsimp only | split)

end Sys2Proof.Machine
end

