-- ==== Sys2Proof/Laws/KeepsPorter.lean ====
section
/-! SUPPORT. What the operations of Machine/Porter.lean keep (Laws/Keeps.lean). -/

namespace Sys2Proof.Machine

set_option Elab.async false
set_option linter.unreachableTactic false
set_option linter.unusedTactic false

theorem State.toMgmt_keeps {s t : State} (net : Nat) (b : List Byte) (h : Keeps s t) : Keeps s (State.toMgmt t net b) := by
  unfold State.toMgmt
  with_reducible repeat' (first | assumption | intro u | apply keeps_ite | apply State.draw_keeps | apply State.send_keeps | apply State.count_keeps | (rw [keeps_iff]; dsimp only; apply keeps_iff.1) | dsimp only | split)

theorem State.setLimiter_keeps {s t : State} (net : Nat) (lvl : Nat) (h : Keeps s t) : Keeps s (State.setLimiter t net lvl) := by
  unfold State.setLimiter
  with_reducible repeat' (first | assumption | (rw [keeps_iff]; dsimp only; apply keeps_iff.1))

theorem State.writePortcfg_keeps {s t : State} (net : Nat) (v : Word) (h : Keeps s t) : Keeps s (State.writePortcfg t net v) := by
  unfold State.writePortcfg
  with_reducible repeat' (first | assumption | apply State.writeReg_keeps | apply State.setLimiter_keeps)

theorem State.limited_keeps {s t : State} (net : Nat) (b : List Byte) (h : Keeps s t) : Keeps s (State.limited t net b) := by
  unfold State.limited
  extract_lets
  split
  · exact State.toMgmt_keeps _ _ (State.setLimiter_keeps _ _ h)
  · exact State.err_keeps _ _ (State.count_keeps _ _ _ _ (State.setLimiter_keeps _ _ h))

theorem State.answerOnce_keeps {s t : State} (n : Nat) (q : NgcpReq) (f : State → State) (hf : ∀ (u : State), Keeps s u → Keeps s (f u )) (h : Keeps s t) : Keeps s (State.answerOnce t n q f) := by
  unfold State.answerOnce
  with_reducible repeat' (first | assumption | apply hf | intro u | apply State.count_keeps | apply State.transmit_keeps | dsimp only | split)

theorem State.answerBad_keeps {s t : State} (f n : Nat) (h : Keeps s t) : Keeps s (State.answerBad f n t) := by
  induction f generalizing t with
  | zero => exact h
  | succ f ih =>
    rw [State.answerBad]
    split
    · split
      · exact h
      · exact ih (State.answerOnce_keeps n _ _ (fun u hu => State.ngcpAnswer_keeps _ _ _ _ _ _ hu) (State.setSession_keeps _ _ h))
    · exact h

theorem State.ngcpAccept_keeps {s t : State} (net : Nat) (n : Nat) (b : List Byte) (p : Parse) (h : Keeps s t) : Keeps s (State.ngcpAccept t net n b p) := by
  unfold State.ngcpAccept
  extract_lets
  split
  · exact h
  · split
    · exact State.setSession_keeps _ _ h
    · exact State.answerBad_keeps _ _ (State.setSession_keeps _ _ (State.setSession_keeps _ _ h))

theorem State.ngcpFrame_keeps {s t : State} (net : Nat) (n : Nat) (b : List Byte) (p : Parse) (h : Keeps s t) : Keeps s (State.ngcpFrame t net n b p) := by
  unfold State.ngcpFrame
  with_reducible repeat' (first | assumption | intro u | apply keeps_ite | apply State.count_keeps | apply State.err_keeps | apply State.ngcpAccept_keeps | split)

theorem State.standbyNgcp_keeps {s t : State} (h : Keeps s t) : Keeps s (State.standbyNgcp t) := by
  unfold State.standbyNgcp
  with_reducible repeat' (first | assumption | apply State.count_keeps)

theorem State.holdFrame_keeps {s t : State} (f : HeldFrame) (h : Keeps s t) : Keeps s (State.holdFrame t f) := by
  unfold State.holdFrame
  with_reducible repeat' (first | assumption | intro u | apply keeps_ite | apply State.wrBit_keeps | apply State.count_keeps | (rw [keeps_iff]; dsimp only; apply keeps_iff.1) | dsimp only | split)

theorem State.takeFrame_keeps {s t : State} (f : HeldFrame) (h : Keeps s t) : Keeps s (State.takeFrame t f) := by
  unfold State.takeFrame
  with_reducible repeat' (first | assumption | intro u | apply keeps_ite | apply State.ptpMessage_keeps | apply State.ngcpFrame_keeps | dsimp only | split)

theorem State.pathFrame_keeps {s t : State} (f : HeldFrame) (h : Keeps s t) : Keeps s (State.pathFrame t f) := by
  unfold State.pathFrame
  with_reducible repeat' (first | assumption | intro u | apply keeps_ite | apply State.standbyNgcp_keeps | apply State.holdFrame_keeps | apply State.takeFrame_keeps | dsimp only | split)

theorem State.defaultAct_keeps {s t : State} (net : Nat) (b : List Byte) (h : Keeps s t) : Keeps s (State.defaultAct t net b) := by
  unfold State.defaultAct
  with_reducible repeat' (first | assumption | intro u | apply keeps_ite | apply State.limited_keeps | split)

theorem State.parseFailed_keeps {s t : State} (net : Nat) (b : List Byte) (pstat : Nat) (h : Keeps s t) : Keeps s (State.parseFailed t net b pstat) := by
  unfold State.parseFailed
  with_reducible repeat' (first | assumption | intro u | apply keeps_ite | apply State.count_keeps | apply State.err_keeps | apply State.limited_keeps | apply State.defaultAct_keeps | dsimp only | split)

theorem State.classify_keeps {s t : State} (net : Nat) (b : List Byte) (pass : Bool) (macsec : Bool) (k : Nat) (stamp : Int) (again : State → Nat → State) (hagain : ∀ (u : State) x0, Keeps s u → Keeps s (again u x0)) (h : Keeps s t) : Keeps s (State.classify t net b pass macsec k stamp again) := by
  unfold State.classify
  with_reducible repeat' (first | assumption | apply hagain | intro u | apply keeps_ite | apply State.count_keeps | apply State.toMgmt_keeps | apply State.pathFrame_keeps | apply State.defaultAct_keeps | apply State.parseFailed_keeps | dsimp only | split)

theorem State.firstPass_keeps {s t : State} (net : Nat) (b : List Byte) (macsec : Bool) (stamp : Int) (h : Keeps s t) : Keeps s (State.firstPass t net b macsec stamp) := by
  unfold State.firstPass
  with_reducible repeat' (first | assumption | intro u | apply keeps_ite | apply State.count_keeps | apply State.classify_keeps | (rw [keeps_iff]; dsimp only; apply keeps_iff.1) | dsimp only | split)

theorem State.secondPass_keeps {s t : State} (r : RecircRec) (h : Keeps s t) : Keeps s (State.secondPass t r) := by
  unfold State.secondPass
  with_reducible repeat' (first | assumption | intro u | apply keeps_ite | apply State.count_keeps | apply State.classify_keeps | dsimp only | split)

theorem State.writeTcam_keeps {s t : State} (a : Nat) (v : Word) (h : Keeps s t) : Keeps s (State.writeTcam t a v) := by
  unfold State.writeTcam
  with_reducible repeat' (first | assumption | intro u | apply keeps_ite | apply State.writeReg_keeps | apply State.err_keeps | dsimp only | split)

theorem State.writeBank_keeps {s t : State} (v : Word) (h : Keeps s t) : Keeps s (State.writeBank t v) := by
  unfold State.writeBank
  with_reducible repeat' (first | assumption | intro u | apply keeps_ite | apply State.wrf_keeps | apply State.wrBit_keeps | apply State.err_keeps | dsimp only | split)

theorem State.writeSess_keeps {s t : State} (n : Nat) (w : Nat) (v : Word) (h : Keeps s t) : Keeps s (State.writeSess t n w v) := by
  unfold State.writeSess
  with_reducible repeat' (first | assumption | intro u | apply keeps_ite | apply State.writeReg_keeps | apply State.err_keeps | dsimp only | split)

end Sys2Proof.Machine
end

