-- ==== Sys2Proof/Laws/KeepsNetCommands.lean ====
section
/-! SUPPORT. What the operations of Machine/NetCommands.lean keep (Laws/Keeps.lean). -/

namespace Sys2Proof.Machine

set_option Elab.async false
set_option linter.unreachableTactic false
set_option linter.unusedTactic false

theorem State.setLink_keeps {s t : State} (k : Nat) (block : Bool) (fec : Bool) (h : Keeps s t) : Keeps s (State.setLink t k block fec) := by
  unfold State.setLink
  with_reducible repeat' (first | assumption | apply State.when_keeps | apply State.wrBit_keeps | apply State.err_keeps | dsimp only)

theorem State.pathEvent_keeps {s t : State} (kind : Nat) (cause : Nat) (dest : Nat) (cyc : Nat) (w5 : Nat) (t_1 : Nat) (h : Keeps s t) : Keeps s (State.pathEvent t kind cause dest cyc w5 t_1) := by
  unfold State.pathEvent
  with_reducible repeat' (first | assumption | apply State.wr_keeps | apply State.eventMgmt_keeps | dsimp only)

theorem State.bothDown_keeps {s t : State} (k : Nat) (cause : Nat) (h : Keeps s t) : Keeps s (State.bothDown t k cause) := by
  unfold State.bothDown
  with_reducible repeat' (first | assumption | apply State.wrBit_keeps | apply State.enterHoldover_keeps | apply State.pathEvent_keeps)

theorem State.singleRole_keeps {s t : State} (k : Nat) (h : Keeps s t) : Keeps s (State.singleRole t k) := by
  unfold State.singleRole
  with_reducible repeat' (first | assumption | intro u | apply keeps_ite | apply State.when_keeps | apply State.wrf_keeps | apply State.bothDown_keeps | dsimp only | split)

theorem execNetLinkChange_keeps {s t : State} (net : Fin 2) (blockLock : Bool) (fecLock : Bool) (h : Keeps s t) : Answers s (execNetLinkChange net blockLock fecLock t) := by
  unfold execNetLinkChange
  with_reducible repeat' (first | assumption | intro u | apply answers_next | apply answers_ite | apply keeps_ite | apply State.setLink_keeps | apply State.singleRole_keeps | split)

theorem State.writeNetCtrl_keeps {s t : State} (k : Nat) (v : Word) (h : Keeps s t) : Keeps s (State.writeNetCtrl t k v) := by
  unfold State.writeNetCtrl
  with_reducible repeat' (first | assumption | intro u | apply keeps_ite | apply State.wrBit_keeps | apply State.writeReg_keeps | apply State.setLink_keeps | apply State.singleRole_keeps | (rw [keeps_iff]; dsimp only; apply keeps_iff.1) | dsimp only | split)

theorem execLinkModeWrite_keeps {s t : State} (net : Fin 2) (v : Word) (h : Keeps s t) : Answers s (execLinkModeWrite net v t) := by
  unfold execLinkModeWrite
  with_reducible repeat' (first | assumption | apply answers_next | apply State.writeNetCtrl_keeps)

theorem State.notePacket_keeps {s t : State} (k : Nat) (x : SecyResult) (h : Keeps s t) : Keeps s (State.notePacket t k x) := by
  unfold State.notePacket
  with_reducible repeat' (first | assumption | (rw [keeps_iff]; dsimp only; apply keeps_iff.1) | dsimp only | split)

theorem execFrameReceived_keeps {s t : State} (net : Fin 2) (b : List Byte) (fcsOk : Bool) (secy : SecyResult) (landPs : Nat) (h : Keeps s t) : Answers s (execFrameReceived net b fcsOk secy landPs t) := by
  unfold execFrameReceived
  with_reducible repeat' (first | assumption | intro u | apply answers_next | apply answers_ite | apply keeps_ite | apply State.when_keeps | apply State.count_keeps | apply State.err_keeps | apply State.firstPass_keeps | apply State.notePacket_keeps | dsimp only | split)

theorem execRecirculate_keeps {s t : State} (h : Keeps s t) : Answers s (execRecirculate t) := by
  unfold execRecirculate
  with_reducible repeat' (first | assumption | intro u | apply answers_next | apply State.wrBit_keeps | apply State.secondPass_keeps | (rw [keeps_iff]; dsimp only; apply keeps_iff.1) | dsimp only | split)

theorem execBankSwap_keeps {s t : State} (v : Word) (h : Keeps s t) : Answers s (execBankSwap v t) := by
  unfold execBankSwap
  with_reducible repeat' (first | assumption | apply answers_next | apply State.writeBank_keeps)

theorem execSessionWrite_keeps {s t : State} (n : Fin 64) (word : Fin 2) (v : Word) (h : Keeps s t) : Answers s (execSessionWrite n word v t) := by
  unfold execSessionWrite
  with_reducible repeat' (first | assumption | apply answers_next | apply State.writeSess_keeps)

theorem State.serve_keeps {s t : State} (n : Nat) (op : Nat) (f : State → NgcpReq → State) (hf : ∀ (u : State) x0, Keeps s u → Keeps s (f u x0)) (h : Keeps s t) : Keeps s (State.serve t n op f) := by
  unfold State.serve
  with_reducible repeat' (first | assumption | apply State.transmit_keeps | apply hf | intro u | apply keeps_ite | apply State.answerBad_keeps | apply State.count_keeps | apply State.setSession_keeps | apply State.answerOnce_keeps | (rw [keeps_iff]; dsimp only; apply keeps_iff.1) | dsimp only | split)

theorem State.sessionSubmit_keeps {s t : State} (n : Nat) (r : NgcpReq) (h : Keeps s t) : Keeps s (State.sessionSubmit t n r) := by
  unfold State.sessionSubmit
  with_reducible repeat' (first | assumption | apply State.ngcpReply_keeps | intro u | apply keeps_ite | apply State.ngcpAnswer_keeps | apply State.submitRun_keeps | (rw [keeps_iff]; dsimp only; apply keeps_iff.1) | dsimp only | split)

theorem execSubmit_keeps {s t : State} (n : Fin 64) (h : Keeps s t) : Answers s (execSubmit n t) := by
  unfold execSubmit
  with_reducible repeat' (first | assumption | intro u | apply answers_next | apply answers_ite | apply keeps_ite | apply State.ngcpAnswer_keeps | apply State.lampStat_keeps | apply State.serve_keeps | apply State.sessionSubmit_keeps | dsimp only | split)

theorem execNgcpAbort_keeps {s t : State} (n : Fin 64) (h : Keeps s t) : Answers s (execNgcpAbort n t) := by
  unfold execNgcpAbort
  with_reducible repeat' (first | assumption | intro u | apply answers_next | apply answers_ite | apply keeps_ite | apply State.ngcpAnswer_keeps | apply State.abortFor_keeps | apply State.serve_keeps | dsimp only | split)

theorem execKeepalive_keeps {s t : State} (n : Fin 64) (h : Keeps s t) : Answers s (execKeepalive n t) := by
  unfold execKeepalive
  with_reducible repeat' (first | assumption | apply State.ngcpReply_keeps | intro u | apply answers_next | apply State.ngcpAnswer_keeps | apply State.serve_keeps | dsimp only)

theorem State.notifyFrame_keeps {s t : State} (n : Nat) (seq : Nat) (es : List (List Word)) (h : Keeps s t) : Keeps s (State.notifyFrame t n seq es) := by
  unfold State.notifyFrame
  with_reducible repeat' (first | assumption | apply State.transmit_keeps | dsimp only | split)

theorem State.sendNotify_keeps {s t : State} (n : Nat) (es : List (List Word)) (h : Keeps s t) : Keeps s (State.sendNotify t n es) := by
  unfold State.sendNotify
  with_reducible repeat' (first | assumption | apply State.transmit_keeps | apply State.setSession_keeps | apply State.notifyFrame_keeps | (rw [keeps_iff]; dsimp only; apply keeps_iff.1) | dsimp only)

theorem execNotify_keeps {s t : State} (n : Fin 64) (h : Keeps s t) : Answers s (execNotify n t) := by
  unfold execNotify
  with_reducible repeat' (first | assumption | intro u | apply answers_next | apply answers_ite | apply keeps_ite | apply State.setSession_keeps | apply State.sendNotify_keeps | (rw [keeps_iff]; dsimp only; apply keeps_iff.1) | dsimp only | split)

theorem execNotifyAck_keeps {s t : State} (n : Fin 64) (seq : Word) (h : Keeps s t) : Answers s (execNotifyAck n seq t) := by
  unfold execNotifyAck
  with_reducible repeat' (first | assumption | intro u | apply answers_next | apply State.setSession_keeps | (rw [keeps_iff]; dsimp only; apply keeps_iff.1) | dsimp only)

theorem execNotifyRetransmit_keeps {s t : State} (n : Fin 64) (h : Keeps s t) : Answers s (execNotifyRetransmit n t) := by
  unfold execNotifyRetransmit
  with_reducible repeat' (first | assumption | apply State.transmit_keeps | intro u | apply answers_next | apply answers_ite | apply keeps_ite | apply State.count_keeps | apply State.setSession_keeps | apply State.notifyFrame_keeps | (rw [keeps_iff]; dsimp only; apply keeps_iff.1) | dsimp only | split)

end Sys2Proof.Machine
end

