-- ==== Sys2Proof/Laws/KeepsPathCommands.lean ====
section
/-! SUPPORT. What the operations of Machine/PathCommands.lean keep (Laws/Keeps.lean). -/

namespace Sys2Proof.Machine

set_option Elab.async false
set_option linter.unreachableTactic false
set_option linter.unusedTactic false

theorem State.setRole_keeps {s t : State} (k : Nat) (r : Nat) (h : Keeps s t) : Keeps s (State.setRole t k r) := by
  unfold State.setRole
  with_reducible repeat' (first | assumption | apply State.wrf_keeps)

theorem State.pthResult_keeps {s t : State} (r : Nat) (h : Keeps s t) : Keeps s (State.pthResult t r) := by
  unfold State.pthResult
  with_reducible repeat' (first | assumption | apply State.wr_keeps)

theorem State.healthEvent_keeps {s t : State} (k : Nat) (cause : Nat) (h : Keeps s t) : Keeps s (State.healthEvent t k cause) := by
  unfold State.healthEvent
  with_reducible repeat' (first | assumption | apply State.pathEvent_keeps)

theorem State.takeEpoch_keeps {s t : State} (k : Nat) (h : Keeps s t) : Keeps s (State.takeEpoch t k) := by
  unfold State.takeEpoch
  dsimp only
  have key : ∀ (u : State) (o : Option EpochCopy), Keeps s u → Keeps s (match o with | some e => { u with ptp := e.ptp } | none => u) := by
    intro u o hu
    cases o
    · exact hu
    · exact hu
  refine key _ _ (keeps_foldl _ _ (fun u n hu => ?_) h)
  exact State.setSession_keeps _ _ hu

theorem execEpochStart_keeps {s t : State} (h : Keeps s t) : Answers s (execEpochStart t) := by
  unfold execEpochStart
  with_reducible repeat' (first | assumption | intro u | apply answers_next | apply answers_ite | apply keeps_ite | (rw [keeps_iff]; dsimp only; apply keeps_iff.1) | dsimp only | split)

theorem State.failOver_keeps {s t : State} (dest : Nat) (kind : Nat) (cause : Nat) (cmd : Bool) (h : Keeps s t) : Keeps s (State.failOver t dest kind cause cmd) := by
  unfold State.failOver
  with_reducible repeat' (first | assumption | apply State.takeEpoch_keeps | apply State.wrBit_keeps | apply State.enterHoldover_keeps | (rw [keeps_iff]; dsimp only; apply keeps_iff.1) | dsimp only)

theorem execEpochEnd_keeps {s t : State} (h : Keeps s t) : Answers s (execEpochEnd t) := by
  unfold execEpochEnd
  with_reducible repeat' (first | assumption | intro u | apply answers_next | apply answers_ite | apply keeps_ite | apply State.wr_keeps | apply State.failOver_keeps | (rw [keeps_iff]; dsimp only; apply keeps_iff.1) | dsimp only | split)

theorem execHeartbeat_keeps {s t : State} (path : Fin 2) (h : Keeps s t) : Answers s (execHeartbeat path t) := by
  unfold execHeartbeat
  with_reducible repeat' (first | assumption | intro u | apply answers_next | apply answers_ite | apply keeps_ite | apply State.send_keeps | split)

theorem State.endGap_keeps {s t : State} (h : Keeps s t) : Keeps s (State.endGap t) := by
  unfold State.endGap
  with_reducible repeat' (first | assumption | apply State.when_keeps | apply State.wrBit_keeps | apply State.count_keeps | (rw [keeps_iff]; dsimp only; apply keeps_iff.1) | dsimp only)

theorem State.abandonSwitch_keeps {s t : State} (h : Keeps s t) : Keeps s (State.abandonSwitch t) := by
  unfold State.abandonSwitch
  with_reducible repeat' (first | assumption | apply State.flushGap_keeps | apply State.pthResult_keeps | apply State.endGap_keeps)

theorem State.standbyFails_keeps {s t : State} (k : Nat) (cause : Nat) (h : Keeps s t) : Keeps s (State.standbyFails t k cause) := by
  unfold State.standbyFails
  with_reducible repeat' (first | assumption | apply State.setRole_keeps | apply State.healthEvent_keeps | apply State.abandonSwitch_keeps)

theorem State.gapFails_keeps {s t : State} (g : GapRec) (cause : Nat) (h : Keeps s t) : Keeps s (State.gapFails t g cause) := by
  unfold State.gapFails
  with_reducible repeat' (first | assumption | apply State.when_keeps | apply State.wrBit_keeps | apply State.count_keeps | (rw [keeps_iff]; dsimp only; apply keeps_iff.1) | intro u | apply keeps_ite | apply keeps_foldl | apply State.flushGap_keeps | apply State.bothDown_keeps | apply State.setRole_keeps | apply State.pthResult_keeps | apply State.endGap_keeps | apply State.standbyFails_keeps | dsimp only | split)

theorem State.activeFails_keeps {s t : State} (a : Nat) (cause : PathCause) (cmd : Bool) (h : Keeps s t) : Keeps s (State.activeFails t a cause cmd) := by
  unfold State.activeFails
  with_reducible repeat' (first | assumption | intro u | apply keeps_ite | apply State.when_keeps | apply State.flushGap_keeps | apply State.bothDown_keeps | apply State.setRole_keeps | apply State.pthResult_keeps | apply State.healthEvent_keeps | apply State.failOver_keeps | (rw [keeps_iff]; dsimp only; apply keeps_iff.1) | dsimp only | split)

theorem execActivePathFailure_keeps {s t : State} (cause : PathCause) (h : Keeps s t) : Answers s (execActivePathFailure cause t) := by
  unfold execActivePathFailure
  with_reducible repeat' (first | assumption | intro u | apply answers_next | apply answers_ite | apply keeps_ite | apply State.healthEvent_keeps | apply State.standbyFails_keeps | apply State.gapFails_keeps | apply State.activeFails_keeps | dsimp only | split)

theorem State.resync_keeps {s t : State} (w : Word) (seqs : List (Nat × Nat)) (h : Keeps s t) : Keeps s (State.resync t w seqs) := by
  unfold State.resync
  with_reducible repeat' (first | assumption | intro u | apply keeps_ite | apply keeps_foldl | apply State.sendNotify_keeps | dsimp only | split)

theorem execSwitchoverUp_keeps {s t : State} (gapCycles : Fin 4096) (h : Keeps s t) : Answers s (execSwitchoverUp gapCycles t) := by
  unfold execSwitchoverUp
  with_reducible repeat' (first | assumption | intro u | apply answers_next | apply answers_ite | apply keeps_ite | apply keeps_foldl | apply State.when_keeps | apply State.wrBit_keeps | apply State.count_keeps | apply State.flushGap_keeps | apply State.takeFrame_keeps | apply State.pathEvent_keeps | apply State.setRole_keeps | apply State.pthResult_keeps | apply State.resync_keeps | (rw [keeps_iff]; dsimp only; apply keeps_iff.1) | dsimp only | split)

theorem execTiebreak_keeps {s t : State} (h : Keeps s t) : Answers s (execTiebreak t) := by
  unfold execTiebreak
  with_reducible repeat' (first | assumption | intro u | apply answers_next | apply answers_ite | apply keeps_ite | apply State.when_keeps | apply State.wrBit_keeps | apply State.flushGap_keeps | apply State.pathEvent_keeps | apply State.setRole_keeps | apply State.pthResult_keeps | apply State.failOver_keeps | (rw [keeps_iff]; dsimp only; apply keeps_iff.1) | dsimp only | split)

theorem execStandbyHeartbeatLoss_keeps {s t : State} (h : Keeps s t) : Answers s (execStandbyHeartbeatLoss t) := by
  unfold execStandbyHeartbeatLoss
  with_reducible repeat' (first | assumption | apply State.when_keeps | apply State.pthResult_keeps | intro u | apply answers_next | apply answers_ite | apply keeps_ite | apply State.setRole_keeps | apply State.healthEvent_keeps | apply State.standbyFails_keeps | apply State.gapFails_keeps | (rw [keeps_iff]; dsimp only; apply keeps_iff.1) | dsimp only | split)

theorem State.noteMsup_keeps {s t : State} (k : Nat) (c : PathChecks) (h : Keeps s t) : Keeps s (State.noteMsup t k c) := by
  unfold State.noteMsup
  with_reducible repeat' (first | assumption | intro u | apply keeps_ite | apply State.wrBit_keeps | split)

theorem State.round_keeps {s t : State} (k : Nat) (c : PathChecks) (h : Keeps s t) : Keeps s (State.round t k c) := by
  unfold State.round
  with_reducible repeat' (first | assumption | intro u | apply keeps_ite | apply State.when_keeps | apply State.wr_keeps | apply State.wrBit_keeps | apply State.count_keeps | apply State.healthEvent_keeps | dsimp only | split)

theorem State.recover_keeps {s t : State} (k : Nat) (h : Keeps s t) : Keeps s (State.recover t k) := by
  unfold State.recover
  with_reducible repeat' (first | assumption | apply State.takeEpoch_keeps | apply State.pathEvent_keeps | apply State.setRole_keeps | apply State.resync_keeps | dsimp only)

theorem State.assignRoles_keeps {s t : State} (h : Keeps s t) : Keeps s (State.assignRoles t) := by
  unfold State.assignRoles
  with_reducible repeat' (first | assumption | intro u | apply keeps_ite | apply keeps_foldl | apply State.setRole_keeps | apply State.recover_keeps | dsimp only | split)

theorem execWatchmanRound_keeps {s t : State} (a : PathChecks) (b : PathChecks) (h : Keeps s t) : Answers s (execWatchmanRound a b t) := by
  unfold execWatchmanRound
  with_reducible repeat' (first | assumption | intro u | apply answers_next | apply answers_ite | apply keeps_ite | apply State.abandonSwitch_keeps | apply State.noteMsup_keeps | apply State.round_keeps | apply State.assignRoles_keeps | dsimp only | split)

theorem State.planSwitch_keeps {s t : State} (h : Keeps s t) : Keeps s (State.planSwitch t) := by
  unfold State.planSwitch
  with_reducible repeat' (first | assumption | intro u | apply keeps_ite | apply State.wr_keeps | apply State.pthResult_keeps | (rw [keeps_iff]; dsimp only; apply keeps_iff.1) | dsimp only | split)

theorem State.releasePath_keeps {s t : State} (k : Nat) (h : Keeps s t) : Keeps s (State.releasePath t k) := by
  unfold State.releasePath
  with_reducible repeat' (first | assumption | intro u | apply keeps_ite | apply State.setRole_keeps | apply State.pthResult_keeps | apply State.healthEvent_keeps | split)

theorem execSwitch_keeps {s t : State} (h : Keeps s t) : Answers s (execSwitch t) := by
  unfold execSwitch
  with_reducible repeat' (first | assumption | apply answers_next | apply State.planSwitch_keeps)

theorem execRelease_keeps {s t : State} (path : Fin 2) (h : Keeps s t) : Answers s (execRelease path t) := by
  unfold execRelease
  with_reducible repeat' (first | assumption | apply answers_next | apply State.releasePath_keeps)

theorem State.writePthCmd_keeps {s t : State} (v : Word) (h : Keeps s t) : Keeps s (State.writePthCmd t v) := by
  unfold State.writePthCmd
  with_reducible repeat' (first | assumption | apply State.wrBit_keeps | apply State.planSwitch_keeps | apply State.releasePath_keeps | dsimp only | split)

theorem State.startPaths_keeps {s t : State} (h : Keeps s t) : Keeps s (State.startPaths t) := by
  unfold State.startPaths
  with_reducible repeat' (first | assumption | intro u | apply keeps_ite | apply State.wrBit_keeps | apply State.singleRole_keeps | apply State.setRole_keeps | dsimp only | split)

end Sys2Proof.Machine
end

