-- ==== Sys2Proof/Laws/KeepsStart.lean ====
section
/-! SUPPORT. What the operations of Machine/Start.lean keep (Laws/Keeps.lean). -/

namespace Sys2Proof.Machine

set_option Elab.async false
set_option linter.unreachableTactic false
set_option linter.unusedTactic false

theorem State.saveRetention_keeps {s t : State} (h : Keeps s t) : Keeps s (State.saveRetention t) := by
  unfold State.saveRetention
  with_reducible repeat' (first | assumption | intro u | apply State.draw_keeps | apply State.wrf_keeps | (rw [keeps_iff]; dsimp only; apply keeps_iff.1) | dsimp only)

theorem State.restart_keeps {s t : State} (keep : Nat → Bool) (h : Keeps s t) : Keeps s (State.restart t keep) := by
  have hd := State.dropSave_keeps h
  rw [keeps_iff] at h hd ⊢
  exact ⟨fun x => ⟨Store.wf_filter _ _ (h.1 x).1, Store.wf_nil _, Store.wf_filter _ _ (hd.1 x).2.2⟩, h.2⟩

theorem State.setCause_keeps {s t : State} (cause : Nat) (rail : Nat) (h : Keeps s t) : Keeps s (State.setCause t cause rail) := by
  unfold State.setCause
  with_reducible repeat' (first | assumption | apply State.wrf_keeps)

theorem State.dropSource_keeps {s t : State} (h : Keeps s t) : Keeps s (State.dropSource t) := by
  unfold State.dropSource
  with_reducible repeat' (first | assumption | intro u | apply keeps_ite | apply State.send_keeps | split)

theorem State.releaseFault_keeps {s t : State} (h : Keeps s t) : Keeps s (State.releaseFault t) := by
  unfold State.releaseFault
  with_reducible repeat' (first | assumption | intro u | apply keeps_ite | apply State.send_keeps | split)

theorem State.moduleReset_keeps {s t : State} (cause : Nat) (rail : Nat) (h : Keeps s t) : Keeps s (State.moduleReset t cause rail) := by
  unfold State.moduleReset
  with_reducible repeat' (first | assumption | apply State.releaseFault_keeps | apply State.when_keeps | apply State.send_keeps | apply State.restart_keeps | apply State.wrBit_keeps | apply State.setCause_keeps | apply State.dropSource_keeps | dsimp only)

theorem State.enablesLow_keeps {s t : State} (h : Keeps s t) : Keeps s (State.enablesLow t) := by
  unfold State.enablesLow
  with_reducible repeat' (first | assumption | intro u | apply keeps_foldl | apply State.send_keeps | (rw [keeps_iff]; dsimp only; apply keeps_iff.1) | dsimp only)

theorem State.enable_keeps {s t : State} (r : Rail) (h : Keeps s t) : Keeps s (State.enable t r) := by
  unfold State.enable
  with_reducible repeat' (first | assumption | apply State.send_keeps | (rw [keeps_iff]; dsimp only; apply keeps_iff.1))

theorem State.turnOff_keeps {s t : State} (h : Keeps s t) : Keeps s (State.turnOff t) := by
  unfold State.turnOff
  have h1 : Keeps s (t.releaseFault.dropSource.enablesLow.send (.pin "XSPI_RST_N" false)) :=
    State.send_keeps _ (State.enablesLow_keeps (State.dropSource_keeps (State.releaseFault_keeps h)))
  have h2 := State.restart_keeps keptInP3 h1
  revert h1 h2
  generalize t.releaseFault.dropSource.enablesLow.send (.pin "XSPI_RST_N" false) = u
  intro h1 h2
  refine State.wrf_keeps _ _ _ _ (State.wrf_keeps _ _ _ _ ?_)
  rw [keeps_iff] at h1 h2 ⊢
  exact ⟨fun x => ⟨(h2.1 x).1, Store.wf_filter _ _ (h1.1 x).2.1, (h2.1 x).2.2⟩, h2.2⟩

theorem State.cutTile_keeps {s t : State} (t_1 : Nat) (h : Keeps s t) : Keeps s (State.cutTile t t_1) := by
  unfold State.cutTile
  with_reducible repeat' (first | assumption | apply State.wrBit_keeps | apply State.setTileRec_keeps | apply State.restTile_keeps | (rw [keeps_iff]; dsimp only; apply keeps_iff.1))

theorem State.leaveRest_keeps {s t : State} (xs : List (Nat × CellRec × Bool × Option Nat)) (h : Keeps s t) : Keeps s (State.leaveRest t xs) := by
  unfold State.leaveRest
  with_reducible repeat' (first | assumption | intro u | apply keeps_foldl | apply State.when_keeps | apply State.wr_keeps | apply State.wrf_keeps | apply State.wrBit_keeps | apply State.setCell_keeps | apply State.setMode_keeps | apply State.setCoo_keeps | apply State.setTileRec_keeps | apply State.setPbase_keeps | apply State.cooStat_keeps | apply State.notePsat_keeps | apply State.queueHeater_keeps | (rw [keeps_iff]; dsimp only; apply keeps_iff.1) | dsimp only | split)

theorem State.countFenced_keeps {s t : State} (h : Keeps s t) : Keeps s (State.countFenced t) := by
  unfold State.countFenced
  with_reducible repeat' (first | assumption | intro u | apply State.wrf_keeps | dsimp only)

theorem State.fenceCell_keeps {s t : State} (c : Nat) (h : Keeps s t) : Keeps s (State.fenceCell t c) := by
  unfold State.fenceCell
  with_reducible repeat' (first | assumption | apply State.setCoo_keeps | apply State.toMode_keeps | (rw [keeps_iff]; dsimp only; apply keeps_iff.1) | dsimp only)

theorem State.fenceTile_keeps {s t : State} (t_1 : Nat) (lock : Bool) (h : Keeps s t) : Keeps s (State.fenceTile t t_1 lock) := by
  unfold State.fenceTile
  with_reducible repeat' (first | assumption | apply State.setMode_keeps | intro u | apply keeps_ite | apply keeps_foldl | apply State.when_keeps | apply State.wrBit_keeps | apply State.err_keeps | apply State.reportAlone_keeps | apply State.lampStat_keeps | apply State.invalidate_keeps | apply State.decideProtection_keeps | apply State.cooStat_keeps | apply State.afterCal_keeps | apply State.deferCal_keeps | apply State.countFenced_keeps | apply State.fenceCell_keeps | (rw [keeps_iff]; dsimp only; apply keeps_iff.1) | dsimp only | split)

theorem State.flashEffect_keeps {s t : State} (f : FlashOp) (h : Keeps s t) : Keeps s (State.flashEffect t f) := by
  unfold State.flashEffect
  with_reducible repeat' (first | assumption | intro u | apply keeps_ite | apply State.eraseMem_keeps | apply State.putMem_keeps | (rw [keeps_iff]; dsimp only; apply keeps_iff.1) | dsimp only | split)

theorem State.cutFlash_keeps {s t : State} (h : Keeps s t) : Keeps s (State.cutFlash t) := by
  unfold State.cutFlash
  with_reducible repeat' (first | assumption | intro u | apply keeps_ite | apply State.wr_keeps | apply State.wrBit_keeps | apply State.flashEffect_keeps | (rw [keeps_iff]; dsimp only; apply keeps_iff.1) | dsimp only | split)

theorem State.fatal_keeps {s t : State} (cause : Nat) (island : Nat) (h : Keeps s t) : Keeps s (State.fatal t cause island) := by
  unfold State.fatal
  with_reducible repeat' (first | assumption | intro u | apply keeps_ite | apply keeps_foldl | apply State.wr_keeps | apply State.send_keeps | apply State.wrBit_keeps | apply State.count_keeps | apply State.err_keeps | apply State.dropSave_keeps | apply State.cutTile_keeps | apply State.cutFlash_keeps | (rw [keeps_iff]; dsimp only; apply keeps_iff.1) | dsimp only | split)

end Sys2Proof.Machine
end

