-- ==== Sys2Proof/Laws/KeepsPowerCommands.lean ====
section
/-! SUPPORT. What the operations of Machine/PowerCommands.lean keep (Laws/Keeps.lean). -/

namespace Sys2Proof.Machine

set_option Elab.async false
set_option linter.unreachableTactic false
set_option linter.unusedTactic false

theorem State.pwrStat_keeps {s t : State} (h : Keeps s t) : Keeps s (State.pwrStat t) := by
  unfold State.pwrStat
  with_reducible repeat' (first | assumption | apply step_keeps | apply State.wrf_keeps | apply State.wrBit_keeps | dsimp only)

theorem State.reqRes_keeps {s t : State} (r : PowerReq) (done : Bool) (result : Nat) (h : Keeps s t) : Keeps s (State.reqRes t r done result) := by
  unfold State.reqRes
  with_reducible repeat' (first | assumption | intro u | apply keeps_ite | apply State.wr_keeps | split)

theorem State.powerEvent_keeps {s t : State} (kind : Nat) (target : Nat) (mask : Nat) (w5 : Word) (h : Keeps s t) : Keeps s (State.powerEvent t kind target mask w5) := by
  unfold State.powerEvent
  with_reducible repeat' (first | assumption | apply State.eventMgmt_keeps)

theorem State.reqEnd_keeps {s t : State} (r : PowerReq) (res : Nat) (h : Keeps s t) : Keeps s (State.reqEnd t r res) := by
  unfold State.reqEnd
  with_reducible repeat' (first | assumption | intro u | apply keeps_ite | apply State.reqRes_keeps | apply State.powerEvent_keeps | dsimp only | split)

theorem State.setTrans_keeps {s t : State} (m : Nat) (b : Bool) (h : Keeps s t) : Keeps s (State.setTrans t m b) := by
  unfold State.setTrans
  with_reducible repeat' (first | assumption | intro u | apply keeps_foldl | apply State.wrBit_keeps | dsimp only)

theorem State.recordWake_keeps {s t : State} (src : Nat) (detail : Nat) (p3 : Bool) (t_1 : Nat) (h : Keeps s t) : Keeps s (State.recordWake t src detail p3 t_1) := by
  unfold State.recordWake
  with_reducible repeat' (first | assumption | apply State.wr_keeps)

theorem State.powerTile_keeps {s t : State} (t_1 : Nat) (h : Keeps s t) : Keeps s (State.powerTile t t_1) := by
  unfold State.powerTile
  with_reducible repeat' (first | assumption | apply State.setMon_keeps | apply State.wr_keeps | apply State.powerMon_keeps | (rw [keeps_iff]; dsimp only; apply keeps_iff.1))

/-- A write of the saved cells. -/
theorem groupSaved_keeps {s t : State} (x : List (Nat × CellRec × Bool × Option Nat)) (h : Keeps s t) : Keeps s { t with groupSaved := x } := h

theorem State.wakeGroup_keeps {s t : State} (g : Nat) (h : Keeps s t) : Keeps s (State.wakeGroup t g) := by
  unfold State.wakeGroup
  refine groupSaved_keeps _ (keeps_foldl _ _ (fun u i hu => State.reportAlone_keeps _ hu) (State.leaveRest_keeps _ ?_))
  exact keeps_foldl _ _ (fun u i hu => State.powerTile_keeps _ hu) (State.wrBit_keeps _ _ _ (State.wrBit_keeps _ _ _ h))

theorem State.wakeGroups_keeps {s t : State} (m : Nat) (src : Nat) (h : Keeps s t) : Keeps s (State.wakeGroups t m src) := by
  unfold State.wakeGroups
  with_reducible repeat' (first | assumption | intro u | apply keeps_ite | apply keeps_foldl | apply step_keeps | apply State.wakeGroup_keeps | apply State.powerEvent_keeps | apply State.recordWake_keeps | dsimp only | split)

theorem State.askStop_keeps {s t : State} (r : PowerReq) (n : Nat) (h : Keeps s t) : Keeps s (State.askStop t r n) := by
  unfold State.askStop
  with_reducible repeat' (first | assumption | intro u | apply keeps_ite | apply State.finish_keeps | apply State.setTrans_keeps | dsimp only | split)

theorem State.freeCal_keeps {s t : State} (r : PowerReq) (tinker : Bool) (h : Keeps s t) : Keeps s (State.freeCal t r tinker) := by
  unfold State.freeCal
  with_reducible repeat' (first | assumption | apply State.asyStat_keeps | apply State.tnkStat_keeps | intro u | apply keeps_ite | apply keeps_foldl | apply State.leaveCal_keeps | apply State.afterCal_keeps | apply State.deferCal_keeps | (rw [keeps_iff]; dsimp only; apply keeps_iff.1) | dsimp only | split)

theorem State.freezeAll_keeps {s t : State} (h : Keeps s t) : Keeps s (State.freezeAll t) := by
  unfold State.freezeAll
  with_reducible repeat' (first | assumption | apply State.setMode_keeps | intro u | apply keeps_ite | apply keeps_foldl | apply State.wrBit_keeps | apply State.cooStat_keeps | apply State.toMode_keeps | dsimp only | split)

/-- Words dropped, and the records of a tile's channels and sensors. -/
theorem dropTile_keeps {s t : State} (f : Nat × Word → Bool) (m : List (Nat × MonRec)) (c : List (Nat × ChanRec)) (n : List (Nat × SensorRec))
    (h : Keeps s t) : Keeps s { t with words := t.words.filter f, mons := m, chans := c, sensors := n } := by
  rw [keeps_iff] at h ⊢
  exact ⟨fun x => ⟨Store.wf_filter _ _ (h.1 x).1, (h.1 x).2⟩, h.2⟩

theorem State.sleepTile_keeps {s t : State} (i : Nat) (h : Keeps s t) : Keeps s (State.sleepTile t i) := by
  unfold State.sleepTile
  refine State.reportAlone_keeps _ (dropTile_keeps _ _ _ _ (keeps_foldl _ _ (fun u k hu => ?_) (State.wrf_keeps _ _ _ _
    (State.wrf_keeps _ _ _ _ (State.wrf_keeps _ _ _ _ (keeps_foldl _ _ (fun u k hu => ?_) ?_))))))
  · exact State.wrBit_keeps _ _ _ (State.wrBit_keeps _ _ _ hu)
  · exact State.wr_keeps _ _ hu
  · exact State.wr_keeps _ _ (State.wrBit_keeps _ _ _ (State.restTile_keeps _ (State.setTileRec_keeps _ _ h)))

theorem State.stepDone_keeps {s t : State} (r : PowerReq) (n : Nat) (h : Keeps s t) : Keeps s (State.stepDone t r n) := by
  unfold State.stepDone
  with_reducible repeat' (first | assumption | intro u | apply keeps_ite | apply keeps_foldl | apply State.sleepTile_keeps | apply State.wrf_keeps | apply State.wrBit_keeps | apply State.saveRetention_keeps | apply State.setTrans_keeps | apply State.freeCal_keeps | apply State.freezeAll_keeps | (rw [keeps_iff]; dsimp only; apply keeps_iff.1) | dsimp only | split)

theorem State.placeWaiting_keeps {s t : State} (h : Keeps s t) : Keeps s (State.placeWaiting t) := by
  unfold State.placeWaiting
  with_reducible repeat' (first | assumption | intro u | apply keeps_foldl | apply State.place_keeps | dsimp only | split)

theorem State.atOnce_keeps {s t : State} (r : PowerReq) (x : Nat × State) (hx : t.atOnce r = some x) (h : Keeps s t) : Keeps s x.2 := by
  unfold State.atOnce at hx
  dsimp only at hx
  repeat' (split at hx)
  all_goals
    cases hx <;> with_reducible repeat' (first | assumption | apply State.lampStat_keeps | apply State.decideProtection_keeps | apply State.placeWaiting_keeps | apply State.wrf_keeps | dsimp only)

theorem State.startReq_keeps {s t : State} (r : PowerReq) (h : Keeps s t) : Keeps s (State.startReq t r) := by
  unfold State.startReq
  split
  · next x hx => exact State.reqEnd_keeps _ _ (State.atOnce_keeps r _ hx h)
  · with_reducible repeat' (first | assumption | intro u | apply keeps_ite | apply State.pwrStat_keeps | apply State.wakeGroups_keeps | apply State.askStop_keeps | (rw [keeps_iff]; dsimp only; apply keeps_iff.1) | dsimp only)

theorem State.startSlot_keeps {s t : State} (h : Keeps s t) : Keeps s (State.startSlot t) := by
  unfold State.startSlot
  with_reducible repeat' (first | assumption | apply State.startReq_keeps | apply State.pwrStat_keeps | (rw [keeps_iff]; dsimp only; apply keeps_iff.1) | dsimp only | split)

theorem State.endChange_keeps {s t : State} (r : PowerReq) (res : Nat) (h : Keeps s t) : Keeps s (State.endChange t r res) := by
  unfold State.endChange
  with_reducible repeat' (first | assumption | apply State.pwrStat_keeps | apply State.reqEnd_keeps | apply State.startSlot_keeps | (rw [keeps_iff]; dsimp only; apply keeps_iff.1))

theorem State.wakeScope_keeps {s t : State} (m : Nat) (src : Nat) (h : Keeps s t) : Keeps s (State.wakeScope t m src) := by
  unfold State.wakeScope
  with_reducible repeat' (first | assumption | intro u | apply keeps_ite | apply State.recordWake_keeps | apply State.wakeGroups_keeps | (rw [keeps_iff]; dsimp only; apply keeps_iff.1) | dsimp only | split)

theorem State.powerRequest_keeps {s t : State} (rq : Requester) (repl : Bool) (target : Nat) (mask : Nat) (h : Keeps s t) : Keeps s (State.powerRequest t rq repl target mask) := by
  unfold State.powerRequest
  with_reducible repeat' (first | assumption | intro u | apply keeps_ite | apply State.wr_keeps | apply State.startReq_keeps | apply State.refuse_keeps | apply State.pwrStat_keeps | apply State.reqRes_keeps | apply State.reqEnd_keeps | apply State.startSlot_keeps | apply State.wakeScope_keeps | (rw [keeps_iff]; dsimp only; apply keeps_iff.1) | dsimp only | split)

theorem State.thermalStop_keeps {s t : State} (h : Keeps s t) : Keeps s (State.thermalStop t) := by
  unfold State.thermalStop
  with_reducible repeat' (first | assumption | intro u | apply keeps_ite | apply State.startReq_keeps | apply State.pwrStat_keeps | apply State.reqRes_keeps | apply State.reqEnd_keeps | (rw [keeps_iff]; dsimp only; apply keeps_iff.1) | dsimp only | split)

theorem State.wakeModule_keeps {s t : State} (w : WakeSrc) (t_1 : Nat) (h : Keeps s t) : Keeps s (State.wakeModule t w t_1) := by
  unfold State.wakeModule
  with_reducible repeat' (first | assumption | intro u | apply keeps_ite | apply State.wrBit_keeps | apply State.setCause_keeps | apply State.enable_keeps | apply State.recordWake_keeps | (rw [keeps_iff]; dsimp only; apply keeps_iff.1) | dsimp only | split)

theorem execWakeEvent_keeps {s t : State} (src : WakeSrc) (h : Keeps s t) : Answers s (execWakeEvent src t) := by
  unfold execWakeEvent
  with_reducible repeat' (first | assumption | intro u | apply answers_next | apply answers_ite | apply keeps_ite | apply State.wakeScope_keeps | apply State.wakeModule_keeps | (rw [keeps_iff]; dsimp only; apply keeps_iff.1) | dsimp only | split)

theorem execWakeReplay_keeps {s t : State} (h : Keeps s t) : Answers s (execWakeReplay t) := by
  unfold execWakeReplay
  with_reducible repeat' (first | assumption | intro u | apply answers_next | apply answers_ite | apply keeps_ite | apply State.wakeModule_keeps | (rw [keeps_iff]; dsimp only; apply keeps_iff.1) | dsimp only | split)

theorem State.slotInP3_keeps {s t : State} (h : Keeps s t) : Keeps s (State.slotInP3 t) := by
  unfold State.slotInP3
  with_reducible repeat' (first | assumption | intro u | apply keeps_ite | apply State.reqEnd_keeps | (rw [keeps_iff]; dsimp only; apply keeps_iff.1) | dsimp only | split)

theorem State.enterP3_keeps {s t : State} (r : PowerReq) (h : Keeps s t) : Keeps s (State.enterP3 t r) := by
  unfold State.enterP3
  with_reducible repeat' (first | assumption | intro u | apply keeps_ite | apply State.turnOff_keeps | apply State.reqEnd_keeps | apply State.wakeModule_keeps | apply State.slotInP3_keeps | dsimp only | split)

theorem State.abandonEntry_keeps {s t : State} (k : PowerChange) (h : Keeps s t) : Keeps s (State.abandonEntry t k) := by
  unfold State.abandonEntry
  with_reducible repeat' (first | assumption | apply State.err_keeps | apply State.setTrans_keeps | apply State.placeWaiting_keeps | apply State.endChange_keeps)

theorem State.enterP1_keeps {s t : State} (r : PowerReq) (h : Keeps s t) : Keeps s (State.enterP1 t r) := by
  unfold State.enterP1
  with_reducible repeat' (first | assumption | intro u | apply keeps_ite | apply State.wrf_keeps | apply State.lampStat_keeps | apply State.decideProtection_keeps | apply State.placeWaiting_keeps | apply State.endChange_keeps | dsimp only | split)

theorem execEntryStepComplete_keeps {s t : State} (h : Keeps s t) : Answers s (execEntryStepComplete t) := by
  unfold execEntryStepComplete
  with_reducible repeat' (first | assumption | apply State.wrf_keeps | intro u | apply answers_next | apply answers_ite | apply keeps_ite | apply step_keeps | apply State.lampStat_keeps | apply State.stopFull_keeps | apply State.pwrStat_keeps | apply State.wakeGroups_keeps | apply State.askStop_keeps | apply State.stepDone_keeps | apply State.endChange_keeps | apply State.enterP3_keeps | apply State.abandonEntry_keeps | apply State.enterP1_keeps | (rw [keeps_iff]; dsimp only; apply keeps_iff.1) | dsimp only | split)

theorem execBlockRefusal_keeps {s t : State} (reason : RefuseReason) (h : Keeps s t) : Answers s (execBlockRefusal reason t) := by
  unfold execBlockRefusal
  with_reducible repeat' (first | assumption | intro u | apply answers_next | apply answers_ite | apply keeps_ite | apply State.when_keeps | apply State.wr_keeps | apply State.err_keeps | apply State.lampStat_keeps | apply State.decideProtection_keeps | apply State.fetchAll_keeps | apply State.setTrans_keeps | apply State.placeWaiting_keeps | apply State.endChange_keeps | dsimp only | split)

theorem execP2Timeout_keeps {s t : State} (h : Keeps s t) : Answers s (execP2Timeout t) := by
  unfold execP2Timeout
  with_reducible repeat' (first | assumption | intro u | apply answers_next | apply answers_ite | apply keeps_ite | apply State.err_keeps | apply State.powerEvent_keeps | split)

theorem execTileGroupWakeComplete_keeps {s t : State} (tg : Fin 8) (h : Keeps s t) : Answers s (execTileGroupWakeComplete tg t) := by
  unfold execTileGroupWakeComplete
  with_reducible repeat' (first | assumption | intro u | apply answers_next | apply answers_ite | apply keeps_ite | apply State.wrBit_keeps | apply State.endChange_keeps | dsimp only | split)

end Sys2Proof.Machine
end

