-- ==== Sys2Proof/Laws/KeepsThermalCommands.lean ====
section
/-! SUPPORT. What the operations of Machine/ThermalCommands.lean keep (Laws/Keeps.lean). -/

namespace Sys2Proof.Machine

set_option Elab.async false
set_option linter.unreachableTactic false
set_option linter.unusedTactic false

theorem State.setSensor_keeps {s t : State} (i : Nat) (x : SensorRec) (h : Keeps s t) : Keeps s (State.setSensor t i x) := by
  unfold State.setSensor
  with_reducible repeat' (first | assumption | (rw [keeps_iff]; dsimp only; apply keeps_iff.1))

theorem State.thermalEvent_keeps {s t : State} (kind : Nat) (level : Nat) (band : Nat) (i : Nat) (w5 : Word) (w6 : Word) (h : Keeps s t) : Keeps s (State.thermalEvent t kind level band i w5 w6) := by
  unfold State.thermalEvent
  with_reducible repeat' (first | assumption | intro u | apply keeps_ite | apply State.eventMgmt_keeps | split)

theorem State.thmErr_keeps {s t : State} (b : Nat) (h : Keeps s t) : Keeps s (State.thmErr t b) := by
  unfold State.thmErr
  with_reducible repeat' (first | assumption | apply State.wrBit_keeps)

theorem State.stopRecord_keeps {s t : State} (cause : Nat) (i : Nat) (h : Keeps s t) : Keeps s (State.stopRecord t cause i) := by
  unfold State.stopRecord
  with_reducible repeat' (first | assumption | apply State.wr_keeps)

theorem State.holdStopped_keeps {s t : State} (h : Keeps s t) : Keeps s (State.holdStopped t) := by
  unfold State.holdStopped
  with_reducible repeat' (first | assumption | intro u | (rw [keeps_iff]; dsimp only; apply keeps_iff.1) | dsimp only)

theorem State.thermalCut_keeps {s t : State} (cause : Nat) (i : Nat) (h : Keeps s t) : Keeps s (State.thermalCut t cause i) := by
  unfold State.thermalCut
  with_reducible repeat' (first | assumption | (rw [keeps_iff]; dsimp only; apply keeps_iff.1) | dsimp only | intro u | apply keeps_foldl | apply State.turnOff_keeps | apply State.cutTile_keeps | apply State.stopRecord_keeps | apply State.holdStopped_keeps)

theorem State.orderlyStop_keeps {s t : State} (cause : Nat) (i : Nat) (h : Keeps s t) : Keeps s (State.orderlyStop t cause i) := by
  unfold State.orderlyStop
  with_reducible repeat' (first | assumption | intro u | apply keeps_ite | apply State.wrBit_keeps | apply State.lampStat_keeps | apply State.finish_keeps | apply State.stopFull_keeps | apply State.thermalStop_keeps | apply State.stopRecord_keeps | apply State.thermalCut_keeps | (rw [keeps_iff]; dsimp only; apply keeps_iff.1) | dsimp only | split)

theorem State.thmStat_keeps {s t : State} (h : Keeps s t) : Keeps s (State.thmStat t) := by
  unfold State.thmStat
  with_reducible repeat' (first | assumption | intro u | apply keeps_ite | apply keeps_foldl | apply State.wrf_keeps | dsimp only | split)

theorem State.takeTemp_keeps {s t : State} (i : Nat) (x : Int) (h : Keeps s t) : Keeps s (State.takeTemp t i x) := by
  unfold State.takeTemp
  with_reducible repeat' (first | assumption | intro u | apply keeps_ite | apply keeps_foldl | apply State.wr_keeps | apply State.wrf_keeps | apply State.setSensor_keeps | apply State.thermalEvent_keeps | apply State.thmErr_keeps | apply State.orderlyStop_keeps | apply State.thmStat_keeps | (rw [keeps_iff]; dsimp only; apply keeps_iff.1) | dsimp only | split)

theorem execSensorSample_keeps {s t : State} (sensor : Fin 136) (raw : BitVec 16) (h : Keeps s t) : Answers s (execSensorSample sensor raw t) := by
  unfold execSensorSample
  with_reducible repeat' (first | assumption | intro u | apply answers_next | apply answers_ite | apply keeps_ite | apply State.wr_keeps | apply State.setSensor_keeps | apply State.takeTemp_keeps | (rw [keeps_iff]; dsimp only; apply keeps_iff.1) | dsimp only | split)

theorem execSensorFault_keeps {s t : State} (sensor : Fin 136) (h : Keeps s t) : Answers s (execSensorFault sensor t) := by
  unfold execSensorFault
  with_reducible repeat' (first | assumption | intro u | apply answers_next | apply answers_ite | apply keeps_ite | apply State.wrBit_keeps | apply State.thermalEvent_keeps | apply State.thmErr_keeps | apply State.takeTemp_keeps | dsimp only | split)

theorem execRisecrit_keeps {s t : State} (sensor : Fin 136) (h : Keeps s t) : Answers s (execRisecrit sensor t) := by
  unfold execRisecrit
  with_reducible repeat' (first | assumption | intro u | apply answers_next | apply answers_ite | apply keeps_ite | apply State.thermalEvent_keeps | apply State.thmErr_keeps | apply State.orderlyStop_keeps | dsimp only | split)

theorem State.writeSensclr_keeps {s t : State} (v : Word) (h : Keeps s t) : Keeps s (State.writeSensclr t v) := by
  unfold State.writeSensclr
  with_reducible repeat' (first | assumption | intro u | apply keeps_ite | apply State.wrBit_keeps | apply State.setSensor_keeps | apply State.thmErr_keeps | apply State.thmStat_keeps | (rw [keeps_iff]; dsimp only; apply keeps_iff.1) | dsimp only | split)

theorem execSensorClear_keeps {s t : State} (v : Word) (h : Keeps s t) : Answers s (execSensorClear v t) := by
  unfold execSensorClear
  with_reducible repeat' (first | assumption | apply answers_next | apply State.writeSensclr_keeps)

theorem State.writeThr_keeps {s t : State} (v : Word) (h : Keeps s t) : Keeps s (State.writeThr t v) := by
  unfold State.writeThr
  with_reducible repeat' (first | assumption | intro u | apply keeps_ite | apply State.writeReg_keeps | apply State.thmErr_keeps | dsimp only | split)

theorem execThresholdWrite_keeps {s t : State} (v : Word) (h : Keeps s t) : Answers s (execThresholdWrite v t) := by
  unfold execThresholdWrite
  with_reducible repeat' (first | assumption | apply answers_next | apply State.writeThr_keeps)

theorem execCreditUpdate_keeps {s t : State} (railMw : Nat) (portMw : Nat) (h : Keeps s t) : Answers s (execCreditUpdate railMw portMw t) := by
  unfold execCreditUpdate
  with_reducible repeat' (first | assumption | intro u | apply answers_next | apply answers_ite | apply keeps_ite | apply State.wr_keeps | apply State.wrf_keeps | apply State.lampStat_keeps | apply State.thermalEvent_keeps | apply State.thmErr_keeps | (rw [keeps_iff]; dsimp only; apply keeps_iff.1) | dsimp only | split)

theorem execShutCut_keeps {s t : State} (sensor : Fin 136) (h : Keeps s t) : Answers s (execShutCut sensor t) := by
  unfold execShutCut
  with_reducible repeat' (first | assumption | intro u | apply answers_next | apply answers_ite | apply keeps_ite | apply State.thermalCut_keeps | dsimp only | split)

end Sys2Proof.Machine
end

