-- ==== Sys2Proof/Laws/KeepsBoot.lean ====
section
/-! SUPPORT. What the operations of Machine/Boot.lean keep (Laws/Keeps.lean). -/

namespace Sys2Proof.Machine

set_option Elab.async false
set_option linter.unreachableTactic false
set_option linter.unusedTactic false

theorem State.setBoot_keeps {s t : State} (n : Nat) (h : Keeps s t) : Keeps s (State.setBoot t n) := by
  unfold State.setBoot
  with_reducible repeat' (first | assumption | apply State.wrf_keeps)

theorem State.bootTime_keeps {s t : State} (i : Nat) (h : Keeps s t) : Keeps s (State.bootTime t i) := by
  unfold State.bootTime
  with_reducible repeat' (first | assumption | apply State.wr_keeps)

theorem State.bootFail_keeps {s t : State} (h : Keeps s t) : Keeps s (State.bootFail t) := by
  unfold State.bootFail
  with_reducible repeat' (first | assumption | apply State.send_keeps | apply State.wrBit_keeps | apply State.setBoot_keeps)

theorem State.resetStart_keeps {s t : State} (cause : Nat) (rail : Nat) (h : Keeps s t) : Keeps s (State.resetStart t cause rail) := by
  unfold State.resetStart
  with_reducible repeat' (first | assumption | intro u | apply keeps_ite | apply State.send_keeps | apply State.moduleReset_keeps | apply State.enable_keeps | dsimp only | split)

theorem execPowerOn_keeps {s t : State} (h : Keeps s t) : Answers s (execPowerOn t) := by
  refine answers_next (State.enable_keeps _ (State.wrBit_keeps _ _ _ ?_))
  have hd := State.dropSave_keeps h
  rw [keeps_iff] at h hd ⊢
  exact ⟨fun x => ⟨Store.wf_filter _ _ (h.1 x).1, Store.wf_nil _, Store.wf_filter _ _ (hd.1 x).2.2⟩, h.2⟩

theorem execPowerGood_keeps {s t : State} (rail : Rail) (h : Keeps s t) : Answers s (execPowerGood rail t) := by
  unfold execPowerGood
  with_reducible repeat' (first | assumption | intro u | apply answers_next | apply answers_ite | apply keeps_ite | apply State.enable_keeps | dsimp only | split)

theorem execSequenceFailure_keeps {s t : State} (rail : Rail) (h : Keeps s t) : Answers s (execSequenceFailure rail t) := by
  unfold execSequenceFailure
  with_reducible repeat' (first | assumption | intro u | apply answers_next | apply answers_ite | apply keeps_ite | apply State.send_keeps | apply State.setCause_keeps | apply State.enablesLow_keeps | (rw [keeps_iff]; dsimp only; apply keeps_iff.1) | dsimp only | split)

theorem execSequenceRetry_keeps {s t : State} (h : Keeps s t) : Answers s (execSequenceRetry t) := by
  unfold execSequenceRetry
  with_reducible repeat' (first | assumption | intro u | apply answers_next | apply answers_ite | apply keeps_ite | apply State.enable_keeps | split)

theorem execUndervoltage_keeps {s t : State} (rail : Rail) (h : Keeps s t) : Answers s (execUndervoltage rail t) := by
  unfold execUndervoltage
  with_reducible repeat' (first | assumption | intro u | apply answers_next | apply answers_ite | apply keeps_ite | apply State.count_keeps | apply State.resetStart_keeps | split)

theorem execModuleReset_keeps {s t : State} (h : Keeps s t) : Answers s (execModuleReset t) := by
  unfold execModuleReset
  with_reducible repeat' (first | assumption | apply answers_next | apply State.resetStart_keeps)

theorem State.writeBootCtrl_keeps {s t : State} (v : Word) (h : Keeps s t) : Keeps s (State.writeBootCtrl t v) := by
  unfold State.writeBootCtrl
  with_reducible repeat' (first | assumption | intro u | apply keeps_ite | apply State.resetStart_keeps | split)

theorem execSwrst_keeps {s t : State} (h : Keeps s t) : Answers s (execSwrst t) := by
  unfold execSwrst
  with_reducible repeat' (first | assumption | apply answers_next | apply State.writeBootCtrl_keeps)

theorem State.pulseNor_keeps {s t : State} (h : Keeps s t) : Keeps s (State.pulseNor t) := by
  unfold State.pulseNor
  with_reducible repeat' (first | assumption | apply State.send_keeps)

theorem execBootRomStart_keeps {s t : State} (bifsel : Fin 4) (engineOk : Bool) (h : Keeps s t) : Answers s (execBootRomStart bifsel engineOk t) := by
  unfold execBootRomStart
  with_reducible repeat' (first | assumption | intro u | apply answers_next | apply answers_ite | apply keeps_ite | apply keeps_foldl | apply State.wr_keeps | apply State.when_keeps | apply State.wrf_keeps | apply State.wrBit_keeps | apply State.err_keeps | apply State.setBoot_keeps | apply State.bootFail_keeps | apply State.pulseNor_keeps | (rw [keeps_iff]; dsimp only; apply keeps_iff.1) | dsimp only | split)

theorem State.writeAttctl_keeps {s t : State} (v : Word) (h : Keeps s t) : Keeps s (State.writeAttctl t v) := by
  unfold State.writeAttctl
  with_reducible repeat' (first | assumption | intro u | apply keeps_ite | apply State.wrBit_keeps | apply State.writeReg_keeps | apply State.err_keeps | dsimp only | split)

theorem execReport_keeps {s t : State} (h : Keeps s t) : Answers s (execReport t) := by
  unfold execReport
  with_reducible repeat' (first | assumption | apply answers_next | apply State.writeAttctl_keeps)

theorem execCert_keeps {s t : State} (h : Keeps s t) : Answers s (execCert t) := by
  unfold execCert
  with_reducible repeat' (first | assumption | apply answers_next | apply State.writeAttctl_keeps)

theorem execAttestationDone_keeps {s t : State} (window : List Word) (h : Keeps s t) : Answers s (execAttestationDone window t) := by
  unfold execAttestationDone
  with_reducible repeat' (first | assumption | intro u | apply answers_next | apply answers_ite | apply keeps_ite | apply keeps_foldl | apply State.wr_keeps | apply State.wrBit_keeps | apply State.bump_keeps | dsimp only | split)

theorem State.writeSealctl_keeps {s t : State} (v : Word) (h : Keeps s t) : Keeps s (State.writeSealctl t v) := by
  unfold State.writeSealctl
  with_reducible repeat' (first | assumption | intro u | apply keeps_ite | apply State.wrBit_keeps | apply State.err_keeps | (rw [keeps_iff]; dsimp only; apply keeps_iff.1) | dsimp only | split)

theorem execSeal_keeps {s t : State} (h : Keeps s t) : Answers s (execSeal t) := by
  unfold execSeal
  with_reducible repeat' (first | assumption | apply answers_next | apply State.writeSealctl_keeps)

theorem execSealingDone_keeps {s t : State} (h : Keeps s t) : Answers s (execSealingDone t) := by
  unfold execSealingDone
  with_reducible repeat' (first | assumption | intro u | apply answers_next | apply keeps_foldl | apply State.wr_keeps | apply State.wrBit_keeps | (rw [keeps_iff]; dsimp only; apply keeps_iff.1) | dsimp only | split)

theorem State.writeKeyrev_keeps {s t : State} (v : Word) (h : Keeps s t) : Keeps s (State.writeKeyrev t v) := by
  unfold State.writeKeyrev
  with_reducible repeat' (first | assumption | intro u | apply keeps_ite | apply State.wrBit_keeps | apply State.err_keeps | dsimp only | split)

theorem execKeyRevocation_keeps {s t : State} (v : Word) (h : Keeps s t) : Answers s (execKeyRevocation v t) := by
  unfold execKeyRevocation
  with_reducible repeat' (first | assumption | apply answers_next | apply State.writeKeyrev_keeps)

theorem execDebugUnlock_keeps {s t : State} (tokenOk : Bool) (h : Keeps s t) : Answers s (execDebugUnlock tokenOk t) := by
  unfold execDebugUnlock
  with_reducible repeat' (first | assumption | intro u | apply answers_next | apply answers_ite | apply keeps_ite | apply State.wrBit_keeps | split)

theorem State.writeFlcmd_keeps {s t : State} (v : Word) (h : Keeps s t) : Keeps s (State.writeFlcmd t v) := by
  unfold State.writeFlcmd
  with_reducible repeat' (first | assumption | intro u | apply keeps_ite | apply State.wr_keeps | (rw [keeps_iff]; dsimp only; apply keeps_iff.1) | dsimp only | split)

theorem execErase_keeps {s t : State} (h : Keeps s t) : Answers s (execErase t) := by
  unfold execErase
  with_reducible repeat' (first | assumption | apply answers_next | apply State.writeFlcmd_keeps)

theorem execProg_keeps {s t : State} (h : Keeps s t) : Answers s (execProg t) := by
  unfold execProg
  with_reducible repeat' (first | assumption | apply answers_next | apply State.writeFlcmd_keeps)

theorem execVerify_keeps {s t : State} (h : Keeps s t) : Answers s (execVerify t) := by
  unfold execVerify
  with_reducible repeat' (first | assumption | apply answers_next | apply State.writeFlcmd_keeps)

end Sys2Proof.Machine
end

