-- ==== Sys2Proof/Laws/KeepsFaults.lean ====
section
/-! SUPPORT. What the operations of Machine/Faults.lean keep (Laws/Keeps.lean). -/

namespace Sys2Proof.Machine

set_option Elab.async false
set_option linter.unreachableTactic false
set_option linter.unusedTactic false

theorem State.poison_keeps {s t : State} (a : Nat) (n : Nat) (h : Keeps s t) : Keeps s (State.poison t a n) := by
  unfold State.poison
  with_reducible repeat' (first | assumption | intro u | (rw [keeps_iff]; dsimp only; apply keeps_iff.1) | dsimp only)

theorem State.rowEffect_keeps {s t : State} (addr : Nat) (row : Nat) (h : Keeps s t) : Keeps s (State.rowEffect t addr row) := by
  unfold State.rowEffect
  with_reducible repeat' (first | assumption | intro u | apply keeps_ite | apply State.setRing_keeps | apply State.err_keeps | apply State.setRingState_keeps | apply State.clearBlock_keeps | apply State.fenceTile_keeps | apply State.fatal_keeps | apply State.poison_keeps | (rw [keeps_iff]; dsimp only; apply keeps_iff.1) | dsimp only | split)

theorem State.answerPoisoned_keeps {s t : State} (rq : Requester) (h : Keeps s t) : Keeps s (State.answerPoisoned t rq) := by
  unfold State.answerPoisoned
  with_reducible repeat' (first | assumption | apply State.draw_keeps | apply State.send_keeps | dsimp only | split)

theorem State.noteCe_keeps {s t : State} (addr : Nat) (h : Keeps s t) : Keeps s (State.noteCe t addr) := by
  unfold State.noteCe
  with_reducible repeat' (first | assumption | intro u | apply State.when_keeps | apply State.err_keeps | (rw [keeps_iff]; dsimp only; apply keeps_iff.1) | dsimp only)

theorem State.answerUe_keeps {s t : State} (reader : Option Requester) (h : Keeps s t) : Keeps s (State.answerUe t reader) := by
  unfold State.answerUe
  with_reducible repeat' (first | assumption | apply State.answerPoisoned_keeps | dsimp only | split)

theorem execScrubRead_keeps {s t : State} (sweep : Bool) (addr : Nat) (check : WordCheck) (mem : MemRow) (reader : Option Requester) (h : Keeps s t) : Answers s (execScrubRead sweep addr check mem reader t) := by
  unfold execScrubRead
  with_reducible repeat' (first | assumption | intro u | apply answers_next | apply answers_ite | apply keeps_ite | apply State.wr_keeps | apply State.when_keeps | apply State.count_keeps | apply State.err_keeps | apply State.rowEffect_keeps | apply State.noteCe_keeps | apply State.answerUe_keeps | dsimp only | split)

theorem State.unfence_keeps {s t : State} (t_1 : Nat) (h : Keeps s t) : Keeps s (State.unfence t t_1) := by
  unfold State.unfence
  with_reducible repeat' (first | assumption | intro u | apply keeps_ite | apply State.wr_keeps | (rw [keeps_iff]; dsimp only; apply keeps_iff.1) | split)

theorem execUnfence_keeps {s t : State} (tile : Fin 64) (h : Keeps s t) : Answers s (execUnfence tile t) := by
  unfold execUnfence
  with_reducible repeat' (first | assumption | apply answers_next | apply State.unfence_keeps)

theorem execUnfenceComplete_keeps {s t : State} (tile : Fin 64) (locked : Bool) (sound : Bool) (h : Keeps s t) : Answers s (execUnfenceComplete tile locked sound t) := by
  unfold execUnfenceComplete
  with_reducible repeat' (first | assumption | intro u | apply answers_next | apply answers_ite | apply keeps_ite | apply keeps_foldl | apply State.wr_keeps | apply State.wrf_keeps | apply State.wrBit_keeps | apply State.setMode_keeps | apply State.reportAlone_keeps | apply State.lampStat_keeps | apply State.cooStat_keeps | apply State.countFenced_keeps | (rw [keeps_iff]; dsimp only; apply keeps_iff.1) | dsimp only | split)

theorem State.writeFltCmd_keeps {s t : State} (v : Word) (h : Keeps s t) : Keeps s (State.writeFltCmd t v) := by
  unfold State.writeFltCmd
  with_reducible repeat' (first | assumption | apply State.err_keeps | apply State.fatal_keeps | apply State.unfence_keeps | dsimp only | split)

theorem execFatal_keeps {s t : State} (h : Keeps s t) : Answers s (execFatal t) := by
  unfold execFatal
  with_reducible repeat' (first | assumption | apply answers_next | apply State.writeFltCmd_keeps)

theorem execWatchdog_keeps {s t : State} (x_core : Fin 4) (h : Keeps s t) : Answers s (execWatchdog x_core t) := by
  unfold execWatchdog
  with_reducible repeat' (first | assumption | apply answers_next | apply State.fatal_keeps)

theorem State.afterDump_keeps {s t : State} (reset : Bool) (h : Keeps s t) : Keeps s (State.afterDump t reset) := by
  unfold State.afterDump
  with_reducible repeat' (first | assumption | intro u | apply keeps_ite | apply State.turnOff_keeps | apply State.holdStopped_keeps | apply State.resetStart_keeps | (rw [keeps_iff]; dsimp only; apply keeps_iff.1) | dsimp only | split)

theorem execDumpStall_keeps {s t : State} (h : Keeps s t) : Answers s (execDumpStall t) := by
  unfold execDumpStall
  with_reducible repeat' (first | assumption | intro u | apply answers_next | apply answers_ite | apply keeps_ite | apply State.wrf_keeps | apply State.wrBit_keeps | apply State.afterDump_keeps | dsimp only | split)

theorem State.readDump_keeps {s t : State} (h : Keeps s t) : Keeps s (State.readDump t).2 := by
  unfold State.readDump
  with_reducible repeat' (first | assumption | intro u | apply State.wrf_keeps | dsimp only)

end Sys2Proof.Machine
end

