-- ==== Sys2Proof/Laws/KeepsAccess.lean ====
section
/-! SUPPORT. What the operations of Machine/Access.lean keep (Laws/Keeps.lean). -/

namespace Sys2Proof.Machine

set_option Elab.async false
set_option linter.unreachableTactic false
set_option linter.unusedTactic false

theorem State.unlatch_keeps {s t : State} (rq : Requester) (k : Nat) (h : Keeps s t) : Keeps s (State.unlatch t rq k) := by
  unfold State.unlatch
  with_reducible repeat' (first | assumption | intro u | (rw [keeps_iff]; dsimp only; apply keeps_iff.1) | dsimp only)

theorem State.latch_keeps {s t : State} (rq : Requester) (k : Nat) (tag : Nat) (v : Word) (h : Keeps s t) : Keeps s (State.latch t rq k tag v) := by
  unfold State.latch
  with_reducible repeat' (first | assumption | apply State.unlatch_keeps | (rw [keeps_iff]; dsimp only; apply keeps_iff.1))

theorem State.latchNow_keeps {s t : State} (rq : Requester) (h : Keeps s t) : Keeps s (State.latchNow t rq) := by
  unfold State.latchNow
  with_reducible repeat' (first | assumption | apply State.latch_keeps)

theorem State.readWord_keeps {s t : State} (rq : Requester) (four : Bool) (a0 : Nat) (h : Keeps s t) : Keeps s (State.readWord t rq four a0).2 := by
  unfold State.readWord
  with_reducible repeat' (first | assumption | intro u | apply keeps_ite | apply State.wr_keeps | apply State.wrMask_keeps | apply State.err_keeps | apply State.settleClamps_keeps | apply State.readTrace_keeps | apply State.readDump_keeps | apply State.unlatch_keeps | apply State.latch_keeps | apply State.latchNow_keeps | dsimp only | split)

theorem State.readWords_keeps {s t : State} (rq : Requester) (four : Bool) (as : List Nat) (h : Keeps s t) :
    Keeps s (State.readWords t rq four as).2 := by
  induction as generalizing t with
  | nil => exact h
  | cons a as ih => exact ih (State.readWord_keeps rq four a h)

theorem State.writeHif_keeps {s t : State} (a : Nat) (v : Word) (h : Keeps s t) : Keeps s (State.writeHif t a v) := by
  unfold State.writeHif
  with_reducible repeat' (first | assumption | intro u | apply keeps_ite | apply stateOf_keeps | apply State.writeReg_keeps | apply execFunctionConfigWrite_keeps | apply execStreamEnable_keeps | dsimp only | split)

theorem State.writeTol_keeps {s t : State} (a : Nat) (v : Word) (h : Keeps s t) : Keeps s (State.writeTol t a v) := by
  unfold State.writeTol
  with_reducible repeat' (first | assumption | intro u | apply keeps_ite | apply stateOf_keeps | apply State.writeReg_keeps | apply State.setToll_keeps | apply execShaperControlWrite_keeps | (rw [keeps_iff]; dsimp only; apply keeps_iff.1) | dsimp only | split)

theorem State.writeCir_keeps {s t : State} (a : Nat) (v : Word) (h : Keeps s t) : Keeps s (State.writeCir t a v) := by
  unfold State.writeCir
  with_reducible repeat' (first | assumption | intro u | apply keeps_ite | apply stateOf_keeps | apply State.writeReg_keeps | apply State.decideProtection_keeps | apply execFabricSnapshot_keeps | apply execPatternCapture_keeps | apply execPortOwnershipWrite_keeps | apply execPartitionRangeWrite_keeps | apply execPartitionControlWrite_keeps | dsimp only | split)

theorem State.writeWhl_keeps {s t : State} (a : Nat) (v : Word) (h : Keeps s t) : Keeps s (State.writeWhl t a v) := by
  unfold State.writeWhl
  with_reducible repeat' (first | assumption | intro u | apply keeps_ite | apply stateOf_keeps | apply State.writeReg_keeps | apply execWinshareWrite_keeps | apply execPolicyCeilingWrite_keeps | split)

theorem State.writeLmp_keeps {s t : State} (rq : Requester) (a : Nat) (v : Word) (h : Keeps s t) : Keeps s (State.writeLmp t rq a v) := by
  unfold State.writeLmp
  with_reducible repeat' (first | assumption | intro u | apply keeps_ite | apply stateOf_keeps | apply State.writeReg_keeps | apply execWindowScheduleWrite_keeps | apply execLmpAbort_keeps | apply execLmpHoldWrite_keeps | split)

theorem State.writeAsyCmd_keeps {s t : State} (v : Word) (h : Keeps s t) : Keeps s (State.writeAsyCmd t v) := by
  unfold State.writeAsyCmd
  with_reducible repeat' (first | assumption | intro u | apply keeps_ite | apply stateOf_keeps | apply execFullcal_keeps | apply State.cellcal_keeps | apply execSave_keeps | apply execCalAbort_keeps | dsimp only | split)

theorem State.writeTim_keeps {s t : State} (a : Nat) (v : Word) (h : Keeps s t) : Keeps s (State.writeTim t a v) := by
  unfold State.writeTim
  with_reducible repeat' (first | assumption | intro u | apply keeps_ite | apply State.writeReg_keeps | apply State.writeIncr_keeps | apply State.writeAdj_keeps | apply State.writeStepctl_keeps | apply State.writeCmp_keeps | apply State.writeTimCtrl_keeps | split)

theorem State.writeNet_keeps {s t : State} (k : Nat) (a : Nat) (v : Word) (h : Keeps s t) : Keeps s (State.writeNet t k a v) := by
  unfold State.writeNet
  with_reducible repeat' (first | assumption | intro u | apply keeps_ite | apply State.writeReg_keeps | apply State.writeNetCtrl_keeps | (rw [keeps_iff]; dsimp only; apply keeps_iff.1) | dsimp only | split)

theorem State.writePor_keeps {s t : State} (a : Nat) (v : Word) (h : Keeps s t) : Keeps s (State.writePor t a v) := by
  unfold State.writePor
  with_reducible repeat' (first | assumption | intro u | apply keeps_ite | apply State.writeReg_keeps | apply State.writePortcfg_keeps | apply State.writeBank_keeps | apply State.writeSess_keeps | split)

theorem State.writePth_keeps {s t : State} (a : Nat) (v : Word) (h : Keeps s t) : Keeps s (State.writePth t a v) := by
  unfold State.writePth
  with_reducible repeat' (first | assumption | intro u | apply keeps_ite | apply State.when_keeps | apply State.wrBit_keeps | apply State.writeReg_keeps | apply State.writePthCmd_keeps | split)

theorem State.writePwr_keeps {s t : State} (rq : Requester) (a : Nat) (v : Word) (h : Keeps s t) : Keeps s (State.writePwr t rq a v) := by
  unfold State.writePwr
  with_reducible repeat' (first | assumption | intro u | apply keeps_ite | apply State.when_keeps | apply State.writeReg_keeps | apply State.err_keeps | apply State.powerRequest_keeps | dsimp only | split)

theorem State.writeThm_keeps {s t : State} (a : Nat) (v : Word) (h : Keeps s t) : Keeps s (State.writeThm t a v) := by
  unfold State.writeThm
  with_reducible repeat' (first | assumption | intro u | apply keeps_ite | apply State.when_keeps | apply State.writeReg_keeps | apply State.thmErr_keeps | apply State.writeSensclr_keeps | apply State.writeThr_keeps | dsimp only | split)

theorem State.writeBoot_keeps {s t : State} (a : Nat) (v : Word) (h : Keeps s t) : Keeps s (State.writeBoot t a v) := by
  unfold State.writeBoot
  with_reducible repeat' (first | assumption | intro u | apply keeps_ite | apply State.writeReg_keeps | apply State.writeBootCtrl_keeps | apply State.writeAttctl_keeps | apply State.writeSealctl_keeps | apply State.writeKeyrev_keeps | apply State.writeFlcmd_keeps | split)

theorem State.writeFlt_keeps {s t : State} (rq : Requester) (a : Nat) (v : Word) (h : Keeps s t) : Keeps s (State.writeFlt t rq a v) := by
  unfold State.writeFlt
  with_reducible repeat' (first | assumption | intro u | apply keeps_ite | apply State.when_keeps | apply State.writeReg_keeps | apply State.err_keeps | apply State.writeFltCmd_keeps | dsimp only | split)

theorem State.writeCoo_keeps {s t : State} (t_1 : Nat) (o : Nat) (v : Word) (h : Keeps s t) : Keeps s (State.writeCoo t t_1 o v) := by
  unfold State.writeCoo
  with_reducible repeat' (first | assumption | intro u | apply keeps_ite | apply State.when_keeps | apply stateOf_keeps | apply State.writeReg_keeps | apply State.traceFire_keeps | apply execFreezeWrite_keeps | apply execLoopStateWrite_keeps | apply State.writeFactor_keeps | apply execCycleConfigWrite_keeps | apply execTraceEnable_keeps | dsimp only | split)

theorem State.writeDrv_keeps {s t : State} (t_1 : Nat) (o : Nat) (v : Word) (h : Keeps s t) : Keeps s (State.writeDrv t t_1 o v) := by
  unfold State.writeDrv
  with_reducible repeat' (first | assumption | intro u | apply keeps_ite | apply stateOf_keeps | apply State.writeReg_keeps | apply State.writeFactor_keeps | apply State.clearFault_keeps | apply State.writeOverride_keeps | apply State.writeWave_keeps | apply execWaveformBankSelect_keeps | dsimp only | split)

theorem State.writeMonCtrl_keeps {s t : State} (t_1 : Nat) (v : Word) (h : Keeps s t) : Keeps s (State.writeMonCtrl t t_1 v) := by
  unfold State.writeMonCtrl
  with_reducible repeat' (first | assumption | apply State.when_keeps | apply State.askSequence_keeps | apply State.writeMode_keeps | apply State.startScal_keeps)

theorem State.writeMon_keeps {s t : State} (t_1 : Nat) (o : Nat) (v : Word) (h : Keeps s t) : Keeps s (State.writeMon t t_1 o v) := by
  unfold State.writeMon
  with_reducible repeat' (first | assumption | intro u | apply keeps_ite | apply State.writeReg_keeps | apply State.writeSeq_keeps | apply State.writeChcfg_keeps | apply State.writeUrgent_keeps | apply State.writeMonCtrl_keeps | split)

theorem State.writeTal_keeps {s t : State} (t_1 : Nat) (o : Nat) (v : Word) (h : Keeps s t) : Keeps s (State.writeTal t t_1 o v) := by
  unfold State.writeTal
  with_reducible repeat' (first | assumption | intro u | apply keeps_ite | apply State.writeReg_keeps | apply State.writeSnap_keeps | apply State.writeClr_keeps | split)

theorem State.writeBlock_keeps {s t : State} (rq : Requester) (a : Nat) (v : Word) (h : Keeps s t) : Keeps s (State.writeBlock t rq a v) := by
  unfold State.writeBlock
  with_reducible repeat' (first | assumption | apply State.writeNetCtrl_keeps | intro u | apply keeps_ite | apply State.when_keeps | apply State.writeReg_keeps | apply State.refreshWarn_keeps | apply State.clearStuck_keeps | apply State.writeHif_keeps | apply State.writeTol_keeps | apply State.writeCir_keeps | apply State.writeWhl_keeps | apply State.writeLmp_keeps | apply State.writeAsyCmd_keeps | apply State.writeTim_keeps | apply State.writeNet_keeps | apply State.writePor_keeps | apply State.writePth_keeps | apply State.writePwr_keeps | apply State.writeThm_keeps | apply State.writeBoot_keeps | apply State.writeFlt_keeps | dsimp only | split)

theorem State.writeWord_keeps {s t : State} (rq : Requester) (a0 : Nat) (v : Word) (h : Keeps s t) : Keeps s (State.writeWord t rq a0 v) := by
  unfold State.writeWord
  with_reducible repeat' (first | assumption | intro u | apply keeps_ite | apply State.when_keeps | apply State.putMemWord_keeps | apply State.writeCueWord_keeps | apply State.writePatWord_keeps | apply State.writeEventRing_keeps | apply State.payOwed_keeps | apply State.writeRingWord_keeps | apply State.writeTcam_keeps | apply State.writeCoo_keeps | apply State.writeDrv_keeps | apply State.writeMon_keeps | apply State.writeTal_keeps | apply State.writeBlock_keeps | dsimp only | split)

theorem State.writeWordsAt_keeps {s t : State} (rq : Requester) (a : Nat) (vs : List Word) (h : Keeps s t) :
    Keeps s (State.writeWordsAt t rq a vs) := by
  induction vs generalizing t a with
  | nil => exact h
  | cons v vs ih => exact ih (a + 4) (State.writeWord_keeps rq a v h)

theorem State.serveRead_keeps {s t : State} (rq : Requester) (a : Nat) (n : Nat) (h : Keeps s t) : Keeps s (State.serveRead t rq a n) := by
  unfold State.serveRead
  with_reducible repeat' (first | assumption | intro u | apply keeps_ite | apply State.send_keeps | apply State.readWords_keeps | apply State.answerPoisoned_keeps | dsimp only | split)

theorem State.access_keeps {s t : State} (x : Access) (h : Keeps s t) : Keeps s (State.access t x) := by
  unfold State.access
  with_reducible repeat' (first | assumption | intro u | apply keeps_ite | apply State.send_keeps | apply stateOf_keeps | apply State.writeWordsAt_keeps | apply State.answer_keeps | apply State.refuse_keeps | apply State.ringDoorbell_keeps | apply State.serveRead_keeps | dsimp only | split)

end Sys2Proof.Machine
end

