-- ==== Sys2Proof/Laws/KeepsDump.lean ====
section
/-! SUPPORT. What the operations of Machine/Dump.lean keep (Laws/Keeps.lean). -/

namespace Sys2Proof.Machine

set_option Elab.async false
set_option linter.unreachableTactic false
set_option linter.unusedTactic false

theorem State.putDump_keeps {s t : State} (ps : List DumpPart) (h : Keeps s t) : Keeps s (State.putDump t ps) := by
  unfold State.putDump
  with_reducible repeat' (first | assumption | apply State.send_keeps | apply State.eraseMem_keeps | apply State.putMem_keeps | dsimp only | split)

theorem State.noteDump_keeps {s t : State} (ps : List DumpPart) (h : Keeps s t) : Keeps s (State.noteDump t ps) := by
  unfold State.noteDump
  with_reducible repeat' (first | assumption | intro u | apply keeps_ite | apply State.wr_keeps | split)

theorem execDumpComplete_keeps {s t : State} (silent : List (Fin 69)) (fw : List Word) (h : Keeps s t) : Answers s (execDumpComplete silent fw t) := by
  unfold execDumpComplete
  with_reducible repeat' (first | assumption | intro u | apply answers_next | apply answers_ite | apply keeps_ite | apply State.wrBit_keeps | apply State.afterDump_keeps | apply State.putDump_keeps | apply State.noteDump_keeps | dsimp only | split)

end Sys2Proof.Machine
end

