-- ==== Sys2Proof/Laws/KeepsMatrixCommands.lean ====
section
/-! SUPPORT. What the operations of Machine/MatrixCommands.lean keep (Laws/Keeps.lean). -/

namespace Sys2Proof.Machine

set_option Elab.async false
set_option linter.unreachableTactic false
set_option linter.unusedTactic false

theorem execRegisterWrite_keeps {s t : State} (rq : Requester) (addr : Nat) (v : Word) (h : Keeps s t) : Answers s (execRegisterWrite rq addr v t) := by
  unfold execRegisterWrite
  with_reducible repeat' (first | assumption | apply answers_next | apply State.access_keeps)

theorem execRcRead_keeps {s t : State} (rq : Requester) (addr : Nat) (h : Keeps s t) : Answers s (execRcRead rq addr t) := by
  unfold execRcRead
  with_reducible repeat' (first | assumption | apply answers_next | apply State.access_keeps)

theorem execLatchedLowRead_keeps {s t : State} (rq : Requester) (addr : Nat) (h : Keeps s t) : Answers s (execLatchedLowRead rq addr t) := by
  unfold execLatchedLowRead
  with_reducible repeat' (first | assumption | apply answers_next | apply State.access_keeps)

theorem execTallyHighRead_keeps {s t : State} (rq : Requester) (addr : Nat) (h : Keeps s t) : Answers s (execTallyHighRead rq addr t) := by
  unfold execTallyHighRead
  with_reducible repeat' (first | assumption | apply answers_next | apply State.access_keeps)

theorem execDoorbell_keeps {s t : State} (link : Fin 4) (f : Fin 17) (ring : Fin 32768) (v : Word) (h : Keeps s t) : Answers s (execDoorbell link f ring v t) := by
  unfold execDoorbell
  with_reducible repeat' (first | assumption | apply answers_next | apply State.access_keeps)

theorem execMatrixRequest_keeps {s t : State} (reqs : List Access) (h : Keeps s t) : Answers s (execMatrixRequest reqs t) := by
  unfold execMatrixRequest
  with_reducible repeat' (first | assumption | intro u | apply answers_next | apply keeps_foldl | apply State.access_keeps)

theorem execIslandTimeout_keeps {s t : State} (req : Access) (island : Fin 69) (h : Keeps s t) : Answers s (execIslandTimeout req island t) := by
  unfold execIslandTimeout
  with_reducible repeat' (first | assumption | intro u | apply answers_next | apply answers_ite | apply keeps_ite | apply State.refuse_keeps | apply State.fenceTile_keeps | apply State.access_keeps | dsimp only | split)

/-- The answer dropped is one the access itself sent: what stood in `out` before stays. -/
theorem State.readUnseen_keeps {s t : State} (x : Access) (h : Keeps s t) : Keeps s (State.readUnseen t x) := by
  have k : Keeps t (t.access x) := State.access_keeps x (Keeps.refl t)
  refine h.trans ?_
  unfold State.readUnseen
  extract_lets u
  have k : Keeps t u := k
  clear_value u
  split
  · rename_i o rest ho
    split
    · rename_i hc
      rw [keeps_iff] at k ⊢
      obtain ⟨k1, ⟨l, k2⟩, k3⟩ := k
      refine ⟨k1, ?_, k3⟩
      rw [ho] at k2 hc
      cases l with
      | nil =>
        rw [List.nil_append] at k2
        simp [← k2] at hc
      | cons p l =>
        exact ⟨l, (List.cons.inj k2).2⟩
    · exact k
  · exact k

theorem State.drainTraffic_keeps {s t : State} (scope : ResetScope) (bursts : List Burst) (reads : List Access) (h : Keeps s t) : Keeps s (State.drainTraffic t scope bursts reads) := by
  unfold State.drainTraffic
  with_reducible repeat' (first | assumption | intro u | apply keeps_foldl | apply State.access_keeps | apply State.readUnseen_keeps | (rw [keeps_iff]; dsimp only; apply keeps_iff.1) | dsimp only)

theorem execMasterReset_keeps {s t : State} (scope : ResetScope) (bursts : List Burst) (reads : List Access) (h : Keeps s t) : Answers s (execMasterReset scope bursts reads t) := by
  unfold execMasterReset
  with_reducible repeat' (first | assumption | intro u | apply keeps_foldl | apply State.access_keeps | (rw [keeps_iff]; dsimp only; apply keeps_iff.1) | dsimp only | apply answers_next | apply State.drainTraffic_keeps)

theorem execFunctionLevelReset_keeps {s t : State} (x : LinkReset) (f : Fin 17) (h : Keeps s t) : Answers s (execFunctionLevelReset x f t) := by
  unfold execFunctionLevelReset
  with_reducible repeat' (first | assumption | intro u | apply answers_next | apply answers_ite | apply keeps_ite | apply keeps_foldl | apply State.resetFn_keeps | apply State.drainTraffic_keeps | dsimp only | split)

theorem execHotReset_keeps {s t : State} (x : LinkReset) (h : Keeps s t) : Answers s (execHotReset x t) := by
  unfold execHotReset
  with_reducible repeat' (first | assumption | intro u | apply answers_next | apply keeps_foldl | apply State.wrBit_keeps | apply State.errOtherLinks_keeps | apply State.resetFn_keeps | apply State.drainTraffic_keeps | dsimp only)

theorem execDrainComplete_keeps {s t : State} (scope : ResetScope) (cycles : Fin 257) (h : Keeps s t) : Answers s (execDrainComplete scope cycles t) := by
  unfold execDrainComplete
  with_reducible repeat' (first | assumption | intro u | apply answers_next | apply State.wr_keeps | apply State.errCores_keeps | (rw [keeps_iff]; dsimp only; apply keeps_iff.1) | dsimp only | split)

theorem execPllLockLoss_keeps {s t : State} (island : Fin 69) (h : Keeps s t) : Answers s (execPllLockLoss island t) := by
  unfold execPllLockLoss
  with_reducible repeat' (first | assumption | intro u | apply answers_next | apply answers_ite | apply keeps_ite | apply State.wrBit_keeps | apply State.fenceTile_keeps | dsimp only | split)

theorem State.beat_keeps {s t : State} (bad : Bool) (i : Nat) (h : Keeps s t) : Keeps s (State.beat t bad i) := by
  unfold State.beat
  with_reducible repeat' (first | assumption | intro u | apply keeps_ite | apply State.wrBit_keeps | (rw [keeps_iff]; dsimp only; apply keeps_iff.1) | dsimp only | split)

theorem execBeatBoundary_keeps {s t : State} (bad : List (Fin 69)) (h : Keeps s t) : Answers s (execBeatBoundary bad t) := by
  unfold execBeatBoundary
  with_reducible repeat' (first | assumption | apply State.wrBit_keeps | intro u | apply answers_next | apply keeps_foldl | apply State.when_keeps | apply State.lampStat_keeps | apply State.decideProtection_keeps | apply State.beat_keeps | dsimp only)

theorem execTbokLost_keeps {s t : State} (island : Fin 69) (h : Keeps s t) : Answers s (execTbokLost island t) := by
  unfold execTbokLost
  with_reducible repeat' (first | assumption | apply State.wrBit_keeps | intro u | apply answers_next | apply answers_ite | apply keeps_ite | apply State.lampStat_keeps | apply State.beat_keeps | split)

theorem execTimeBusRecompensation_keeps {s t : State} (loopback : List (Fin 69 × Fin 512)) (h : Keeps s t) : Answers s (execTimeBusRecompensation loopback t) := by
  unfold execTimeBusRecompensation
  with_reducible repeat' (first | assumption | intro u | apply answers_next | apply answers_ite | apply keeps_ite | apply keeps_foldl | apply State.wrf_keeps | (rw [keeps_iff]; dsimp only; apply keeps_iff.1) | dsimp only | split)

theorem State.ngcpReads_keeps {s t : State} (rq : Requester) (cs : List (Nat × Nat)) (ws : List Word) (h : Keeps s t) :
    Keeps s (State.ngcpReads t rq cs ws).1 := by
  induction cs generalizing t ws with
  | nil => exact h
  | cons c cs ih =>
    obtain ⟨a, n⟩ := c
    rw [State.ngcpReads]
    split
    · exact h
    · split
      · exact State.draw_keeps h
      · exact ih _ (State.readWords_keeps rq _ _ h)

theorem State.ngcpWrites_keeps {s t : State} (rq : Requester) (cs : List (Nat × Nat)) (ws : List Word) (h : Keeps s t) :
    Keeps s (State.ngcpWrites t rq cs ws).1 := by
  induction cs generalizing t ws with
  | nil => exact h
  | cons c cs ih =>
    obtain ⟨a, n⟩ := c
    rw [State.ngcpWrites]
    split
    · exact h
    · exact ih _ (State.writeWordsAt_keeps rq _ _ h)

theorem State.ngcpStopped_keeps {s t : State} (held : Bool) (n : Nat) (r : NgcpReq) (rq : Requester) (isWrite : Bool) (e : NgcpStop) (h : Keeps s t) : Keeps s (State.ngcpStopped t held n r rq isWrite e) := by
  unfold State.ngcpStopped
  with_reducible repeat' (first | assumption | apply State.ngcpAnswer_keeps | apply State.mtxError_keeps | apply State.ngcpReply_keeps | dsimp only | split)

theorem State.sessionRead_keeps {s t : State} (n : Nat) (r : NgcpReq) (h : Keeps s t) : Keeps s (State.sessionRead t n r) := by
  unfold State.sessionRead
  with_reducible repeat' (first | assumption | intro u | apply State.draw_keeps | apply State.mtxError_keeps | apply State.ngcpReads_keeps | apply State.ngcpAnswer_keeps | apply State.ngcpStopped_keeps | dsimp only | refine keeps_of_fst (by assumption) ?_ | split)

theorem State.sessionWrite_keeps {s t : State} (n : Nat) (r : NgcpReq) (h : Keeps s t) : Keeps s (State.sessionWrite t n r) := by
  unfold State.sessionWrite
  with_reducible repeat' (first | assumption | apply State.mtxError_keeps | apply State.ngcpAnswer_keeps | apply State.ngcpWrites_keeps | apply State.ngcpReply_keeps | apply State.ngcpStopped_keeps | dsimp only | refine keeps_of_fst (by assumption) ?_ | split)

theorem execRead_keeps {s t : State} (n : Fin 64) (h : Keeps s t) : Answers s (execRead n t) := by
  unfold execRead
  with_reducible repeat' (first | assumption | intro u | apply answers_next | apply answers_ite | apply keeps_ite | apply State.serve_keeps | apply State.sessionRead_keeps | dsimp only | split)

theorem execWrite_keeps {s t : State} (n : Fin 64) (h : Keeps s t) : Answers s (execWrite n t) := by
  unfold execWrite
  with_reducible repeat' (first | assumption | intro u | apply answers_next | apply answers_ite | apply keeps_ite | apply State.serve_keeps | apply State.sessionWrite_keeps | dsimp only | split)

theorem State.requestPower_keeps {s t : State} (rq : Requester) (repl : Bool) (target : Nat) (mask : Nat) (h : Keeps s t) : Keeps s (State.requestPower t rq repl target mask) := by
  unfold State.requestPower
  with_reducible repeat' (first | assumption | apply State.access_keeps)

theorem execPowerRequestP0_keeps {s t : State} (rq : Requester) (repl : Bool) (h : Keeps s t) : Answers s (execPowerRequestP0 rq repl t) := by
  unfold execPowerRequestP0
  with_reducible repeat' (first | assumption | apply answers_next | apply State.requestPower_keeps)

theorem execPowerRequestP1_keeps {s t : State} (rq : Requester) (repl : Bool) (h : Keeps s t) : Answers s (execPowerRequestP1 rq repl t) := by
  unfold execPowerRequestP1
  with_reducible repeat' (first | assumption | apply answers_next | apply State.requestPower_keeps)

theorem execPowerRequestP2_keeps {s t : State} (rq : Requester) (repl : Bool) (h : Keeps s t) : Answers s (execPowerRequestP2 rq repl t) := by
  unfold execPowerRequestP2
  with_reducible repeat' (first | assumption | apply answers_next | apply State.requestPower_keeps)

theorem execPowerRequestP3_keeps {s t : State} (rq : Requester) (repl : Bool) (h : Keeps s t) : Answers s (execPowerRequestP3 rq repl t) := by
  unfold execPowerRequestP3
  with_reducible repeat' (first | assumption | apply answers_next | apply State.requestPower_keeps)

theorem execTgsleep_keeps {s t : State} (rq : Requester) (repl : Bool) (mask : BitVec 8) (h : Keeps s t) : Answers s (execTgsleep rq repl mask t) := by
  unfold execTgsleep
  with_reducible repeat' (first | assumption | apply answers_next | apply State.requestPower_keeps)

theorem execTgwake_keeps {s t : State} (rq : Requester) (repl : Bool) (mask : BitVec 8) (h : Keeps s t) : Answers s (execTgwake rq repl mask t) := by
  unfold execTgwake
  with_reducible repeat' (first | assumption | apply answers_next | apply State.requestPower_keeps)

theorem execTraceDataRead_keeps {s t : State} (rq : Requester) (tile : Fin 64) (h : Keeps s t) : Answers s (execTraceDataRead rq tile t) := by
  unfold execTraceDataRead
  with_reducible repeat' (first | assumption | apply answers_next | apply State.access_keeps)

theorem execDumpDataRead_keeps {s t : State} (rq : Requester) (h : Keeps s t) : Answers s (execDumpDataRead rq t) := by
  unfold execDumpDataRead
  with_reducible repeat' (first | assumption | apply answers_next | apply State.access_keeps)

theorem State.telRecord_keeps {s t : State} (i : Nat) (g : Nat) (ws : List Word) (h : Keeps s t) : Keeps s (State.telRecord t i g ws) := by
  unfold State.telRecord
  with_reducible repeat' (first | assumption | intro u | apply keeps_ite | apply State.count_keeps | apply State.ringPut_keeps | dsimp only | split)

theorem execTelemetryEmission_keeps {s t : State} (stream : Fin 64) (changed : Nat) (h : Keeps s t) : Answers s (execTelemetryEmission stream changed t) := by
  unfold execTelemetryEmission
  with_reducible repeat' (first | assumption | intro u | apply answers_next | apply answers_ite | apply keeps_ite | apply keeps_foldl | apply State.count_keeps | apply State.telRecord_keeps | (rw [keeps_iff]; dsimp only; apply keeps_iff.1) | dsimp only | split)

end Sys2Proof.Machine
end

