-- ==== Sys2Proof/Laws/KeepsBootCommands.lean ====
section
/-! SUPPORT. What the operations of Machine/BootCommands.lean keep (Laws/Keeps.lean). -/

namespace Sys2Proof.Machine

set_option Elab.async false
set_option linter.unreachableTactic false
set_option linter.unusedTactic false

theorem State.loadWord_keeps {s t : State} (a : Nat) (v : Word) (h : Keeps s t) : Keeps s (State.loadWord t a v) := by
  unfold State.loadWord
  with_reducible repeat' (first | assumption | intro u | apply keeps_ite | apply State.wr_keeps | apply State.wrMask_keeps | split)

theorem State.keepTone_keeps {s t : State} (o : State) (c : Nat) (h : Keeps s t) : Keeps s (State.keepTone o t c) := by
  unfold State.keepTone
  extract_lets k
  exact keeps_ite (fun _ => State.err_keeps _ _ (State.wrf_keeps _ _ _ _ h)) fun _ => h

theorem State.loadSet_keeps {s t : State} (ws : List (Nat × Word)) (h : Keeps s t) : Keeps s (State.loadSet t ws) := by
  unfold State.loadSet
  with_reducible repeat' (first | assumption | intro u | apply keeps_ite | apply keeps_foldl | apply State.countStaged_keeps | apply State.loadFactors_keeps | apply State.loadWord_keeps | apply State.keepTone_keeps | dsimp only | split)

theorem State.lockIslands_keeps {s t : State} (h : Keeps s t) : Keeps s (State.lockIslands t) := by
  unfold State.lockIslands
  with_reducible repeat' (first | assumption | intro u | apply keeps_foldl | apply State.wr_keeps | (rw [keeps_iff]; dsimp only; apply keeps_iff.1) | dsimp only)

theorem State.applyStartup_keeps {s t : State} (m : Image) (h : Keeps s t) : Keeps s (State.applyStartup t m) := by
  unfold State.applyStartup
  with_reducible repeat' (first | assumption | intro u | apply keeps_foldl | apply State.wrf_keeps | apply State.wrBit_keeps | dsimp only)

theorem State.applyImage_keeps {s t : State} (m : Image) (h : Keeps s t) : Keeps s (State.applyImage t m) := by
  unfold State.applyImage
  with_reducible repeat' (first | assumption | intro u | apply keeps_foldl | apply State.writeWord_keeps | apply State.loadSet_keeps | apply State.lockIslands_keeps | apply State.applyStartup_keeps | dsimp only)

theorem State.restoreWord_keeps {s t : State} (a : Nat) (v : Word) (h : Keeps s t) : Keeps s (State.restoreWord t a v) := by
  unfold State.restoreWord
  with_reducible repeat' (first | assumption | intro u | apply keeps_ite | apply State.wr_keeps | apply State.wrLive_keeps | apply State.wrMask_keeps | split)

theorem State.fillBuckets_keeps {s t : State} (h : Keeps s t) : Keeps s (State.fillBuckets t) := by
  unfold State.fillBuckets
  with_reducible repeat' (first | assumption | intro u | apply keeps_foldl | apply State.setToll_keeps | (rw [keeps_iff]; dsimp only; apply keeps_iff.1) | dsimp only)

theorem State.restoreRetention_keeps {s t : State} (h : Keeps s t) : Keeps s (State.restoreRetention t) := by
  unfold State.restoreRetention
  with_reducible repeat' (first | assumption | intro u | apply keeps_ite | apply keeps_foldl | apply State.wr_keeps | apply State.wrf_keeps | apply State.wrBit_keeps | apply State.err_keeps | apply State.restoreWord_keeps | apply State.fillBuckets_keeps | (rw [keeps_iff]; dsimp only; apply keeps_iff.1) | dsimp only | split)

theorem State.holdImage_keeps {s t : State} (x : SlotRead) (h : Keeps s t) : Keeps s (State.holdImage t x) := by
  unfold State.holdImage
  with_reducible repeat' (first | assumption | (rw [keeps_iff]; dsimp only; apply keeps_iff.1))

theorem State.loadImage_keeps {s t : State} (slot : Bool) (x : SlotRead) (h : Keeps s t) : Keeps s (State.loadImage t slot x) := by
  unfold State.loadImage
  with_reducible repeat' (first | assumption | (rw [keeps_iff]; dsimp only; apply keeps_iff.1) | intro u | apply keeps_ite | apply State.wr_keeps | apply State.wrBit_keeps | apply State.setBoot_keeps | apply State.bootTime_keeps | apply State.applyImage_keeps | apply State.restoreRetention_keeps | apply State.holdImage_keeps | dsimp only | split)

theorem execImageVerified_keeps {s t : State} (a : SlotRead) (b : SlotRead) (h : Keeps s t) : Answers s (execImageVerified a b t) := by
  unfold execImageVerified
  with_reducible repeat' (first | assumption | intro u | apply answers_next | apply answers_ite | apply keeps_ite | apply State.wr_keeps | apply State.bootFail_keeps | apply State.loadImage_keeps | dsimp only | split)

theorem State.flashEnd_keeps {s t : State} (result : Nat) (reason : Nat) (h : Keeps s t) : Keeps s (State.flashEnd t result reason) := by
  unfold State.flashEnd
  with_reducible repeat' (first | assumption | intro u | apply State.wr_keeps | (rw [keeps_iff]; dsimp only; apply keeps_iff.1) | dsimp only)

theorem State.verifyEnd_keeps {s t : State} (r : Nat) (h : Keeps s t) : Keeps s (State.verifyEnd t r) := by
  unfold State.verifyEnd
  with_reducible repeat' (first | assumption | intro u | apply keeps_ite | apply State.flashEnd_keeps | split)

theorem execFlashCommandDone_keeps {s t : State} (outcome : FlashOutcome) (h : Keeps s t) : Answers s (execFlashCommandDone outcome t) := by
  unfold execFlashCommandDone
  with_reducible repeat' (first | assumption | intro u | apply answers_next | apply answers_ite | apply keeps_ite | apply State.flashEffect_keeps | apply State.flashEnd_keeps | apply State.verifyEnd_keeps | dsimp only | split)

theorem State.loadedFrom_keeps {s t : State} (f : Bool) (h : Keeps s t) : Keeps s (State.loadedFrom t f) := by
  unfold State.loadedFrom
  with_reducible repeat' (first | assumption | (rw [keeps_iff]; dsimp only; apply keeps_iff.1))

theorem State.loadBanks_keeps {s t : State} (banks : List (Option (Word × List (Nat × Word)))) (h : Keeps s t) : Keeps s (State.loadBanks t banks) := by
  unfold State.loadBanks
  with_reducible repeat' (first | assumption | (rw [keeps_iff]; dsimp only; apply keeps_iff.1) | intro u | apply keeps_ite | apply keeps_foldl | apply State.wr_keeps | apply State.when_keeps | apply State.wrf_keeps | apply State.wrBit_keeps | apply State.err_keeps | apply State.asyStat_keeps | apply State.stampNow_keeps | apply State.loadSet_keeps | apply State.loadedFrom_keeps | dsimp only | split)

theorem State.foldWear_keeps {s t : State} (r : WearRec) (h : Keeps s t) : Keeps s (State.foldWear t r) := by
  unfold State.foldWear
  with_reducible repeat' (first | assumption | intro u | apply keeps_ite | (rw [keeps_iff]; dsimp only; apply keeps_iff.1) | dsimp only | split)

theorem State.loadWear_keeps {s t : State} (wear : Option (List (Fin 4864 × Word))) (h : Keeps s t) : Keeps s (State.loadWear t wear) := by
  unfold State.loadWear
  with_reducible repeat' (first | assumption | intro u | apply keeps_ite | apply keeps_foldl | apply State.wr_keeps | apply State.wrf_keeps | apply State.wrBit_keeps | apply State.err_keeps | apply State.refreshWarn_keeps | apply State.foldWear_keeps | (rw [keeps_iff]; dsimp only; apply keeps_iff.1) | dsimp only | split)

theorem State.startAnalog_keeps {s t : State} (h : Keeps s t) : Keeps s (State.startAnalog t) := by
  unfold State.startAnalog
  with_reducible repeat' (first | assumption | intro u | apply keeps_foldl | apply State.wrLive_keeps | apply State.wrf_keeps | apply State.showSeq_keeps | dsimp only)

theorem State.powerAnalog_keeps {s t : State} (h : Keeps s t) : Keeps s (State.powerAnalog t) := by
  unfold State.powerAnalog
  with_reducible repeat' (first | assumption | apply State.setMon_keeps | (rw [keeps_iff]; dsimp only; apply keeps_iff.1) | dsimp only | intro u | apply keeps_foldl | apply State.powerMon_keeps)

theorem State.calEnded_keeps {s t : State} (m : Image) (h : Keeps s t) : Keeps s (State.calEnded t m) := by
  unfold State.calEnded
  with_reducible repeat' (first | assumption | intro u | apply keeps_ite | apply State.when_keeps | apply State.wrf_keeps | apply State.wrBit_keeps | apply State.setBoot_keeps | apply State.bootTime_keeps | dsimp only | split)

theorem execBootPhaseComplete_keeps {s t : State} (banks : List (Option (Word × List (Nat × Word)))) (wear : Option (List (Fin 4864 × Word))) (h : Keeps s t) : Answers s (execBootPhaseComplete banks wear t) := by
  unfold execBootPhaseComplete
  with_reducible repeat' (first | assumption | intro u | apply answers_next | apply answers_ite | apply keeps_ite | apply State.wrf_keeps | apply State.wrBit_keeps | apply State.startFull_keeps | apply State.startPaths_keeps | apply State.setBoot_keeps | apply State.bootTime_keeps | apply State.loadBanks_keeps | apply State.loadWear_keeps | apply State.startAnalog_keeps | apply State.powerAnalog_keeps | apply State.calEnded_keeps | dsimp only | split)

theorem execCalwaitExpiry_keeps {s t : State} (h : Keeps s t) : Answers s (execCalwaitExpiry t) := by
  unfold execCalwaitExpiry
  with_reducible repeat' (first | assumption | intro u | apply answers_next | apply answers_ite | apply keeps_ite | apply State.startFull_keeps | apply State.setBoot_keeps | split)

theorem State.installAlts_keeps {s t : State} (found : List Candidate) (h : Keeps s t) : Keeps s (State.installAlts t found) := by
  unfold State.installAlts
  with_reducible repeat' (first | assumption | intro u | apply State.putCkts_keeps | (rw [keeps_iff]; dsimp only; apply keeps_iff.1) | dsimp only)

/-- A write of T_dr. -/
theorem driveAt_keeps {s t : State} (x : Nat) (h : Keeps s t) : Keeps s { t with driveAt := x } := h

theorem execDriveReturn_keeps {s t : State} (found : List Candidate) (h : Keeps s t) : Answers s (execDriveReturn found t) := by
  unfold execDriveReturn
  split
  · exact answers_next h
  · refine answers_ite (fun _ => answers_next h) fun _ => answers_next ?_
    refine State.setBoot_keeps _ (driveAt_keeps _ (State.bootTime_keeps _ (State.installAlts_keeps _ (State.fsTick_keeps
      (State.refreshMaps_keeps (keeps_foldl _ _ (fun _ i hu => State.reportTile_keeps i hu) (State.fsTick_keeps ?_)))))))
    exact State.leaveRest_keeps _ (State.putCkts_keeps _ _ (State.raise_keeps _ h))

theorem State.raiseSvn_keeps {s t : State} (m : Image) (h : Keeps s t) : Keeps s (State.raiseSvn t m) := by
  unfold State.raiseSvn
  with_reducible repeat' (first | assumption | intro u | apply keeps_ite | apply State.wrf_keeps | split)

theorem State.setUp_keeps {s t : State} (m : Image) (h : Keeps s t) : Keeps s (State.setUp t m) := by
  unfold State.setUp
  with_reducible repeat' (first | assumption | apply State.fetchAll_keeps | intro u | apply keeps_ite | apply keeps_foldl | apply State.wrf_keeps | apply State.wrBit_keeps | apply State.issueFetch_keeps | apply State.setBoot_keeps | apply State.bootTime_keeps | apply State.raiseSvn_keeps | dsimp only | split)

theorem execUp_keeps {s t : State} (h : Keeps s t) : Answers s (execUp t) := by
  unfold execUp
  with_reducible repeat' (first | assumption | intro u | apply answers_next | apply answers_ite | apply keeps_ite | apply State.setUp_keeps | dsimp only | split)

theorem execLocklate_keeps {s t : State} (h : Keeps s t) : Answers s (execLocklate t) := by
  unfold execLocklate
  with_reducible repeat' (first | assumption | intro u | apply answers_next | apply answers_ite | apply keeps_ite | apply State.wrBit_keeps | apply State.raise_keeps | apply State.setUp_keeps | dsimp only | split)

end Sys2Proof.Machine
end

