-- ==== Sys2Proof/Laws/State.lean ====
section
/-! SUPPORT. The laws of words, fields and the primitive updates of State: what each reads afterwards and what it leaves alone, and the
rules by which `OnlyWords` and `WordsAndEvents` are shown for chains of updates. -/

namespace Sys2Proof.Machine

set_option Elab.async false

/-! ## Fields -/

theorem fieldMask_getLsbD (lo n i : Nat) : (fieldMask lo n).getLsbD i = (decide (i < 32) && decide (lo ≤ i) && decide (i < lo + n)) := by
  unfold fieldMask
  rw [BitVec.getLsbD_shiftLeft, BitVec.getLsbD_setWidth, BitVec.getLsbD_allOnes]
  by_cases h : lo ≤ i
  · by_cases k : i < lo + n
    · have e : i - lo < n := by omega
      by_cases m : i < 32
      · have e2 : i - lo < 32 := by omega
        simp [h, k, m, e, e2]
      · simp [m]
    · have e : ¬ i - lo < n := by omega
      simp [h, k, e]
  · have e : i < lo := by omega
    simp [h, e]

/-- Bit `i` of a word whose field was set. -/
theorem put_getLsbD (w : Word) (lo n v i : Nat) : (put w lo n v).getLsbD i =
    (if i < 32 ∧ lo ≤ i ∧ i < lo + n then (BitVec.ofNat n v).getLsbD (i - lo) else w.getLsbD i) := by
  unfold put
  rw [BitVec.getLsbD_or, BitVec.getLsbD_and, BitVec.getLsbD_not, fieldMask_getLsbD, BitVec.getLsbD_shiftLeft, BitVec.getLsbD_setWidth]
  by_cases m : i < 32
  · by_cases h : lo ≤ i
    · have e2 : i - lo < 32 := by omega
      by_cases k : i < lo + n
      · simp [m, h, k, e2]
      · have e : ¬ i - lo < n := by omega
        have e3 : (BitVec.ofNat n v).getLsbD (i - lo) = false := BitVec.getLsbD_of_ge _ _ (by omega)
        simp [m, h, k, e2, e3]
    · simp [m, h]
  · simp [m, BitVec.getLsbD_of_ge w i (by omega)]

theorem fld_getLsbD (w : Word) (lo n i : Nat) : (fld w lo n).testBit i = (decide (i < n) && w.getLsbD (lo + i)) := by
  unfold fld
  rw [BitVec.testBit_toNat, BitVec.getLsbD_extractLsb']

/-- A field holds what was put into it, modulo its width. -/
theorem fld_put_same (w : Word) {lo n : Nat} (v : Nat) (h : lo + n ≤ 32) : fld (put w lo n v) lo n = v % 2 ^ n := by
  apply Nat.eq_of_testBit_eq
  intro i
  rw [fld_getLsbD, put_getLsbD, Nat.testBit_mod_two_pow]
  by_cases k : i < n
  · have e : lo + i < 32 ∧ lo ≤ lo + i ∧ lo + i < lo + n := by omega
    rw [if_pos e]
    simp only [k, decide_true, Bool.true_and]
    rw [BitVec.getLsbD_ofNat]
    simp [k]
  · simp [k]

/-- A field outside the one that was set is unchanged. -/
theorem fld_put_ne (w : Word) {lo n lo' n' : Nat} (v : Nat) (h : lo' + n' ≤ lo ∨ lo + n ≤ lo') :
    fld (put w lo n v) lo' n' = fld w lo' n' := by
  apply Nat.eq_of_testBit_eq
  intro i
  rw [fld_getLsbD, fld_getLsbD, put_getLsbD]
  by_cases k : i < n'
  · have e : ¬ (lo' + i < 32 ∧ lo ≤ lo' + i ∧ lo' + i < lo + n) := by omega
    rw [if_neg e]
  · simp [k]

theorem fld_lt (w : Word) (lo n : Nat) : fld w lo n < 2 ^ n := (BitVec.extractLsb' lo n w).isLt

theorem wbit_put_same (w : Word) {i : Nat} (b : Bool) (h : i < 32) : wbit (put w i 1 b.toNat) i = b := by
  unfold wbit
  rw [put_getLsbD, if_pos (by omega)]
  cases b <;> simp

theorem wbit_put_ne (w : Word) {lo n i : Nat} (v : Nat) (h : i < lo ∨ lo + n ≤ i) : wbit (put w lo n v) i = wbit w i := by
  unfold wbit
  rw [put_getLsbD, if_neg (by omega)]

/-! ## Reads after writes -/

@[simp] theorem State.rd_wr_same (s : State) (a : Nat) (v : Word) : (s.wr a v).rd a = v := Store.get_set_same _ _ _ _

theorem State.rd_wr_ne (s : State) {a b : Nat} (v : Word) (h : b ≠ a) : (s.wr a v).rd b = s.rd b := Store.get_set_ne _ _ _ _ h

theorem State.rd_wr (s : State) (a b : Nat) (v : Word) : (s.wr a v).rd b = if b = a then v else s.rd b := by
  split
  · next h => rw [h, State.rd_wr_same]
  · next h => exact s.rd_wr_ne v h

@[simp] theorem State.rdLive_wrLive_same (s : State) (a : Nat) (v : Word) : (s.wrLive a v).rdLive a = v := Store.get_set_same _ _ _ _

theorem State.rdLive_wrLive_ne (s : State) {a b : Nat} (v : Word) (h : b ≠ a) : (s.wrLive a v).rdLive b = s.rdLive b :=
  Store.get_set_ne _ _ _ _ h

@[simp] theorem State.rd_wrLive (s : State) (a b : Nat) (v : Word) : (s.wrLive a v).rd b = s.rd b := rfl

@[simp] theorem State.rdLive_wr (s : State) (a b : Nat) (v : Word) : (s.wr a v).rdLive b = s.rdLive b := rfl

@[simp] theorem State.byte_putByte_same (s : State) (a : Nat) (v : Byte) : (s.putByte a v).byte a = v := Store.get_set_same _ _ _ _

theorem State.byte_putByte_ne (s : State) {a b : Nat} (v : Byte) (h : b ≠ a) : (s.putByte a v).byte b = s.byte b :=
  Store.get_set_ne _ _ _ _ h

@[simp] theorem State.byte_wr (s : State) (a b : Nat) (v : Word) : (s.wr a v).byte b = s.byte b := rfl

@[simp] theorem State.rd_putByte (s : State) (a b : Nat) (v : Byte) : (s.putByte a v).rd b = s.rd b := rfl

@[simp] theorem State.rd_send (s : State) (o : Output) (b : Nat) : (s.send o).rd b = s.rd b := rfl

@[simp] theorem State.rd_draw (s : State) (b : Nat) : s.draw.rd b = s.rd b := rfl

@[simp] theorem State.rd_raise (s : State) (t b : Nat) : (s.raise t).rd b = s.rd b := rfl

@[simp] theorem State.rd_setRing (s : State) (r : Nat) (x : RingRec) (b : Nat) : (s.setRing r x).rd b = s.rd b := rfl

@[simp] theorem State.rd_setSession (s : State) (n : Nat) (x : SessRec) (b : Nat) : (s.setSession n x).rd b = s.rd b := rfl

@[simp] theorem State.ring_setRing_same (s : State) (r : Nat) (x : RingRec) : (s.setRing r x).ring r = x := Store.get_set_same _ _ _ _

theorem State.ring_setRing_ne (s : State) {r q : Nat} (x : RingRec) (h : q ≠ r) : (s.setRing r x).ring q = s.ring q :=
  Store.get_set_ne _ _ _ _ h

@[simp] theorem State.session_setSession_same (s : State) (n : Nat) (x : SessRec) : (s.setSession n x).session n = x :=
  Store.get_set_same _ _ _ _

theorem State.session_setSession_ne (s : State) {n m : Nat} (x : SessRec) (h : m ≠ n) : (s.setSession n x).session m = s.session m :=
  Store.get_set_ne _ _ _ _ h

theorem State.rdf_wrf_same (s : State) (a : Nat) {lo n : Nat} (v : Nat) (h : lo + n ≤ 32) : (s.wrf a lo n v).rdf a lo n = v % 2 ^ n := by
  unfold State.wrf State.rdf
  rw [State.rd_wr_same, fld_put_same _ _ h]

theorem State.bit_wrBit_same (s : State) (a : Nat) {i : Nat} (b : Bool) (h : i < 32) : (s.wrBit a i b).bit a i = b := by
  unfold State.wrBit State.wrf State.bit
  rw [State.rd_wr_same, wbit_put_same _ _ h]

/-! ## Fields of State under the word update and under an output -/

@[simp] theorem State.wr_now (s : State) (a : Nat) (v : Word) : (s.wr a v).now = s.now := rfl
@[simp] theorem State.wr_live (s : State) (a : Nat) (v : Word) : (s.wr a v).live = s.live := rfl
@[simp] theorem State.wr_mem (s : State) (a : Nat) (v : Word) : (s.wr a v).mem = s.mem := rfl
@[simp] theorem State.wr_pending (s : State) (a : Nat) (v : Word) : (s.wr a v).pending = s.pending := rfl
@[simp] theorem State.wr_out (s : State) (a : Nat) (v : Word) : (s.wr a v).out = s.out := rfl
@[simp] theorem State.wr_fresh (s : State) (a : Nat) (v : Word) : (s.wr a v).fresh = s.fresh := rfl
@[simp] theorem State.wr_latches (s : State) (a : Nat) (v : Word) : (s.wr a v).latches = s.latches := rfl
@[simp] theorem State.wr_origins (s : State) (a : Nat) (v : Word) : (s.wr a v).origins = s.origins := rfl
@[simp] theorem State.wr_batches (s : State) (a : Nat) (v : Word) : (s.wr a v).batches = s.batches := rfl
@[simp] theorem State.wr_nextBatch (s : State) (a : Nat) (v : Word) : (s.wr a v).nextBatch = s.nextBatch := rfl
@[simp] theorem State.wr_nextSolve (s : State) (a : Nat) (v : Word) : (s.wr a v).nextSolve = s.nextSolve := rfl
@[simp] theorem State.wr_commits (s : State) (a : Nat) (v : Word) : (s.wr a v).commits = s.commits := rfl
@[simp] theorem State.wr_vtime (s : State) (a : Nat) (v : Word) : (s.wr a v).vtime = s.vtime := rfl
@[simp] theorem State.wr_toll (s : State) (a : Nat) (v : Word) : (s.wr a v).toll = s.toll := rfl
@[simp] theorem State.wr_alts (s : State) (a : Nat) (v : Word) : (s.wr a v).alts = s.alts := rfl
@[simp] theorem State.wr_prots (s : State) (a : Nat) (v : Word) : (s.wr a v).prots = s.prots := rfl
@[simp] theorem State.wr_rings (s : State) (a : Nat) (v : Word) : (s.wr a v).rings = s.rings := rfl
@[simp] theorem State.wr_bme (s : State) (a : Nat) (v : Word) : (s.wr a v).bme = s.bme := rfl
@[simp] theorem State.wr_emissions (s : State) (a : Nat) (v : Word) : (s.wr a v).emissions = s.emissions := rfl
@[simp] theorem State.wr_heldCq (s : State) (a : Nat) (v : Word) : (s.wr a v).heldCq = s.heldCq := rfl
@[simp] theorem State.wr_sess (s : State) (a : Nat) (v : Word) : (s.wr a v).sess = s.sess := rfl
@[simp] theorem State.wr_notifyReserved (s : State) (a : Nat) (v : Word) : (s.wr a v).notifyReserved = s.notifyReserved := rfl
@[simp] theorem State.wr_cells (s : State) (a : Nat) (v : Word) : (s.wr a v).cells = s.cells := rfl
@[simp] theorem State.wr_solveStart (s : State) (a : Nat) (v : Word) : (s.wr a v).solveStart = s.solveStart := rfl
@[simp] theorem State.wr_poisoned (s : State) (a : Nat) (v : Word) : (s.wr a v).poisoned = s.poisoned := rfl
@[simp] theorem State.wr_aborts (s : State) (a : Nat) (v : Word) : (s.wr a v).aborts = s.aborts := rfl
@[simp] theorem State.wr_change (s : State) (a : Nat) (v : Word) : (s.wr a v).change = s.change := rfl
@[simp] theorem State.wr_slot (s : State) (a : Nat) (v : Word) : (s.wr a v).slot = s.slot := rfl
@[simp] theorem State.wr_lightRuns (s : State) (a : Nat) (v : Word) : (s.wr a v).lightRuns = s.lightRuns := rfl
@[simp] theorem State.wr_winUsed (s : State) (a : Nat) (v : Word) : (s.wr a v).winUsed = s.winUsed := rfl
@[simp] theorem State.wr_lateReports (s : State) (a : Nat) (v : Word) : (s.wr a v).lateReports = s.lateReports := rfl
@[simp] theorem State.wr_calCells (s : State) (a : Nat) (v : Word) : (s.wr a v).calCells = s.calCells := rfl
@[simp] theorem State.wr_draining (s : State) (a : Nat) (v : Word) : (s.wr a v).draining = s.draining := rfl
@[simp] theorem State.wr_training (s : State) (a : Nat) (v : Word) : (s.wr a v).training = s.training := rfl
@[simp] theorem State.wr_coos (s : State) (a : Nat) (v : Word) : (s.wr a v).coos = s.coos := rfl
@[simp] theorem State.wr_tiles (s : State) (a : Nat) (v : Word) : (s.wr a v).tiles = s.tiles := rfl
@[simp] theorem State.wr_traceMem (s : State) (a : Nat) (v : Word) : (s.wr a v).traceMem = s.traceMem := rfl
@[simp] theorem State.wr_settling (s : State) (a : Nat) (v : Word) : (s.wr a v).settling = s.settling := rfl
@[simp] theorem State.wr_chans (s : State) (a : Nat) (v : Word) : (s.wr a v).chans = s.chans := rfl
@[simp] theorem State.wr_mons (s : State) (a : Nat) (v : Word) : (s.wr a v).mons = s.mons := rfl
@[simp] theorem State.wr_fullcal (s : State) (a : Nat) (v : Word) : (s.wr a v).fullcal = s.fullcal := rfl
@[simp] theorem State.wr_calEn (s : State) (a : Nat) (v : Word) : (s.wr a v).calEn = s.calEn := rfl
@[simp] theorem State.wr_calBand (s : State) (a : Nat) (v : Word) : (s.wr a v).calBand = s.calBand := rfl
@[simp] theorem State.wr_calSettled (s : State) (a : Nat) (v : Word) : (s.wr a v).calSettled = s.calSettled := rfl
@[simp] theorem State.wr_couplers (s : State) (a : Nat) (v : Word) : (s.wr a v).couplers = s.couplers := rfl
@[simp] theorem State.wr_deferredCal (s : State) (a : Nat) (v : Word) : (s.wr a v).deferredCal = s.deferredCal := rfl
@[simp] theorem State.wr_asyLast (s : State) (a : Nat) (v : Word) : (s.wr a v).asyLast = s.asyLast := rfl
@[simp] theorem State.wr_stamps (s : State) (a : Nat) (v : Word) : (s.wr a v).stamps = s.stamps := rfl
@[simp] theorem State.wr_bgNext (s : State) (a : Nat) (v : Word) : (s.wr a v).bgNext = s.bgNext := rfl
@[simp] theorem State.wr_saving (s : State) (a : Nat) (v : Word) : (s.wr a v).saving = s.saving := rfl
@[simp] theorem State.wr_saveUntil (s : State) (a : Nat) (v : Word) : (s.wr a v).saveUntil = s.saveUntil := rfl
@[simp] theorem State.wr_lastSave (s : State) (a : Nat) (v : Word) : (s.wr a v).lastSave = s.lastSave := rfl
@[simp] theorem State.wr_sinceSave (s : State) (a : Nat) (v : Word) : (s.wr a v).sinceSave = s.sinceSave := rfl
@[simp] theorem State.wr_lastCalCommit (s : State) (a : Nat) (v : Word) : (s.wr a v).lastCalCommit = s.lastCalCommit := rfl
@[simp] theorem State.wr_tink (s : State) (a : Nat) (v : Word) : (s.wr a v).tink = s.tink := rfl
@[simp] theorem State.wr_incrAt (s : State) (a : Nat) (v : Word) : (s.wr a v).incrAt = s.incrAt := rfl
@[simp] theorem State.wr_adjAt (s : State) (a : Nat) (v : Word) : (s.wr a v).adjAt = s.adjAt := rfl
@[simp] theorem State.wr_lateUnits (s : State) (a : Nat) (v : Word) : (s.wr a v).lateUnits = s.lateUnits := rfl
@[simp] theorem State.wr_stepReq (s : State) (a : Nat) (v : Word) : (s.wr a v).stepReq = s.stepReq := rfl
@[simp] theorem State.wr_ptp (s : State) (a : Nat) (v : Word) : (s.wr a v).ptp = s.ptp := rfl
@[simp] theorem State.wr_ppsLast (s : State) (a : Nat) (v : Word) : (s.wr a v).ppsLast = s.ppsLast := rfl
@[simp] theorem State.wr_recirc (s : State) (a : Nat) (v : Word) : (s.wr a v).recirc = s.recirc := rfl
@[simp] theorem State.wr_mgmtQ (s : State) (a : Nat) (v : Word) : (s.wr a v).mgmtQ = s.mgmtQ := rfl
@[simp] theorem State.wr_limiters (s : State) (a : Nat) (v : Word) : (s.wr a v).limiters = s.limiters := rfl
@[simp] theorem State.wr_gapFrames (s : State) (a : Nat) (v : Word) : (s.wr a v).gapFrames = s.gapFrames := rfl
@[simp] theorem State.wr_gapOut (s : State) (a : Nat) (v : Word) : (s.wr a v).gapOut = s.gapOut := rfl
@[simp] theorem State.wr_gap (s : State) (a : Nat) (v : Word) : (s.wr a v).gap = s.gap := rfl
@[simp] theorem State.wr_epochNew (s : State) (a : Nat) (v : Word) : (s.wr a v).epochNew = s.epochNew := rfl
@[simp] theorem State.wr_epochHeld (s : State) (a : Nat) (v : Word) : (s.wr a v).epochHeld = s.epochHeld := rfl
@[simp] theorem State.wr_nextReq (s : State) (a : Nat) (v : Word) : (s.wr a v).nextReq = s.nextReq := rfl
@[simp] theorem State.wr_off (s : State) (a : Nat) (v : Word) : (s.wr a v).off = s.off := rfl
@[simp] theorem State.wr_stopHeld (s : State) (a : Nat) (v : Word) : (s.wr a v).stopHeld = s.stopHeld := rfl
@[simp] theorem State.wr_stopOwed (s : State) (a : Nat) (v : Word) : (s.wr a v).stopOwed = s.stopOwed := rfl
@[simp] theorem State.wr_latched (s : State) (a : Nat) (v : Word) : (s.wr a v).latched = s.latched := rfl
@[simp] theorem State.wr_retained (s : State) (a : Nat) (v : Word) : (s.wr a v).retained = s.retained := rfl
@[simp] theorem State.wr_groupSaved (s : State) (a : Nat) (v : Word) : (s.wr a v).groupSaved = s.groupSaved := rfl
@[simp] theorem State.wr_owed (s : State) (a : Nat) (v : Word) : (s.wr a v).owed = s.owed := rfl
@[simp] theorem State.wr_sensors (s : State) (a : Nat) (v : Word) : (s.wr a v).sensors = s.sensors := rfl
@[simp] theorem State.wr_creditUj (s : State) (a : Nat) (v : Word) : (s.wr a v).creditUj = s.creditUj := rfl
@[simp] theorem State.wr_enables (s : State) (a : Nat) (v : Word) : (s.wr a v).enables = s.enables := rfl
@[simp] theorem State.wr_seqFails (s : State) (a : Nat) (v : Word) : (s.wr a v).seqFails = s.seqFails := rfl
@[simp] theorem State.wr_image (s : State) (a : Nat) (v : Word) : (s.wr a v).image = s.image := rfl
@[simp] theorem State.wr_digest (s : State) (a : Nat) (v : Word) : (s.wr a v).digest = s.digest := rfl
@[simp] theorem State.wr_abandoned (s : State) (a : Nat) (v : Word) : (s.wr a v).abandoned = s.abandoned := rfl
@[simp] theorem State.wr_released (s : State) (a : Nat) (v : Word) : (s.wr a v).released = s.released := rfl
@[simp] theorem State.wr_driveAt (s : State) (a : Nat) (v : Word) : (s.wr a v).driveAt = s.driveAt := rfl
@[simp] theorem State.wr_flash (s : State) (a : Nat) (v : Word) : (s.wr a v).flash = s.flash := rfl
@[simp] theorem State.wr_sealing (s : State) (a : Nat) (v : Word) : (s.wr a v).sealing = s.sealing := rfl
@[simp] theorem State.wr_unfencing (s : State) (a : Nat) (v : Word) : (s.wr a v).unfencing = s.unfencing := rfl
@[simp] theorem State.wr_ceTimes (s : State) (a : Nat) (v : Word) : (s.wr a v).ceTimes = s.ceTimes := rfl
@[simp] theorem State.wr_fnCfg (s : State) (a : Nat) (v : Word) : (s.wr a v).fnCfg = s.fnCfg := rfl
@[simp] theorem State.wr_served (s : State) (a : Nat) (v : Word) : (s.wr a v).served = s.served := rfl
@[simp] theorem State.wr_darkIn (s : State) (a : Nat) (v : Word) : (s.wr a v).darkIn = s.darkIn := rfl
@[simp] theorem State.wr_badBeats (s : State) (a : Nat) (v : Word) : (s.wr a v).badBeats = s.badBeats := rfl
@[simp] theorem State.wr_tbStart (s : State) (a : Nat) (v : Word) : (s.wr a v).tbStart = s.tbStart := rfl
@[simp] theorem State.wr_bankOwn (s : State) (a : Nat) (v : Word) : (s.wr a v).bankOwn = s.bankOwn := rfl
@[simp] theorem State.wr_norOwn (s : State) (a : Nat) (v : Word) : (s.wr a v).norOwn = s.norOwn := rfl
@[simp] theorem State.wr_extOld (s : State) (a : Nat) (v : Word) : (s.wr a v).extOld = s.extOld := rfl
@[simp] theorem State.wr_factory (s : State) (a : Nat) (v : Word) : (s.wr a v).factory = s.factory := rfl
@[simp] theorem State.wr_ownFactors (s : State) (a : Nat) (v : Word) : (s.wr a v).ownFactors = s.ownFactors := rfl
@[simp] theorem State.wr_wearA (s : State) (a : Nat) (v : Word) : (s.wr a v).wearA = s.wearA := rfl
@[simp] theorem State.wr_wearB (s : State) (a : Nat) (v : Word) : (s.wr a v).wearB = s.wearB := rfl
@[simp] theorem State.wr_wearLog (s : State) (a : Nat) (v : Word) : (s.wr a v).wearLog = s.wearLog := rfl
@[simp] theorem State.wr_replay (s : State) (a : Nat) (v : Word) : (s.wr a v).replay = s.replay := rfl
@[simp] theorem State.send_now (s : State) (o : Output) : (s.send o).now = s.now := rfl
@[simp] theorem State.send_words (s : State) (o : Output) : (s.send o).words = s.words := rfl
@[simp] theorem State.send_live (s : State) (o : Output) : (s.send o).live = s.live := rfl
@[simp] theorem State.send_mem (s : State) (o : Output) : (s.send o).mem = s.mem := rfl
@[simp] theorem State.send_pending (s : State) (o : Output) : (s.send o).pending = s.pending := rfl
@[simp] theorem State.send_fresh (s : State) (o : Output) : (s.send o).fresh = s.fresh := rfl
@[simp] theorem State.send_latches (s : State) (o : Output) : (s.send o).latches = s.latches := rfl
@[simp] theorem State.send_origins (s : State) (o : Output) : (s.send o).origins = s.origins := rfl
@[simp] theorem State.send_batches (s : State) (o : Output) : (s.send o).batches = s.batches := rfl
@[simp] theorem State.send_nextBatch (s : State) (o : Output) : (s.send o).nextBatch = s.nextBatch := rfl
@[simp] theorem State.send_nextSolve (s : State) (o : Output) : (s.send o).nextSolve = s.nextSolve := rfl
@[simp] theorem State.send_commits (s : State) (o : Output) : (s.send o).commits = s.commits := rfl
@[simp] theorem State.send_vtime (s : State) (o : Output) : (s.send o).vtime = s.vtime := rfl
@[simp] theorem State.send_toll (s : State) (o : Output) : (s.send o).toll = s.toll := rfl
@[simp] theorem State.send_alts (s : State) (o : Output) : (s.send o).alts = s.alts := rfl
@[simp] theorem State.send_prots (s : State) (o : Output) : (s.send o).prots = s.prots := rfl
@[simp] theorem State.send_rings (s : State) (o : Output) : (s.send o).rings = s.rings := rfl
@[simp] theorem State.send_bme (s : State) (o : Output) : (s.send o).bme = s.bme := rfl
@[simp] theorem State.send_emissions (s : State) (o : Output) : (s.send o).emissions = s.emissions := rfl
@[simp] theorem State.send_heldCq (s : State) (o : Output) : (s.send o).heldCq = s.heldCq := rfl
@[simp] theorem State.send_sess (s : State) (o : Output) : (s.send o).sess = s.sess := rfl
@[simp] theorem State.send_notifyReserved (s : State) (o : Output) : (s.send o).notifyReserved = s.notifyReserved := rfl
@[simp] theorem State.send_cells (s : State) (o : Output) : (s.send o).cells = s.cells := rfl
@[simp] theorem State.send_solveStart (s : State) (o : Output) : (s.send o).solveStart = s.solveStart := rfl
@[simp] theorem State.send_poisoned (s : State) (o : Output) : (s.send o).poisoned = s.poisoned := rfl
@[simp] theorem State.send_aborts (s : State) (o : Output) : (s.send o).aborts = s.aborts := rfl
@[simp] theorem State.send_change (s : State) (o : Output) : (s.send o).change = s.change := rfl
@[simp] theorem State.send_slot (s : State) (o : Output) : (s.send o).slot = s.slot := rfl
@[simp] theorem State.send_lightRuns (s : State) (o : Output) : (s.send o).lightRuns = s.lightRuns := rfl
@[simp] theorem State.send_winUsed (s : State) (o : Output) : (s.send o).winUsed = s.winUsed := rfl
@[simp] theorem State.send_lateReports (s : State) (o : Output) : (s.send o).lateReports = s.lateReports := rfl
@[simp] theorem State.send_calCells (s : State) (o : Output) : (s.send o).calCells = s.calCells := rfl
@[simp] theorem State.send_draining (s : State) (o : Output) : (s.send o).draining = s.draining := rfl
@[simp] theorem State.send_training (s : State) (o : Output) : (s.send o).training = s.training := rfl
@[simp] theorem State.send_coos (s : State) (o : Output) : (s.send o).coos = s.coos := rfl
@[simp] theorem State.send_tiles (s : State) (o : Output) : (s.send o).tiles = s.tiles := rfl
@[simp] theorem State.send_traceMem (s : State) (o : Output) : (s.send o).traceMem = s.traceMem := rfl
@[simp] theorem State.send_settling (s : State) (o : Output) : (s.send o).settling = s.settling := rfl
@[simp] theorem State.send_chans (s : State) (o : Output) : (s.send o).chans = s.chans := rfl
@[simp] theorem State.send_mons (s : State) (o : Output) : (s.send o).mons = s.mons := rfl
@[simp] theorem State.send_fullcal (s : State) (o : Output) : (s.send o).fullcal = s.fullcal := rfl
@[simp] theorem State.send_calEn (s : State) (o : Output) : (s.send o).calEn = s.calEn := rfl
@[simp] theorem State.send_calBand (s : State) (o : Output) : (s.send o).calBand = s.calBand := rfl
@[simp] theorem State.send_calSettled (s : State) (o : Output) : (s.send o).calSettled = s.calSettled := rfl
@[simp] theorem State.send_couplers (s : State) (o : Output) : (s.send o).couplers = s.couplers := rfl
@[simp] theorem State.send_deferredCal (s : State) (o : Output) : (s.send o).deferredCal = s.deferredCal := rfl
@[simp] theorem State.send_asyLast (s : State) (o : Output) : (s.send o).asyLast = s.asyLast := rfl
@[simp] theorem State.send_stamps (s : State) (o : Output) : (s.send o).stamps = s.stamps := rfl
@[simp] theorem State.send_bgNext (s : State) (o : Output) : (s.send o).bgNext = s.bgNext := rfl
@[simp] theorem State.send_saving (s : State) (o : Output) : (s.send o).saving = s.saving := rfl
@[simp] theorem State.send_saveUntil (s : State) (o : Output) : (s.send o).saveUntil = s.saveUntil := rfl
@[simp] theorem State.send_lastSave (s : State) (o : Output) : (s.send o).lastSave = s.lastSave := rfl
@[simp] theorem State.send_sinceSave (s : State) (o : Output) : (s.send o).sinceSave = s.sinceSave := rfl
@[simp] theorem State.send_lastCalCommit (s : State) (o : Output) : (s.send o).lastCalCommit = s.lastCalCommit := rfl
@[simp] theorem State.send_tink (s : State) (o : Output) : (s.send o).tink = s.tink := rfl
@[simp] theorem State.send_incrAt (s : State) (o : Output) : (s.send o).incrAt = s.incrAt := rfl
@[simp] theorem State.send_adjAt (s : State) (o : Output) : (s.send o).adjAt = s.adjAt := rfl
@[simp] theorem State.send_lateUnits (s : State) (o : Output) : (s.send o).lateUnits = s.lateUnits := rfl
@[simp] theorem State.send_stepReq (s : State) (o : Output) : (s.send o).stepReq = s.stepReq := rfl
@[simp] theorem State.send_ptp (s : State) (o : Output) : (s.send o).ptp = s.ptp := rfl
@[simp] theorem State.send_ppsLast (s : State) (o : Output) : (s.send o).ppsLast = s.ppsLast := rfl
@[simp] theorem State.send_recirc (s : State) (o : Output) : (s.send o).recirc = s.recirc := rfl
@[simp] theorem State.send_mgmtQ (s : State) (o : Output) : (s.send o).mgmtQ = s.mgmtQ := rfl
@[simp] theorem State.send_limiters (s : State) (o : Output) : (s.send o).limiters = s.limiters := rfl
@[simp] theorem State.send_gapFrames (s : State) (o : Output) : (s.send o).gapFrames = s.gapFrames := rfl
@[simp] theorem State.send_gapOut (s : State) (o : Output) : (s.send o).gapOut = s.gapOut := rfl
@[simp] theorem State.send_gap (s : State) (o : Output) : (s.send o).gap = s.gap := rfl
@[simp] theorem State.send_epochNew (s : State) (o : Output) : (s.send o).epochNew = s.epochNew := rfl
@[simp] theorem State.send_epochHeld (s : State) (o : Output) : (s.send o).epochHeld = s.epochHeld := rfl
@[simp] theorem State.send_nextReq (s : State) (o : Output) : (s.send o).nextReq = s.nextReq := rfl
@[simp] theorem State.send_off (s : State) (o : Output) : (s.send o).off = s.off := rfl
@[simp] theorem State.send_stopHeld (s : State) (o : Output) : (s.send o).stopHeld = s.stopHeld := rfl
@[simp] theorem State.send_stopOwed (s : State) (o : Output) : (s.send o).stopOwed = s.stopOwed := rfl
@[simp] theorem State.send_latched (s : State) (o : Output) : (s.send o).latched = s.latched := rfl
@[simp] theorem State.send_retained (s : State) (o : Output) : (s.send o).retained = s.retained := rfl
@[simp] theorem State.send_groupSaved (s : State) (o : Output) : (s.send o).groupSaved = s.groupSaved := rfl
@[simp] theorem State.send_owed (s : State) (o : Output) : (s.send o).owed = s.owed := rfl
@[simp] theorem State.send_sensors (s : State) (o : Output) : (s.send o).sensors = s.sensors := rfl
@[simp] theorem State.send_creditUj (s : State) (o : Output) : (s.send o).creditUj = s.creditUj := rfl
@[simp] theorem State.send_enables (s : State) (o : Output) : (s.send o).enables = s.enables := rfl
@[simp] theorem State.send_seqFails (s : State) (o : Output) : (s.send o).seqFails = s.seqFails := rfl
@[simp] theorem State.send_image (s : State) (o : Output) : (s.send o).image = s.image := rfl
@[simp] theorem State.send_digest (s : State) (o : Output) : (s.send o).digest = s.digest := rfl
@[simp] theorem State.send_abandoned (s : State) (o : Output) : (s.send o).abandoned = s.abandoned := rfl
@[simp] theorem State.send_released (s : State) (o : Output) : (s.send o).released = s.released := rfl
@[simp] theorem State.send_driveAt (s : State) (o : Output) : (s.send o).driveAt = s.driveAt := rfl
@[simp] theorem State.send_flash (s : State) (o : Output) : (s.send o).flash = s.flash := rfl
@[simp] theorem State.send_sealing (s : State) (o : Output) : (s.send o).sealing = s.sealing := rfl
@[simp] theorem State.send_unfencing (s : State) (o : Output) : (s.send o).unfencing = s.unfencing := rfl
@[simp] theorem State.send_ceTimes (s : State) (o : Output) : (s.send o).ceTimes = s.ceTimes := rfl
@[simp] theorem State.send_out (s : State) (o : Output) : (s.send o).out = o :: s.out := rfl
@[simp] theorem State.send_fnCfg (s : State) (o : Output) : (s.send o).fnCfg = s.fnCfg := rfl
@[simp] theorem State.send_served (s : State) (o : Output) : (s.send o).served = s.served := rfl
@[simp] theorem State.send_darkIn (s : State) (o : Output) : (s.send o).darkIn = s.darkIn := rfl
@[simp] theorem State.send_badBeats (s : State) (o : Output) : (s.send o).badBeats = s.badBeats := rfl
@[simp] theorem State.send_tbStart (s : State) (o : Output) : (s.send o).tbStart = s.tbStart := rfl
@[simp] theorem State.send_bankOwn (s : State) (o : Output) : (s.send o).bankOwn = s.bankOwn := rfl
@[simp] theorem State.send_norOwn (s : State) (o : Output) : (s.send o).norOwn = s.norOwn := rfl
@[simp] theorem State.send_extOld (s : State) (o : Output) : (s.send o).extOld = s.extOld := rfl
@[simp] theorem State.send_factory (s : State) (o : Output) : (s.send o).factory = s.factory := rfl
@[simp] theorem State.send_ownFactors (s : State) (o : Output) : (s.send o).ownFactors = s.ownFactors := rfl
@[simp] theorem State.send_wearA (s : State) (o : Output) : (s.send o).wearA = s.wearA := rfl
@[simp] theorem State.send_wearB (s : State) (o : Output) : (s.send o).wearB = s.wearB := rfl
@[simp] theorem State.send_wearLog (s : State) (o : Output) : (s.send o).wearLog = s.wearLog := rfl
@[simp] theorem State.send_replay (s : State) (o : Output) : (s.send o).replay = s.replay := rfl

/-! ## `OnlyWords` -/

theorem OnlyWords.refl (as : List Nat) (s : State) : OnlyWords as s s := ⟨fun _ _ => ⟨rfl, Iff.rfl⟩, rfl⟩

theorem OnlyWords.wr {as : List Nat} {s t : State} (h : OnlyWords as s t) {a : Nat} (v : Word) (ha : a ∈ as) :
    OnlyWords as s (t.wr a v) := by
  refine ⟨fun b hb => ⟨?_, (h.1 b hb).2⟩, ?_⟩
  · rw [State.rd_wr_ne t v (fun e => hb (by rw [e]; exact ha))]
    exact (h.1 b hb).1
  · exact congrArg (fun u : State => { u with words := (t.wr a v).words }) h.2

theorem OnlyWords.wrf {as : List Nat} {s t : State} (h : OnlyWords as s t) {a : Nat} (lo n v : Nat) (ha : a ∈ as) :
    OnlyWords as s (t.wrf a lo n v) := h.wr _ ha

theorem OnlyWords.wrBit {as : List Nat} {s t : State} (h : OnlyWords as s t) {a : Nat} (i : Nat) (b : Bool) (ha : a ∈ as) :
    OnlyWords as s (t.wrBit a i b) := h.wr _ ha

theorem OnlyWords.count {as : List Nat} {s t : State} (h : OnlyWords as s t) {a : Nat} (lo n k : Nat) (ha : a ∈ as) :
    OnlyWords as s (t.count a lo n k) := h.wr _ ha

theorem OnlyWords.bump {as : List Nat} {s t : State} (h : OnlyWords as s t) {a : Nat} (ha : a ∈ as) : OnlyWords as s (t.bump a) := h.wr _ ha

theorem OnlyWords.wrMask {as : List Nat} {s t : State} (h : OnlyWords as s t) {a : Nat} (m v : Word) (ha : a ∈ as) :
    OnlyWords as s (t.wrMask a m v) := h.wr _ ha

theorem OnlyWords.clearPoison {as : List Nat} {s t : State} (h : OnlyWords as s t) {a : Nat} (ha : a ∈ as) :
    OnlyWords as s { t with poisoned := t.poisoned.filter (· != a) } := by
  refine ⟨fun b hb => ⟨(h.1 b hb).1, ?_⟩, ?_⟩
  · have hne : b ≠ a := fun e => hb (by rw [e]; exact ha)
    simpa [hne] using (h.1 b hb).2
  · exact congrArg (fun u : State => { u with poisoned := t.poisoned.filter (· != a) }) h.2

theorem OnlyWords.writeReg {as : List Nat} {s t : State} (h : OnlyWords as s t) {a : Nat} (v : Word) (ha : a ∈ as) :
    OnlyWords as s (t.writeReg a v) := by
  unfold State.writeReg
  split
  · exact h
  · exact (h.wr _ ha).clearPoison ha

theorem OnlyWords.each {α : Type} {as : List Nat} {s t : State} (xs : List α) (f : State → α → State)
    (hf : ∀ u x, x ∈ xs → OnlyWords as s u → OnlyWords as s (f u x)) (h : OnlyWords as s t) : OnlyWords as s (xs.foldl f t) := by
  induction xs generalizing t with
  | nil => exact h
  | cons x xs ih => exact ih (fun u y hy => hf u y (List.mem_cons_of_mem _ hy)) (hf t x (by simp) h)

theorem OnlyWords.mono {as bs : List Nat} {s t : State} (h : OnlyWords as s t) (k : ∀ a, a ∈ as → a ∈ bs) : OnlyWords bs s t :=
  ⟨fun a ha => h.1 a fun e => ha (k a e), h.2⟩

/-! ## `WordsAndEvents` -/

theorem OnlyWords.events {as : List Nat} {s t : State} (h : OnlyWords as s t) : WordsAndEvents as s t := by
  refine ⟨fun a ha => ⟨fun _ => (h.1 a ha).1, (h.1 a ha).2⟩, ?_⟩
  have e := h.2
  rw [e]

theorem WordsAndEvents.refl (as : List Nat) (s : State) : WordsAndEvents as s s := (OnlyWords.refl as s).events

theorem WordsAndEvents.wr {as : List Nat} {s t : State} (h : WordsAndEvents as s t) {a : Nat} (v : Word) (ha : a ∈ as ∨ isRingWord a = true) :
    WordsAndEvents as s (t.wr a v) := by
  refine ⟨fun b hb => ⟨fun hr => ?_, (h.1 b hb).2⟩, ?_⟩
  · have hne : b ≠ a := fun e => by
      subst e
      rcases ha with ha | ha
      · exact hb ha
      · rw [ha] at hr; exact Bool.noConfusion hr
    rw [State.rd_wr_ne t v hne]
    exact (h.1 b hb).1 hr
  · exact congrArg (fun u : State => { u with words := (t.wr a v).words }) h.2

theorem WordsAndEvents.wrf {as : List Nat} {s t : State} (h : WordsAndEvents as s t) {a : Nat} (lo n v : Nat)
    (ha : a ∈ as ∨ isRingWord a = true) : WordsAndEvents as s (t.wrf a lo n v) := h.wr _ ha

theorem WordsAndEvents.wrBit {as : List Nat} {s t : State} (h : WordsAndEvents as s t) {a : Nat} (i : Nat) (b : Bool)
    (ha : a ∈ as ∨ isRingWord a = true) : WordsAndEvents as s (t.wrBit a i b) := h.wr _ ha

theorem WordsAndEvents.count {as : List Nat} {s t : State} (h : WordsAndEvents as s t) {a : Nat} (lo n k : Nat)
    (ha : a ∈ as ∨ isRingWord a = true) : WordsAndEvents as s (t.count a lo n k) := h.wr _ ha

theorem WordsAndEvents.wrMask {as : List Nat} {s t : State} (h : WordsAndEvents as s t) {a : Nat} (m v : Word)
    (ha : a ∈ as ∨ isRingWord a = true) : WordsAndEvents as s (t.wrMask a m v) := h.wr _ ha

theorem WordsAndEvents.clearPoison {as : List Nat} {s t : State} (h : WordsAndEvents as s t) {a : Nat} (ha : a ∈ as) :
    WordsAndEvents as s { t with poisoned := t.poisoned.filter (· != a) } := by
  refine ⟨fun b hb => ⟨(h.1 b hb).1, ?_⟩, ?_⟩
  · have hne : b ≠ a := fun e => hb (by rw [e]; exact ha)
    simpa [hne] using (h.1 b hb).2
  · exact congrArg (fun u : State => { u with poisoned := t.poisoned.filter (· != a) }) h.2

theorem WordsAndEvents.writeReg {as : List Nat} {s t : State} (h : WordsAndEvents as s t) {a : Nat} (v : Word) (ha : a ∈ as) :
    WordsAndEvents as s (t.writeReg a v) := by
  unfold State.writeReg
  split
  · exact h
  · exact (h.wr _ (.inl ha)).clearPoison ha

theorem WordsAndEvents.send {as : List Nat} {s t : State} (h : WordsAndEvents as s t) (o : Output) : WordsAndEvents as s (t.send o) :=
  ⟨h.1, congrArg (fun u : State => { u with out := o :: t.out }) h.2⟩

theorem WordsAndEvents.setRing {as : List Nat} {s t : State} (h : WordsAndEvents as s t) (r : Nat) (x : RingRec) :
    WordsAndEvents as s (t.setRing r x) := ⟨h.1, congrArg (fun u : State => { u with rings := (t.setRing r x).rings }) h.2⟩

theorem WordsAndEvents.setCfg {as : List Nat} {s t : State} (h : WordsAndEvents as s t) (g : Nat) (x : FnCfg) :
    WordsAndEvents as s (t.setCfg g x) := ⟨h.1, congrArg (fun u : State => { u with fnCfg := (t.setCfg g x).fnCfg }) h.2⟩

theorem WordsAndEvents.setSession {as : List Nat} {s t : State} (h : WordsAndEvents as s t) (n : Nat) (x : SessRec) :
    WordsAndEvents as s (t.setSession n x) := ⟨h.1, congrArg (fun u : State => { u with sess := (t.setSession n x).sess }) h.2⟩

theorem WordsAndEvents.each {α : Type} {as : List Nat} {s t : State} (xs : List α) (f : State → α → State)
    (hf : ∀ u x, x ∈ xs → WordsAndEvents as s u → WordsAndEvents as s (f u x)) (h : WordsAndEvents as s t) :
    WordsAndEvents as s (xs.foldl f t) := by
  induction xs generalizing t with
  | nil => exact h
  | cons x xs ih => exact ih (fun u y hy => hf u y (List.mem_cons_of_mem _ hy)) (hf t x (by simp) h)

theorem WordsAndEvents.trans {as : List Nat} {s t u : State} (h : WordsAndEvents as s t) (k : WordsAndEvents as t u) :
    WordsAndEvents as s u := by
  refine ⟨fun a ha => ⟨fun hr => (((k.1 a ha).1 hr).trans ((h.1 a ha).1 hr)), (k.1 a ha).2.trans (h.1 a ha).2⟩, ?_⟩
  have e := h.2
  have f := k.2
  rw [f, e]

/-- Words outside the list and outside the ring descriptors read as before. -/
theorem WordsAndEvents.rd {as : List Nat} {s t : State} (h : WordsAndEvents as s t) {a : Nat} (ha : a ∉ as) (hr : isRingWord a = false) :
    t.rd a = s.rd a := (h.1 a ha).1 hr

/-! ## Events -/

theorem isRingWord_W4 {r : Nat} (h : r < 32768) : isRingWord (Reg.RING_W4 r) = true := by
  unfold isRingWord Reg.RING_W4
  simp only [Bool.and_eq_true, decide_eq_true_eq]
  omega

theorem isRingWord_W6 {r : Nat} (h : r < 32768) : isRingWord (Reg.RING_W6 r) = true := by
  unfold isRingWord Reg.RING_W6
  simp only [Bool.and_eq_true, decide_eq_true_eq]
  omega

theorem State.msixSend_events {as : List Nat} {s t : State} (h : WordsAndEvents as s t) (g v : Nat) : WordsAndEvents as s (t.msixSend g v) := by
  unfold State.msixSend
  dsimp only
  split
  · exact h.setCfg _ _
  · exact h.send _

theorem State.ringSignal_events {as : List Nat} {s t : State} (h : WordsAndEvents as s t) (r : Nat) : WordsAndEvents as s (t.ringSignal r) := by
  unfold State.ringSignal
  dsimp only
  split
  · exact h
  · split
    · exact State.msixSend_events (h.setRing _ _) _ _
    · exact h.setRing _ _

theorem State.ringPut_events {as : List Nat} {s t : State} (h : WordsAndEvents as s t) {r : Nat} (ws : List Word) (hr : r < 32768) :
    WordsAndEvents as s (t.ringPut r ws) := by
  unfold State.ringPut
  exact State.ringSignal_events ((h.send _).wrf _ _ _ (.inr (isRingWord_W4 hr))) r

theorem State.ringDrop_events {as : List Nat} {s t : State} (h : WordsAndEvents as s t) {r : Nat} (hr : r < 32768) :
    WordsAndEvents as s (t.ringDrop r) := by
  unfold State.ringDrop
  exact (h.count _ _ _ (.inr (isRingWord_W6 hr))).setRing _ _

theorem State.payEvlost_events {as : List Nat} {s t : State} (h : WordsAndEvents as s t) {r : Nat} (hr : r < 32768) :
    WordsAndEvents as s (t.payEvlost r) := by
  unfold State.payEvlost
  split
  · exact h
  · exact State.ringPut_events (h.setRing _ _) _ hr

theorem State.eventRing_lt {s : State} {g r : Nat} (h : s.eventRing g = some r) : r < 32768 := by
  unfold State.eventRing at h
  dsimp only at h
  split at h
  · cases h
    exact fld_lt _ 0 15
  · exact absurd h (by simp)

theorem State.eventToFn_events {as : List Nat} {s t : State} (h : WordsAndEvents as s t) (ws : List Word) (g : Nat) :
    WordsAndEvents as s (t.eventToFn ws g) := by
  unfold State.eventToFn
  split
  · exact h
  · next r hr =>
    have hlt := State.eventRing_lt hr
    dsimp only
    split
    · split
      · exact State.ringDrop_events (State.payEvlost_events h hlt) hlt
      · exact State.ringPut_events (State.payEvlost_events h hlt) ws hlt
    · exact State.ringDrop_events h hlt

theorem State.eventToSession_events {as : List Nat} {s t : State} (h : WordsAndEvents as s t) (ws : List Word) (n : Nat) :
    WordsAndEvents as s (t.eventToSession ws n) := by
  unfold State.eventToSession
  split
  · exact h
  · exact h.setSession _ _

/-- Delivering an event to the MGMT functions changes no word but ring descriptors. -/
theorem State.eventMgmt_events {as : List Nat} {s t : State} (h : WordsAndEvents as s t) (ws : List Word) (skip : Option Nat) :
    WordsAndEvents as s (t.eventMgmt ws skip) := by
  unfold State.eventMgmt State.each
  exact WordsAndEvents.each _ _ (fun u n _ hu => State.eventToSession_events hu ws n)
    (WordsAndEvents.each _ _ (fun u g _ hu => State.eventToFn_events hu ws g) h)

/-- Delivering an event to a partition changes no word but ring descriptors. -/
theorem State.eventPart_events {as : List Nat} {s t : State} (h : WordsAndEvents as s t) (ws : List Word) (p : Nat) :
    WordsAndEvents as s (t.eventPart ws p) := by
  unfold State.eventPart State.each
  exact WordsAndEvents.each _ _ (fun u n _ hu => State.eventToSession_events hu ws n)
    (WordsAndEvents.each _ _ (fun u g _ hu => State.eventToFn_events hu ws g) h)

/-- An error bit raised changes its own word, and ring descriptors. -/
theorem State.err_events {as : List Nat} {s t : State} (h : WordsAndEvents as s t) {a : Nat} (i : Nat) (ha : a ∈ as) :
    WordsAndEvents as s (t.err a i) := by
  unfold State.err
  split
  · exact h
  · exact State.eventMgmt_events (h.wrBit _ _ (.inl ha)) _ _

theorem State.errOtherLinks_events {as : List Nat} {s t : State} (h : WordsAndEvents as s t) {a : Nat} (i l : Nat) (ha : a ∈ as) :
    WordsAndEvents as s (t.errOtherLinks a i l) := by
  unfold State.errOtherLinks
  split
  · exact h
  · exact State.eventMgmt_events (h.wrBit _ _ (.inl ha)) _ _

theorem State.errCores_events {as : List Nat} {s t : State} (h : WordsAndEvents as s t) {a : Nat} (i : Nat) (ha : a ∈ as) :
    WordsAndEvents as s (t.errCores a i) := by
  unfold State.errCores
  split
  · exact h
  · exact (State.eventMgmt_events (h.wrBit _ _ (.inl ha)) _ _).send _

theorem State.rd_eventMgmt (s : State) (ws : List Word) (skip : Option Nat) {a : Nat} (hr : isRingWord a = false) :
    (s.eventMgmt ws skip).rd a = s.rd a := (State.eventMgmt_events (WordsAndEvents.refl [] s) ws skip).rd (by simp) hr

/-- The error bit is set. -/
theorem State.err_bit (s : State) {a i : Nat} (hi : i < 32) (hr : isRingWord a = false) : (s.err a i).bit a i = true := by
  unfold State.err
  split
  · assumption
  · unfold State.bit
    rw [State.rd_eventMgmt _ _ _ hr]
    exact State.bit_wrBit_same s a true hi

/-- Every other word outside the ring descriptors reads as before. -/
theorem State.rd_err_ne (s : State) {a b : Nat} (i : Nat) (h : b ≠ a) (hr : isRingWord b = false) : (s.err a i).rd b = s.rd b :=
  (State.err_events (WordsAndEvents.refl [a] s) i (by simp)).rd (by simpa using h) hr

/-! ## Memory -/

/-- Memory stays canonical under a byte write. -/
theorem Memory.wf_putByte (s : State) (a : Nat) (v : Byte) (h : Memory.wf s.mem = true) : Memory.wf (s.putByte a v).mem = true :=
  Store.wf_set memDefault a v h

/-- Memory is canonical at reset. -/
theorem Memory.wf_reset : Memory.wf State.reset.mem = true := Store.wf_nil _

end Sys2Proof.Machine
end

