-- ==== Sys2Proof/Tests/Slice0.lean ====
section
/-! SUPPORT. The row's own tests: ill-formed commands that `Instr.wf` refuses, results of single commands worked out from the spec, and for
each statement of Certificates/Slice0 that has hypotheses, states and operands that meet them, clause by clause and at boundary values. -/

namespace Sys2Proof.Tests
open Sys2Proof Sys2Proof.Machine
set_option Elab.async false
set_option maxRecDepth 100000

/-! ## Small states -/

/-- The state a step answers. -/
def stepT (s : State) : State := match step s with | .next t => t | _ => s

/-- Reset with the words listed. -/
def st (ws : List (Nat × Word)) : State := ws.foldl (fun s p => s.wr p.1 p.2) State.reset

/-- A search begun on an empty fabric. -/
def run1 : SolveRun := ⟨1, [], [], [], [], [], [], [], [], [], false⟩

/-- A one-cue batch of partition 0, submitted by NGCP session 0. -/
def b0 (ph : BatchPhase) (sol : Option Solution) (stale : Bool := false) (rule : Nat := 0) : Batch :=
  ⟨1, [0], 0, .session 0 7, rule, 0, 5, ph, sol, stale, false, none, false, false, none, false⟩

/-- A solution that flips cell 0 of tile 0. -/
def x0 : Solution := ⟨[⟨0, true, false, true⟩], [⟨0, 0, List.replicate 19 false⟩], [], [0], [], [], [], 0⟩

/-- The host commit of that batch at `tc`. -/
def c0 (tc : Nat) (ph : CommitPhase) (gen : Nat := 0) : Commit :=
  { Commit.new tc .host with phase := ph, batches := [1], gen := gen, delta := x0.delta, involved := [0] }

/-- The words of a CONNECT of IN 0 to OUT 3 in cue 0, in STATE `k`. -/
def cueWords (k : Nat) : List (Nat × Word) := [(Reg.CUE_W0 0, 0#32), (Reg.CUE_W1 0, 0x00030000#32), (Reg.CUE_W3 0, wd k)]

/-- A search begun on the fabric of `s`. -/
def runOn (s : State) : SolveRun := { run1 with words := s.words }

/-- That batch placed at 1000 ns, its commit at `ph`. -/
def atPhase (k : Nat) (ph : CommitPhase) (gen : Nat := 0) (ws : List (Nat × Word) := []) : State :=
  { st (cueWords k ++ ws) with batches := [b0 (.placed 1000) (some x0)], commits := [c0 1000 ph gen] }

/-- Reset with the cells listed, by tile-local number of tile 63, in the modes given; tile 63 up. -/
def inMode (l m : Nat) (ws : List (Nat × Word) := []) : State :=
  { st ((Reg.MTX_ISLSTAT 63, 5#32) :: ws) with cells := [(cellOf 63 l, ⟨true, true, m, 9⟩)] }

/-- A cell of tile 63 whose heater has read open eight times. -/
def opened (m : Nat) (ws : List (Nat × Word)) : State :=
  { inMode 75 m ws with coos := [(cellOf 63 75, { CooRec.zero with openRun := 8 })] }

/-- The last cell in CAL, for the Assayer or the Tinker. -/
def inCal (tinker : Bool) (ws : List (Nat × Word) := []) : State :=
  { st ws with cells := [(4863, ⟨false, true, 2, 0⟩)], calCells := [CalRec.new 4863 tinker false true 1], coos := [(4863, { CooRec.zero with calH := 77 })] }

/-- A measurement at level `n`. -/
def measured (n : Nat) : Measured := ⟨n, n, 0, 0, false, false, 0, 0, []⟩

/-- Rings of function 0: a SUBMIT ring 0 that completes into COMPLETE ring 1, both enabled, the module up. -/
def ringWords : List (Nat × Word) :=
  [(Reg.HIF_FNCFG_W1 0, 4#32), (Reg.RING_W2 0, 0x84000001#32), (Reg.RING_W5 0, 0x10000000#32), (Reg.RING_W2 1, 0xA4000000#32),
   (Reg.RING_W5 1, 0x10000000#32), (Reg.BOOT_STAT, 0x80000000#32)]

/-- That SUBMIT ring with one entry fetched and the ring in STATE `st`. -/
def entry (w0 w1 : Word) (st5 : Word := 0x10000000#32) (pi1 : Word := 0#32) : State :=
  { st (ringWords ++ [(Reg.RING_W4 0, 0x00010000#32), (Reg.RING_W5 0, st5), (Reg.RING_W4 1, pi1), (Reg.CIR_PARTCTL 0, 1#32)]) with
    bme := [0], rings := [(0, { RingRec.empty with fetched := [[w0, w1, 0#32, 0#32, 0#32, 0#32, 0#32, 0#32]] })] }

/-- What SubmitEntries asks of ring 0 and its entry. -/
def ready (s : State) (e : List Word) : Bool :=
  s.ringOn 0 && s.ringType 0 == 0 && (s.rdf (Reg.RING_W5 0) 28 4 == 1 && s.turn 0 || s.rdf (Reg.RING_W5 0) 28 4 == 2) && !s.submitStopped &&
    (s.ring 0).fetched == [e] && s.ringOwner 0 == some 0 && s.ringOn (s.cqOf 0) && s.ringType (s.cqOf 0) == 1 &&
    s.ringOwner (s.cqOf 0) == some 0 && s.dmaOk 0

/-- Path 0 ACTIVE and path 1 STANDBY and HEALTHY, the links up, automatic mode. -/
def netWords : List (Nat × Word) :=
  [(Reg.PTH_CTRL, 2#32), (Reg.PTH_STAT, 0x23#32), (netReg 0 1, 0xC0000000#32), (netReg 1 1, 0xC0000000#32),
   (Reg.PTH_HEALTH 1, 0x80000000#32), (Reg.POR_PORTCFG 0, 0#32), (Reg.POR_PORTCFG 1, 0#32)]

/-- An untagged frame of 60 bytes with an EtherType. -/
def frame (t : Nat) : List Byte := List.replicate 12 0#8 ++ [BitVec.ofNat 8 (t / 256), BitVec.ofNat 8 t] ++ List.replicate 46 0#8

/-- Session 63 with one request of operation `op`, the payload `d`; a management session, the module up. -/
def asked (op : Nat) (d : List Byte) (up : Bool := true) (kept : List (Nat × List Byte) := []) : State :=
  { st (netWords ++ [(Reg.POR_SESS_W0 63, 0xC0000000#32), (Reg.CIR_PARTCTL 0, 1#32)] ++ if up then [(Reg.BOOT_STAT, 0x80000000#32)] else []) with
    sess := [(63, { SessRec.empty with reqs := [⟨op, 9, d, 0, 0, [1#8, 2#8, 3#8, 4#8, 5#8, 6#8]⟩], replies := kept })] }

/-- An epoch number 2^32 - 1 with nothing in it. -/
def epochOne : EpochCopy := ⟨0xFFFFFFFF, 0, false, [], PtpRec.zero⟩

/-- An entry in progress: a request of core 0 for `target` with `mask`, at `step`, the module up in state `p`. -/
def entering (target step : Nat) (mask : Nat := 0) (p : Nat := 0) : State :=
  { st [(Reg.BOOT_STAT, 0x80900000#32), (Reg.PWR_STAT, wd p)] with change := some ⟨⟨0, 5, 0, target, mask⟩, step, false, 0⟩, nextReq := 1 }

/-- In P3, its wake sources enabled, the hub sensors cold unless `warm`. -/
def inP3 (latched : List (WakeSrc × Nat)) (held : Bool := false) (warm : Bool := false) : State :=
  { st ([(Reg.PWR_WAKECFG, 0x8000F000#32), (Reg.THM_RESUME, 70#32)] ++ if warm then [(Reg.THM_SENS 135, 0x80000460#32)] else []) with off := true, latched := latched, stopHeld := held }

/-- An image with no register writes and no default pattern; full calibration as `mode` says. -/
def anImage (mode : Nat := 2) (advance : Bool := false) : Image :=
  { header := [0x4C4D4E58#32, 1#32, 0x51200300#32, 7#32, wd (64 + 256 * advance.toNat), 2#32, 4#32, 0x800000#32]
    sections := [1, 2, 3, 4]
    startup := [0xFFFF#32, 0#32, wd (0x10300 + mode), 2#32, 0#32, 0#32, 0#32, 0#32]
    regwr := []
    factory := []
    nvm := [(0x2000000, 0x400000), (0x2400000, 0x400000), (0x2800000, 0x10000), (0x2810000, 0x10000), (0x2820000, 0x10000), (0x3F00000, 0x40000)]
    blobs := [] }

/-- That image in a slot, with the reason a check found. -/
def slotWith (r : Fin 10) : SlotRead := ⟨r, anImage, List.replicate 8 1#32⟩

/-- In phase `k`, that image loaded. -/
def inPhase (k : Nat) (mode : Nat := 2) : State := { st [(Reg.BOOT_STAT, wd (k * 0x100000))] with image := some (anImage mode) }

/-- Local cell 75 of tile 63 in RUN with the sums of its ended cycle, and KD and SHKD in force. -/
def cycled (m : CycleSums) : State :=
  { inMode 75 0 [(cooWord (cellOf 63 75) 11, 5#32)] with
    live := [(cooWord (cellOf 63 75) 1, 0x00010000#32), (cooWord (cellOf 63 75) 2, 0x00010000#32)], coos := [(cellOf 63 75, { CooRec.zero with ended := some m })] }

/-- A small state. -/
def sAdj : State := st [(Reg.TIM_STAT, 0x40000000#32), (Reg.TIM_ADJCNT, 1#32)]

/-- A small state. -/
def sFenced : State := st [(Reg.MTX_ISLSTAT 3, 2#32)]

/-- A small state. -/
def sLatched : State := { st [] with latches := [⟨.core 0, talKey (Reg.TAL_LIVE_W0 0 0 + 4), Reg.TAL_LIVE_W0 0 0 + 4, 7#32⟩] }

/-- A small state. -/
def sCql : State := st [(Reg.HIF_FNCFG_W3 67, 0x00020005#32)]

/-- A small state. -/
def sDrain : State := { State.reset with draining := [(.master 0, 3, 70)] }

/-- A small state. -/
def sUp : State := st ((List.range 69).map fun i => (Reg.MTX_ISLSTAT i, 5#32))

/-- A small state. -/
def sSnap : State := st [(Reg.CIR_FSCTRL, 1#32), (Reg.CIR_FSSEQ, 6#32), (Reg.CIR_OUTMAP 511, 0x80000000#32), (Reg.CIR_CELLST 4863, 0x00010000#32)]

/-- A small state. -/
def sCell : State := { State.reset with cells := [(cellOf 63 75, ⟨true, true, 1, 70000⟩)] }

/-- A small state. -/
def sCue : State := st [(Reg.CUE_W3 0, 1#32), (Reg.CUE_W3 65535, 3#32)]

/-- A small state. -/
def sPat : State := { st [(Reg.CUE_W0 4, 4#32), (Reg.CUE_W1 4, 255#32), (Reg.CUE_W3 4, 2#32)] with batches := [⟨1, [4], 0, .dropped, 0, 0, 1, .solved, none, false, false, none, false, false, none, false⟩] }

/-- A small state. -/
def sCap : State := st [(Reg.CIR_PATCAP, 0xC00000FF#32), (Reg.CIR_CKTA 3, 0x80010007#32)]

/-- A small state. -/
def sCkt : State := State.reset.putCkts [⟨511, 0, false, 0, some 5, false, false, false⟩] 1

/-- A small state. -/
def sRuns : State := { State.reset with lightRuns := [(0, ⟨4, 0⟩), (1, ⟨3, 3⟩), (1023, ⟨0, 4⟩)] }

/-- A small state. -/
def sHold : State := { State.reset with prots := [(9, ⟨9, some 5000, false⟩)] }

/-- A small state. -/
def sTear : State := { st (cueWords 1 ++ [(Reg.CUE_W0 0, 1#32)]) with batches := [b0 .solving none] }

/-- A small state. -/
def sSolving : State := { sTear with solveStart := some (runOn sTear) }

/-- A small state. -/
def sStale : State := { st (cueWords 2 ++ [(Reg.CUE_W0 0, 1#32)]) with batches := [b0 .solved (some x0) true] }

/-- A small state. -/
def sHead : State := { st (cueWords 1) with batches := [b0 .queued none], toll := [(0, ⟨3, some ⟨1, 50, false⟩, 8192000, 8192000⟩)] }

/-- A small state. -/
def sShape : State := { st [(Reg.TOL_PCTL 63, 0xC0000000#32), (Reg.TOL_SHAPE 63, 0x00050007#32), (Reg.TOL_POLICE 63, 0x00050007#32)] with toll := [(63, ⟨0, none, -9, 4999⟩)] }

/-- A small state. -/
def sSolved : State := { st (cueWords 2 ++ [(Reg.LMP_THRSTAT, 0x00010001#32)]) with batches := [b0 .solved (some x0)] }

/-- A small state. -/
def sSettle : State := { State.reset with settling := [(1000, [])] }

/-- A small state. -/
def sPass : State := { State.reset with coos := [(4863, { CooRec.zero with passage := [(40, 2040), (16, 2080)], passTc := 2000, passCode := -3 })] }

/-- A small state. -/
def sWin : State := { st [(Reg.LMP_WINCTL 7, 1#32)] with winUsed := [(7, 0)] }

/-- A small state. -/
def sBucket : State := st [(Reg.LMP_THRSTAT, 0x0005FFFE#32)]

/-- A small state. -/
def sPlaced : State := { st (cueWords 2) with batches := [b0 (.placed 1000) (some x0) true] }

/-- A small state. -/
def sTimed : State := { st (cueWords 2) with batches := [b0 .solved (some x0) false 1] }

/-- A small state. -/
def sTile : State := st [(Reg.MTX_ISLSTAT 63, 5#32), (Reg.COO_CYCLE 63, 0x00010020#32)]

/-- A small state. -/
def sSync : State := { st [] with live := [(Reg.COO_CYCLE 63, 0x00010020#32)], now := 5 }

/-- A small state. -/
def sOff : State := inMode 75 1 [(cooWord (cellOf 63 75) 10, 0x7FFFFFFF#32), (cooWord (cellOf 63 75) 11, 0xFFFFFFFF#32)]

/-- A small state. -/
def sFade : State := { inMode 75 1 with tiles := [(63, { TileRec.zero with fade := some ⟨65535, 65535⟩ })] }

/-- A small state. -/
def sHeat : State := { inMode 75 1 [(Reg.DRV_HSLEW 63, 5#32)] with coos := [(cellOf 63 75, { CooRec.zero with htarget := some 16383 })] }

/-- A small state. -/
def sTrace : State := { st [(Reg.COO_TRCTL 63, 0x80000007#32), (Reg.COO_TRADDR 63, 4095#32)] with traceMem := [(4096 * 63 + 4095, 77#32)] }

/-- A small state. -/
def sPort : State := st [(Reg.MTX_ISLSTAT 63, 5#32)]

/-- A small state. -/
def sSeq : State := st [(Reg.MON_SEQ 63 91, 0#32), (Reg.MON_URGSTAT 63, 0x20000000#32)]

/-- A small state. -/
def sDiag : State := st [(Reg.MON_STAT 63, 1#32), (Reg.MON_CTRL 63, 0x820#32)]

/-- A small state. -/
def sWait : State := { st [(Reg.TAL_SNAP 63, 0x80000000#32), (Reg.TAL_LIVE_W4 63 91, 8#32), (Reg.TAL_SNAPSEQ 63, 0xFFFFFFFF#32)] with mons := [(63, { MonRec.zero with snapWait := some false })] }

/-- A small state. -/
def sBad : State := { st [(Reg.MON_CTRL 63, 1#32)] with live := [(Reg.MON_SEQ 63 91, 0#32)] }

/-- A small state. -/
def sUrg : State := { st [(Reg.MTX_ISLSTAT 63, 5#32), (Reg.MON_URGSTAT 63, 0x20000000#32), (Reg.MON_URGREQ 63, 0x83000003#32)] with mons := [(0, { MonRec.zero with urgent := [3] })] }

/-- A small state. -/
def sSaving : State := { State.reset with saving := some ⟨[(Reg.ASY_QUAL_W0 0, 5#32)], 0#32, 0#32, 0, false⟩, saveUntil := 9, asyLast := 3 }

/-- A small state. -/
def sFull : State := { st [(Reg.ASY_STAT, 0x90200000#32), (Reg.LMP_CTRL, 0x100#32)] with fullcal := some ⟨false, false, [], none, []⟩, calEn := true }

/-- A small state. -/
def sEnded : State := { st [(Reg.ASY_CTRL, 0#32), (Reg.ASY_STAT, 0x90000000#32), (Reg.LMP_CTRL, 0x100#32)] with fullcal := some ⟨false, true, [true], none, []⟩ }

/-- A small state. -/
def sBg : State := { st [(Reg.BOOT_STAT, 0x80000000#32), (Reg.ASY_CTRL, 9#32)] with cells := [(4863, ⟨false, true, 1, 0⟩)], bgNext := 4863, sinceSave := List.range 256, now := 3600 * 1000000000 * nsUnit }

/-- A small state. -/
def sTrim : State := inCal true [(Reg.BOOT_STAT, 0x80000000#32), (Reg.TNK_CTRL, 0x01000001#32), (Reg.TNK_CELL_W1 4863, 0x7FFF0000#32)]

/-- A small state. -/
def sTink : State := { sTrim with tink := some ⟨4863, 1, 14, true, true⟩ }

/-- A small state. -/
def sRing : State := { st (ringWords ++ [(Reg.RING_W4 0, 0x00010000#32)]) with bme := [0, 17] }

/-- A small state. -/
def sVf : State := { st [(Reg.HIF_FNCFG_W0 1, 0x80050000#32), (Reg.HIF_FNCFG_W1 1, 0x7FFF0001#32), (Reg.RING_W2 32767, 0x84000001#32), (Reg.RING_W5 32767, 0x10000000#32)] with bme := [1] }

/-- A small state. -/
def sAsk : State := { st (ringWords ++ [(Reg.RING_W4 0, 0x00010000#32), (Reg.BOOT_STAT, 0x80900000#32)]) with fnCfg := [(17, { FnCfg.zero with d3hot := true })] }

/-- A small state. -/
def sTel : State := st [(Reg.RING_W2 32767, 0xE4000000#32), (Reg.HIF_CRSTREAM_W0 63, 0x80007FFF#32)]

/-- A small state. -/
def sOwn : State := st [(Reg.HIF_FNCFG_W1 0, 4#32), (Reg.RING_W2 1, 0xA4000000#32), (Reg.RING_W4 0, 5#32)]

/-- A small state. -/
def sTimer : State := { st (ringWords ++ [(Reg.RING_W3 1, 0x00010002#32), (Reg.RING_W2 1, 0xA43F0000#32)]) with rings := [(1, { RingRec.empty with unsignalled := 1, timing := true })] }

/-- A small state. -/
def sNet : State := st netWords

/-- A small state. -/
def sRecirc : State := { sNet with recirc := [⟨0, frame 0x1234, false, 0, 1, 65535, 0⟩] }

/-- A small state. -/
def sNote : State := { sNet with sess := [(63, { SessRec.empty with queue := [[1#32], [2#32]], peer := some (0, [1#8, 2#8, 3#8, 4#8, 5#8, 6#8]), nseq := 0xFFFFFFFF })] }

/-- A small state. -/
def sEpoch : State := { sNet with epochNew := some epochOne }

/-- A small state. -/
def sOne : State := st [(Reg.PTH_CTRL, 0#32), (Reg.PTH_STAT, 0x11#32), (netReg 0 1, 0xC0000000#32), (Reg.PTH_HEALTH 0, 0x00020000#32), (Reg.PTH_WCTL, 0x3000#32)]

/-- A small state. -/
def sArmed : State := st [(Reg.TIM_CMP_W0 5, 0xBB9AC9FC#32), (Reg.TIM_CMP_W1 5, 0xFFFFFFFF#32), (Reg.TIM_CMP_W2 5, 0x00FFFFFF#32), (Reg.TIM_CMP_W0 6, 0x80000010#32)]

/-- A small state. -/
def sIsUp : State := st [(Reg.BOOT_STAT, 0x80900000#32)]

/-- A small state. -/
def sBusyP : State := { sIsUp with change := some ⟨⟨0, 5, 0, 3, 0⟩, 1, false, 0⟩, slot := some ⟨1, 4, 0, 2, 0⟩ }

/-- A small state. -/
def sBusyQ : State := { sIsUp with change := some ⟨⟨0, 5, 0, 3, 0⟩, 1, false, 0⟩ }

/-- A small state. -/
def sThr : State := st [(Reg.THM_THR, 0x00695A50#32), (Reg.THM_SENS 135, 0x40000000#32)]

/-- A small state. -/
def sFar : State := { sThr with sensors := [(64, { SensorRec.zero with far := 8, hot := 2, fastRise := some 0 })], now := 10000000 * nsUnit }

/-- A small state. -/
def sDirty : State := { st [(Reg.SEC_OTPSTAT, 0x61230004#32), (Reg.LMP_CTRL, 0x100#32), (Reg.GEN_RSTCAUSE, 0x00FF0000#32), (Reg.FLT_LAST_W0, 0x80000000#32), (Reg.CUE_W0 3, 9#32)] with mem := [⟨0x10000000, 5#8⟩, ⟨0x11000000, 6#8⟩, ⟨norBase, 7#8⟩], enables := [.vcore, .vphy, .vana, .vdrv], now := 99, batches := [b0 .queued none] }

/-- A small state. -/
def sBoot : State := st [(Reg.BOOT_STAT, 0x100000#32)]

/-- A small state. -/
def sUnset : State := { ((inPhase 8).putCkts [⟨0, 0, false, 0, none, false, false, false⟩] 0) with driveAt := 8 }

/-- A small state. -/
def sFlash : State := { State.reset with mem := [⟨norBase + 0xFFFF, 1#8⟩, ⟨norBase + 0x10000, 7#8⟩, ⟨norBase + 0x1FFFF, 8#8⟩, ⟨norBase + 0x20000, 9#8⟩], flash := some ⟨1, 0x10100, [], false⟩ }

/-- A small state. -/
def sProg : State := { sFlash with flash := some ⟨2, 0x1FFFC, List.replicate 64 0x01020304#32, false⟩ }

/-- A small state. -/
def sUnf : State := { sFenced with unfencing := [3] }

/-- A small state. -/
def sDumpN : State := { st [(Reg.FLT_STAT, 0xC0000000#32), (Reg.DMP_STAT, 0xFFFF#32), (Reg.FLT_CTRL, 0#32)] with image := some { anImage with nvm := anImage.nvm.take 5 ++ [(0x3F00000, 0x2000)] } }

/-- A small state. -/
def sDumpH : State := { st [(Reg.FLT_STAT, 0xC0000000#32), (Reg.FLT_CTRL, 0#32), (Reg.DMP_CTL, 0x80030100#32), (Reg.DMP_ADDRLO, 0xFFFFF000#32), (Reg.DMP_ADDRHI, 1#32), (Reg.HIF_LINKCFG 3, 0xC0000000#32)] with bme := [51] }

/-- A small state. -/
def sLive : State := { st [(Reg.MTX_ISLSTAT 3, 5#32)] with cells := [(cellOf 3 75, ⟨true, true, 0, 9⟩)] }

/-- A small state. -/
def sUpCell : State := { sUp with cells := [(cellOf 63 75, ⟨true, true, 0, 9⟩)] }

/-- A small state. -/
def sProt : State := { (State.reset.putCkts [⟨7, 9, false, 0, some 5, false, false, true⟩] 1 |>.wr (mapWord false 5) 0x40000000#32 |>.wr Reg.CIR_CTRL 0x100#32) with lightRuns := [(7, ⟨4, 0⟩)] }

/-- A small state. -/
def sImpure : State := { ((st (cueWords 1)).putCkts [⟨1, 8, true, 0, none, false, false, false⟩] 1) with batches := [b0 .solving none] }

/-- A small state. -/
def sOdd : State := st [(Reg.COO_CYCLE 63, 0x20#32), (cooWord (cellOf 63 0) 0, 1#32)]

/-- A small state. -/
def sFading : State := { inMode 75 1 with tiles := [(63, { TileRec.zero with fade := some ⟨2, 10⟩ })], coos := [(cellOf 63 75, { CooRec.zero with fadeH := 16383 })] }

/-- A small state. -/
def sTraceUp : State := sTrace.wr (Reg.MTX_ISLSTAT 63) 5#32

/-- A small state. -/
def sDark : State := { st ([(Reg.ASY_STAT, 0x90000000#32), (Reg.LMP_CTRL, 0x100#32)] ++ (List.range 128).map fun i => (Reg.ASY_QUAL_W0 (cellAt 0 i), 0x20#32)) with fullcal := some ⟨false, false, [], none, []⟩, calEn := true }

/-- A small state. -/
def sFullIn : State := { (inCal false [(Reg.ASY_PWIN, 0xFFFF0001#32), (Reg.ASY_STAT, 0x92400000#32), (Reg.ASY_QLIM, 0x00FF0000#32)]) with fullcal := some ⟨false, false, [], some 0, []⟩, calEn := true, calSettled := true }


/-- A machine that ran one command. -/
def after (c : Instr) (s : State) : State := match exec c s with | .next t => t | _ => s

/-! ## Ill-formed commands are refused -/

/-- A read of no bytes, and one beyond 4 KiB. -/
theorem test_wf_size : Instr.wf (.matrixRequest [⟨.core 0, false, false, 0, 0, []⟩]) = false ∧
    Instr.wf (.matrixRequest [⟨.core 0, false, false, 0, 4097, []⟩]) = false := by decide
/-- Six bytes, and a read off its natural alignment: requests all the same, which R17 answers with ALIGN. -/
theorem test_wf_alignment : Instr.wf (.matrixRequest [⟨.core 0, false, false, 0, 6, []⟩]) = true ∧
    Instr.wf (.matrixRequest [⟨.core 0, false, false, 4, 8, []⟩]) = true ∧ Sys2Proof.Machine.sizeOk 0 6 = false ∧
    Sys2Proof.Machine.sizeOk 4 8 = false := by decide
/-- A write that lacks a word. -/
theorem test_wf_data : Instr.wf (.matrixRequest [⟨.core 0, false, true, 0, 8, [1#32]⟩]) = false := by decide
/-- Master 5 is no internal master's number (Table 1-3). -/
theorem test_wf_requester : Instr.wf (.registerWrite (.internal 5) 0 1#32) = false := by decide
/-- A register offset beyond 32 bits. -/
theorem test_wf_offset : Instr.wf (.rcRead (.core 0) 0x100000000) = false := by decide
theorem test_wf_latched : (Instr.latchedLowRead (.core 0) 0x100000000).wf = false ∧ (Instr.tallyHighRead (.core 0) 0x100000000).wf = false := by decide
theorem test_wf_timeout : Instr.wf (.islandTimeout ⟨.internal 12, false, false, 0, 4, []⟩ 3) = false := by decide
/-- A poisoned write is a write. -/
theorem test_wf_poisoned : Instr.wf (.poisonedWrite ⟨.core 0, false, false, 0, 4, []⟩) = false := by decide
/-- A burst of more than 4 KiB, and a write among the discarded reads. -/
theorem test_wf_burst : Instr.wf (.masterReset (.master 0) [⟨.core 0, 0, [], 129⟩] []) = false ∧
    Instr.wf (.masterReset (.master 0) [] [⟨.core 0, false, true, 0, 4, [0#32]⟩]) = false := by decide
theorem test_wf_cue_words : Instr.wf (.cueWrite 0 7 [1#32, 2#32]) = false ∧ Instr.wf (.cueWrite 0 7 []) = false := by decide
theorem test_wf_pattern_words : Instr.wf (.patternWrite 0 511 [1#32, 2#32]) = false ∧ Instr.wf (.patternWrite 0 0 (List.replicate 17 0#32)) = false := by decide
/-- A route has a state for each of 19 stages (R37). -/
theorem test_wf_route : Instr.wf (.driveReturn [⟨[⟨0, List.replicate 18 false⟩], []⟩]) = false ∧
    Instr.wf (.resolveComplete 1 [⟨[], [(0, ⟨0, []⟩)]⟩]) = false ∧ Instr.wf (.solveComplete [⟨[⟨0, []⟩], []⟩] 1) = false := by decide
theorem test_wf_solve_time : Instr.wf (.solveComplete [] 5001) = false := by decide
theorem test_wf_factor : Instr.wf (.factorWrite 0 0x40000 0#32) = false ∧ Instr.wf (.waveformWrite 0 6 0#32) = false := by decide
/-- A factor off a word, and a dither below 6 mrad (R210). -/
theorem test_wf_measured : Instr.wf (.measurementComplete 0 ⟨0, 0, 0, 8000, false, false, 0, 0, [(2, 0#32)]⟩) = false ∧
    Instr.wf (.measurementComplete 0 ⟨0, 0, 0, 5999, false, false, 0, 0, []⟩) = false := by decide
theorem test_wf_readings : Instr.wf (.heaterUpdate 0 [⟨3, 400⟩, ⟨3, 401⟩]) = false := by decide
theorem test_wf_fade : Instr.wf (.fadeStart 0 (some 0)) = false ∧ Instr.wf (.fadeStart 0 (some 65536)) = false := by decide
theorem test_wf_entries : Instr.wf (.submitFetch 0 [[1#32]]) = false ∧ Instr.wf (.submitFetch 0 (List.replicate 17 (List.replicate 8 0#32))) = false := by decide
/-- STARTUP of no words, a digest of none, a register write without its section, and a reason that the image's own words decide. -/
theorem test_wf_image : Instr.wf (.imageVerified ⟨0, { anImage with startup := [] }, List.replicate 8 0#32⟩ (slotWith 0)) = false ∧
    Instr.wf (.imageVerified ⟨0, { anImage with regwr := [(0x70000, 0#32)] }, List.replicate 8 0#32⟩ (slotWith 0)) = false ∧
    Instr.wf (.imageVerified ⟨0, anImage, []⟩ (slotWith 0)) = false ∧ Instr.wf (.imageVerified (slotWith 0) (slotWith 4)) = false := by decide
/-- A scrub has no reader, and a master that reads is one of Table 1-3. -/
theorem test_wf_scrub : Instr.wf (.scrubRead true 0 .clean .pattern (some (.core 0))) = false ∧
    Instr.wf (.scrubRead false 0 .clean .pattern none) = false ∧ Instr.wf (.scrubRead false 0 .clean .pattern (some (.internal 5))) = false := by decide
/-- Areas of the NVM section: a bank is 4 MiB, starts on a sector of the data area, and overlaps no other (Table 17-5). -/
theorem test_nvm : nvmOk anImage = true ∧ nvmOk { anImage with nvm := [(0x2000000, 0x400000), (0x23F0000, 0x400000)] } = false ∧
    nvmOk { anImage with nvm := [(0x2000000, 0x400000), (0x2400100, 0x400000)] } = false ∧
    nvmOk { anImage with nvm := [(0x2000000, 0x400000), (0x1000000, 0x400000)] } = false := by decide
/-- The check value of CRC-32 (R398): "123456789" gives CBF43926H. -/
theorem test_crc : crc32 [0x31#8, 0x32#8, 0x33#8, 0x34#8, 0x35#8, 0x36#8, 0x37#8, 0x38#8, 0x39#8] = 0xCBF43926#32 := by decide +kernel
theorem test_wf_banks : Instr.wf (.bootPhaseComplete [none] none) = false := by decide
theorem test_wf_window : Instr.wf (.attestationDone []) = false := by decide
theorem test_wf_power : Instr.wf (.tgsleep (.internal 5) false 1) = false ∧ Instr.wf (.lmpAbort (.internal 12) 0#32) = false := by decide
/-- A well-formed request of 64 bytes. -/
theorem test_wf_ok : Instr.wf (.matrixRequest [⟨.fn 3 16, true, true, 64, 64, List.replicate 16 0#32⟩]) = true ∧
    Instr.wf (.imageVerified (slotWith 0) (slotWith 8)) = true ∧
    Instr.wf (.scrubRead false 0 .clean .pattern (some (.core 0))) = true := by decide

/-! ## Results worked out from the spec -/

/-- The table gives no bits, so no word spells a command. -/
theorem test_no_word : decodeTableWord 32 0 = none := by decide
/-- A reserved encoding leaves its field (R5): THM_THR keeps its word where CRIT is 125. -/
theorem test_threshold_limit : (after (.thresholdWrite 0x007D7B7A#32) State.reset).rd Reg.THM_THR = State.reset.rd Reg.THM_THR := by decide
/-- The generation number skips 0 (R112). -/
theorem test_generation_skips_zero : nextGen 0xFFFFFFFF#32 = 1#32 := by decide
/-- BASE 255 and CNT 2 run past the table of 256: the write is ignored (R75). -/
theorem test_partition_range : (after (.partitionRangeWrite 63 false 0x000002FF#32) State.reset).rdf (Reg.CIR_PARTCUE 63) 8 9 = 0 := by decide
/-- SET is taken at the first beat boundary 2,048 ns from now, a multiple of 1,024 ns (R313). -/
theorem test_set_boundary : (after .set { State.reset with now := nsUnit }).stepReq = some ⟨1, 3072⟩ := by decide
/-- A step of -16 ns from the beat at 2,048 ns (R313, R314). -/
theorem test_step_back : (after .stepApply { st [(Reg.TIM_STEP, 0xFFFFFFF0#32)] with stepReq := some ⟨2, 2048⟩ }).ns = 2032 := by decide +kernel
/-- A compare unit moves its target by its period, across the 48-bit seconds (R318). -/
theorem test_compare_wraps : (after (.compareFire 5) (sArmed.wr (Reg.TIM_CMP_W3 5) 4096#32)).cmpTarget 5 = 4092 := by decide +kernel
/-- An edge at 5.000000007 s (R327). -/
theorem test_ppsin : (after .ppsinEdge { State.reset with now := 5000000007 * nsUnit }).rd Reg.TIM_PPSINNS = 7#32 := by decide
/-- A drain of 256 cycles that discarded 70 reads: the field takes at most 63 (R26). -/
theorem test_drain_log : (after (.drainComplete (.master 0) 256) sDrain).rdf Reg.MTX_DRAINLOG 17 6 = 63 := by decide
/-- A pulse of 7 ms, active low (R326): driven at UP only. -/
theorem test_pps_width : (after .ppsoutPulse (st [(Reg.TIM_PPSCTL, 0x00070003#32), (Reg.BOOT_STAT, 0x80900000#32)])).out = [.ppsPulse false 7000] ∧
    (after .ppsoutPulse (st [(Reg.TIM_PPSCTL, 0x00070003#32)])).out = [] := by decide
/-- A sample of -16 °C reads back signed (R350). -/
theorem test_sample_sign : (after (.sensorSample 135 0xFF00) State.reset).temp 135 = -256 := by decide +kernel
/-- An erase leaves 0xFF in its 64 KiB sector and nothing outside it (R386). -/
theorem test_erase : (after (.flashCommandDone .ok) sFlash).mem = [⟨norBase + 0xFFFF, 1#8⟩, ⟨norBase + 0x20000, 9#8⟩] := by decide +kernel
/-- A stop of the rails in reverse, the third in a row: FAULT_N goes low (R407). -/
theorem test_third_failure : (after (.sequenceFailure .vcore) { State.reset with enables := [.vcore], seqFails := 2 }).out.head? = some (.pin "FAULT_N" false) := by decide
/-- The dump pointer wraps at 256 KiB (R399). -/
theorem test_dump_pointer : (after (.dumpDataRead (.core 3)) (st [(Reg.DMP_NVMPTR, 0x3FFFC#32)])).rd Reg.DMP_NVMPTR = 0#32 := by decide
/-- An UNFENCE of a tile that is not fenced: DONE with NOTFENCED (R393). -/
theorem test_unfence : (after (.unfence 63) State.reset).rd Reg.FLT_CMDRES = 0x80000001#32 := by decide
/-- A power request before UP ends BADSTATE (R376). -/
theorem test_not_up : (after (.tgsleep (.core 0) false 1) State.reset).rdf Reg.PWR_REQRES 16 4 = 6 := by decide
/-- A bucket of 4,864 takes no more (R135). -/
theorem test_bucket_full : (after .throttleBucketFill State.reset).bucket = 4864 := by decide
/-- A shaper in debt by 9 fills by 7 (R267). -/
theorem test_shaper : ((after .shaperFill sShape).tollPart 63).shaper = -2 := by decide
/-- A busy cue keeps its words (R59). -/
theorem test_busy_cue : (after (.cueWrite 65535 7 [5#32]) sCue).rd (Reg.CUE_W0 65535 + 28) = 0#32 := by decide
/-- A tie with no GM check to tell: PREF names path 0, the other is ISOLATED (R303). -/
theorem test_tie : (after .tiebreak sNet).role 1 = 4 := by decide
/-- An active path with no ready standby that loses its heartbeat: both are DOWN (R299). -/
theorem test_both_down : (after (.activePathFailure .hb) (st [(Reg.PTH_CTRL, 2#32), (Reg.PTH_STAT, 0x31#32)])).role 1 = 1 := by decide


/-! ## Witnesses: the hypotheses of the statements are met -/

/-! Obligations.StepKeepsCanonical -/
theorem witness_StepKeepsCanonical_1 : sDirty.canonical = true := by decide +kernel

/-! Obligations.TickAdvancesTime -/
theorem witness_TickAdvancesTime_1 : State.reset.pending = [] ∧ State.reset.incrAt = [] ∧ State.reset.adjAt = none ∧
    State.reset.bit Reg.TIM_STAT 30 = false := by decide +kernel
theorem witness_TickAdvancesTime_2 : sAdj.pending = [] ∧ sAdj.incrAt = [] ∧ sAdj.adjAt = none ∧ sAdj.bit Reg.TIM_STAT 30 = true ∧
    sAdj.rd Reg.TIM_ADJCNT ≠ 0#32 := by decide +kernel

/-! Obligations.WritesByAccess -/
theorem witness_WritesByAccess_1 : (((RegMap.find Reg.TIM_PPSCTL).any fun p => p.1.rules.any fun r => !r.admits 0x01F50000#32) = true) ∧
    (((RegMap.find Reg.TIM_PPSCTL).any fun p => p.1.rules.all fun r => r.admits 0x01F40000#32) = true) := by decide +kernel

/-! Obligations.ErrorBitRises -/
theorem witness_ErrorBitRises_1 : isRingWord Reg.THM_ERRSTAT = false ∧ State.reset.bit Reg.THM_ERRSTAT 31 = false := by decide +kernel
/-- A state for Obligations.ErrorBitRises. -/
def atErrorBitRises1 : State := st [(Reg.LMP_ERRSTAT, 1#32)]
theorem witness_ErrorBitRises_2 : isRingWord Reg.LMP_ERRSTAT = false ∧ atErrorBitRises1.bit Reg.LMP_ERRSTAT 0 = true := by decide +kernel

/-! Obligations.RefusedRequestsChangeNothing -/
theorem witness_RefusedRequestsChangeNothing_1 : State.reset.off = false ∧ State.reset.isDraining (.core 0) = false ∧
    State.reset.fails (.core 0) false true 2 4 = some (2, 0) ∧ State.reset.rdf Reg.MTX_ERRSTAT 0 4 = 0 := by decide +kernel
theorem witness_RefusedRequestsChangeNothing_2 : sFenced.off = false ∧ sFenced.silent 3 = true ∧
    sFenced.failsBefore (.core 0) false false (Reg.COO_STAT 3) 4 = none := by decide +kernel
theorem witness_RefusedRequestsChangeNothing_3 : State.reset.off = false ∧ State.reset.isDraining (.core 0) = false ∧
    State.reset.failsBefore (.core 0) false false Reg.LMP_CTRL 4 = none ∧ (66 : Fin 69).val = islandOf Reg.LMP_CTRL := by decide +kernel
theorem witness_RefusedRequestsChangeNothing_4 : sLive.off = false ∧ sLive.isDraining (.core 0) = false ∧ sLive.silent 3 = false ∧ (3 :
    Fin 69).val = islandOf (Reg.COO_STAT 3) ∧ sLive.failsBefore (.core 0) false false (Reg.COO_STAT 3) 4 = none := by decide +kernel

/-! Obligations.RequestsAreServed -/
theorem witness_RequestsAreServed_1 : State.reset.off = false ∧ State.reset.isDraining (.core 0) = false ∧
    State.reset.fails (.core 0) false true Reg.LMP_CTRL 4 = none := by decide +kernel
theorem witness_RequestsAreServed_2 : State.reset.off = false ∧ State.reset.isDraining (.core 0) = false ∧
    State.reset.fails (.core 0) false false (Reg.HIF_FNCFG_W3 3) 4 = none ∧ Reg.HIF_FNCFG_W3 3 ∉ State.reset.poisoned := by decide +kernel
theorem witness_RequestsAreServed_3 : State.reset.off = false ∧ State.reset.isDraining (.core 0) = false ∧
    State.reset.fails (.core 0) false false (Reg.TAL_LIVE_W0 0 0) 4 = none ∧ Reg.TAL_LIVE_W0 0 0 ∉ State.reset.poisoned ∧
    Reg.TAL_LIVE_W0 0 0 % 8 = 0 ∧ isTalHalf (Reg.TAL_LIVE_W0 0 0) = true := by decide +kernel
theorem witness_RequestsAreServed_4 : sLatched.off = false ∧ sLatched.isDraining (.core 0) = false ∧
    sLatched.fails (.core 0) false false (Reg.TAL_LIVE_W0 0 0 + 4) 4 = none ∧ Reg.TAL_LIVE_W0 0 0 + 4 ∉ sLatched.poisoned ∧
    (Reg.TAL_LIVE_W0 0 0 + 4) % 8 = 4 ∧ isTalHalf (Reg.TAL_LIVE_W0 0 0 + 4) = true ∧
    sLatched.latchOf (.core 0) (talKey (Reg.TAL_LIVE_W0 0 0 + 4)) (Reg.TAL_LIVE_W0 0 0 + 4) = some 7#32 := by decide +kernel
theorem witness_RequestsAreServed_5 : 67 < 68 ∧ sCql.off = false ∧ sCql.isDraining (.core 3) = false ∧ sCql.silent 64 = false ∧
    Reg.HIF_FNCFG_W3 67 ∉ sCql.poisoned := by decide +kernel
theorem witness_RequestsAreServed_6 : State.reset.off = false ∧ State.reset.isDraining (.core 0) = false ∧
    State.reset.fails (.core 0) false true (Reg.CUE_W0 65535) 32 = none ∧ (List.replicate 8 (3#32 : Word)).length = 32 / 4
     := by decide +kernel
theorem witness_RequestsAreServed_7 : State.reset.off = false ∧ State.reset.isDraining (.core 0) = false ∧
    State.reset.fails (.core 0) false false (Reg.CUE_W0 0) 32 = none ∧
    ((wordsAt (Reg.CUE_W0 0) 32).all (fun b => decide (b ∉ State.reset.poisoned)) = true) := by decide +kernel
theorem witness_RequestsAreServed_8 : State.reset.fails (.core 0) false false 2 2 = some (2, 0) ∧
    State.reset.isDraining (.core 0) = false ∧ State.reset.off = false := by decide +kernel

/-! Obligations.MasterResetDrains -/
theorem witness_MasterResetDrains_1 : ([(⟨.fn 1 0, 0, [], 0⟩ : Burst)].all (fun b => !scopeCovers (.master 0) b.rq) = true) ∧
    ([(⟨.core 0, false, false, 0, 4, []⟩ : Access)].all (fun x => !scopeCovers (.master 0) x.rq) = true) := by decide +kernel
theorem witness_MasterResetDrains_2 : sDrain.isDraining (.fn 0 1) = true ∧ sDrain.off = false := by decide +kernel
theorem witness_MasterResetDrains_3 : (sDrain.draining.find? (fun d => d.1 == .master 0) = some (.master 0, 3, 70)) := by decide +kernel
theorem witness_MasterResetDrains_4 : (scopeCovers (.function 3 16) (.fn 3 16) = true) ∧ (scopeCovers (.function 3 16) (.fn 3 15) = false)
     := by decide +kernel

/-! Obligations.IslandsAndTimeBus -/
theorem witness_IslandsAndTimeBus_1 : 64 ≤ (64 : Fin 69).val ∧ sUp.powered 64 = true := by decide +kernel
theorem witness_IslandsAndTimeBus_2 : sUp.powered 68 = true ∧ sUp.bit (Reg.MTX_ISLSTAT 68) 0 = true ∧
    sUp.bit (Reg.MTX_ISLSTAT 68) 1 = false ∧ (sUp.tbBad = false ∨ (sUp.ckts.any fun c => c.peer.isSome) = false) := by decide +kernel
/-- A state for Obligations.IslandsAndTimeBus. -/
def atIslandsAndTimeBus1 : State := { sUp with badBeats := [(0, 3)] }
theorem witness_IslandsAndTimeBus_3 : atIslandsAndTimeBus1.powered 0 = true ∧ 3 ≤ Store.get 0 atIslandsAndTimeBus1.badBeats 0
     := by decide +kernel
theorem witness_IslandsAndTimeBus_4 : sUp.powered 7 = true ∧ sUp.commitInFlight = false := by decide +kernel
theorem witness_IslandsAndTimeBus_5 : (63 : Fin 69).val < 64 ∧ sUpCell.powered 63 = true ∧ sUpCell.bit (Reg.MTX_ISLSTAT 63) 1 = false
     := by decide +kernel
/-- A state for Obligations.IslandsAndTimeBus. -/
def atIslandsAndTimeBus2 : State := { sUp with badBeats := [(68, 2)] }
theorem witness_IslandsAndTimeBus_6 : atIslandsAndTimeBus2.tbBad = false ∧ atIslandsAndTimeBus2.powered 68 = true ∧
    atIslandsAndTimeBus2.bit (Reg.MTX_ISLSTAT 68) 0 = true ∧ atIslandsAndTimeBus2.bit (Reg.MTX_ISLSTAT 68) 1 = false := by decide +kernel
/-- A state for Obligations.IslandsAndTimeBus. -/
def atIslandsAndTimeBus3 : State := { sUp with badBeats := [(68, 3)] }
theorem witness_IslandsAndTimeBus_7 : atIslandsAndTimeBus3.tbBad = false ∧ atIslandsAndTimeBus3.powered 68 = true ∧
    atIslandsAndTimeBus3.bit (Reg.MTX_ISLSTAT 68) 0 = true ∧ atIslandsAndTimeBus3.bit (Reg.MTX_ISLSTAT 68) 1 = false := by decide +kernel
/-- A state for Obligations.IslandsAndTimeBus. -/
def atIslandsAndTimeBus4 : State := { sUp with badBeats := [(0, 2)] }
theorem witness_IslandsAndTimeBus_8 : Store.get 0 atIslandsAndTimeBus4.badBeats 0 < 3 := by decide +kernel

/-! Obligations.FabricTable -/
theorem witness_FabricTable_1 : (true = false ∨ State.reset.bit (mapWord true 511) 29 = true ∨ true = true) := by decide +kernel
theorem witness_FabricTable_2 : (false = false ∨ State.reset.bit (mapWord false 0) 29 = true) := by decide +kernel
theorem witness_FabricTable_3 : wbit 1#32 0 = true := by decide +kernel
theorem witness_FabricTable_4 : sSnap.bit Reg.CIR_FSCTRL 0 = true ∧ sSnap.fsOpen = false := by decide +kernel

/-! Obligations.TileReports -/
theorem witness_TileReports_1 : sCell.commits = [] ∧ sCell.lateReports = [] := by decide +kernel

/-! Obligations.BusyContentIsKept -/
theorem witness_BusyContentIsKept_1 : sCue.cueBusy 0 = true ∧ sCue.cueBusy 65535 = true := by decide +kernel
theorem witness_BusyContentIsKept_2 : State.reset.cueBusy 65535 = false := by decide +kernel
theorem witness_BusyContentIsKept_3 : sPat.patBusy 255 = true := by decide +kernel
theorem witness_BusyContentIsKept_4 : sPat.patBusy 0 = false := by decide +kernel

/-! Obligations.CaptureWritesCircuits -/
theorem witness_CaptureWritesCircuits_1 : wbit 0x800000FF#32 31 = true ∧ State.reset.batches = [] := by decide +kernel
theorem witness_CaptureWritesCircuits_2 : sCap.bit Reg.CIR_PATCAP 31 = true := by decide +kernel

/-! Obligations.PartitionTables -/
theorem witness_PartitionTables_1 : sCkt.inBusy 511 = true ∧ fld 5#32 0 6 ≠ sCkt.inOwner 511 := by decide +kernel
theorem witness_PartitionTables_2 : (¬((sCkt.inBusy 3 = true ∧ fld 0x0C800205#32 0 6 ≠ sCkt.inOwner 3) ∨ (sCkt.outBusy 3 = true ∧
    fld 0x0C800205#32 8 6 ≠ sCkt.outOwner 3))) ∧ fld 0x0C800205#32 20 12 ≤ 0xC8 := by decide +kernel
theorem witness_PartitionTables_3 : (¬(fld 0xE6F00000#32 20 12 ≤ 0xC8 ∨ 0xE70 ≤ fld 0xE6F00000#32 20 12)) := by decide +kernel
theorem witness_PartitionTables_4 : 256 < fld 0x000002FF#32 0 8 + fld 0x000002FF#32 8 9 := by decide +kernel
theorem witness_PartitionTables_5 : fld 0x000001FF#32 0 8 + fld 0x000001FF#32 8 9 ≤ 256 := by decide +kernel
/-- A state for Obligations.PartitionTables. -/
def atPartitionTables1 : State := st [(Reg.CIR_PARTPAT 2, 0x00000203#32)]
theorem witness_PartitionTables_6 : (1 : Fin 64) ≠ 0 ∧
    rangesMeet (fld 0x00000104#32 0 8) (fld 0x00000104#32 8 9) (atPartitionTables1.rdf (Reg.CIR_PARTPAT 2) 0 8) (atPartitionTables1.rdf (Reg.CIR_PARTPAT 2) 8 9) = true
     := by decide +kernel

/-! Obligations.LightFollowsSamples -/
theorem witness_LightFollowsSamples_1 : (sRuns.ckts.filter (fun c => c.inp == 0 || c.peer == some 0) = []) ∧
    4 ≤ (sRuns.lightRun false 0).below := by decide +kernel
theorem witness_LightFollowsSamples_2 : (sRuns.ckts.filter (fun c => c.inp == 1 || c.peer == some 1) = []) ∧
    (sRuns.lightRun false 1).below < 4 ∧ (sRuns.lightRun false 1).above < 4 := by decide +kernel
theorem witness_LightFollowsSamples_3 : (sRuns.ckts.filter (fun (c : Ckt) => c.inp == 511 || c.peer == some 511) = []) ∧
    4 ≤ (sRuns.lightRun true 511).above := by decide +kernel
/-- A state for Obligations.LightFollowsSamples. -/
def atLightFollowsSamples1 : State := { State.reset with lightRuns := [(511, ⟨0, 4⟩)], darkIn := [511], couplers := [511] }
theorem witness_LightFollowsSamples_4 : (atLightFollowsSamples1.ckts.filter (fun (c : Ckt) => c.inp == 511 || c.peer == some 511) = []) ∧
    4 ≤ (atLightFollowsSamples1.lightRun false 511).above := by decide +kernel
theorem witness_LightFollowsSamples_5 : (sHold.ckts.filter (fun c => c.inp == 9 || c.peer == some 9) = []) ∧
    (sHold.prot 9).holdoff = some 5000 := by decide +kernel
theorem witness_LightFollowsSamples_6 : (sProt.ckts.filter (fun (c :
    Ckt) => c.inp == 7 || c.peer == some 7) = [⟨7, 9, false, 0, some 5, false, false, true⟩]) ∧ 4 ≤ (sProt.lightRun false 7).below ∧
    ({ sProt.wrBit (mapWord false 7) 30 false with darkIn := (7 :: sProt.darkIn).eraseDups } :
    State).switchable ⟨7, 9, false, 0, some 5, false, false, true⟩ = true ∧
    ({ sProt.wrBit (mapWord false 7) 30 false with darkIn := (7 :: sProt.darkIn).eraseDups } : State).protBlocked = false ∧
    sProt.switching 7 = false := by decide +kernel
/-- A state for Obligations.LightFollowsSamples. -/
def atLightFollowsSamples2 : State := { sProt with darkIn := [7], prots := [(7, ⟨7, some 5000, false⟩)] }
theorem witness_LightFollowsSamples_7 : (atLightFollowsSamples2.prot 7).holdoff = some 5000 ∧
    ((atLightFollowsSamples2.raise 5000).setProt 7 { atLightFollowsSamples2.prot 7 with holdoff := none }).switchable ⟨7, 9, false, 0, some 5, false, false, true⟩ = true ∧
    atLightFollowsSamples2.protBlocked = false ∧ atLightFollowsSamples2.switching 7 = false := by decide +kernel

/-! Obligations.ReleasesAndSolutions -/
theorem witness_ReleasesAndSolutions_1 : sSolving.batch 1 = some (b0 .solving none) ∧
    (match (sSolving.asSolved (runOn sTear)).solve sSolving (b0 .solving none) [] with | .ok _ => true | .error _ => false) = true ∧
    sSolving.fatalOn = false ∧ sSolving.solveStart = some (runOn sTear) := by decide +kernel
theorem witness_ReleasesAndSolutions_2 : sStale.batch 1 = some (b0 .solved (some x0) true) ∧
    (match sStale.solve sStale (b0 .solved (some x0) true) [] with | .ok _ => true | .error _ => false) = true ∧ sStale.fatalOn = false ∧
    sStale.pastRs (b0 .solved (some x0) true) = false ∧
    (match sStale.solve sStale (b0 .solved (some x0) true) [] with | .ok x => sStale.boundLate (b0 .solved (some x0) true) x | .error _ => true) = false
     := by decide +kernel
theorem witness_ReleasesAndSolutions_3 : (sSolving.releaseBlocked = true ∨ sSolving.batches.any (·.phase == .solving) = true)
     := by decide +kernel
theorem witness_ReleasesAndSolutions_4 : sHead.releaseBlocked = false ∧ sHead.batches.any (·.phase == .solving) = false ∧
    sHead.bestHead = some (0, ⟨1, 50, false⟩) ∧ sHead.batch 1 = some (b0 .queued none) := by decide +kernel
/-- A state for Obligations.ReleasesAndSolutions. -/
def atReleasesAndSolutions1 : State := { sImpure with solveStart := some (runOn sImpure) }
theorem witness_ReleasesAndSolutions_5 : atReleasesAndSolutions1.batches = [b0 .solving none] ∧ atReleasesAndSolutions1.commits = [] ∧
    atReleasesAndSolutions1.fatalOn = false ∧ ([0].all (fun q => decide (q < 65536)) = true) ∧
    (match (atReleasesAndSolutions1.asSolved (runOn sImpure)).solve atReleasesAndSolutions1 (b0 .solving none) [] with | .error (7, some 0) => true | _ => false) = true
     := by decide +kernel

/-! Obligations.TollBuckets -/
theorem witness_TollBuckets_1 : 63 < 64 := by decide +kernel
theorem witness_TollBuckets_2 : wbit 1#32 0 = true := by decide +kernel
theorem witness_TollBuckets_3 : wbit 2#32 0 = false ∧ fld 3#32 0 2 = 3 := by decide +kernel
theorem witness_TollBuckets_4 : wbit 0xE0000001#32 0 = true := by decide +kernel
theorem witness_TollBuckets_5 : fld 1#32 0 2 ≠ 3 ∧ State.reset.batches = [] := by decide +kernel
theorem witness_TollBuckets_6 : State.reset.batches = [] := by decide +kernel

/-! Obligations.ImmediatePlacement -/
theorem witness_ImmediatePlacement_1 : sSolved.batch 1 = some (b0 .solved (some x0)) ∧ (b0 .solved (some x0)).phase = .solved ∧
    (b0 .solved (some x0)).sol = some x0 ∧ (b0 .solved (some x0)).rule = 0 ∧ sSolved.thermalBlock = false ∧
    sSolved.waits (b0 .solved (some x0)) x0 = false ∧ sSolved.bucketAllows x0.steps = true ∧ sSolved.stepReq = none := by decide +kernel

/-! Obligations.SendingAndResidency -/
/-- A state for Obligations.SendingAndResidency. -/
def atSendingAndResidency1 : State := atPhase 3 .armed 0 [(Reg.MTX_ISLSTAT 0, 5#32)]
theorem witness_SendingAndResidency_1 : atSendingAndResidency1.commitAt 1000 = some (c0 1000 .armed) ∧ (c0 1000 .armed).phase = .armed ∧
    (c0 1000 .armed).involved.contains 0 = true ∧ atSendingAndResidency1.tileLive 0 = true := by decide +kernel
/-- A state for Obligations.SendingAndResidency. -/
def atSendingAndResidency2 : State := atPhase 3 .armed
theorem witness_SendingAndResidency_2 : atSendingAndResidency2.commitAt 1000 = some (c0 1000 .armed) ∧
    (c0 1000 .armed).involved.contains 63 = false := by decide +kernel
/-- A state for Obligations.SendingAndResidency. -/
def atSendingAndResidency3 : State := atPhase 2 .placed
theorem witness_SendingAndResidency_3 : atSendingAndResidency3.commitAt 1000 = some (c0 1000 .placed) ∧ (c0 1000 .placed).kind = .host ∧
    (c0 1000 .placed).phase = .placed ∧ atSendingAndResidency3.fatalOn = false ∧ atSendingAndResidency3.commitsHeld = false ∧
    (atSendingAndResidency3.commits.filter Commit.holdsSlot).length < 8 ∧ atSendingAndResidency3.ns + 1000 ≤ 1000 ∧
    (atSendingAndResidency3.raise (1000 - 1000)).reachable (c0 1000 .placed) = true ∧
    (atSendingAndResidency3.raise (1000 - 1000)).sendsBefore (c0 1000 .placed) = false := by decide +kernel

/-! Obligations.ArmOpensJournal -/
/-- A state for Obligations.ArmOpensJournal. -/
def atArmOpensJournal1 : State := atPhase 3 .armed 0 [(Reg.LMP_GEN, 0xFFFFFFFF#32), (Reg.LMP_JHEAD, 0xFF#32)]
theorem witness_ArmOpensJournal_1 : atArmOpensJournal1.commitAt 1000 = some (c0 1000 .armed) ∧ (c0 1000 .armed).kind ≠ .protection ∧
    (c0 1000 .armed).phase = .armed ∧ (atArmOpensJournal1.commitBatches (c0 1000 .armed)).filter (·.stale) = [] ∧
    atArmOpensJournal1.fatalOn = false ∧ atArmOpensJournal1.thermalBlock = false ∧ atArmOpensJournal1.tbBad = false ∧
    atArmOpensJournal1.notResident (c0 1000 .armed) = false ∧ atArmOpensJournal1.stepReq = none ∧
    atArmOpensJournal1.holdsBack (c0 1000 .armed) = false := by decide +kernel

/-! Obligations.CommitInstant -/
/-- A state for Obligations.CommitInstant. -/
def atCommitInstant1 : State := atPhase 3 .go 9
theorem witness_CommitInstant_1 : atCommitInstant1.commitAt 1000 = some (c0 1000 .go 9) ∧ (c0 1000 .go 9).phase = .go := by decide +kernel
/-- A state for Obligations.CommitInstant. -/
def atCommitInstant2 : State := atPhase 3 .armed 9
theorem witness_CommitInstant_2 : atCommitInstant2.commitAt 1000 = some (c0 1000 .armed 9) ∧ (c0 1000 .armed 9).phase ≠ .go
     := by decide +kernel
/-- A state for Obligations.CommitInstant. -/
def atCommitInstant3 : State := atPhase 3 .applied 9
theorem witness_CommitInstant_3 : atCommitInstant3.commitAt 1000 = some (c0 1000 .applied 9) ∧ (c0 1000 .applied 9).phase = .applied ∧
    atCommitInstant3.fatalOn = false := by decide +kernel
theorem witness_CommitInstant_4 : (c0 1000 .go 9).phase ≠ .applied := by decide +kernel
theorem witness_CommitInstant_5 : sSettle.settling = [(1000, [])] ∧ sSettle.commits = [] := by decide +kernel
theorem witness_CommitInstant_6 : (sPass.coo 4863).passage = (40, 2040) :: [(16, 2080)] ∧ (sPass.coo 0).passage = [] := by decide +kernel
/-- A state for Obligations.CommitInstant. -/
def atCommitInstant4 : State := { sPass with cells := [(4863, ⟨true, true, 5, 0⟩)] }
theorem witness_CommitInstant_7 : (atCommitInstant4.cell 4863).mode = 5 := by decide +kernel
/-- A state for Obligations.CommitInstant. -/
def atCommitInstant5 : State := { State.reset with live := [(drvWord 4863 0, 0x130#32)], coos := [(4863, { CooRec.zero with passage := [(16, 5)] }), (0, { CooRec.zero with passage := [(2000, 6)] })] }
theorem witness_CommitInstant_8 : (atCommitInstant5.coo 4863).passage = (16, 5) :: [] ∧ (atCommitInstant5.coo 0).passage = (2000, 6) :: []
     := by decide +kernel

/-! Obligations.GuardWindows -/
theorem witness_GuardWindows_1 : sWin.bit (Reg.LMP_WINCTL 7) 0 = true ∧ (3 : Fin 5).val < 4 := by decide +kernel
theorem witness_GuardWindows_2 : State.reset.scheduleFieldOk 0 2 1999#32 = false ∧
    State.reset.scheduleFieldOk 0 1 0x3B9ACA00#32 = false ∧ State.reset.scheduleFieldOk 0 3 599#32 = false := by decide +kernel
theorem witness_GuardWindows_3 : State.reset.bit (Reg.LMP_WINCTL 0) 0 = false ∧ 2000 ≤ (2000#32).toNat := by decide +kernel
/-- A state for Obligations.GuardWindows. -/
def atGuardWindows1 : State := sWin.wr Reg.PWR_STAT 1#32
theorem witness_GuardWindows_4 : atGuardWindows1.bit (Reg.LMP_WINCTL 7) 0 = true ∧ atGuardWindows1.bit (Reg.LMP_WINSTAT 7) 0 = false ∧
    (atGuardWindows1.pstate ≠ 0 ∨ atGuardWindows1.stagedCells = []) := by decide +kernel
/-- A state for Obligations.GuardWindows. -/
def atGuardWindows2 : State := sWin.wr (Reg.LMP_WINSTAT 7) 1#32
theorem witness_GuardWindows_5 : atGuardWindows2.bit (Reg.LMP_WINCTL 7) 0 = true ∧ atGuardWindows2.bit (Reg.LMP_WINSTAT 7) 0 = true ∧
    (7, (atGuardWindows2.schedule 7).opens ((atGuardWindows2.schedule 7).index atGuardWindows2.ns)) ∈ atGuardWindows2.winUsed
     := by decide +kernel
theorem witness_GuardWindows_6 : sWin.bit (Reg.LMP_WINCTL 0) 0 = false ∧ sWin.bit (Reg.LMP_WINSTAT 7) 0 = false := by decide +kernel

/-! Obligations.LampControls -/
/-- A state for Obligations.LampControls. -/
def atLampControls1 : State := st (cueWords 4)
theorem witness_LampControls_1 : atLampControls1.batchOfCue (fld 0#32 0 16) = none := by decide +kernel
theorem witness_LampControls_2 :
    (atSendingAndResidency3.batchOfCue (fld 0#32 0 16) = none ∨ atSendingAndResidency3.batches = [b0 (.placed 1000) (some x0)])
     := by decide +kernel
/-- A state for Obligations.LampControls. -/
def atLampControls2 : State := { (st (cueWords 2)) with batches := [b0 .solved (some x0)] }
theorem witness_LampControls_3 : atLampControls2.batches = [b0 .solved (some x0)] ∧ atLampControls2.commits = [] ∧
    atLampControls2.fatalOn = false ∧ ((b0 .solved (some x0)).cues.all (fun q => decide (q < 65536)) = true) ∧
    fld 0#32 0 16 ∈ (b0 .solved (some x0)).cues := by decide +kernel
theorem witness_LampControls_4 : atCommitInstant1.batchOfCue (fld 0#32 0 16) = some (b0 (.placed 1000) (some x0)) ∧
    atCommitInstant1.pastArm (b0 (.placed 1000) (some x0)) = true := by decide +kernel

/-! Obligations.DeadlinesFailLateBatches -/
theorem witness_DeadlinesFailLateBatches_1 : sPlaced.batches = [b0 (.placed 1000) (some x0) true] ∧ sPlaced.commits = [] ∧
    sPlaced.fatalOn = false ∧ ((∀ q, q ∈ (b0 (.placed 1000) (some x0) true).cues → q < 65536)) ∧
    (b0 (.placed 1000) (some x0) true).stale = true := by decide +kernel
theorem witness_DeadlinesFailLateBatches_2 : sTimed.batches = [b0 .solved (some x0) false 1] ∧ sTimed.commits = [] ∧
    sTimed.fatalOn = false ∧ (b0 .solved (some x0) false 1).rule = 1 ∧ (b0 .solved (some x0) false 1).sol.isSome = true ∧
    sTimed.batch 1 = some (b0 .solved (some x0) false 1) ∧ (b0 .solved (some x0) false 1).stale = false ∧ sTimed.batch 2 = none
     := by decide +kernel
theorem witness_DeadlinesFailLateBatches_3 : atCommitInstant1.batch 1 = some (b0 (.placed 1000) (some x0)) ∧
    atCommitInstant1.pastArm (b0 (.placed 1000) (some x0)) = true := by decide +kernel

/-! Obligations.FreezeHoldsCells -/
theorem witness_FreezeHoldsCells_1 : wbit 1#32 0 = true := by decide +kernel
theorem witness_FreezeHoldsCells_2 : wbit 2#32 0 = false := by decide +kernel

/-! Obligations.CooperWrites -/
/-- A state for Obligations.CooperWrites. -/
def atCooperWrites1 : State := inMode 75 2
theorem witness_CooperWrites_1 : ((atCooperWrites1.cell (cellOf 63 75)).mode = 2 ∨ (atCooperWrites1.cell (cellOf 63 75)).mode = 3)
     := by decide +kernel
theorem witness_CooperWrites_2 : (State.reset.cell (cellOf 0 0)).mode ≠ 2 ∧ (State.reset.cell (cellOf 0 0)).mode ≠ 3 := by decide +kernel
theorem witness_CooperWrites_3 : factorCell 0x7FC = none := by decide +kernel
theorem witness_CooperWrites_4 : factorCell (0x800 + 0x40 * 75) = some 75 ∧ fld 4#32 0 5 ≠ 0 ∧
    State.reset.toneRefused (cellOf 63 75) (fld 4#32 0 5) = false := by decide +kernel
theorem witness_CooperWrites_5 : factorCell (0x800 + 0x40 * 75) = some 75 ∧ fld 5#32 0 5 ≠ 0 ∧
    sOdd.toneRefused (cellOf 63 75) (fld 5#32 0 5) = true := by decide +kernel
theorem witness_CooperWrites_6 :
    ((tileCells 63).all (fun c => State.reset.rdf (cooWord c 0) 0 5 % 2 == 0) = true ∨ oddN (fld 0x40#32 0 11) = false)
     := by decide +kernel
theorem witness_CooperWrites_7 : oddN (fld 0x10060#32 0 11) = true ∧ fld 0x10060#32 0 11 % 32 = 0 ∧
    ((tileCells 63).any (fun c => sOdd.rdf (cooWord c 0) 0 5 % 2 == 1) = true) := by decide +kernel

/-! Obligations.TileInstants -/
theorem witness_TileInstants_1 : State.reset.tileLive 0 = false := by decide +kernel
theorem witness_TileInstants_2 : sTile.tileLive 63 = true ∧ (sTile.tileRec 63).tband = none ∧ sTile.bit (Reg.COO_STAT 63) 24 = false ∧
    sTile.cells = [] := by decide +kernel
theorem witness_TileInstants_3 : wbit (sSync.rdLive (Reg.COO_CYCLE 63)) 16 = true := by decide +kernel
theorem witness_TileInstants_4 : wbit (sSync.rdLive (Reg.COO_CYCLE 0)) 16 = false ∧ sSync.fatalOn = false := by decide +kernel
theorem witness_TileInstants_5 : sOff.tileLive 63 = true ∧ (sOff.cell (cellOf 63 75)).mode ≤ 1 ∧
    (sOff.postponed 63).contains (cellOf 63 75) = false := by decide +kernel
theorem witness_TileInstants_6 : sFade.tileLive 63 = true ∧ (sFade.tileRec 63).fade = some ⟨65535, 65535⟩ := by decide +kernel
theorem witness_TileInstants_7 : sHeat.tileLive 63 = true ∧ (sHeat.tileRec 63).fade = none ∧ (sHeat.coo (cellOf 63 75)).passage = [] ∧
    (sHeat.cell (cellOf 63 75)).mode ≠ 2 ∧ sHeat.heaterTarget (cellOf 63 75) = some 16383 ∧ 16383 < 16384 := by decide +kernel
/-- A state for Obligations.TileInstants. -/
def atTileInstants1 : State := inMode 75 2 [(cooWord (cellOf 63 75) 13, 0x00050007#32), (cooWord (cellOf 63 75) 11, 5#32)]
theorem witness_TileInstants_8 : atTileInstants1.tileLive 63 = true ∧
    ((atTileInstants1.cell (cellOf 63 75)).mode = 2 ∨ (atTileInstants1.cell (cellOf 63 75)).mode = 5 ∨ (atTileInstants1.cell (cellOf 63 75)).mode = 6)
     := by decide +kernel
/-- A state for Obligations.TileInstants. -/
def atTileInstants2 : State := inMode 75 5 [(cooWord (cellOf 63 75) 13, 0x00050007#32), (cooWord (cellOf 63 75) 11, 5#32)]
theorem witness_TileInstants_9 : atTileInstants2.tileLive 63 = true ∧
    ((atTileInstants2.cell (cellOf 63 75)).mode = 2 ∨ (atTileInstants2.cell (cellOf 63 75)).mode = 5 ∨ (atTileInstants2.cell (cellOf 63 75)).mode = 6)
     := by decide +kernel
/-- A state for Obligations.TileInstants. -/
def atTileInstants3 : State := inMode 75 6 [(cooWord (cellOf 63 75) 13, 0x00050007#32), (cooWord (cellOf 63 75) 11, 5#32)]
theorem witness_TileInstants_10 : atTileInstants3.tileLive 63 = true ∧
    ((atTileInstants3.cell (cellOf 63 75)).mode = 2 ∨ (atTileInstants3.cell (cellOf 63 75)).mode = 5 ∨ (atTileInstants3.cell (cellOf 63 75)).mode = 6)
     := by decide +kernel
/-- A state for Obligations.TileInstants. -/
def atTileInstants4 : State := cycled ⟨5, 7, true, 96⟩
theorem witness_TileInstants_11 : atTileInstants4.tileLive 63 = true ∧ (atTileInstants4.cell (cellOf 63 75)).mode ≤ 1 ∧
    ((atTileInstants4.commits.all fun k => !k.involved.contains 63) = true) ∧
    ((atTileInstants4.settling.all fun p => !p.2.contains (cellOf 63 75)) = true) ∧
    (atTileInstants4.coo (cellOf 63 75)).ended = some ⟨5, 7, true, 96⟩ := by decide +kernel
/-- A state for Obligations.TileInstants. -/
def atTileInstants5 : State := cycled ⟨1000000, -30000, false, 96⟩
theorem witness_TileInstants_12 : atTileInstants5.tileLive 63 = true ∧ (atTileInstants5.cell (cellOf 63 75)).mode ≤ 1 ∧
    ((atTileInstants5.commits.all fun k => !k.involved.contains 63) = true) ∧
    ((atTileInstants5.settling.all fun p => !p.2.contains (cellOf 63 75)) = true) ∧
    (atTileInstants5.coo (cellOf 63 75)).ended = some ⟨1000000, -30000, false, 96⟩ ∧
    atTileInstants5.observable (cellOf 63 75) ⟨1000000, -30000, false, 96⟩ = true ∧ (1000000 : Int) ≠ 0 := by decide +kernel
theorem witness_TileInstants_13 : sFading.tileLive 63 = true ∧ (sFading.tileRec 63).fade = some ⟨2, 10⟩ ∧ (10 : Nat) ≠ 0 ∧
    (sFading.coo (cellOf 63 75)).fadeH < 16384 := by decide +kernel

/-! Obligations.TraceRing -/
theorem witness_TraceRing_1 : State.reset.bit (Reg.COO_TRCTL 63) 31 = false ∧
    (State.reset.writeReg (Reg.COO_TRCTL 63) 0x80000005#32).bit (Reg.COO_TRCTL 63) 31 = true := by decide +kernel
theorem witness_TraceRing_2 : sTrace.bit (Reg.COO_TRCTL 63) 31 = true ∧ sTrace.bit (Reg.COO_TRSTAT 63) 31 = false := by decide +kernel
theorem witness_TraceRing_3 : sTrace.isTileUser (.core 0) = true := by decide +kernel
theorem witness_TraceRing_4 : sTrace.isTileUser (.fn 0 1) = false := by decide +kernel
theorem witness_TraceRing_5 : sTraceUp.off = false ∧ sTraceUp.isDraining (.core 0) = false ∧
    sTraceUp.mayReach (.core 0) false (Reg.COO_TRDATA 63) = true ∧ sTraceUp.silent 63 = false ∧ Reg.COO_TRDATA 63 ∉ sTraceUp.poisoned
     := by decide +kernel
/-- A state for Obligations.TraceRing. -/
def atTraceRing1 : State := sTrace.wr (Reg.MTX_ISLSTAT 63) 2#32
theorem witness_TraceRing_6 : atTraceRing1.off = false ∧ atTraceRing1.isDraining (.core 0) = false ∧
    atTraceRing1.mayReach (.core 0) false (Reg.COO_TRDATA 63) = true ∧ atTraceRing1.silent 63 = true := by decide +kernel
theorem witness_TraceRing_7 : sTraceUp.off = false ∧ sTraceUp.isDraining (.fn 0 1) = false ∧
    sTraceUp.mayReach (.fn 0 1) false (Reg.COO_TRDATA 63) = false := by decide +kernel

/-! Obligations.HeaterFaults -/
theorem witness_HeaterFaults_1 : ((State.reset.coo (cellOf 0 0)).openRun < 8 ∧
    (State.reset.coo (cellOf 0 0)).shortRun < 8 ∨ State.reset.bit (drvWord (cellOf 0 0) 1) 31 = true) := by decide +kernel
/-- A state for Obligations.HeaterFaults. -/
def atHeaterFaults1 : State := opened 1 [(cooWord (cellOf 63 75) 13, 0x00050000#32)]
theorem witness_HeaterFaults_2 : (8 ≤ (atHeaterFaults1.coo (cellOf 63 75)).openRun ∨ 8 ≤ (atHeaterFaults1.coo (cellOf 63 75)).shortRun) ∧
    atHeaterFaults1.bit (drvWord (cellOf 63 75) 1) 31 = false ∧ atHeaterFaults1.batches = [] := by decide +kernel
/-- A state for Obligations.HeaterFaults. -/
def atHeaterFaults2 : State := opened 4 [(drvWord (cellOf 63 75) 1, 0xC0000000#32)]
theorem witness_HeaterFaults_3 : wbit 0x10000000#32 28 = true ∧ atHeaterFaults2.bit (drvWord (cellOf 63 75) 1) 31 = true ∧
    (atHeaterFaults2.cell (cellOf 63 75)).mode = 4 ∧ atHeaterFaults2.bit (drvWord (cellOf 63 0) 1) 31 = false := by decide +kernel

/-! Obligations.FadesEndInRest -/
/-- A state for Obligations.FadesEndInRest. -/
def atFadesEndInRest1 : State := inMode 75 1
theorem witness_FadesEndInRest_1 : atFadesEndInRest1.commitNear 63 = false ∧ (atFadesEndInRest1.tileRec 63).fade = none
     := by decide +kernel
theorem witness_FadesEndInRest_2 : atCommitInstant1.commitNear 0 = true := by decide +kernel
theorem witness_FadesEndInRest_3 : (sFade.tileRec 63).fade.isSome = true := by decide +kernel
theorem witness_FadesEndInRest_4 : (State.reset.tileRec 0).fade = none := by decide +kernel

/-! Obligations.DriverWrites -/
/-- A state for Obligations.DriverWrites. -/
def atDriverWrites1 : State := inMode 75 3
theorem witness_DriverWrites_1 : (atDriverWrites1.cell (cellOf 63 75)).mode = 3 ∧ wbit 0x80008000#32 31 = true := by decide +kernel
theorem witness_DriverWrites_2 : (State.reset.cell (cellOf 0 0)).mode ≠ 3 ∧ wbit 0x80000000#32 31 = true := by decide +kernel
/-- A state for Obligations.DriverWrites. -/
def atDriverWrites2 : State := st [(Reg.BOOT_TIME 5, 1#32)]
theorem witness_DriverWrites_3 : 0x11000 ≤ 0x11000 ∧ (0x11000 - 0x11000) / 0x4000 = atDriverWrites2.rdf (Reg.DRV_PECTL 63) 0 1 ∧
    atDriverWrites2.rd (Reg.BOOT_TIME 5) ≠ 0xFFFFFFFF#32 := by decide +kernel
theorem witness_DriverWrites_4 : 0x15000 < 0x19000 ∧ (0x15000 - 0x11000) / 0x4000 ≠ atDriverWrites2.rdf (Reg.DRV_PECTL 63) 0 1
     := by decide +kernel

/-! Obligations.Samples -/
/-- A state for Obligations.Samples. -/
def atSamples1 : State := st [(Reg.MTX_ISLSTAT 0, 5#32), (Reg.MON_CHCFG 0 0, 0x01000000#32)]
theorem witness_Samples_1 : firstEntry (atSamples1.seqLive 0) 0 = some 0 ∧ atSamples1.converting 0 = true ∧
    atSamples1.adcOut 0 (0 / 23) = false ∧ atSamples1.pstate ≠ 1 ∧ atSamples1.invrem 0 0 ≠ 0 := by decide +kernel
theorem witness_Samples_2 : firstEntry (State.reset.seqLive 0) 0 = some 0 ∧ State.reset.converting 0 = false := by decide +kernel
theorem witness_Samples_3 : (firstEntry (sPort.seqLive 63) 91).isSome = true ∧ sPort.converting 63 = true ∧
    sPort.adcOut 63 ((firstEntry (sPort.seqLive 63) 91).getD 0 / 23) = false ∧ sPort.invrem 63 91 = 0 ∧ sPort.modef 63 = 0 ∧
    sPort.bit (Reg.TAL_LIVE_W7 63 91) 29 = false ∧ sPort.sum64 (Reg.TAL_LIVE_W0 63 91) + (0xFFFF#16).toNat * 65536 < 2 ^ 64 ∧
    sPort.sum64 (Reg.TAL_LIVE_W0 63 91 + 8) + (0xFFFF#16).toNat * (0xFFFF#16).toNat < 2 ^ 64 := by decide +kernel
/-- A state for Obligations.Samples. -/
def atSamples2 : State := sPort.wr (Reg.MON_CHCFG 63 91) 0x01000000#32
theorem witness_Samples_4 : (atSamples2.entryDue 63 91 false).isSome = true ∧ atSamples2.converting 63 = true ∧
    atSamples2.entryRuns 63 ((atSamples2.entryDue 63 91 false).getD 0) = true ∧ (76 ≤ (91 :
    Fin 92).val ∨ atSamples2.cellFrames 63 = true) ∧ atSamples2.invrem 63 91 ≠ 0 := by decide +kernel
theorem witness_Samples_5 : sPort.entryDue 63 91 true = none := by decide +kernel
theorem witness_Samples_6 : (sPort.entryDue 63 91 false).isSome = true ∧ 76 ≤ (91 : Fin 92).val ∧
    sPort.entryRuns 63 ((sPort.entryDue 63 91 false).getD 0) = true := by decide +kernel

/-! Obligations.MonitorControls -/
theorem witness_MonitorControls_1 : (State.reset.modef 0 ≠ 0 ∨ seqSound (State.reset.seqStaged 0) = true) := by decide +kernel
theorem witness_MonitorControls_2 : sSeq.modef 63 = 0 ∧ seqSound (sSeq.seqStaged 63) = false := by decide +kernel
theorem witness_MonitorControls_3 : wbit 0x80000000#32 31 = true ∧ sSeq.bit (Reg.MON_URGSTAT 63) 29 = true := by decide +kernel
theorem witness_MonitorControls_4 : wbit 0x80000000#32 31 = true ∧ sSeq.bit (Reg.MON_URGSTAT 0) 29 = false := by decide +kernel
theorem witness_MonitorControls_5 : fld 0x800#32 8 4 ≠ 0 ∧ State.reset.modef 0 = 0 := by decide +kernel
theorem witness_MonitorControls_6 : wbit 0x800#32 (8 + (3 : Fin 4)) = true ∧ sDiag.modef 63 ≠ 0 := by decide +kernel
theorem witness_MonitorControls_7 : sDiag.bit (Reg.MON_CTRL 63) (8 + (3 : Fin 4)) = true ∧ sDiag.bit (Reg.MON_CTRL 63) (8 + (0 :
    Fin 4)) = false := by decide +kernel

/-! Obligations.Snapshots -/
theorem witness_Snapshots_1 : wbit 0x80000000#32 31 = true := by decide +kernel
theorem witness_Snapshots_2 : State.reset.bit (Reg.TAL_CTRL 0) 0 = false ∧ (State.reset.mon 0).snapWait = none := by decide +kernel
/-- A state for Obligations.Snapshots. -/
def atSnapshots1 : State := st [(Reg.TAL_CTRL 63, 3#32)]
theorem witness_Snapshots_3 : atSnapshots1.bit (Reg.TAL_CTRL 63) 0 = true ∧ (atSnapshots1.mon 63).snapWait = none := by decide +kernel
theorem witness_Snapshots_4 : (sWait.mon 63).snapWait = some false := by decide +kernel

/-! Obligations.BoundaryTakesEffect -/
theorem witness_BoundaryTakesEffect_1 : sPort.tileLive 63 = true ∧ sPort.rdf (Reg.MON_CTRL 63) 0 2 ≠ 0 ∧ sPort.tileLive 0 = false
     := by decide +kernel
theorem witness_BoundaryTakesEffect_2 : fld 0#32 0 2 = 0 ∧ sBad.rdf (Reg.MON_CTRL 63) 0 2 ≠ 0 ∧ seqSound (sBad.seqLive 63) = false
     := by decide +kernel
/-- A state for Obligations.BoundaryTakesEffect. -/
def atBoundaryTakesEffect1 : State := ((sBad.wr (Reg.MON_CTRL 63) 0#32).wr (Reg.MON_STAT 63) 1#32).wr (Reg.MTX_ISLSTAT 63) 5#32
theorem witness_BoundaryTakesEffect_3 : atBoundaryTakesEffect1.tileLive 63 = true ∧
    atBoundaryTakesEffect1.rdf (Reg.MON_CTRL 63) 0 2 = 0 ∧ atBoundaryTakesEffect1.bit (Reg.MON_CTRL 63) 4 = false ∧
    seqSound (atBoundaryTakesEffect1.seqLive 63) = false := by decide +kernel
theorem witness_BoundaryTakesEffect_4 : fld 2#32 0 2 ≠ 0 := by decide +kernel
/-- A state for Obligations.BoundaryTakesEffect. -/
def atBoundaryTakesEffect2 : State := ((sPort.wr (Reg.MON_CTRL 63) 0x10#32).wr (Reg.MON_STAT 63) 1#32)
theorem witness_BoundaryTakesEffect_5 : atBoundaryTakesEffect2.tileLive 63 = true ∧ atBoundaryTakesEffect2.rdf (Reg.MON_CTRL 63) 0 2 = 0
     := by decide +kernel

/-! Obligations.UrgentConversions -/
theorem witness_UrgentConversions_1 : ((sUrg.mon 0).urgent.contains 3 = true ∨ sUrg.adcOut 0 3 = true ∨ sUrg.tileLive 0 = false)
     := by decide +kernel
theorem witness_UrgentConversions_2 : (sUrg.mon 63).urgent.contains 3 = false ∧ sUrg.adcOut 63 3 = false ∧ sUrg.tileLive 63 = true ∧
    sUrg.urgentTarget 63 = some (3, 3) := by decide +kernel
/-- A state for Obligations.UrgentConversions. -/
def atUrgentConversions1 : State := { sPort with mons := [(63, { MonRec.zero with urgent := [3] })] }
theorem witness_UrgentConversions_3 : atUrgentConversions1.adcOut 63 3 = false ∧ atUrgentConversions1.tileLive 63 = true ∧
    (atUrgentConversions1.mon 63).urgent.contains (3 : Fin 4).val = true := by decide +kernel
/-- A state for Obligations.UrgentConversions. -/
def atUrgentConversions2 : State := { sPort with mons := [(63, { MonRec.zero with got := [(3 * 23 + 22, true)] })] }
theorem witness_UrgentConversions_4 : atUrgentConversions2.adcOut 63 3 = false ∧ atUrgentConversions2.tileLive 63 = true ∧
    ((atUrgentConversions2.mon 63).got.any (fun p => p.1 / 23 == 3 && decide ((22 : Fin 23).val ≤ p.1 % 23)) = true) := by decide +kernel
/-- A state for Obligations.UrgentConversions. -/
def atUrgentConversions3 : State := sPort.wr (Reg.MON_CHCFG 63 91) 0x02000000#32
theorem witness_UrgentConversions_5 : atUrgentConversions3.adcOut 63 3 = false ∧ atUrgentConversions3.tileLive 63 = true ∧
    (atUrgentConversions3.mon 63).urgent.contains (3 : Fin 4).val = false ∧
    ((atUrgentConversions3.mon 63).got.all (fun p => p.1 / 23 != 3 || decide (p.1 % 23 < (22 : Fin 23).val)) = true) ∧
    (((atUrgentConversions3.mon 63).asyWait ++ (((some (91 : Fin 92)) : Option (Fin 92)).map fun (ch :
    Fin 92) => (3, ch.val)).toList).find? (fun q => q.1 == 3) = some (3, 91)) := by decide +kernel
theorem witness_UrgentConversions_6 : sUrg.adcOut 63 3 = false ∧ sUrg.tileLive 63 = true ∧ (sUrg.mon 63).urgent.contains (3 :
    Fin 4).val = false ∧ ((sUrg.mon 63).got.all (fun p => p.1 / 23 != 3 || decide (p.1 % 23 < (22 : Fin 23).val)) = true) ∧
    ((sUrg.mon 63).asyWait.all (fun q => q.1 != 3) = true) ∧ sUrg.urgentTarget 63 = some (3, 3) := by decide +kernel
theorem witness_UrgentConversions_7 : sPort.adcOut 63 3 = false ∧ sPort.tileLive 63 = true ∧ (sPort.mon 63).urgent.contains (3 :
    Fin 4).val = false ∧ ((sPort.mon 63).got.all (fun p => p.1 / 23 != 3 || decide (p.1 % 23 < (22 : Fin 23).val)) = true) ∧
    ((sPort.mon 63).asyWait.all (fun q => q.1 != 3) = true) ∧ sPort.urgentTarget 63 = none := by decide +kernel

/-! Obligations.AssayerOperations -/
theorem witness_AssayerOperations_1 :
    (sCkt.ckts ≠ [] ∨ sCkt.heldBatches ≠ [] ∨ sCkt.thermalBlock = true ∨ sCkt.fullcal.isSome = true ∨ sCkt.pstate ≠ 0)
     := by decide +kernel
theorem witness_AssayerOperations_2 : State.reset.ckts = [] ∧ State.reset.heldBatches = [] ∧ State.reset.thermalBlock = false ∧
    State.reset.fullcal = none ∧ State.reset.pstate = 0 := by decide +kernel
theorem witness_AssayerOperations_3 : State.reset.eligible 4863 = false := by decide +kernel
theorem witness_AssayerOperations_4 : sSaving.saving.isSome = true := by decide +kernel
theorem witness_AssayerOperations_5 : State.reset.saving = none ∧ State.reset.saveGen ≠ 0xFFFFFFFF := by decide +kernel
theorem witness_AssayerOperations_6 : sFull.fullcal.isSome = true := by decide +kernel
/-- A state for Obligations.AssayerOperations. -/
def atAssayerOperations1 : State := { State.reset with calEn := true }
theorem witness_AssayerOperations_7 : atAssayerOperations1.calEn = true ∧ atAssayerOperations1.calSettled = false ∧
    atAssayerOperations1.fullcal = none := by decide +kernel
/-- A state for Obligations.AssayerOperations. -/
def atAssayerOperations2 : State := { State.reset with cells := [(4863, ⟨false, true, 1, 0⟩)] }
theorem witness_AssayerOperations_8 : atAssayerOperations2.eligible 4863 = true ∧ atAssayerOperations2.calRoom (tileOf 4863) = true ∧
    atAssayerOperations2.pstate = 0 ∧ atAssayerOperations2.fullcal = none := by decide +kernel
/-- A state for Obligations.AssayerOperations. -/
def atAssayerOperations3 : State := { State.reset with deferredCal := [(5, true)], calCells := [{ CalRec.new 4863 false false true 1 with commanded := true }], cells := [(4863, ⟨false, true, 2, 0⟩)] }
theorem witness_AssayerOperations_9 : atAssayerOperations3.fullcal = none := by decide +kernel
/-- A state for Obligations.AssayerOperations. -/
def atAssayerOperations4 : State := { State.reset with calEn := true, fullcal := some ⟨false, false, [], none, []⟩, now := 77 * nsUnit }
theorem witness_AssayerOperations_10 : atAssayerOperations4.calEn = true ∧ atAssayerOperations4.calSettled = false ∧
    atAssayerOperations4.fullcal = some ⟨false, false, [], none, []⟩ := by decide +kernel
theorem witness_AssayerOperations_11 : (State.reset.calEn = false ∨ State.reset.calSettled = true) := by decide +kernel

/-! Obligations.CalibrationFlow -/
/-- A state for Obligations.CalibrationFlow. -/
def atCalibrationFlow1 : State := { sSaving with saving := some ⟨[], 0#32, 0#32, 0, true⟩ }
theorem witness_CalibrationFlow_1 : atCalibrationFlow1.saving = some ⟨[], 0#32, 0#32, 0, true⟩ := by decide +kernel
theorem witness_CalibrationFlow_2 : sSaving.saving = some ⟨[(Reg.ASY_QUAL_W0 0, 5#32)], 0#32, 0#32, 0, false⟩ ∧
    sSaving.bit Reg.SEC_OTPSTAT 29 = false := by decide +kernel
/-- A state for Obligations.CalibrationFlow. -/
def atCalibrationFlow2 : State := { (sSaving.wr Reg.SEC_OTPSTAT 0x20000000#32) with asyLast := 20 }
theorem witness_CalibrationFlow_3 : atCalibrationFlow2.saving = some ⟨[(Reg.ASY_QUAL_W0 0, 5#32)], 0#32, 0#32, 0, false⟩ ∧
    atCalibrationFlow2.bit Reg.SEC_OTPSTAT 29 = true := by decide +kernel
theorem witness_CalibrationFlow_4 : sFull.fullcal = some ⟨false, false, [], none, []⟩ ∧ 1 ≤ sFull.rdf Reg.ASY_STAT 21 5 ∧
    sFull.rdf Reg.ASY_STAT 21 5 < 18 := by decide +kernel
theorem witness_CalibrationFlow_5 : sEnded.fullcal = some ⟨false, true, [true], none, []⟩ ∧ sEnded.bit Reg.ASY_CTRL 3 = false
     := by decide +kernel
/-- A state for Obligations.CalibrationFlow. -/
def atCalibrationFlow3 : State := st [(Reg.PWR_STAT, 1#32)]
theorem witness_CalibrationFlow_6 : (atCalibrationFlow3.pstate ≠ 0 ∨ atCalibrationFlow3.stagedCells = []) := by decide +kernel
/-- A state for Obligations.CalibrationFlow. -/
def atCalibrationFlow4 : State := st [(cooWord 4863 7, 0x08000000#32)]
theorem witness_CalibrationFlow_7 : atCalibrationFlow4.pstate = 0 ∧ atCalibrationFlow4.commits = [] ∧
    (4863 ∈ atCalibrationFlow4.stagedCells.filter fun c => !(loads atCalibrationFlow4.ckts atCalibrationFlow4.cross).contains c)
     := by refine ⟨by decide, by decide, List.mem_filter.mpr ⟨List.mem_filter.mpr ⟨List.mem_range.mpr (by decide), by decide⟩, by decide +kernel⟩⟩
theorem witness_CalibrationFlow_8 : sFull.fullcal = some ⟨false, false, [], none, []⟩ ∧ sFull.rdf Reg.ASY_STAT 21 5 < 18 ∧
    (sFull.rdf Reg.ASY_STAT 21 5 = 0 → sFull.darkInStage 0 (sFull.bit Reg.ASY_STAT 20) < 128) := by decide +kernel
theorem witness_CalibrationFlow_9 : sDark.fullcal = some ⟨false, false, [], none, []⟩ ∧ sDark.bit Reg.ASY_STAT 20 = false ∧
    sDark.rdf Reg.ASY_STAT 21 5 = 0 ∧ 128 ≤ sDark.darkInStage 0 false := by decide +kernel
/-- A state for Obligations.CalibrationFlow. -/
def atCalibrationFlow5 : State := { sFull with words := (sFull.wrf Reg.ASY_STAT 21 5 18).words }
theorem witness_CalibrationFlow_10 : atCalibrationFlow5.bit Reg.ASY_STAT 20 = false ∧ 18 ≤ atCalibrationFlow5.rdf Reg.ASY_STAT 21 5
     := by decide +kernel
/-- A state for Obligations.CalibrationFlow. -/
def atCalibrationFlow6 : State := { sFull with words := ((sFull.wrf Reg.ASY_STAT 21 5 18).wrBit Reg.ASY_STAT 20 true).words }
theorem witness_CalibrationFlow_11 : atCalibrationFlow6.bit Reg.ASY_STAT 20 = true ∧ 18 ≤ atCalibrationFlow6.rdf Reg.ASY_STAT 21 5
     := by decide +kernel

/-! Obligations.MeasurementsReleaseCells -/
/-- A state for Obligations.MeasurementsReleaseCells. -/
def atMeasurementsReleaseCells1 : State := inCal false [(Reg.ASY_PWIN, 0xFFFF0001#32), (Reg.ASY_QLIM, 0x00FF0000#32)]
theorem witness_MeasurementsReleaseCells_1 : atMeasurementsReleaseCells1.calCells = [CalRec.new 4863 false false true 1] ∧
    atMeasurementsReleaseCells1.fullcal = none ∧ atMeasurementsReleaseCells1.judgeMeasured false false 4863 true (measured 5) = 6 ∧
    (atMeasurementsReleaseCells1.cell 4863).mode = 2 ∧ atMeasurementsReleaseCells1.bit (Reg.COO_STAT (tileOf 4863)) 24 = false
     := by decide +kernel
theorem witness_MeasurementsReleaseCells_2 : State.reset.calCells = [] := by decide +kernel
/-- A state for Obligations.MeasurementsReleaseCells. -/
def atMeasurementsReleaseCells2 : State := inCal false [(Reg.ASY_PWIN, 0xFFFF0001#32), (Reg.ASY_CTRL, 0x800#32)]
theorem witness_MeasurementsReleaseCells_3 : atMeasurementsReleaseCells2.calCells = [CalRec.new 4863 false false true 1] ∧
    atMeasurementsReleaseCells2.fullcal = none ∧ atMeasurementsReleaseCells2.judgeMeasured false false 4863 true (measured 0) = 2 ∧
    atMeasurementsReleaseCells2.rdf Reg.ASY_CTRL 10 2 = 2 := by decide +kernel
/-- A state for Obligations.MeasurementsReleaseCells. -/
def atMeasurementsReleaseCells3 : State := { (inCal false [(Reg.ASY_PWIN, 0xFFFF0001#32), (Reg.ASY_QLIM, 0x00FF0000#32)]) with calCells := [{ CalRec.new 4863 false false true 1 with commanded := true }], asyLast := 16 + 4863 }
theorem witness_MeasurementsReleaseCells_4 : atMeasurementsReleaseCells3.fullcal = none ∧
    ((atMeasurementsReleaseCells3.calEn = false ∨ atMeasurementsReleaseCells3.calSettled = true ∨ false = true)) ∧
    atMeasurementsReleaseCells3.judgeMeasured false false 4863 true (measured 5) = 6 ∧ (atMeasurementsReleaseCells3.cell 4863).mode = 2
     := by decide +kernel
theorem witness_MeasurementsReleaseCells_5 : sFullIn.fullcal = some ⟨false, false, [], some 0, []⟩ ∧
    (sFullIn.calEn = false ∨ sFullIn.calSettled = true) ∧ 4863 / 256 = sFullIn.rdf Reg.ASY_STAT 21 5 := by decide +kernel
/-- A state for Obligations.MeasurementsReleaseCells. -/
def atMeasurementsReleaseCells4 : State := { (inCal false) with calEn := true }
theorem witness_MeasurementsReleaseCells_6 : atMeasurementsReleaseCells4.calEn = true ∧ atMeasurementsReleaseCells4.calSettled = false ∧
    atMeasurementsReleaseCells4.calCells = [CalRec.new 4863 false false true 1] := by decide +kernel

/-! Obligations.BackgroundAndTinker -/
theorem witness_BackgroundAndTinker_1 : State.reset.background = false ∧ State.reset.sinceSave.length < 256 := by decide +kernel
theorem witness_BackgroundAndTinker_2 : sBg.eligible 4863 = true ∧ sBg.background = true ∧ sBg.sinceStamp (4864 + 4863) 86400 = true
     := by decide +kernel
theorem witness_BackgroundAndTinker_3 : sBg.background = true ∧ sBg.bit Reg.ASY_CTRL 0 = true ∧ sBg.nextVisit = some 4863
     := by decide +kernel
/-- A state for Obligations.BackgroundAndTinker. -/
def atBackgroundAndTinker1 : State := { sBg with stamps := [(4864 + 4863, 3600)] }
theorem witness_BackgroundAndTinker_4 : atBackgroundAndTinker1.nextVisit ≠ some 0 ∧
    atBackgroundAndTinker1.sinceStamp (4864 + 4863) 86400 = false := by decide +kernel
/-- A state for Obligations.BackgroundAndTinker. -/
def atBackgroundAndTinker2 : State := inCal true
theorem witness_BackgroundAndTinker_5 : atBackgroundAndTinker2.calCells = [CalRec.new 4863 true false true 1] ∧
    atBackgroundAndTinker2.bit Reg.TNK_CTRL 0 = false ∧ (atBackgroundAndTinker2.cell 4863).mode = 2 ∧
    atBackgroundAndTinker2.bit (Reg.COO_STAT (tileOf 4863)) 24 = false := by decide +kernel
theorem witness_BackgroundAndTinker_6 : sBg.bit Reg.ASY_CTRL 3 = true ∧ sBg.saving = none ∧ 256 ≤ sBg.sinceSave.length ∧
    sBg.lastSave + 3600 ≤ secOf sBg.ns ∧ sBg.saveGen ≠ 0xFFFFFFFF := by decide +kernel
theorem witness_BackgroundAndTinker_7 : State.reset.trimAllowed 0 true = false ∧ State.reset.tink = none := by decide +kernel
theorem witness_BackgroundAndTinker_8 : sTrim.trimAllowed 4863 true = true ∧ sTrim.tink = none ∧
    ((sTrim.calCells.any fun x => x.cell == 4863 && x.tinker) = true) := by decide +kernel
theorem witness_BackgroundAndTinker_9 : sTink.tink = some ⟨4863, 1, 14, true, true⟩ ∧ sTink.trimThr < 4 * (0x8001#16).toInt.natAbs ∧
    14 < 15 := by decide +kernel
/-- A state for Obligations.BackgroundAndTinker. -/
def atBackgroundAndTinker3 : State := st [(Reg.TNK_CELL_W0 4863, 0x20000000#32), (Reg.TNK_CNT, 0x00010000#32)]
theorem witness_BackgroundAndTinker_10 : wbit 0x800012FF#32 31 = true ∧ fld 0x800012FF#32 0 13 < 4864 ∧
    atBackgroundAndTinker3.bit (Reg.TNK_CELL_W0 (fld 0x800012FF#32 0 13)) 29 = true := by decide +kernel
/-- A state for Obligations.BackgroundAndTinker. -/
def atBackgroundAndTinker4 : State := sBg.wr (Reg.ASY_BANKGEN 0) 0xFFFFFFFE#32
theorem witness_BackgroundAndTinker_11 : atBackgroundAndTinker4.bit Reg.ASY_CTRL 3 = true ∧ atBackgroundAndTinker4.saving = none ∧
    256 ≤ atBackgroundAndTinker4.sinceSave.length ∧ atBackgroundAndTinker4.lastSave + 3600 ≤ secOf atBackgroundAndTinker4.ns ∧
    atBackgroundAndTinker4.saveGen = 0xFFFFFFFF := by decide +kernel
/-- A state for Obligations.BackgroundAndTinker. -/
def atBackgroundAndTinker5 : State := { sTink with tink := some ⟨4863, 1, 0, false, true⟩ }
theorem witness_BackgroundAndTinker_12 : atBackgroundAndTinker5.tink = some ⟨4863, 1, 0, false, true⟩ := by decide +kernel

/-! Obligations.LinksAndFunctions -/
/-- A state for Obligations.LinksAndFunctions. -/
def atLinksAndFunctions1 : State := st [(Reg.HIF_LINKCFG 0, 0x40000200#32)]
theorem witness_LinksAndFunctions_1 : ((3 : Fin 4).val = 0 ∨ (atLinksAndFunctions1.rdf (Reg.HIF_LINKCFG 0) 8 2 = 1 ∧ (3 :
    Fin 4).val < 2) ∨ 2 ≤ atLinksAndFunctions1.rdf (Reg.HIF_LINKCFG 0) 8 2) := by decide +kernel
theorem witness_LinksAndFunctions_2 : (16 : Fin 17) ≠ 0 ∧ State.reset.hasRingOn (fnIndex 3 16) = false := by decide +kernel
theorem witness_LinksAndFunctions_3 : (1 : Fin 17) ≠ 0 ∧ sVf.hasRingOn (fnIndex 0 1) = true ∧
    wbit 0#32 31 ≠ sVf.bit (Reg.HIF_FNCFG_W0 (fnIndex 0 1)) 31 := by decide +kernel
theorem witness_LinksAndFunctions_4 :
    (((List.range 68).all fun h => h == fnIndex 3 16 || !rangesMeet (fld 0x7FFE0001#32 16 15) (fld 0x7FFE0001#32 0 16) (sVf.rdf (Reg.HIF_FNCFG_W1 h) 16 15) (sVf.rdf (Reg.HIF_FNCFG_W1 h) 0 16)) = true) ∧
    sVf.hasRingOn (fnIndex 3 16) = false := by decide +kernel
theorem witness_LinksAndFunctions_5 : 1 < 68 ∧ 1 ≠ fnIndex 3 16 ∧
    rangesMeet (fld 0x7FFE0002#32 16 15) (fld 0x7FFE0002#32 0 16) (sVf.rdf (Reg.HIF_FNCFG_W1 1) 16 15) (sVf.rdf (Reg.HIF_FNCFG_W1 1) 0 16) = true
     := by decide +kernel
theorem witness_LinksAndFunctions_6 : sVf.owed = [] ∧ sVf.ownsRing (fnIndex 0 1) (fld 0x80007FFF#32 0 15) = true := by decide +kernel
theorem witness_LinksAndFunctions_7 : sVf.hostReady = false := by decide +kernel
/-- A state for Obligations.LinksAndFunctions. -/
def atLinksAndFunctions2 : State := sVf.wr Reg.BOOT_STAT 0x00300000#32
theorem witness_LinksAndFunctions_8 : atLinksAndFunctions2.hostReady = true ∧ atLinksAndFunctions2.heldCq = [] := by decide +kernel
theorem witness_LinksAndFunctions_9 : sAsk.hostReady = true ∧ sAsk.heldCq = [] ∧ (sAsk.cfg 0).d3hot = false ∧ sAsk.ringOwner 0 = some 0 ∧
    sAsk.ringOn 0 = true ∧ sAsk.ringType 0 = 0 ∧ sAsk.rdf (Reg.RING_W5 0) 28 4 = 1 ∧ sAsk.submitStopped = false ∧
    (sAsk.ring 0).fetched.length < sAsk.ringUsed 0 := by decide +kernel
theorem witness_LinksAndFunctions_10 : sAsk.hostReady = true ∧ sAsk.heldCq = [] ∧ (sAsk.cfg 17).d3hot = true := by decide +kernel
/-- A state for Obligations.LinksAndFunctions. -/
def atLinksAndFunctions3 : State := { sVf with bme := [1, 0, 17], fnCfg := [(1, { FnCfg.zero with vfEnable := true })] }
theorem witness_LinksAndFunctions_11 : atLinksAndFunctions3.bme.contains 1 = true := by decide +kernel
theorem witness_LinksAndFunctions_12 : (1 : Fin 17) ≠ 0 ∧ sVf.bit (Reg.HIF_FNCFG_W0 (fnIndex 0 1)) 30 = false := by decide +kernel
theorem witness_LinksAndFunctions_13 : wbit 0x80007FFF#32 31 = true ∧
    (State.reset.ringOn (fld 0x80007FFF#32 0 15) = false ∨ State.reset.ringType (fld 0x80007FFF#32 0 15) ≠ 3) := by decide +kernel
theorem witness_LinksAndFunctions_14 : (wbit 0x80007FFF#32 31 = false ∨ (sTel.ringOn (fld 0x80007FFF#32 0 15) = true ∧
    sTel.ringType (fld 0x80007FFF#32 0 15) = 3)) := by decide +kernel

/-! Obligations.RingControl -/
theorem witness_RingControl_1 : State.reset.ringOn 32767 = false := by decide +kernel
theorem witness_RingControl_2 : sOwn.ringOn 0 = false ∧ sOwn.owed = [] ∧ sOwn.enableRefused 0 (putBit 0x04000001#32 31 true) = false
     := by decide +kernel
theorem witness_RingControl_3 : State.reset.owed = [] ∧
    (State.reset.ringOn 32767 = true ∨ State.reset.enableRefused 32767 (putBit 0#32 31 true) = true) := by decide +kernel
theorem witness_RingControl_4 : sRing.ringOn 0 = true ∧ sRing.ringType 0 ≠ 1 := by decide +kernel
/-- A state for Obligations.RingControl. -/
def atRingControl1 : State := { sRing with rings := [(1, { RingRec.empty with reserved := 2 })] }
theorem witness_RingControl_5 : atRingControl1.ringOn 1 = true ∧ atRingControl1.ringType 1 = 1 ∧ (atRingControl1.ring 1).reserved ≠ 0 ∧
    atRingControl1.ringOn 0 = true ∧ atRingControl1.ringType 0 = 0 ∧ atRingControl1.cqOf 0 = 1 := by decide +kernel
theorem witness_RingControl_6 : sRing.off = false ∧ sRing.isDraining (.fn 0 1) = false ∧ sRing.silent 64 = false ∧
    sRing.reach2 (.fn 0 1) true 0 = false := by decide +kernel
theorem witness_RingControl_7 : sRing.off = false ∧ sRing.isDraining (.fn 0 0) = false ∧ sRing.silent 64 = false ∧
    sRing.reach2 (.fn 0 0) true 0 = true ∧ sRing.ringType 0 = 0 ∧ sRing.ringSize 0 < sub16 (fld 17#32 0 16) (sRing.ringCi 0)
     := by decide +kernel
theorem witness_RingControl_8 : sRing.off = false ∧ sRing.isDraining (.fn 0 0) = false ∧ sRing.silent 64 = false ∧
    sRing.reach2 (.fn 0 0) true 0 = true ∧ sRing.ringOn 0 = true ∧ sRing.ringType 0 = 0 ∧
    sub16 (fld 16#32 0 16) (sRing.ringCi 0) ≤ sRing.ringSize 0 := by decide +kernel
/-- A state for Obligations.RingControl. -/
def atRingControl2 : State := { sRing with words := (sRing.wr (Reg.RING_W4 1) 0x00020000#32).words }
theorem witness_RingControl_9 : atRingControl2.off = false ∧ atRingControl2.isDraining (.fn 0 0) = false ∧
    atRingControl2.silent 64 = false ∧ atRingControl2.reach2 (.fn 0 0) true 8 = true ∧ atRingControl2.ringOn 1 = true ∧
    atRingControl2.ringType 1 ≠ 0 ∧ sub16 (atRingControl2.ringPi 1) (fld 2#32 0 16) ≤ atRingControl2.ringUsed 1 := by decide +kernel

/-! Obligations.SubmitEntries -/
/-- A state for Obligations.SubmitEntries. -/
def atSubmitEntries1 : State := { sRing with rings := [(0, { RingRec.empty with asked := 1 })] }
theorem witness_SubmitEntries_1 : atSubmitEntries1.ringOn 0 = true ∧ atSubmitEntries1.ringType 0 = 0 ∧
    atSubmitEntries1.rdf (Reg.RING_W5 0) 28 4 ≠ 3 := by decide +kernel
/-- A state for Obligations.SubmitEntries. -/
def atSubmitEntries2 : State := entry 0x00070011#32 0#32
theorem witness_SubmitEntries_2 : ready atSubmitEntries2 [0x00070011#32, 0#32, 0#32, 0#32, 0#32, 0#32, 0#32, 0#32] = true ∧
    entrySound [0x00070011#32, 0#32, 0#32, 0#32, 0#32, 0#32, 0#32, 0#32] = false ∧ atSubmitEntries2.cqRoom 1 ≠ 0 := by decide +kernel
/-- A state for Obligations.SubmitEntries. -/
def atSubmitEntries3 : State := entry 0x00070012#32 0#32
theorem witness_SubmitEntries_3 : ready atSubmitEntries3 [0x00070012#32, 0#32, 0#32, 0#32, 0#32, 0#32, 0#32, 0#32] = true ∧
    entrySound [0x00070012#32, 0#32, 0#32, 0#32, 0#32, 0#32, 0#32, 0#32] = false ∧ atSubmitEntries3.cqRoom 1 ≠ 0 := by decide +kernel
/-- A state for Obligations.SubmitEntries. -/
def atSubmitEntries4 : State := entry 0x00070003#32 0#32
theorem witness_SubmitEntries_4 : ready atSubmitEntries4 [0x00070003#32, 0#32, 0#32, 0#32, 0#32, 0#32, 0#32, 0#32] = true ∧
    entrySound [0x00070003#32, 0#32, 0#32, 0#32, 0#32, 0#32, 0#32, 0#32] = false ∧ atSubmitEntries4.cqRoom 1 ≠ 0 := by decide +kernel
/-- A state for Obligations.SubmitEntries. -/
def atSubmitEntries5 : State := entry 0x00070003#32 0#32 0x10000000#32 0x00100000#32
theorem witness_SubmitEntries_5 : ready atSubmitEntries5 [0x00070003#32, 0#32, 0#32, 0#32, 0#32, 0#32, 0#32, 0#32] = true ∧
    entrySound [0x00070003#32, 0#32, 0#32, 0#32, 0#32, 0#32, 0#32, 0#32] = false ∧ atSubmitEntries5.cqRoom 1 = 0 := by decide +kernel
/-- A state for Obligations.SubmitEntries. -/
def atSubmitEntries6 : State := entry 0x00070000#32 0#32
theorem witness_SubmitEntries_6 : ready atSubmitEntries6 [0x00070000#32, 0#32, 0#32, 0#32, 0#32, 0#32, 0#32, 0#32] = true ∧
    entrySound [0x00070000#32, 0#32, 0#32, 0#32, 0#32, 0#32, 0#32, 0#32] = true ∧ wbit 0x00070000#32 8 = false ∧
    atSubmitEntries6.cqRoom 1 ≠ 0 := by decide +kernel
/-- A state for Obligations.SubmitEntries. -/
def atSubmitEntries7 : State := entry 0x00070001#32 0x00010003#32
theorem witness_SubmitEntries_7 : ready atSubmitEntries7 [0x00070001#32, 0x00010003#32, 0#32, 0#32, 0#32, 0#32, 0#32, 0#32] = true ∧
    entrySound [0x00070001#32, 0x00010003#32, 0#32, 0#32, 0#32, 0#32, 0#32, 0#32] = true ∧ fld 0x00010003#32 16 13 = 1 ∧
    (List.range' 3 1).any atSubmitEntries7.cuePoisoned = false ∧ atSubmitEntries7.runInRange 0 3 1 = true ∧
    (List.range' 3 1).any atSubmitEntries7.cueBusy = false ∧ 1 + atSubmitEntries7.runEntries 3 1 ≤ atSubmitEntries7.ringSize 1 ∧
    1 + atSubmitEntries7.runEntries 3 1 ≤ atSubmitEntries7.cqRoom 1 ∧ wbit 0x00070001#32 8 = false := by decide +kernel
/-- A state for Obligations.SubmitEntries. -/
def atSubmitEntries8 : State := entry 0x00070002#32 3#32
theorem witness_SubmitEntries_8 : ready atSubmitEntries8 [0x00070002#32, 3#32, 0#32, 0#32, 0#32, 0#32, 0#32, 0#32] = true ∧
    entrySound [0x00070002#32, 3#32, 0#32, 0#32, 0#32, 0#32, 0#32, 0#32] = true ∧ atSubmitEntries8.cqRoom 1 ≠ 0 := by decide +kernel
/-- A state for Obligations.SubmitEntries. -/
def atSubmitEntries9 : State := entry 0x00070000#32 0#32 0x20000000#32
theorem witness_SubmitEntries_9 : ready atSubmitEntries9 [0x00070000#32, 0#32, 0#32, 0#32, 0#32, 0#32, 0#32, 0#32] = true ∧
    atSubmitEntries9.rdf (Reg.RING_W5 0) 28 4 = 2 ∧ entrySound [0x00070000#32, 0#32, 0#32, 0#32, 0#32, 0#32, 0#32, 0#32] = true ∧
    atSubmitEntries9.cqRoom 1 ≠ 0 ∧ atSubmitEntries9.rdf (Reg.RING_W5 1) 28 4 ≠ 2 := by decide +kernel

/-! Obligations.InterruptsAndTelemetry -/
theorem witness_InterruptsAndTelemetry_1 : sTimer.ringOwner 1 = some 0 ∧ (sTimer.ring 1).timing = true ∧
    (sTimer.ring 1).unsignalled ≠ 0 ∧ sTimer.rdf (Reg.RING_W3 1) 0 16 ≠ 0 ∧ sTimer.rdf (Reg.RING_W3 1) 16 16 ≠ 0 := by decide +kernel
theorem witness_InterruptsAndTelemetry_2 : sTimer.ringOwner 0 = some 0 ∧
    ((sTimer.ring 0).timing = false ∨ sTimer.rdf (Reg.RING_W3 0) 16 16 = 0) := by decide +kernel
theorem witness_InterruptsAndTelemetry_3 : sRing.ringOn 0 = true := by decide +kernel
theorem witness_InterruptsAndTelemetry_4 : (sTel.bit (Reg.HIF_CRSTREAM_W0 0) 31 = false ∨ sTel.crierStopped = true) := by decide +kernel
theorem witness_InterruptsAndTelemetry_5 : sTel.bit (Reg.HIF_CRSTREAM_W0 63) 31 = true ∧ sTel.crierStopped = false ∧
    sTel.rdf (Reg.HIF_CRSTREAM_W0 63) 28 3 = 0 ∧ 0 < 1 := by decide +kernel
/-- A state for Obligations.InterruptsAndTelemetry. -/
def atInterruptsAndTelemetry1 : State := { sTel with emissions := [(63, 0xFFFFFFFF)] }
theorem witness_InterruptsAndTelemetry_6 : atInterruptsAndTelemetry1.bit (Reg.HIF_CRSTREAM_W0 63) 31 = true ∧
    atInterruptsAndTelemetry1.crierStopped = false ∧ atInterruptsAndTelemetry1.rdf (Reg.HIF_CRSTREAM_W0 63) 28 3 = 0 := by decide +kernel
/-- A state for Obligations.InterruptsAndTelemetry. -/
def atInterruptsAndTelemetry2 : State := { sTimer with fnCfg := [(0, { FnCfg.zero with masked := [63] })] }
theorem witness_InterruptsAndTelemetry_7 : atInterruptsAndTelemetry2.ringOwner 1 = some 0 ∧
    (atInterruptsAndTelemetry2.ring 1).timing = true ∧ (atInterruptsAndTelemetry2.ring 1).unsignalled ≠ 0 ∧
    atInterruptsAndTelemetry2.rdf (Reg.RING_W3 1) 0 16 ≠ 0 ∧ atInterruptsAndTelemetry2.rdf (Reg.RING_W3 1) 16 16 ≠ 0 ∧
    (atInterruptsAndTelemetry2.cfg 0).masked.contains (atInterruptsAndTelemetry2.rdf (Reg.RING_W2 1) 16 8) = true := by decide +kernel
/-- A state for Obligations.InterruptsAndTelemetry. -/
def atInterruptsAndTelemetry3 : State := { (st (ringWords ++ [(Reg.RING_W2 1, 0xE4000000#32), (Reg.RING_W5 1, 0x10000000#32), (Reg.HIF_CRSTREAM_W0 63, 0x803F0001#32), (Reg.HIF_CRSTREAM_W1 63, 0x0001005B#32), (Reg.TAL_SNAPSEQ 63, 77#32)])) with bme := [0] }
theorem witness_InterruptsAndTelemetry_8 : atInterruptsAndTelemetry3.bit (Reg.HIF_CRSTREAM_W0 63) 31 = true ∧
    atInterruptsAndTelemetry3.crierStopped = false ∧ atInterruptsAndTelemetry3.rdf (Reg.HIF_CRSTREAM_W0 63) 28 3 = 0 ∧
    atInterruptsAndTelemetry3.rdf (Reg.HIF_CRSTREAM_W1 63) 0 16 = 91 ∧ atInterruptsAndTelemetry3.rdf (Reg.HIF_CRSTREAM_W1 63) 16 16 = 1 ∧
    atInterruptsAndTelemetry3.rdf (Reg.HIF_CRSTREAM_W0 63) 0 15 = 1 ∧ atInterruptsAndTelemetry3.ringOn 1 = true ∧
    atInterruptsAndTelemetry3.ringType 1 = 3 ∧ atInterruptsAndTelemetry3.ringOwner 1 = some 0 ∧
    atInterruptsAndTelemetry3.dmaOk 0 = true ∧ atInterruptsAndTelemetry3.ringFree 1 ≠ 0 := by decide +kernel

/-! Obligations.PortsAndFrames -/
theorem witness_PortsAndFrames_1 :
    ((sNet.writeReg (netReg 1 0) (sNet.rd (netReg 1 0) ||| 0x100#32)).rd (netReg 1 0) ^^^ sNet.rd (netReg 1 0)) &&& 0x13#32 = 0#32
     := by decide +kernel
theorem witness_PortsAndFrames_2 :
    ((sNet.writeReg (netReg 0 0) (sNet.rd (netReg 0 0) ^^^ 0x10#32)).rd (netReg 0 0) ^^^ sNet.rd (netReg 0 0)) &&& 0x13#32 ≠ 0#32
     := by decide +kernel
/-- A state for Obligations.PortsAndFrames. -/
def atPortsAndFrames1 : State := st [(Reg.PTH_STAT, 0#32)]
theorem witness_PortsAndFrames_3 : atPortsAndFrames1.role 1 = 0 := by decide +kernel
/-- A state for Obligations.PortsAndFrames. -/
def atPortsAndFrames2 : State := st (netWords ++ [(Reg.BOOT_STAT, 0x40000000#32)])
theorem witness_PortsAndFrames_4 : (atPortsAndFrames2.role 1 = 0 ∨ atPortsAndFrames2.bit Reg.BOOT_STAT 30 = true) := by decide +kernel
theorem witness_PortsAndFrames_5 : sNet.role 1 ≠ 0 ∧ sNet.bit Reg.BOOT_STAT 30 = false ∧ sNet.rdf Reg.PTH_CTRL 0 2 = 2 ∧
    sNet.bit (netReg 1 1) 31 = true := by decide +kernel
/-- A state for Obligations.PortsAndFrames. -/
def atPortsAndFrames3 : State := st [(Reg.PTH_STAT, 0x43#32), (netReg 1 1, 0x80000000#32)]
theorem witness_PortsAndFrames_6 : atPortsAndFrames3.role 1 ≠ 0 ∧ atPortsAndFrames3.bit (netReg 1 1) 31 = true ∧
    atPortsAndFrames3.role 1 = 4 := by decide +kernel
theorem witness_PortsAndFrames_7 : sNet.role 0 ≠ 0 ∧ sNet.bit (netReg 0 1) 31 = true ∧ sNet.role 0 ≠ 4 ∧
    2048 < (List.replicate 2045 (0#8 : Byte)).length + wireExtra .bypassed := by decide +kernel
theorem witness_PortsAndFrames_8 : sNet.role 0 ≠ 4 ∧ (frame 0).length + wireExtra .bypassed ≤ 2048 := by decide +kernel
theorem witness_PortsAndFrames_9 : 64 ≤ (frame 0x8808).length + wireExtra .bypassed ∧ beNat (frame 0x8808) 12 2 = 0x8808
     := by decide +kernel
/-- A state for Obligations.PortsAndFrames. -/
def atPortsAndFrames4 : State := st (netWords ++ [(netReg 0 0, 0x100#32)])
theorem witness_PortsAndFrames_10 : atPortsAndFrames4.role 0 ≠ 0 ∧ atPortsAndFrames4.bit (netReg 0 1) 31 = true ∧
    beNat (frame 0x1234) 12 2 ≠ 0x8808 ∧ atPortsAndFrames4.bit (netReg 0 0) 8 = true := by decide +kernel
theorem witness_PortsAndFrames_11 : sNet.bit (netReg 0 0) 8 = false ∧ sNet.gap = none ∧ sNet.rdf (Reg.POR_PORTCFG 0) 0 2 ≠ 1 ∧
    sNet.bit (Reg.POR_PORTCFG 0) 2 = false ∧ (parseFrame sNet.ngcpPorts (frame 0x1234)).pstat = 0 ∧
    sNet.tcamFind ((parseFrame sNet.ngcpPorts (frame 0x1234)).key (frame 0x1234) 0 false false) sNet.tcamBank = none := by decide +kernel
theorem witness_PortsAndFrames_12 : (parseFrame sNet.ngcpPorts (frame 0x0800)).pstat ≠ 0 := by decide +kernel
theorem witness_PortsAndFrames_13 : sRecirc.recirc = [⟨0, frame 0x1234, false, 0, 1, 65535, 0⟩] ∧
    (parseFrame sRecirc.ngcpPorts ((frame 0x1234).drop (2 * 0))).pstat = 0 ∧
    sRecirc.tcamFind ((parseFrame sRecirc.ngcpPorts ((frame 0x1234).drop (2 * 0))).key ((frame 0x1234).drop (2 * 0)) 0 true false) 1 = none ∧
    sRecirc.rdf (Reg.POR_PORTCFG 0) 0 2 ≠ 1 := by decide +kernel
theorem witness_PortsAndFrames_14 : State.reset.recirc = [] ∧ wbit 0x7FFFFFFF#32 31 = false := by decide +kernel
/-- A state for Obligations.PortsAndFrames. -/
def atPortsAndFrames5 : State := st [(Reg.POR_BANK, 0x40000000#32)]
theorem witness_PortsAndFrames_15 : wbit 0x80000000#32 31 = true ∧ atPortsAndFrames5.bit Reg.POR_BANK 30 = true := by decide +kernel
/-- A state for Obligations.PortsAndFrames. -/
def atPortsAndFrames6 : State := { (st [(Reg.POR_BANK, 0x0001FFFF#32)]) with recirc := sRecirc.recirc }
theorem witness_PortsAndFrames_16 : wbit 0x80000000#32 31 = true ∧ atPortsAndFrames6.bit Reg.POR_BANK 30 = false := by decide +kernel
/-- A state for Obligations.PortsAndFrames. -/
def atPortsAndFrames7 : State := st [(Reg.POR_SESS_W0 63, 0x80000000#32)]
theorem witness_PortsAndFrames_17 : wbit (atPortsAndFrames7.rd (Reg.POR_SESS_W0 63)) 31 = true ∧
    (atPortsAndFrames7.rd (Reg.POR_SESS_W0 63) ^^^ 0x40000000#32) &&& 0x403F0000#32 ≠ 0#32 := by decide +kernel
theorem witness_PortsAndFrames_18 : wbit (State.reset.rd (Reg.POR_SESS_W0 63)) 31 = false := by decide +kernel
theorem witness_PortsAndFrames_19 : sNet.role 0 ≠ 0 ∧ sNet.bit (netReg 0 1) 31 = true ∧ sNet.role 0 ≠ 4 ∧ (List.replicate 59 (0#8 :
    Byte)).length + wireExtra .bypassed < 64 := by decide +kernel
/-- A state for Obligations.PortsAndFrames. -/
def atPortsAndFrames8 : State := { (st (netWords ++ [(netReg 0 0, 0x100#32)])) with replay := [(0, 70)] }
theorem witness_PortsAndFrames_20 : atPortsAndFrames8.role 0 ≠ 0 ∧ atPortsAndFrames8.bit (netReg 0 1) 31 = true ∧
    atPortsAndFrames8.role 0 ≠ 4 ∧ atPortsAndFrames8.bit (netReg 0 0) 8 = true ∧ beNat (frame 0x1234) 12 2 ≠ 0x8808 ∧
    atPortsAndFrames8.replayed 0 (.verified 0 0 5) = true := by decide +kernel
theorem witness_PortsAndFrames_21 : atPortsAndFrames4.role 0 ≠ 0 ∧ atPortsAndFrames4.bit (netReg 0 1) 31 = true ∧
    atPortsAndFrames4.role 0 ≠ 4 ∧ atPortsAndFrames4.bit (netReg 0 0) 8 = true ∧ atPortsAndFrames4.mayBypass 0 (frame 0x1234) = false
     := by decide +kernel
/-- A state for Obligations.PortsAndFrames. -/
def atPortsAndFrames9 : State := st (netWords ++ [(Reg.TCAM_MASK 1023 0, 0#32), (Reg.TCAM_ACT 1023, 0x90000000#32)])
theorem witness_PortsAndFrames_22 : atPortsAndFrames9.role 0 = 3 ∧ atPortsAndFrames9.gap = none ∧
    atPortsAndFrames9.bit (netReg 0 0) 8 = false ∧ (parseFrame atPortsAndFrames9.ngcpPorts (frame 0x1234)).pstat = 0 ∧
    atPortsAndFrames9.tcamFind ((parseFrame atPortsAndFrames9.ngcpPorts (frame 0x1234)).key (frame 0x1234) 0 false false) atPortsAndFrames9.tcamBank = some 1023 ∧
    fld (atPortsAndFrames9.rd (Reg.TCAM_ACT 1023)) 28 3 = 1 ∧ atPortsAndFrames9.mgmtQ < 256 := by decide +kernel
/-- A state for Obligations.PortsAndFrames. -/
def atPortsAndFrames10 : State := st (netWords ++ [(Reg.TCAM_MASK 1023 0, 0#32), (Reg.TCAM_ACT 1023, 0x80000000#32)])
theorem witness_PortsAndFrames_23 : atPortsAndFrames10.role 0 = 3 ∧ atPortsAndFrames10.gap = none ∧
    atPortsAndFrames10.bit (netReg 0 0) 8 = false ∧ (parseFrame atPortsAndFrames10.ngcpPorts (frame 0x1234)).pstat = 0 ∧
    atPortsAndFrames10.tcamFind ((parseFrame atPortsAndFrames10.ngcpPorts (frame 0x1234)).key (frame 0x1234) 0 false false) atPortsAndFrames10.tcamBank = some 1023 ∧
    fld (atPortsAndFrames10.rd (Reg.TCAM_ACT 1023)) 28 3 = 0 := by decide +kernel
/-- A state for Obligations.PortsAndFrames. -/
def atPortsAndFrames11 : State := st (netWords ++ [(Reg.TCAM_MASK 1023 0, 0#32), (Reg.TCAM_ACT 1023, 0xF0000000#32)])
theorem witness_PortsAndFrames_24 : atPortsAndFrames11.role 0 = 3 ∧ atPortsAndFrames11.gap = none ∧
    atPortsAndFrames11.bit (netReg 0 0) 8 = false ∧ (parseFrame atPortsAndFrames11.ngcpPorts (frame 0x1234)).pstat = 0 ∧
    atPortsAndFrames11.tcamFind ((parseFrame atPortsAndFrames11.ngcpPorts (frame 0x1234)).key (frame 0x1234) 0 false false) atPortsAndFrames11.tcamBank = some 1023 ∧
    fld (atPortsAndFrames11.rd (Reg.TCAM_ACT 1023)) 28 3 = 7 := by decide +kernel

/-! Obligations.SessionRequests -/
theorem witness_SessionRequests_1 : (State.reset.session 63).reqs = [] := by decide +kernel
/-- A state for Obligations.SessionRequests. -/
def atSessionRequests1 : State := asked 1 [] true [(9, [7#8])]
theorem witness_SessionRequests_2 : (atSessionRequests1.session 63).reqs.length = 1 ∧
    (atSessionRequests1.session 63).reqs.all (·.verdict == 0) = true ∧ atSessionRequests1.txNet = some 0 ∧
    atSessionRequests1.off = false ∧ (((atSessionRequests1.session 63).replies.find? fun p => p.1 == 9) = some (9, [7#8]))
     := by decide +kernel
/-- A state for Obligations.SessionRequests. -/
def atSessionRequests2 : State := asked 2 [] true [(9, [7#8])]
theorem witness_SessionRequests_3 : (atSessionRequests2.session 63).reqs.length = 1 ∧
    (atSessionRequests2.session 63).reqs.all (·.verdict == 0) = true ∧ atSessionRequests2.txNet = some 0 ∧
    atSessionRequests2.off = false ∧ (((atSessionRequests2.session 63).replies.find? fun p => p.1 == 9) = some (9, [7#8]))
     := by decide +kernel
/-- A state for Obligations.SessionRequests. -/
def atSessionRequests3 : State := asked 4 [] true [(9, [7#8])]
theorem witness_SessionRequests_4 : (atSessionRequests3.session 63).reqs.length = 1 ∧
    (atSessionRequests3.session 63).reqs.all (·.verdict == 0) = true ∧ atSessionRequests3.txNet = some 0 ∧
    atSessionRequests3.off = false ∧ (((atSessionRequests3.session 63).replies.find? fun p => p.1 == 9) = some (9, [7#8]))
     := by decide +kernel
/-- A state for Obligations.SessionRequests. -/
def atSessionRequests4 : State := asked 6 [] true [(9, [7#8])]
theorem witness_SessionRequests_5 : (atSessionRequests4.session 63).reqs.length = 1 ∧
    (atSessionRequests4.session 63).reqs.all (·.verdict == 0) = true ∧ atSessionRequests4.txNet = some 0 ∧
    atSessionRequests4.off = false ∧ (((atSessionRequests4.session 63).replies.find? fun p => p.1 == 9) = some (9, [7#8]))
     := by decide +kernel
/-- A state for Obligations.SessionRequests. -/
def atSessionRequests5 : State := asked 6 []
theorem witness_SessionRequests_6 : (atSessionRequests5.session 63).reqs.length = 1 ∧
    (atSessionRequests5.session 63).reqs.all (·.verdict == 0) = true ∧ atSessionRequests5.txNet = some 0 ∧
    atSessionRequests5.off = false ∧ (((atSessionRequests5.session 63).replies.find? fun p => p.1 == 9) = none) := by decide +kernel
/-- A state for Obligations.SessionRequests. -/
def atSessionRequests6 : State := asked 4 [0#8, 3#8, 0#8, 0#8] false
theorem witness_SessionRequests_7 : (atSessionRequests6.session 63).reqs.length = 1 ∧
    (atSessionRequests6.session 63).reqs.all (·.verdict == 0) = true ∧ atSessionRequests6.txNet = some 0 ∧
    atSessionRequests6.off = false ∧ (((atSessionRequests6.session 63).replies.find? fun p => p.1 == 9) = none) ∧
    atSessionRequests6.bit Reg.BOOT_STAT 31 = false := by decide +kernel
/-- A state for Obligations.SessionRequests. -/
def atSessionRequests7 : State := asked 4 [0#8, 3#8, 0#8, 0#8]
theorem witness_SessionRequests_8 : (atSessionRequests7.session 63).reqs.length = 1 ∧
    (atSessionRequests7.session 63).reqs.all (·.verdict == 0) = true ∧ atSessionRequests7.txNet = some 0 ∧
    atSessionRequests7.off = false ∧ (((atSessionRequests7.session 63).replies.find? fun p => p.1 == 9) = none) ∧
    atSessionRequests7.bit Reg.BOOT_STAT 31 = true := by decide +kernel
/-- A state for Obligations.SessionRequests. -/
def atSessionRequests8 : State := asked 3 [0#8, 3#8, 0#8, 1#8, 0#8, 7#8, 0#8, 0#8] false
theorem witness_SessionRequests_9 : (atSessionRequests8.session 63).reqs.length = 1 ∧
    (atSessionRequests8.session 63).reqs.all (·.verdict == 0) = true ∧ atSessionRequests8.txNet = some 0 ∧
    atSessionRequests8.off = false ∧ (((atSessionRequests8.session 63).replies.find? fun p => p.1 == 9) = none) ∧
    ((atSessionRequests8.change.any fun c => c.req.target == 3) = false) ∧ atSessionRequests8.fatalOn = false ∧
    atSessionRequests8.bit Reg.BOOT_STAT 31 = false := by decide +kernel
/-- A state for Obligations.SessionRequests. -/
def atSessionRequests9 : State := asked 3 [0#8, 3#8, 0#8, 0#8, 0#8, 7#8, 0#8, 0#8]
theorem witness_SessionRequests_10 : (atSessionRequests9.session 63).reqs.length = 1 ∧
    (atSessionRequests9.session 63).reqs.all (·.verdict == 0) = true ∧ atSessionRequests9.txNet = some 0 ∧
    atSessionRequests9.off = false ∧ (((atSessionRequests9.session 63).replies.find? fun p => p.1 == 9) = none) ∧
    atSessionRequests9.bit Reg.BOOT_STAT 31 = true ∧
    ((atSessionRequests9.setSession 63 { atSessionRequests9.session 63 with reqs := [] }).count (Reg.POR_SESS_W1 63) 0 16 1).sessionResult (atSessionRequests9.sessPart 63) 3 0 = 3
     := by decide +kernel
/-- A state for Obligations.SessionRequests. -/
def atSessionRequests10 : State := asked 3 [0#8, 3#8, 0#8, 1#8, 0#8, 7#8, 0#8, 0#8]
theorem witness_SessionRequests_11 : (atSessionRequests10.session 63).reqs.length = 1 ∧
    (atSessionRequests10.session 63).reqs.all (·.verdict == 0) = true ∧ atSessionRequests10.txNet = some 0 ∧
    atSessionRequests10.off = false ∧ (((atSessionRequests10.session 63).replies.find? fun p => p.1 == 9) = none) ∧
    atSessionRequests10.bit Reg.BOOT_STAT 31 = true ∧
    ((atSessionRequests10.setSession 63 { atSessionRequests10.session 63 with reqs := [] }).count (Reg.POR_SESS_W1 63) 0 16 1).sessionResult (atSessionRequests10.sessPart 63) 3 1 = 0
     := by decide +kernel
/-- A state for Obligations.SessionRequests. -/
def atSessionRequests11 : State := asked 1 [0#8, 6#8, 0#8, 0#8, 0#8, 4#8, 0#8, 0#8]
theorem witness_SessionRequests_12 : (atSessionRequests11.session 63).reqs.length = 1 ∧
    (atSessionRequests11.session 63).reqs.all (·.verdict == 0) = true ∧ atSessionRequests11.txNet = some 0 ∧
    atSessionRequests11.off = false ∧ (((atSessionRequests11.session 63).replies.find? fun p => p.1 == 9) = none) ∧
    beNat [0#8, 6#8, 0#8, 0#8, 0#8, 4#8, 0#8, 0#8] 0 4 = 0x60000 ∧ beNat [0#8, 6#8, 0#8, 0#8, 0#8, 4#8, 0#8, 0#8] 4 2 = 4 ∧
    ((atSessionRequests11.setSession 63 { atSessionRequests11.session 63 with reqs := [] }).count (Reg.POR_SESS_W1 63) 0 16 1).isDraining (.session 63) = false ∧
    0x60000 ∉ atSessionRequests11.poisoned ∧
    ((atSessionRequests11.setSession 63 { atSessionRequests11.session 63 with reqs := [] }).count (Reg.POR_SESS_W1 63) 0 16 1).fails (.session 63) false false 0x60000 4 = none
     := by decide +kernel
/-- A state for Obligations.SessionRequests. -/
def atSessionRequests12 : State := asked 2 [0#8, 6#8, 0#8, 0#8, 0#8, 4#8, 0#8, 0#8, 0#8, 1#8, 0#8, 0#8]
theorem witness_SessionRequests_13 : (atSessionRequests12.session 63).reqs.length = 1 ∧
    (atSessionRequests12.session 63).reqs.all (·.verdict == 0) = true ∧ atSessionRequests12.txNet = some 0 ∧
    atSessionRequests12.off = false ∧ (((atSessionRequests12.session 63).replies.find? fun p => p.1 == 9) = none) ∧
    ((atSessionRequests12.setSession 63 { atSessionRequests12.session 63 with reqs := [] }).count (Reg.POR_SESS_W1 63) 0 16 1).isDraining (.session 63) = false ∧
    ((atSessionRequests12.setSession 63 { atSessionRequests12.session 63 with reqs := [] }).count (Reg.POR_SESS_W1 63) 0 16 1).fails (.session 63) false true 0x60000 4 = none
     := by decide +kernel
theorem witness_SessionRequests_14 :
    ((State.reset.session 63).queue = [] ∨ (State.reset.session 63).peer = none ∨ State.reset.txNet = none) ∧
    (State.reset.session 63).unacked = [] := by decide +kernel
theorem witness_SessionRequests_15 : (sNote.session 63).queue ≠ [] ∧ (sNote.session 63).peer ≠ none ∧ sNote.gap = none ∧
    sNote.txNet = some 0 := by decide +kernel
/-- A state for Obligations.SessionRequests. -/
def atSessionRequests13 : State := { sNet with sess := [(63, { SessRec.empty with unacked := [⟨5, [[1#32]], 3⟩, ⟨6, [[2#32]], 0⟩] })] }
theorem witness_SessionRequests_16 : (atSessionRequests13.session 63).unacked = ⟨5, [[1#32]], 3⟩ :: [⟨6, [[2#32]], 0⟩] ∧ 3 ≤ 3
     := by decide +kernel
/-- A state for Obligations.SessionRequests. -/
def atSessionRequests14 : State := { sNet with sess := [(63, { SessRec.empty with unacked := [⟨5, [[1#32]], 2⟩], peer := some (0, [1#8, 2#8, 3#8, 4#8, 5#8, 6#8]) })] }
theorem witness_SessionRequests_17 : (atSessionRequests14.session 63).unacked = ⟨5, [[1#32]], 2⟩ :: [] ∧ 2 < 3 ∧
    atSessionRequests14.txNet = some 0 := by decide +kernel

/-! Obligations.Paths -/
theorem witness_Paths_1 : atPortsAndFrames1.role 1 = 0 := by decide +kernel
theorem witness_Paths_2 : sNet.role 1 ≠ 0 ∧ sNet.role 1 ≠ 4 := by decide +kernel
/-- A state for Obligations.Paths. -/
def atPaths1 : State := st [(Reg.PTH_STAT, 0x43#32)]
theorem witness_Paths_3 : atPaths1.role 1 = 4 := by decide +kernel
theorem witness_Paths_4 : sNet.gap = none ∧ sNet.pathIn 3 ≠ none ∧ sNet.pathIn 2 ≠ none := by decide +kernel
theorem witness_Paths_5 : sEpoch.gap = none ∧ sEpoch.epochNew = some epochOne ∧ sEpoch.pathIn 2 = some 1 := by decide +kernel
theorem witness_Paths_6 : State.reset.epochNew = none ∧ State.reset.gap = none := by decide +kernel
/-- A state for Obligations.Paths. -/
def atPaths2 : State := st (netWords ++ [(netReg 0 1, 0xE0000000#32)])
theorem witness_Paths_7 : atPaths2.gap = none ∧ atPaths2.activePath = some 0 ∧ atPaths2.pathFailed 0 .link = false := by decide +kernel
theorem witness_Paths_8 : sEpoch.gap = none ∧ sEpoch.activePath = some 0 ∧ sEpoch.pathFailed 0 .hb = true ∧
    sEpoch.readyStandby (1 - 0) = true := by decide +kernel
/-- A state for Obligations.Paths. -/
def atPaths3 : State := st [(Reg.PTH_CTRL, 2#32), (Reg.PTH_STAT, 0x31#32)]
theorem witness_Paths_9 : atPaths3.gap = none ∧ atPaths3.activePath = some 1 ∧ atPaths3.pathFailed 1 .link = true ∧
    atPaths3.readyStandby (1 - 1) = false ∧ pathCauseCode .link < 2 := by decide +kernel
/-- A state for Obligations.Paths. -/
def atPaths4 : State := { (st (netWords ++ [(Reg.PTH_CNT, 0xFF#32)])) with gap := some ⟨1, 0, 1, 7, false, false⟩ }
theorem witness_Paths_10 : atPaths4.gap = some ⟨1, 0, 1, 7, false, false⟩ ∧ atPaths4.gapFrames = [] ∧ atPaths4.role (1 - 1) = 3 ∧ 1 < 2
     := by decide +kernel
/-- A state for Obligations.Paths. -/
def atPaths5 : State := { (st (netWords ++ [(Reg.PTH_CNT, 0xFF#32)])) with gap := some ⟨1, 1, 1, 7, false, false⟩ }
theorem witness_Paths_11 : atPaths5.gap = some ⟨1, 1, 1, 7, false, false⟩ ∧ atPaths5.gapFrames = [] ∧ atPaths5.role (1 - 1) = 3 ∧ 1 < 2
     := by decide +kernel
theorem witness_Paths_12 : sNet.gap = none ∧ sNet.pathIn 3 = some 0 ∧ sNet.pathIn 2 = some 1 ∧ sNet.tieWinner = 0 := by decide +kernel
/-- A state for Obligations.Paths. -/
def atPaths6 : State := st (netWords ++ [(Reg.PTH_HEALTH 1, 0x80000010#32)])
theorem witness_Paths_13 : atPaths6.gap = none ∧ atPaths6.pathIn 3 = some 0 ∧ atPaths6.pathIn 2 = some 1 ∧ atPaths6.tieWinner ≠ 0
     := by decide +kernel
theorem witness_Paths_14 : sEpoch.gap = none ∧ sEpoch.pathIn 3 = some 0 ∧ sEpoch.pathIn 2 = some 1 := by decide +kernel
theorem witness_Paths_15 : (sOne.role 0 = 1 ∨ sOne.role 0 = 2) ∧ sOne.rdf Reg.PTH_CTRL 0 2 ≠ 2 ∧
    (sOne.checkBits 0 ⟨true, true, true, true, true, true⟩).all id = true := by decide +kernel
theorem witness_Paths_16 : (sOne.role 0 = 1 ∨ sOne.role 0 = 2) ∧ (sOne.checkBits 0 ⟨true, false, true, true, true, true⟩).all id = false
     := by decide +kernel
/-- A state for Obligations.Paths. -/
def atPaths7 : State := { sNet with gap := some ⟨1, 0, 1, 0, false, false⟩ }
theorem witness_Paths_17 : atPaths7.gap ≠ none := by decide +kernel
theorem witness_Paths_18 : State.reset.gap = none ∧ State.reset.pathIn 2 = none := by decide +kernel
theorem witness_Paths_19 : sNet.gap = none ∧ sNet.pathIn 2 = some 1 ∧ sNet.readyStandby 1 = true ∧ sNet.activePath ≠ none
     := by decide +kernel
/-- A state for Obligations.Paths. -/
def atPaths8 : State := { (st (netWords ++ [(netReg 0 1, 0xE0000000#32)])) with gap := some ⟨1, 1, 4, 7, true, true⟩, gapOut := [([1#8], [2#8])] }
theorem witness_Paths_20 : atPaths8.gap = some ⟨1, 1, 4, 7, true, true⟩ ∧ 1 < 2 ∧ atPaths8.activePath = some 0 ∧ 1 ≠ 0 ∧
    atPaths8.pathFailed 0 .link = false ∧ atPaths8.pathFailed 1 .link = true := by decide +kernel
/-- A state for Obligations.Paths. -/
def atPaths9 : State := { sNet with gap := some ⟨1, 0, 1, 7, false, false⟩, sess := [(63, { SessRec.empty with unacked := [⟨5, [[1#32]], 2⟩], peer := some (0, [1#8, 2#8, 3#8, 4#8, 5#8, 6#8]) })] }
theorem witness_Paths_21 : atPaths9.inGap = true ∧ (atPaths9.session 63).peer = some (0, [1#8, 2#8, 3#8, 4#8, 5#8, 6#8]) ∧
    (atPaths9.session 63).unacked = ⟨5, [[1#32]], 2⟩ :: [] ∧ 2 < 3 := by decide +kernel
/-- A state for Obligations.Paths. -/
def atPaths10 : State := { sNet with gap := some ⟨1, 0, 1, 7, false, false⟩, gapOut := [([1#8], [2#8])] }
theorem witness_Paths_22 : atPaths10.gap = some ⟨1, 0, 1, 7, false, false⟩ ∧ atPaths10.gapFrames = [] ∧
    ([1#8], [2#8]) ∈ atPaths10.gapOut ∧ 1 < 2 := by decide +kernel

/-! Obligations.IncrementsAndSteps -/
theorem witness_IncrementsAndSteps_1 :
    (State.reset.writeReg Reg.TIM_INCR (State.reset.rd Reg.TIM_INCR)).rd Reg.TIM_INCR = State.reset.rd Reg.TIM_INCR := by decide +kernel
theorem witness_IncrementsAndSteps_2 :
    (State.reset.writeReg Reg.TIM_INCR (State.reset.rd Reg.TIM_INCR + 1#32)).rd Reg.TIM_INCR ≠ State.reset.rd Reg.TIM_INCR
     := by decide +kernel
theorem witness_IncrementsAndSteps_3 : State.reset.incrAt = [] ∧ State.reset.adjAt = none ∧ State.reset.bit Reg.TIM_STAT 30 = false ∧
    State.reset.stepReq = none := by decide +kernel
theorem witness_IncrementsAndSteps_4 : sAdj.incrAt = [] ∧ sAdj.adjAt = none ∧ sAdj.bit Reg.TIM_STAT 30 = true := by decide +kernel
theorem witness_IncrementsAndSteps_5 : State.reset.stepReq = none := by decide +kernel
/-- A state for Obligations.IncrementsAndSteps. -/
def atIncrementsAndSteps1 : State := { State.reset with stepReq := some ⟨1, 5⟩ }
theorem witness_IncrementsAndSteps_6 : atIncrementsAndSteps1.stepReq ≠ none := by decide +kernel
/-- A state for Obligations.IncrementsAndSteps. -/
def atIncrementsAndSteps2 : State := { (atPhase 3 .go) with stepReq := some ⟨1, 5⟩ }
theorem witness_IncrementsAndSteps_7 : atIncrementsAndSteps2.stepReq = some ⟨1, 5⟩ ∧ atIncrementsAndSteps2.commits = [c0 1000 .go]
     := by decide +kernel
/-- A state for Obligations.IncrementsAndSteps. -/
def atIncrementsAndSteps3 : State := { (atPhase 3 .armed) with stepReq := some ⟨1, 1000⟩ }
theorem witness_IncrementsAndSteps_8 : atIncrementsAndSteps3.stepReq = some ⟨1, 1000⟩ ∧
    atIncrementsAndSteps3.commits = [c0 1000 .armed] ∧ 1000 < 1000 + 200 := by decide +kernel
/-- A state for Obligations.IncrementsAndSteps. -/
def atIncrementsAndSteps4 : State := { (st [(Reg.TIM_SETSECHI, 0xFFFF#32), (Reg.TIM_SETSECLO, 1#32), (Reg.TIM_SETNS, 999999999#32)]) with stepReq := some ⟨1, 5⟩ }
theorem witness_IncrementsAndSteps_9 : atIncrementsAndSteps4.stepReq = some ⟨1, 5⟩ ∧ atIncrementsAndSteps4.commits = [] ∧
    atIncrementsAndSteps4.batches = [] := by decide +kernel
/-- A state for Obligations.IncrementsAndSteps. -/
def atIncrementsAndSteps5 : State := { (st [(Reg.TIM_STEP, 0xFFFFFFF3#32)]) with stepReq := some ⟨2, 2048⟩ }
theorem witness_IncrementsAndSteps_10 : atIncrementsAndSteps5.stepReq = some ⟨2, 2048⟩ ∧ atIncrementsAndSteps5.commits = [] ∧
    atIncrementsAndSteps5.batches = [] := by decide +kernel

/-! Obligations.ComparesAndPulses -/
/-- A state for Obligations.ComparesAndPulses. -/
def atComparesAndPulses1 : State := st [(Reg.LMP_WINCTL 7, 1#32)]
theorem witness_ComparesAndPulses_1 : atComparesAndPulses1.cmpTaken 63 = true := by decide +kernel
theorem witness_ComparesAndPulses_2 : State.reset.cmpTaken 0 = false ∧
    (State.reset.writeReg (Reg.TIM_CMP_W0 0) 5#32).bit (Reg.TIM_CMP_W0 0) 31 = false ∧ State.reset.bit (Reg.TIM_CMP_W0 0) 31 = false
     := by decide +kernel
theorem witness_ComparesAndPulses_3 : State.reset.cmpTaken 63 = false ∧
    (State.reset.writeReg (Reg.TIM_CMP_W0 63) 0x80000004#32).cmpDiff 63 < 0 := by decide +kernel
theorem witness_ComparesAndPulses_4 : State.reset.cmpTaken 0 = false ∧
    (State.reset.writeReg (Reg.TIM_CMP_W0 0) 0x80000000#32).bit (Reg.TIM_CMP_W0 0) 31 = true ∧
    0 ≤ (State.reset.writeReg (Reg.TIM_CMP_W0 0) 0x80000000#32).cmpDiff 0 ∧ State.reset.rd (Reg.TIM_CMP_W3 0) = 0#32 := by decide +kernel
theorem witness_ComparesAndPulses_5 : sArmed.cmpTaken 6 = false ∧ sArmed.bit (Reg.TIM_CMP_W0 6) 31 = true ∧
    sArmed.rd (Reg.TIM_CMP_W3 6) = 0#32 := by decide +kernel
/-- A state for Obligations.ComparesAndPulses. -/
def atComparesAndPulses2 : State := sArmed.wr (Reg.TIM_CMP_W3 5) 4096#32
theorem witness_ComparesAndPulses_6 : atComparesAndPulses2.cmpTaken 5 = false ∧ atComparesAndPulses2.bit (Reg.TIM_CMP_W0 5) 31 = true ∧
    atComparesAndPulses2.rd (Reg.TIM_CMP_W3 5) ≠ 0#32 := by decide +kernel
theorem witness_ComparesAndPulses_7 : atPaths7.role 0 = 3 ∧ atPaths7.inGap = true := by decide +kernel
theorem witness_ComparesAndPulses_8 : sNet.role 0 = 3 ∧ sNet.inGap = false := by decide +kernel
theorem witness_ComparesAndPulses_9 : (sNet.role 1 = 1 ∨ sNet.role 1 = 2) := by decide +kernel
/-- A state for Obligations.ComparesAndPulses. -/
def atComparesAndPulses3 : State := st [(Reg.PTH_STAT, 0x04#32)]
theorem witness_ComparesAndPulses_10 : atComparesAndPulses3.role 0 = 4 ∧ atComparesAndPulses3.role 1 = 0 := by decide +kernel
theorem witness_ComparesAndPulses_11 : State.reset.rdf Reg.TIM_STAT 16 2 = 0 ∧ State.reset.bit Reg.TIM_PPSCTL 0 = false
     := by decide +kernel
/-- A state for Obligations.ComparesAndPulses. -/
def atComparesAndPulses4 : State := st [(Reg.TIM_PPSCTL, 1#32)]
theorem witness_ComparesAndPulses_12 : (atComparesAndPulses4.bit Reg.TIM_PPSCTL 0 = false ∨ atComparesAndPulses4.ppsDriven = false)
     := by decide +kernel
/-- A state for Obligations.ComparesAndPulses. -/
def atComparesAndPulses5 : State := st [(Reg.TIM_STAT, 0x30000#32)]
theorem witness_ComparesAndPulses_13 : atComparesAndPulses5.rdf Reg.TIM_STAT 16 2 = 3 := by decide +kernel
/-- A state for Obligations.ComparesAndPulses. -/
def atComparesAndPulses6 : State := st [(Reg.TIM_STAT, 0x10000#32)]
theorem witness_ComparesAndPulses_14 : atComparesAndPulses6.rdf Reg.TIM_STAT 16 2 = 1 := by decide +kernel
/-- A state for Obligations.ComparesAndPulses. -/
def atComparesAndPulses7 : State := st [(Reg.TIM_STAT, 0x20000#32)]
theorem witness_ComparesAndPulses_15 : atComparesAndPulses7.rdf Reg.TIM_STAT 16 2 = 2 := by decide +kernel
/-- A state for Obligations.ComparesAndPulses. -/
def atComparesAndPulses8 : State := { (st [(Reg.TIM_PPSCTL, 0x0007000B#32), (Reg.TIM_STAT, 0x20000#32), (Reg.TIM_PPSOFS, 0xFFFFFFFF#32), (Reg.BOOT_STAT, 0x80900000#32)]) with now := 7 * nsUnit }
theorem witness_ComparesAndPulses_16 : atComparesAndPulses8.ppsDriven = true ∧ atComparesAndPulses8.bit Reg.TIM_PPSCTL 0 = true ∧
    (atComparesAndPulses8.bit Reg.TIM_PPSCTL 3 = false ∨ atComparesAndPulses8.rdf Reg.TIM_STAT 16 2 = 2) := by decide +kernel
/-- A state for Obligations.ComparesAndPulses. -/
def atComparesAndPulses9 : State := { (st [(Reg.TIM_STAT, 0x0FFFF#32)]) with now := 5000000007 * nsUnit }
theorem witness_ComparesAndPulses_17 : atComparesAndPulses9.bit Reg.TIM_CTRL 1 = false := by decide +kernel
/-- A state for Obligations.ComparesAndPulses. -/
def atComparesAndPulses10 : State := st [(Reg.TIM_CTRL, 2#32)]
theorem witness_ComparesAndPulses_18 : atComparesAndPulses10.bit Reg.TIM_CTRL 1 = true ∧ atComparesAndPulses10.rdf Reg.TIM_STAT 16 2 = 0
     := by decide +kernel
theorem witness_ComparesAndPulses_19 : State.reset.bit Reg.TIM_CTRL 1 = false := by decide +kernel
/-- A state for Obligations.ComparesAndPulses. -/
def atComparesAndPulses11 : State := st [(Reg.TIM_CTRL, 2#32), (Reg.TIM_STAT, 0x20000#32)]
theorem witness_ComparesAndPulses_20 : atComparesAndPulses11.bit Reg.TIM_CTRL 1 = true ∧ atComparesAndPulses11.rdf Reg.TIM_STAT 16 2 = 2
     := by decide +kernel

/-! Obligations.PowerRequests -/
theorem witness_PowerRequests_1 : State.reset.off = false ∧ State.reset.isDraining (.internal 7) = false ∧
    State.reset.isMgmt (.internal 7) = false ∧ State.reset.fails (.internal 7) false true Reg.PWR_REQ 4 = some (1, 0) := by decide +kernel
theorem witness_PowerRequests_2 : State.reset.off = false ∧ State.reset.isDraining (.core 3) = false ∧
    State.reset.fails (.core 3) false true Reg.PWR_REQ 4 = none ∧ State.reset.isMgmt (.core 3) = true ∧
    State.reset.bit Reg.BOOT_STAT 31 = false := by decide +kernel
theorem witness_PowerRequests_3 : sBusyP.off = false ∧ sBusyP.isDraining (.core 3) = false ∧
    sBusyP.fails (.core 3) false true Reg.PWR_REQ 4 = none ∧ sBusyP.isMgmt (.core 3) = true ∧ sBusyP.bit Reg.BOOT_STAT 31 = true ∧
    sBusyP.change.isSome = true ∧ (sBusyP.slot.map (·.master)) ≠ some (masterOf (.core 3)) := by decide +kernel
theorem witness_PowerRequests_4 : sBusyQ.off = false ∧ sBusyQ.isDraining (.core 3) = false ∧
    sBusyQ.fails (.core 3) false true Reg.PWR_REQ 4 = none ∧ sBusyQ.isMgmt (.core 3) = true ∧ sBusyQ.bit Reg.BOOT_STAT 31 = true ∧
    sBusyQ.change.isSome = true ∧ sBusyQ.slot = none := by decide +kernel
theorem witness_PowerRequests_5 : sIsUp.off = false ∧ sIsUp.isDraining (.core 3) = false ∧
    sIsUp.fails (.core 3) false true Reg.PWR_REQ 4 = none ∧ sIsUp.isMgmt (.core 3) = true ∧ sIsUp.bit Reg.BOOT_STAT 31 = true ∧
    sIsUp.change = none ∧ sIsUp.slot = none ∧ sIsUp.pstate = 0 := by decide +kernel
/-- A state for Obligations.PowerRequests. -/
def atPowerRequests1 : State := sIsUp.wr Reg.PWR_STAT 1#32
theorem witness_PowerRequests_6 : atPowerRequests1.off = false ∧ atPowerRequests1.isDraining (.core 3) = false ∧
    atPowerRequests1.fails (.core 3) false true Reg.PWR_REQ 4 = none ∧ atPowerRequests1.isMgmt (.core 3) = true ∧
    atPowerRequests1.bit Reg.BOOT_STAT 31 = true ∧ atPowerRequests1.change = none ∧ atPowerRequests1.slot = none ∧
    atPowerRequests1.pstate = 1 ∧ atPowerRequests1.batches = [] ∧ atPowerRequests1.ckts = [] := by decide +kernel
/-- A state for Obligations.PowerRequests. -/
def atPowerRequests2 : State := sIsUp.wr Reg.PWR_STAT 2#32
theorem witness_PowerRequests_7 : atPowerRequests2.off = false ∧ atPowerRequests2.isDraining (.core 3) = false ∧
    atPowerRequests2.fails (.core 3) false true Reg.PWR_REQ 4 = none ∧ atPowerRequests2.isMgmt (.core 3) = true ∧
    atPowerRequests2.bit Reg.BOOT_STAT 31 = true ∧ atPowerRequests2.change = none ∧ atPowerRequests2.slot = none ∧
    (atPowerRequests2.pstate = 0 ∨ atPowerRequests2.pstate = 2) := by decide +kernel
/-- A state for Obligations.PowerRequests. -/
def atPowerRequests3 : State := sIsUp.wr Reg.PWR_STAT 0#32
theorem witness_PowerRequests_8 : atPowerRequests3.off = false ∧ atPowerRequests3.isDraining (.core 3) = false ∧
    atPowerRequests3.fails (.core 3) false true Reg.PWR_REQ 4 = none ∧ atPowerRequests3.isMgmt (.core 3) = true ∧
    atPowerRequests3.bit Reg.BOOT_STAT 31 = true ∧ atPowerRequests3.change = none ∧ atPowerRequests3.slot = none ∧
    atPowerRequests3.pstate < 2 := by decide +kernel
theorem witness_PowerRequests_9 : atPowerRequests1.off = false ∧ atPowerRequests1.isDraining (.core 3) = false ∧
    atPowerRequests1.fails (.core 3) false true Reg.PWR_REQ 4 = none ∧ atPowerRequests1.isMgmt (.core 3) = true ∧
    atPowerRequests1.bit Reg.BOOT_STAT 31 = true ∧ atPowerRequests1.change = none ∧ atPowerRequests1.slot = none ∧
    atPowerRequests1.pstate < 2 := by decide +kernel
theorem witness_PowerRequests_10 : atPowerRequests3.off = false ∧ atPowerRequests3.isDraining (.core 3) = false ∧
    atPowerRequests3.fails (.core 3) false true Reg.PWR_REQ 4 = none ∧ atPowerRequests3.isMgmt (.core 3) = true ∧
    atPowerRequests3.bit Reg.BOOT_STAT 31 = true ∧ atPowerRequests3.change = none ∧ atPowerRequests3.slot = none ∧
    atPowerRequests3.pstate < 3 := by decide +kernel
theorem witness_PowerRequests_11 : atPowerRequests1.off = false ∧ atPowerRequests1.isDraining (.core 3) = false ∧
    atPowerRequests1.fails (.core 3) false true Reg.PWR_REQ 4 = none ∧ atPowerRequests1.isMgmt (.core 3) = true ∧
    atPowerRequests1.bit Reg.BOOT_STAT 31 = true ∧ atPowerRequests1.change = none ∧ atPowerRequests1.slot = none ∧
    atPowerRequests1.pstate < 3 := by decide +kernel
theorem witness_PowerRequests_12 : atPowerRequests2.off = false ∧ atPowerRequests2.isDraining (.core 3) = false ∧
    atPowerRequests2.fails (.core 3) false true Reg.PWR_REQ 4 = none ∧ atPowerRequests2.isMgmt (.core 3) = true ∧
    atPowerRequests2.bit Reg.BOOT_STAT 31 = true ∧ atPowerRequests2.change = none ∧ atPowerRequests2.slot = none ∧
    atPowerRequests2.pstate < 3 := by decide +kernel
/-- A state for Obligations.PowerRequests. -/
def atPowerRequests4 : State := sIsUp.wr Reg.PWR_STAT 0x800000#32
theorem witness_PowerRequests_13 : atPowerRequests4.off = false ∧ atPowerRequests4.isDraining (.core 3) = false ∧
    atPowerRequests4.fails (.core 3) false true Reg.PWR_REQ 4 = none ∧ atPowerRequests4.isMgmt (.core 3) = true ∧
    atPowerRequests4.bit Reg.BOOT_STAT 31 = true ∧ atPowerRequests4.change = none ∧ atPowerRequests4.slot = none ∧
    atPowerRequests4.pstate < 2 ∧ (maskGroups 128).any atPowerRequests4.groupBusy = true := by decide +kernel
theorem witness_PowerRequests_14 : sIsUp.off = false ∧ sIsUp.isDraining (.core 3) = false ∧
    sIsUp.fails (.core 3) false true Reg.PWR_REQ 4 = none ∧ sIsUp.isMgmt (.core 3) = true ∧ sIsUp.bit Reg.BOOT_STAT 31 = true ∧
    sIsUp.change = none ∧ sIsUp.slot = none ∧ sIsUp.pstate < 2 ∧ (maskGroups 129).any sIsUp.groupBusy = false ∧ (0x81#8 : BitVec 8) ≠ 0
     := by decide +kernel
/-- A state for Obligations.PowerRequests. -/
def atPowerRequests5 : State := sIsUp.wr Reg.PWR_STAT 0x7E0000#32
theorem witness_PowerRequests_15 : atPowerRequests5.off = false ∧ atPowerRequests5.isDraining (.core 3) = false ∧
    atPowerRequests5.fails (.core 3) false true Reg.PWR_REQ 4 = none ∧ atPowerRequests5.isMgmt (.core 3) = true ∧
    atPowerRequests5.bit Reg.BOOT_STAT 31 = true ∧ atPowerRequests5.change = none ∧ atPowerRequests5.slot = none ∧
    atPowerRequests5.pstate < 2 ∧ ((List.range 8).all (fun g => !(0x81#8 :
    BitVec 8).getLsbD g || !atPowerRequests5.bit Reg.PWR_STAT (16 + g)) = true) := by decide +kernel
theorem witness_PowerRequests_16 : atPowerRequests4.off = false ∧ atPowerRequests4.isDraining (.core 3) = false ∧
    atPowerRequests4.fails (.core 3) false true Reg.PWR_REQ 4 = none ∧ atPowerRequests4.isMgmt (.core 3) = true ∧
    atPowerRequests4.bit Reg.BOOT_STAT 31 = true ∧ atPowerRequests4.change = none ∧ atPowerRequests4.slot = none ∧
    atPowerRequests4.pstate < 2 ∧ 7 < 8 ∧ (0x81#8 : BitVec 8).getLsbD 7 = true ∧ atPowerRequests4.bit Reg.PWR_STAT (16 + 7) = true
     := by decide +kernel

/-! Obligations.PowerProgress -/
theorem witness_PowerProgress_1 : State.reset.change = none := by decide +kernel
/-- A state for Obligations.PowerProgress. -/
def atPowerProgress1 : State := { (atPhase 3 .armed) with change := some ⟨⟨0, 5, 0, 3, 0⟩, 3, false, 0⟩ }
theorem witness_PowerProgress_2 : atPowerProgress1.change = some ⟨⟨0, 5, 0, 3, 0⟩, 3, false, 0⟩ ∧
    atPowerProgress1.stepBusy ⟨0, 5, 0, 3, 0⟩ 3 = true := by decide +kernel
/-- A state for Obligations.PowerProgress. -/
def atPowerProgress2 : State := { (entering 1 4) with words := (entering 1 4 |>.wr Reg.FLT_STAT 0x80000000#32).words }
theorem witness_PowerProgress_3 : atPowerProgress2.change = some ⟨⟨0, 5, 0, 1, 0⟩, 4, false, 0⟩ ∧
    (atPowerProgress2.stepBusy ⟨0, 5, 0, 1, 0⟩ 4 = true ∨ atPowerProgress2.fatalOn = true) := by decide +kernel
/-- A state for Obligations.PowerProgress. -/
def atPowerProgress3 : State := entering 1 6 0 2
theorem witness_PowerProgress_4 : atPowerProgress3.change = some ⟨⟨0, 5, 0, 1, 0⟩, 6, false, 0⟩ ∧ atPowerProgress3.fatalOn = false ∧
    atPowerProgress3.stepBusy ⟨0, 5, 0, 1, 0⟩ 6 = false ∧ atPowerProgress3.fatalOn = false ∧ atPowerProgress3.slot = none
     := by decide +kernel
/-- A state for Obligations.PowerProgress. -/
def atPowerProgress4 : State := entering 1 4
theorem witness_PowerProgress_5 : atPowerProgress4.change = some ⟨⟨0, 5, 0, 1, 0⟩, 4, false, 0⟩ ∧ atPowerProgress4.fatalOn = false ∧
    atPowerProgress4.stepBusy ⟨0, 5, 0, 1, 0⟩ 4 = false := by decide +kernel
/-- A state for Obligations.PowerProgress. -/
def atPowerProgress5 : State := entering 2 2
theorem witness_PowerProgress_6 : atPowerProgress5.change = some ⟨⟨0, 5, 0, 2, 0⟩, 2, false, 0⟩ ∧ atPowerProgress5.fatalOn = false ∧
    atPowerProgress5.stepBusy ⟨0, 5, 0, 2, 0⟩ 2 = false := by decide +kernel
/-- A state for Obligations.PowerProgress. -/
def atPowerProgress6 : State := entering 1 6
theorem witness_PowerProgress_7 : atPowerProgress6.change = some ⟨⟨0, 5, 0, 1, 0⟩, 6, false, 0⟩ ∧ atPowerProgress6.fatalOn = false ∧
    atPowerProgress6.stepBusy ⟨0, 5, 0, 1, 0⟩ 6 = false ∧ atPowerProgress6.slot = none := by decide +kernel
/-- A state for Obligations.PowerProgress. -/
def atPowerProgress7 : State := entering 2 6
theorem witness_PowerProgress_8 : atPowerProgress7.change = some ⟨⟨0, 5, 0, 2, 0⟩, 6, false, 0⟩ ∧ atPowerProgress7.fatalOn = false ∧
    atPowerProgress7.stepBusy ⟨0, 5, 0, 2, 0⟩ 6 = false ∧ atPowerProgress7.slot = none := by decide +kernel
/-- A state for Obligations.PowerProgress. -/
def atPowerProgress8 : State := entering 3 7
theorem witness_PowerProgress_9 : atPowerProgress8.change = some ⟨⟨0, 5, 0, 3, 0⟩, 7, false, 0⟩ ∧ atPowerProgress8.fatalOn = false ∧
    atPowerProgress8.stepBusy ⟨0, 5, 0, 3, 0⟩ 7 = false ∧ atPowerProgress8.latched = [] := by decide +kernel
/-- A state for Obligations.PowerProgress. -/
def atPowerProgress9 : State := entering 4 7 128
theorem witness_PowerProgress_10 : atPowerProgress9.change = some ⟨⟨0, 5, 0, 4, 128⟩, 7, false, 0⟩ ∧ atPowerProgress9.fatalOn = false ∧
    atPowerProgress9.stepBusy ⟨0, 5, 0, 4, 128⟩ 7 = false ∧ atPowerProgress9.slot = none := by decide +kernel
/-- A state for Obligations.PowerProgress. -/
def atPowerProgress10 : State := entering 1 5
theorem witness_PowerProgress_11 : atPowerProgress10.change = some ⟨⟨0, 5, 0, 1, 0⟩, 5, false, 0⟩ ∧
    atPowerProgress10.mayRefuse ⟨⟨0, 5, 0, 1, 0⟩, 5, false, 0⟩ .fullcal = false := by decide +kernel
/-- A state for Obligations.PowerProgress. -/
def atPowerProgress11 : State := entering 1 5 0 0
theorem witness_PowerProgress_12 : atPowerProgress11.change = some ⟨⟨0, 5, 0, 1, 0⟩, 5, false, 0⟩ ∧
    atPowerProgress11.mayRefuse ⟨⟨0, 5, 0, 1, 0⟩, 5, false, 0⟩ .timeout = true ∧ atPowerProgress11.slot = none ∧
    atPowerProgress11.batches = [] := by decide +kernel
theorem witness_PowerProgress_13 : State.reset.pstate ≠ 2 := by decide +kernel
/-- A state for Obligations.PowerProgress. -/
def atPowerProgress12 : State := st [(Reg.PWR_STAT, 2#32)]
theorem witness_PowerProgress_14 : atPowerProgress12.pstate = 2 := by decide +kernel
/-- A state for Obligations.PowerProgress. -/
def atPowerProgress13 : State := inP3 [] true
theorem witness_PowerProgress_15 : atPowerProgress13.latched = [] ∧ atPowerProgress13.off = true ∧ atPowerProgress13.tooWarm = false
     := by decide +kernel
theorem witness_PowerProgress_16 : State.reset.latched = [] ∧ (State.reset.off = false ∨ State.reset.tooWarm = true) := by decide +kernel
/-- A state for Obligations.PowerProgress. -/
def atPowerProgress14 : State := inP3 [(.wake0, 7)] true true
theorem witness_PowerProgress_17 : atPowerProgress14.latched = (.wake0, 7) :: [] ∧ atPowerProgress14.off = true ∧
    atPowerProgress14.stopHeld = true ∧ atPowerProgress14.tooWarm = true := by decide +kernel
/-- A state for Obligations.PowerProgress. -/
def atPowerProgress15 : State := inP3 [(.wake0, 5000000007), (.wake1, 9)]
theorem witness_PowerProgress_18 : atPowerProgress15.latched = (.wake0, 5000000007) :: [(.wake1, 9)] ∧ atPowerProgress15.off = true ∧
    (atPowerProgress15.stopHeld = false ∨ atPowerProgress15.tooWarm = false) := by decide +kernel
/-- A state for Obligations.PowerProgress. -/
def atPowerProgress16 : State := { (inP3 [(.wake0, 7)]) with off := false }
theorem witness_PowerProgress_19 : atPowerProgress16.latched = (.wake0, 7) :: [] ∧ atPowerProgress16.off = false := by decide +kernel
theorem witness_PowerProgress_20 : State.reset.wakeEnabled (.perst 3) = false := by decide +kernel
/-- A state for Obligations.PowerProgress. -/
def atPowerProgress17 : State := inP3 []
theorem witness_PowerProgress_21 : atPowerProgress17.wakeEnabled .wake0 = true ∧ atPowerProgress17.off = true ∧
    atPowerProgress17.stopHeld = false := by decide +kernel
theorem witness_PowerProgress_22 : atPowerProgress17.wakeEnabled (.perst 3) = true ∧ atPowerProgress17.off = true ∧
    atPowerProgress17.stopHeld = false := by decide +kernel
/-- A state for Obligations.PowerProgress. -/
def atPowerProgress18 : State := inP3 [] true true
theorem witness_PowerProgress_23 : atPowerProgress18.wakeEnabled .wake0 = true ∧ atPowerProgress18.off = true ∧
    atPowerProgress18.stopHeld = true ∧ atPowerProgress18.tooWarm = true := by decide +kernel
/-- A state for Obligations.PowerProgress. -/
def atPowerProgress19 : State := { (entering 3 2) with words := (entering 3 2 |>.wr Reg.PWR_WAKECFG 0x80000000#32).words }
theorem witness_PowerProgress_24 : atPowerProgress19.wakeEnabled .wake0 = true ∧ atPowerProgress19.off = false ∧
    atPowerProgress19.change = some ⟨⟨0, 5, 0, 3, 0⟩, 2, false, 0⟩ := by decide +kernel
theorem witness_PowerProgress_25 : State.reset.bit Reg.PWR_STAT (8 + 7) = false := by decide +kernel
/-- A state for Obligations.PowerProgress. -/
def atPowerProgress20 : State := st [(Reg.PWR_STAT, 0x8000#32)]
theorem witness_PowerProgress_26 : atPowerProgress20.bit Reg.PWR_STAT (8 + 7) = true ∧ atPowerProgress20.change = none
     := by decide +kernel

/-! Obligations.Heat -/
/-- A state for Obligations.Heat. -/
def atHeat1 : State := st [(Reg.PWR_STAT, 0x800000#32)]
theorem witness_Heat_1 : atHeat1.sampled 127 = false := by decide +kernel
theorem witness_Heat_2 : sThr.sampled 0 = true ∧ sThr.sensFault 0 = false ∧ sThr.off = false ∧
    sThr.levelOf (sThr.rdf (Reg.THM_SENS 0) 26 2) (0x0100#16 : BitVec 16).toInt < 3 := by decide +kernel
theorem witness_Heat_3 : sThr.sampled 134 = true ∧ sThr.sensFault 134 = false ∧ sThr.off = false ∧
    sThr.levelOf (sThr.rdf (Reg.THM_SENS 134) 26 2) (0x4FF#16 : BitVec 16).toInt < 3 := by decide +kernel
theorem witness_Heat_4 : sThr.sampled 63 = true ∧ sThr.sensFault 63 = false ∧ sThr.off = false ∧
    sThr.levelOf (sThr.rdf (Reg.THM_SENS 63) 26 2) (0xFF00#16 : BitVec 16).toInt < 3 := by decide +kernel
theorem witness_Heat_5 : sThr.sampled 100 = true ∧ sThr.sensFault 100 = false ∧ sThr.off = false ∧
    sThr.levelOf (sThr.rdf (Reg.THM_SENS 100) 26 2) (0x500#16 : BitVec 16).toInt < 3 := by decide +kernel
/-- A state for Obligations.Heat. -/
def atHeat2 : State := { sThr with off := true }
theorem witness_Heat_6 : atHeat2.sampled 135 = true ∧ atHeat2.off = true := by decide +kernel
theorem witness_Heat_7 : ((State.reset.sensor 135).far < 8 ∨ State.reset.sensFault 135 = true) ∧
    (State.reset.sensor 135).fastRise = none ∧ (State.reset.sensor 135).hot < 2 := by decide +kernel
theorem witness_Heat_8 : 8 ≤ (sFar.sensor 64).far ∧ sFar.sensFault 64 = false ∧ sFar.off = false ∧
    sFar.levelOf (sFar.rdf (Reg.THM_SENS 64) 26 2) ((sFar.wrBit (Reg.THM_SENS 64) 30 true).sampleValue 64 (sFar.temp 64)) < 3
     := by decide +kernel
/-- A state for Obligations.Heat. -/
def atHeat3 : State := { sFar with off := true }
theorem witness_Heat_9 : ((atHeat3.sensor 64).fastRise = none ∨ atHeat3.off = true) := by decide +kernel
theorem witness_Heat_10 : sFar.off = false ∧ (sFar.sensor 64).fastRise = some 0 ∧ 0 + 10000000 ≤ sFar.ns ∧
    sFar.rdf (Reg.THM_SENS 64) 26 2 = 0 := by decide +kernel
theorem witness_Heat_11 : 2 ≤ (sFar.sensor 64).hot ∧ sFar.sensFault 64 = false := by decide +kernel
theorem witness_Heat_12 : fld 0x80000087#32 0 8 < 136 ∧ wbit 0x80000087#32 31 = true := by decide +kernel
theorem witness_Heat_13 : fld 0x00000087#32 0 8 < 136 ∧ wbit 0x00000087#32 31 = false := by decide +kernel
theorem witness_Heat_14 : fld 0x007C7B7A#32 0 8 < fld 0x007C7B7A#32 8 8 ∧ fld 0x007C7B7A#32 8 8 < fld 0x007C7B7A#32 16 8 ∧
    fld 0x007C7B7A#32 16 8 < 125 := by decide +kernel
theorem witness_Heat_15 : ¬ fld 0x007D7B7A#32 16 8 < 125 := by decide +kernel
/-- A state for Obligations.Heat. -/
def atHeat4 : State := st [(Reg.THM_STAT, 0x20000000#32)]
theorem witness_Heat_16 : atHeat4.off = false ∧ 2 ≤ atHeat4.rdf Reg.THM_STAT 28 2 := by decide +kernel
/-- A state for Obligations.Heat. -/
def atHeat5 : State := st [(Reg.THM_CREDCFG, 0x00010002#32), (Reg.THM_CREDIT, 2000#32), (Reg.THM_PSUS, 0x50285050#32)]
theorem witness_Heat_17 : atHeat5.off = false ∧ atHeat5.rdf Reg.THM_STAT 28 2 < 2 := by decide +kernel

/-! Obligations.ResetsAndRails -/
theorem witness_ResetsAndRails_1 : sDirty.saving = none := by decide +kernel
theorem witness_ResetsAndRails_2 : State.reset.enables.getLast? ≠ some .vcore := by decide +kernel
/-- A state for Obligations.ResetsAndRails. -/
def atResetsAndRails1 : State := { State.reset with enables := [.vcore, .vphy, .vana] }
theorem witness_ResetsAndRails_3 : atResetsAndRails1.enables.getLast? = some .vana ∧ nextRail .vana = some .vdrv := by decide +kernel
/-- A state for Obligations.ResetsAndRails. -/
def atResetsAndRails2 : State := { State.reset with enables := [.vcore, .vphy], seqFails := 2 }
theorem witness_ResetsAndRails_4 : atResetsAndRails2.enables.getLast? = some .vphy ∧ atResetsAndRails2.bootPhase = 0 := by decide +kernel
theorem witness_ResetsAndRails_5 : ((.vio : Rail) = .vio ∨ (.vio : Rail) ∈ sDirty.enables) := by decide +kernel
theorem witness_ResetsAndRails_6 : ((.vdrv : Rail) = .vio ∨ (.vdrv : Rail) ∈ sDirty.enables) := by decide +kernel
theorem witness_ResetsAndRails_7 : Rail.vdrv ≠ .vio ∧ Rail.vdrv ∉ State.reset.enables ∧
    (State.reset.enables ≠ [] ∨ State.reset.seqFails = 0 ∨ 3 ≤ State.reset.seqFails) := by decide +kernel
/-- A state for Obligations.ResetsAndRails. -/
def atResetsAndRails3 : State := { State.reset with seqFails := 2 }
theorem witness_ResetsAndRails_8 : atResetsAndRails3.enables = [] ∧ 1 ≤ atResetsAndRails3.seqFails ∧ atResetsAndRails3.seqFails < 3
     := by decide +kernel
/-- A state for Obligations.ResetsAndRails. -/
def atResetsAndRails4 : State := st [(Reg.BOOT_STAT, 0x100000#32)]
theorem witness_ResetsAndRails_9 : atResetsAndRails4.bootPhase ≠ 0 := by decide +kernel
/-- A state for Obligations.ResetsAndRails. -/
def atResetsAndRails5 : State := { (st [(Reg.SEC_OTPSTAT, 0#32)]) with seqFails := 2 }
theorem witness_ResetsAndRails_10 : atResetsAndRails5.bootPhase = 0 ∧ atResetsAndRails5.bit Reg.BOOT_STAT 31 = false ∧
    atResetsAndRails5.off = false := by decide +kernel
theorem witness_ResetsAndRails_11 : State.reset.bootPhase = 0 ∧ State.reset.bit Reg.BOOT_STAT 31 = false ∧ State.reset.off = false ∧ (2 :
    Fin 4) ≠ 3 := by decide +kernel

/-! Obligations.StartUp -/
theorem witness_StartUp_1 : State.reset.bootPhase ≠ 1 ∧ State.reset.image = none ∧ State.reset.bootPhase ≠ 6 ∧ State.reset.norOwn = []
     := by decide +kernel
theorem witness_StartUp_2 : sBoot.bootPhase = 1 ∧ sBoot.slotFound 0 (slotWith 0) = slotWith 0 ∧
    sBoot.slotFound 0x1000000 (slotWith 1) = slotWith 1 ∧ slotBFirst (slotWith 0) (slotWith 1) = false ∧
    sBoot.slotReason (slotWith 0) = 0 ∧ (slotWith 0).image.regwr = [] ∧ sBoot.bit Reg.BOOT_STAT 29 = false := by decide +kernel
theorem witness_StartUp_3 : sBoot.bootPhase = 1 ∧ sBoot.slotFound 0 (slotWith 5) = slotWith 5 ∧
    sBoot.slotFound 0x1000000 (slotWith 1) = slotWith 1 ∧ sBoot.slotReason (slotWith 5) ≠ 0 ∧ sBoot.slotReason (slotWith 1) ≠ 0
     := by decide +kernel
/-- A state for Obligations.StartUp. -/
def atStartUp1 : State := inPhase 2
theorem witness_StartUp_4 : atStartUp1.image = some (anImage 2) ∧ atStartUp1.bootPhase = 2 := by decide +kernel
/-- A state for Obligations.StartUp. -/
def atStartUp2 : State := inPhase 3
theorem witness_StartUp_5 : atStartUp2.image = some (anImage 2) ∧ atStartUp2.bootPhase = 3 ∧ atStartUp2.bankFound [none, none] 0 = none ∧
    atStartUp2.bankFound [none, none] 1 = none ∧ atStartUp2.wearA = none ∧ atStartUp2.wearB = none := by decide +kernel
/-- A state for Obligations.StartUp. -/
def atStartUp3 : State := inPhase 4 |>.wr (Reg.MON_CTRL 63) 0x800#32
theorem witness_StartUp_6 : atStartUp3.image = some (anImage 2) ∧ atStartUp3.bootPhase = 4 ∧
    (atStartUp3.awake.any (fun k => atStartUp3.rdf (Reg.MON_CTRL k) 8 4 != 0) = true) := by decide +kernel
/-- A state for Obligations.StartUp. -/
def atStartUp4 : State := inPhase 4
theorem witness_StartUp_7 : atStartUp4.bootPhase = 4 ∧
    (atStartUp4.awake.all (fun k => atStartUp4.rdf (Reg.MON_CTRL k) 8 4 == 0) = true) ∧ atStartUp4.calWanted (anImage 2) = false
     := by decide +kernel
/-- A state for Obligations.StartUp. -/
def atStartUp5 : State := inPhase 4 1
theorem witness_StartUp_8 : atStartUp5.image = some (anImage 1) ∧ atStartUp5.bootPhase = 4 ∧
    (atStartUp5.awake.all (fun k => atStartUp5.rdf (Reg.MON_CTRL k) 8 4 == 0) = true) ∧ atStartUp5.calWanted (anImage 1) = true
     := by decide +kernel
/-- A state for Obligations.StartUp. -/
def atStartUp6 : State := { (inPhase 5) with fullcal := some ⟨true, false, [], none, []⟩ }
theorem witness_StartUp_9 : atStartUp6.bootPhase = 5 ∧ atStartUp6.fullcal ≠ none := by decide +kernel
/-- A state for Obligations.StartUp. -/
def atStartUp7 : State := inPhase 5
theorem witness_StartUp_10 : atStartUp7.bootPhase = 5 ∧ atStartUp7.fullcal = none ∧ atStartUp7.calMissed (anImage 2) = false
     := by decide +kernel
/-- A state for Obligations.StartUp. -/
def atStartUp8 : State := inPhase 6
theorem witness_StartUp_11 : 6 ≤ atStartUp8.bootPhase ∧ atStartUp8.bootPhase = 6 := by decide +kernel
/-- A state for Obligations.StartUp. -/
def atStartUp9 : State := inPhase 8
theorem witness_StartUp_12 : atStartUp9.image = some (anImage 2) ∧ atStartUp9.bootPhase ≠ 7 ∧ atStartUp9.bootPhase = 8 ∧
    atStartUp9.ckts.all atStartUp9.settled = true := by decide +kernel
/-- A state for Obligations.StartUp. -/
def atStartUp10 : State := { (inPhase 7) with now := 5 * nsUnit }
theorem witness_StartUp_13 : atStartUp10.image = some (anImage 2) ∧ atStartUp10.bootPhase = 7 := by decide +kernel
theorem witness_StartUp_14 : sUnset.image = some (anImage 2) ∧ sUnset.bootPhase = 8 ∧ sUnset.ckts.all sUnset.settled = false
     := by decide +kernel

/-! Obligations.TrustAndFlash -/
/-- A state for Obligations.TrustAndFlash. -/
def atTrustAndFlash1 : State := st [(Reg.SEC_ATTCTL, 0x40000000#32)]
theorem witness_TrustAndFlash_1 : atTrustAndFlash1.bit Reg.SEC_ATTCTL 30 = true := by decide +kernel
/-- A state for Obligations.TrustAndFlash. -/
def atTrustAndFlash2 : State := st [(Reg.SEC_ATTCTL, 0x20000002#32)]
theorem witness_TrustAndFlash_2 : atTrustAndFlash2.bit Reg.SEC_ATTCTL 30 = false := by decide +kernel
theorem witness_TrustAndFlash_3 : State.reset.bit Reg.SEC_ATTCTL 30 = false ∧ State.reset.sealing = none := by decide +kernel
/-- A state for Obligations.TrustAndFlash. -/
def atTrustAndFlash3 : State := st [(Reg.SEC_ATTCTL, 0x40000001#32), (Reg.SEC_ATTNONCE 7, 5#32)]
theorem witness_TrustAndFlash_4 : atTrustAndFlash3.bit Reg.SEC_ATTCTL 30 = true ∧ atTrustAndFlash3.rdf Reg.SEC_ATTCTL 0 4 = 1
     := by decide +kernel
/-- A state for Obligations.TrustAndFlash. -/
def atTrustAndFlash4 : State := st [(Reg.SEC_ATTCTL, 0x40000002#32)]
theorem witness_TrustAndFlash_5 : atTrustAndFlash4.bit Reg.SEC_ATTCTL 30 = true ∧ atTrustAndFlash4.rdf Reg.SEC_ATTCTL 0 4 ≠ 1
     := by decide +kernel
/-- A state for Obligations.TrustAndFlash. -/
def atTrustAndFlash5 : State := st [(Reg.SEC_SEALCTL, 0x40000000#32)]
theorem witness_TrustAndFlash_6 : atTrustAndFlash5.bit Reg.SEC_SEALCTL 30 = true := by decide +kernel
/-- A state for Obligations.TrustAndFlash. -/
def atTrustAndFlash6 : State := st [(Reg.SEC_OTPSTAT, 0x20000000#32)]
theorem witness_TrustAndFlash_7 : atTrustAndFlash6.bit Reg.SEC_SEALCTL 30 = false ∧ atTrustAndFlash6.bit Reg.SEC_OTPSTAT 29 = true
     := by decide +kernel
/-- A state for Obligations.TrustAndFlash. -/
def atTrustAndFlash7 : State := st [(Reg.SEC_SEALBUF 19, 5#32)]
theorem witness_TrustAndFlash_8 : atTrustAndFlash7.bit Reg.SEC_SEALCTL 30 = false ∧ atTrustAndFlash7.bit Reg.SEC_OTPSTAT 29 = false
     := by decide +kernel
/-- A state for Obligations.TrustAndFlash. -/
def atTrustAndFlash8 : State := { (st [(Reg.SEC_SEALCTL, 0x40000000#32)]) with sealing := some [1#32, 2#32, 3#32, 4#32] }
theorem witness_TrustAndFlash_9 : atTrustAndFlash8.sealing = some [1#32, 2#32, 3#32, 4#32] := by decide +kernel
/-- A state for Obligations.TrustAndFlash. -/
def atTrustAndFlash9 : State := { State.reset with image := some anImage }
theorem witness_TrustAndFlash_10 : wbit 2#32 31 = false ∧ wbit 0x80000002#32 31 = true ∧ (atTrustAndFlash9.image.any (fun (m :
    Image) => imageKeySlot m == fld 0x80000002#32 0 2) = true) := by decide +kernel
/-- A state for Obligations.TrustAndFlash. -/
def atTrustAndFlash10 : State := { (st [(Reg.SEC_OTPSTAT, 0x43000000#32)]) with image := some anImage }
theorem witness_TrustAndFlash_11 : wbit 0x80000003#32 31 = true ∧ ((atTrustAndFlash10.image.all fun (m :
    Image) => imageKeySlot m != fld 0x80000003#32 0 2) = true) ∧ 2 < 4 ∧ atTrustAndFlash10.bit Reg.SEC_OTPSTAT (24 + 2) = false
     := by decide +kernel
theorem witness_TrustAndFlash_12 : State.reset.rdf Reg.SEC_OTPSTAT 30 2 = 1 := by decide +kernel
/-- A state for Obligations.TrustAndFlash. -/
def atTrustAndFlash11 : State := st [(Reg.SEC_OTPSTAT, 0x80000000#32)]
theorem witness_TrustAndFlash_13 : atTrustAndFlash11.rdf Reg.SEC_OTPSTAT 30 2 ≠ 1 := by decide +kernel
/-- A state for Obligations.TrustAndFlash. -/
def atTrustAndFlash12 : State := st [(Reg.BOOT_FLSTAT, 0x80000000#32)]
theorem witness_TrustAndFlash_14 : atTrustAndFlash12.bit Reg.BOOT_FLSTAT 31 = true := by decide +kernel
/-- A state for Obligations.TrustAndFlash. -/
def atTrustAndFlash13 : State := st [(Reg.BOOT_FLADDR, 0x02000000#32)]
theorem witness_TrustAndFlash_15 : atTrustAndFlash13.bit Reg.BOOT_FLSTAT 31 = false ∧
    atTrustAndFlash13.flashRefused (atTrustAndFlash13.rdf Reg.BOOT_FLADDR 0 26) = true := by decide +kernel
/-- A state for Obligations.TrustAndFlash. -/
def atTrustAndFlash14 : State := st [(Reg.BOOT_FLADDR, 0x01FFFF00#32)]
theorem witness_TrustAndFlash_16 : atTrustAndFlash14.bit Reg.BOOT_FLSTAT 31 = false ∧
    atTrustAndFlash14.flashRefused (atTrustAndFlash14.rdf Reg.BOOT_FLADDR 0 26) = false := by decide +kernel
theorem witness_TrustAndFlash_17 : State.reset.flash = none := by decide +kernel
theorem witness_TrustAndFlash_18 : sFlash.flash = some ⟨1, 0x10100, [], false⟩ := by decide +kernel
theorem witness_TrustAndFlash_19 : sProg.flash = some ⟨2, 0x1FFFC, List.replicate 64 0x01020304#32, false⟩ ∧
    (List.replicate 64 (0x01020304#32 : Word)).length = 64 := by decide +kernel
/-- A state for Obligations.TrustAndFlash. -/
def atTrustAndFlash15 : State := { sFlash with flash := some ⟨1, 0x10100, [], true⟩ }
theorem witness_TrustAndFlash_20 : atTrustAndFlash15.flash = some ⟨1, 0x10100, [], true⟩ := by decide +kernel
/-- A state for Obligations.TrustAndFlash. -/
def atTrustAndFlash16 : State := { sFlash with flash := some ⟨3, 0, [], false⟩ }
theorem witness_TrustAndFlash_21 : atTrustAndFlash16.flash = some ⟨3, 0, [], false⟩ ∧ atTrustAndFlash16.norOwn = [] := by decide +kernel

/-! Obligations.FaultsAndDump -/
/-- A state for Obligations.FaultsAndDump. -/
def atFaultsAndDump1 : State := st [(Reg.FLT_CTRL, 0x00010000#32)]
theorem witness_FaultsAndDump_1 : atFaultsAndDump1.off = false ∧ (1 + (atFaultsAndDump1.ceTimes.filter fun (p :
    Nat × Nat) => decide (atFaultsAndDump1.ns < p.2 + 1000000000) && p.1 == Reg.PAT 0 0 / 8).length ≤ atFaultsAndDump1.rdf Reg.FLT_CTRL 16 16)
     := by decide +kernel
/-- A state for Obligations.FaultsAndDump. -/
def atFaultsAndDump2 : State := { (st [(Reg.FLT_CTRL, 0x00010000#32)]) with ceTimes := [(Reg.PAT 0 1 / 8, 0)] }
theorem witness_FaultsAndDump_2 : atFaultsAndDump2.off = false ∧
    (atFaultsAndDump2.rdf Reg.FLT_CTRL 16 16 < 1 + (atFaultsAndDump2.ceTimes.filter fun (p :
    Nat × Nat) => decide (atFaultsAndDump2.ns < p.2 + 1000000000) && p.1 == Reg.PAT 0 0 / 8).length) := by decide +kernel
theorem witness_FaultsAndDump_3 : State.reset.off = false ∧ (Requester.core 0) ≠ .fn 0 0 ∧ (Requester.core 0) ≠ .session 0
     := by decide +kernel
theorem witness_FaultsAndDump_4 : State.reset.off = false := by decide +kernel
theorem witness_FaultsAndDump_5 : State.reset.off = false ∧ 63 < 64 ∧ tileOfAddr (Reg.COO_STAT 63) = 63 ∧
    State.reset.bit (Reg.MTX_ISLSTAT 63) 1 = false := by decide +kernel
theorem witness_FaultsAndDump_6 : State.reset.off = false ∧ State.reset.fatalOn = false := by decide +kernel
theorem witness_FaultsAndDump_7 : State.reset.bit (Reg.MTX_ISLSTAT 63) 1 = false ∧ 63 ∉ State.reset.unfencing := by decide +kernel
theorem witness_FaultsAndDump_8 : sFenced.bit (Reg.MTX_ISLSTAT 3) 1 = true := by decide +kernel
theorem witness_FaultsAndDump_9 : 3 ∈ sUnf.unfencing ∧ (true && false) = false := by decide +kernel
theorem witness_FaultsAndDump_10 : 3 ∈ sUnf.unfencing ∧ (false && true) = false := by decide +kernel
theorem witness_FaultsAndDump_11 : 3 ∈ sUnf.unfencing := by decide +kernel
/-- A state for Obligations.FaultsAndDump. -/
def atFaultsAndDump3 : State := st [(Reg.FLT_STAT, 0x80000000#32)]
theorem witness_FaultsAndDump_12 : atFaultsAndDump3.fatalOn = true ∧ atFaultsAndDump3.bit Reg.FLT_STAT 30 = false := by decide +kernel
/-- A state for Obligations.FaultsAndDump. -/
def atFaultsAndDump4 : State := st [(Reg.FLT_STAT, 0xC0000000#32), (Reg.FLT_LAST_W0, 0x80FF0000#32)]
theorem witness_FaultsAndDump_13 : atFaultsAndDump4.fatalOn = true ∧ atFaultsAndDump4.bit Reg.FLT_STAT 30 = true := by decide +kernel
/-- A state for Obligations.FaultsAndDump. -/
def atFaultsAndDump5 : State := { State.reset with flash := some ⟨1, 0, [], false⟩, now := 5000000007 * nsUnit }
theorem witness_FaultsAndDump_14 : atFaultsAndDump5.fatalOn = false ∧ atFaultsAndDump5.off = false ∧
    atFaultsAndDump5.bit Reg.THM_STAT 30 = false := by decide +kernel
theorem witness_FaultsAndDump_15 : State.reset.bit Reg.FLT_STAT 30 = false := by decide +kernel
theorem witness_FaultsAndDump_16 : sDumpH.bit Reg.FLT_STAT 30 = true ∧ sDumpH.bit Reg.THM_STAT 30 = false ∧
    sDumpH.bit Reg.FLT_CTRL 12 = false ∧ sDumpH.dumpLink = some 3 := by decide +kernel
theorem witness_FaultsAndDump_17 : sDumpN.bit Reg.FLT_STAT 30 = true ∧ sDumpN.bit Reg.THM_STAT 30 = false ∧
    sDumpN.bit Reg.FLT_CTRL 12 = false ∧ sDumpN.dumpLink = none ∧ sDumpN.dumpNvm = some (norBase + 0x3F00000, 0x2000) := by decide +kernel
/-- A state for Obligations.FaultsAndDump. -/
def atFaultsAndDump6 : State := { sDumpN with image := none }
theorem witness_FaultsAndDump_18 : atFaultsAndDump6.bit Reg.FLT_STAT 30 = true ∧ atFaultsAndDump6.bit Reg.THM_STAT 30 = false ∧
    atFaultsAndDump6.bit Reg.FLT_CTRL 12 = false ∧ atFaultsAndDump6.dumpLink = none ∧ atFaultsAndDump6.dumpNvm = none := by decide +kernel
theorem witness_FaultsAndDump_19 : sDumpN.bit Reg.FLT_STAT 30 = true ∧ sDumpN.bit Reg.THM_STAT 30 = false := by decide +kernel
theorem witness_FaultsAndDump_20 : State.reset.off = false ∧ State.reset.isDraining (.internal 7) = false ∧
    State.reset.fails (.internal 7) false false Reg.DMP_NVMDATA 4 = some (1, 0) := by decide +kernel
/-- A state for Obligations.FaultsAndDump. -/
def atFaultsAndDump7 : State := sDumpN.wr Reg.DMP_NVMPTR 0x3FFFC#32
theorem witness_FaultsAndDump_21 : atFaultsAndDump7.off = false ∧ atFaultsAndDump7.isDraining (.core 3) = false ∧
    atFaultsAndDump7.fails (.core 3) false false Reg.DMP_NVMDATA 4 = none ∧ Reg.DMP_NVMDATA ∉ atFaultsAndDump7.poisoned
     := by decide +kernel
/-- A state for Obligations.FaultsAndDump. -/
def atFaultsAndDump8 : State := { State.reset with off := true, retained := some ⟨[], [], 0, true, []⟩, now := 5000000007 * nsUnit }
theorem witness_FaultsAndDump_22 : atFaultsAndDump8.fatalOn = false ∧ atFaultsAndDump8.off = true := by decide +kernel
/-- A state for Obligations.FaultsAndDump. -/
def atFaultsAndDump9 : State := { State.reset with off := true }
theorem witness_FaultsAndDump_23 : atFaultsAndDump9.off = true := by decide +kernel

end Sys2Proof.Tests
end

section
/-! PROOF. O3 and O4: a step keeps the stores canonical, and every command answers. What each shared operation and each command's meaning
keeps is said once, in Laws/Keeps*.lean; here those lemmas meet the dispatch. -/

namespace Sys2Proof.Machine

/-- Every arm of the dispatch answers a next state that keeps canonical stores, outputs, the queue and the order of free values. -/
theorem exec_answers (s : State) : ∀ c : Instr, Answers s (exec c s)
  | .registerWrite rq addr v => execRegisterWrite_keeps rq addr v (.refl s)
  | .rcRead rq addr => execRcRead_keeps rq addr (.refl s)
  | .latchedLowRead rq addr => execLatchedLowRead_keeps rq addr (.refl s)
  | .tallyHighRead rq addr => execTallyHighRead_keeps rq addr (.refl s)
  | .matrixRequest reqs => execMatrixRequest_keeps reqs (.refl s)
  | .islandTimeout req island => execIslandTimeout_keeps req island (.refl s)
  | .masterReset scope bursts reads => execMasterReset_keeps scope bursts reads (.refl s)
  | .drainComplete scope cycles => execDrainComplete_keeps scope cycles (.refl s)
  | .pllLockLoss island => execPllLockLoss_keeps island (.refl s)
  | .beatBoundary bad => execBeatBoundary_keeps bad (.refl s)
  | .tbokLost island => execTbokLost_keeps island (.refl s)
  | .timeBusRecompensation loopback => execTimeBusRecompensation_keeps loopback (.refl s)
  | .tileStateReport tile => execTileStateReport_keeps tile (.refl s)
  | .fabricSnapshot v => execFabricSnapshot_keeps v (.refl s)
  | .fabricSnapshotCopy => execFabricSnapshotCopy_keeps (.refl s)
  | .overpowerChange out port high => execOverpowerChange_keeps out port high (.refl s)
  | .cueWrite cue word vals => execCueWrite_keeps cue word vals (.refl s)
  | .patternWrite pat word vals => execPatternWrite_keeps pat word vals (.refl s)
  | .patternCapture v => execPatternCapture_keeps v (.refl s)
  | .patternCaptureDone => execPatternCaptureDone_keeps (.refl s)
  | .portOwnershipWrite port v => execPortOwnershipWrite_keeps port v (.refl s)
  | .partitionRangeWrite part pat v => execPartitionRangeWrite_keeps part pat v (.refl s)
  | .partitionControlWrite part v => execPartitionControlWrite_keeps part v (.refl s)
  | .monitorSample tile ch second code => execMonitorSample_keeps tile ch second code (.refl s)
  | .lossOfLight out port => execLossOfLight_keeps out port (.refl s)
  | .lightRegained out port => execLightRegained_keeps out port (.refl s)
  | .holdoffExpiry input => execHoldoffExpiry_keeps input (.refl s)
  | .batchRelease => execBatchRelease_keeps (.refl s)
  | .solveComplete found ns => execSolveComplete_keeps found ns (.refl s)
  | .resolveComplete batch found => execResolveComplete_keeps batch found (.refl s)
  | .resolveDeadline batch => execResolveDeadline_keeps batch (.refl s)
  | .winshareWrite n hi v => execWinshareWrite_keeps n hi v (.refl s)
  | .policyCeilingWrite part v => execPolicyCeilingWrite_keeps part v (.refl s)
  | .batchPlacement batch => execBatchPlacement_keeps batch (.refl s)
  | .setpointSending tc => execSetpointSending_keeps tc (.refl s)
  | .setpointArrival tc tile => execSetpointArrival_keeps tc tile (.refl s)
  | .armPoint tc => execArmPoint_keeps tc (.refl s)
  | .commitInstant tc => execCommitInstant_keeps tc (.refl s)
  | .postponedApplication tc => execPostponedApplication_keeps tc (.refl s)
  | .spanPassageStage cell => execSpanPassageStage_keeps cell (.refl s)
  | .journalClose tc => execJournalClose_keeps tc (.refl s)
  | .timedDeadlinePass batch => execTimedDeadlinePass_keeps batch (.refl s)
  | .guardWindowOpen n => execGuardWindowOpen_keeps n (.refl s)
  | .guardWindowClose n => execGuardWindowClose_keeps n (.refl s)
  | .windowScheduleWrite n word v => execWindowScheduleWrite_keeps n word v (.refl s)
  | .lmpAbort rq v => execLmpAbort_keeps rq v (.refl s)
  | .lmpHoldWrite v => execLmpHoldWrite_keeps v (.refl s)
  | .throttleBucketFill => execThrottleBucketFill_keeps (.refl s)
  | .controlLaw tile => execControlLaw_keeps tile (.refl s)
  | .heaterOffload tile => execHeaterOffload_keeps tile (.refl s)
  | .cycleTrigger tile => execCycleTrigger_keeps tile (.refl s)
  | .thermalBandArrival tile band => execThermalBandArrival_keeps tile band (.refl s)
  | .freezeWrite tile v => execFreezeWrite_keeps tile v (.refl s)
  | .loopStateWrite tile cell word v => execLoopStateWrite_keeps tile cell word v (.refl s)
  | .factorWrite tile offset v => execFactorWrite_keeps tile offset v (.refl s)
  | .cycleConfigWrite tile v => execCycleConfigWrite_keeps tile v (.refl s)
  | .traceEnable tile v => execTraceEnable_keeps tile v (.refl s)
  | .traceTrigger tile cause => execTraceTrigger_keeps tile cause (.refl s)
  | .traceDataRead rq tile => execTraceDataRead_keeps rq tile (.refl s)
  | .heaterUpdate tile readings => execHeaterUpdate_keeps tile readings (.refl s)
  | .heaterFault tile cell => execHeaterFault_keeps tile cell (.refl s)
  | .heaterFaultClear tile cell v => execHeaterFaultClear_keeps tile cell v (.refl s)
  | .fadeStart tile len => execFadeStart_keeps tile len (.refl s)
  | .fadeEnd tile => execFadeEnd_keeps tile (.refl s)
  | .driveOverrideWrite tile cell v => execDriveOverrideWrite_keeps tile cell v (.refl s)
  | .waveformWrite tile offset v => execWaveformWrite_keeps tile offset v (.refl s)
  | .waveformBankSelect tile v => execWaveformBankSelect_keeps tile v (.refl s)
  | .frameBoundary tile => execFrameBoundary_keeps tile (.refl s)
  | .sequenceApply tile => execSequenceApply_keeps tile (.refl s)
  | .channelConfigWrite tile ch v => execChannelConfigWrite_keeps tile ch v (.refl s)
  | .monitorModeWrite tile v => execMonitorModeWrite_keeps tile v (.refl s)
  | .urgentRequest tile v => execUrgentRequest_keeps tile v (.refl s)
  | .urgentConversion tile adc slot assayer code => execUrgentConversion_keeps tile adc slot assayer code (.refl s)
  | .selfCalibrationCommand tile v => execSelfCalibrationCommand_keeps tile v (.refl s)
  | .adcCalibrationDone tile adc ok => execAdcCalibrationDone_keeps tile adc ok (.refl s)
  | .conversionTrigger tile => execConversionTrigger_keeps tile (.refl s)
  | .snapshotRequest tile v => execSnapshotRequest_keeps tile v (.refl s)
  | .snapshotTrigger tile => execSnapshotTrigger_keeps tile (.refl s)
  | .tallySnapshot tile => execTallySnapshot_keeps tile (.refl s)
  | .channelClear tile word v => execChannelClear_keeps tile word v (.refl s)
  | .fullcal => execFullcal_keeps (.refl s)
  | .cellcal cell full => execCellcal_keeps cell full (.refl s)
  | .save => execSave_keeps (.refl s)
  | .calAbort => execCalAbort_keeps (.refl s)
  | .calsrcSettled => execCalsrcSettled_keeps (.refl s)
  | .backgroundVisit cell => execBackgroundVisit_keeps cell (.refl s)
  | .measurementComplete cell m => execMeasurementComplete_keeps cell m (.refl s)
  | .fullcalStageComplete => execFullcalStageComplete_keeps (.refl s)
  | .calibrationCommitPlacement => execCalibrationCommitPlacement_keeps (.refl s)
  | .saveComplete readBackOk => execSaveComplete_keeps readBackOk (.refl s)
  | .tinkerWriteOperation cell => execTinkerWriteOperation_keeps cell (.refl s)
  | .trimPulseRemeasure cell err => execTrimPulseRemeasure_keeps cell err (.refl s)
  | .stuckClear v => execStuckClear_keeps v (.refl s)
  | .perstDeassert link => execPerstDeassert_keeps link (.refl s)
  | .functionConfigWrite link f word v => execFunctionConfigWrite_keeps link f word v (.refl s)
  | .ringConfigure ring v => execRingConfigure_keeps ring v (.refl s)
  | .ringEnable ring v => execRingEnable_keeps ring v (.refl s)
  | .ringDisable ring v => execRingDisable_keeps ring v (.refl s)
  | .doorbell link f ring v => execDoorbell_keeps link f ring v (.refl s)
  | .submitFetch ring entries => execSubmitFetch_keeps ring entries (.refl s)
  | .nop ring => execNop_keeps ring (.refl s)
  | .cues ring => execCues_keeps ring (.refl s)
  | .abort ring => execAbort_keeps ring (.refl s)
  | .cqSpaceFreed ring => execCqSpaceFreed_keeps ring (.refl s)
  | .interruptTimer ring => execInterruptTimer_keeps ring (.refl s)
  | .dmaErrorCompletion ring poisoned => execDmaErrorCompletion_keeps ring poisoned (.refl s)
  | .poisonedWrite a => execPoisonedWrite_keeps a (.refl s)
  | .busMasterEnable link f => execBusMasterEnable_keeps link f (.refl s)
  | .functionLevelReset link f => execFunctionLevelReset_keeps link f (.refl s)
  | .hotReset link => execHotReset_keeps link (.refl s)
  | .streamEnable stream v => execStreamEnable_keeps stream v (.refl s)
  | .telemetryEmission stream changed => execTelemetryEmission_keeps stream changed (.refl s)
  | .shaperFill => execShaperFill_keeps (.refl s)
  | .policerFill => execPolicerFill_keeps (.refl s)
  | .shaperControlWrite part shape v => execShaperControlWrite_keeps part shape v (.refl s)
  | .shaperDebtClear part v => execShaperDebtClear_keeps part v (.refl s)
  | .linkModeWrite net v => execLinkModeWrite_keeps net v (.refl s)
  | .frameReceived net bytes fcsOk secy landPs => execFrameReceived_keeps net bytes fcsOk secy landPs (.refl s)
  | .recirculate => execRecirculate_keeps (.refl s)
  | .bankSwap v => execBankSwap_keeps v (.refl s)
  | .sessionWrite n word v => execSessionWrite_keeps n word v (.refl s)
  | .read n => execRead_keeps n (.refl s)
  | .write n => execWrite_keeps n (.refl s)
  | .submit n => execSubmit_keeps n (.refl s)
  | .ngcpAbort n => execNgcpAbort_keeps n (.refl s)
  | .keepalive n => execKeepalive_keeps n (.refl s)
  | .notify n => execNotify_keeps n (.refl s)
  | .notifyAck n seq => execNotifyAck_keeps n seq (.refl s)
  | .notifyRetransmit n => execNotifyRetransmit_keeps n (.refl s)
  | .epochStart => execEpochStart_keeps (.refl s)
  | .epochEnd => execEpochEnd_keeps (.refl s)
  | .heartbeat path => execHeartbeat_keeps path (.refl s)
  | .activePathFailure cause => execActivePathFailure_keeps cause (.refl s)
  | .switchoverUp gapCycles => execSwitchoverUp_keeps gapCycles (.refl s)
  | .tiebreak => execTiebreak_keeps (.refl s)
  | .watchmanRound a b => execWatchmanRound_keeps a b (.refl s)
  | .switch => execSwitch_keeps (.refl s)
  | .release path => execRelease_keeps path (.refl s)
  | .incrementWrite v => execIncrementWrite_keeps v (.refl s)
  | .adjustmentStart v => execAdjustmentStart_keeps v (.refl s)
  | .adjustmentEnd => execAdjustmentEnd_keeps (.refl s)
  | .set => execSet_keeps (.refl s)
  | .step => execStep_keeps (.refl s)
  | .stepApply => execStepApply_keeps (.refl s)
  | .compareArm unit v => execCompareArm_keeps unit v (.refl s)
  | .compareFire unit => execCompareFire_keeps unit (.refl s)
  | .ptpTimeout => execPtpTimeout_keeps (.refl s)
  | .ppsoutPulse => execPpsoutPulse_keeps (.refl s)
  | .ppsinEdge => execPpsinEdge_keeps (.refl s)
  | .ppsinLoss => execPpsinLoss_keeps (.refl s)
  | .powerRequestP0 rq repl => execPowerRequestP0_keeps rq repl (.refl s)
  | .powerRequestP1 rq repl => execPowerRequestP1_keeps rq repl (.refl s)
  | .powerRequestP2 rq repl => execPowerRequestP2_keeps rq repl (.refl s)
  | .powerRequestP3 rq repl => execPowerRequestP3_keeps rq repl (.refl s)
  | .tgsleep rq repl mask => execTgsleep_keeps rq repl mask (.refl s)
  | .tgwake rq repl mask => execTgwake_keeps rq repl mask (.refl s)
  | .entryStepComplete => execEntryStepComplete_keeps (.refl s)
  | .blockRefusal reason => execBlockRefusal_keeps reason (.refl s)
  | .p2Timeout => execP2Timeout_keeps (.refl s)
  | .wakeEvent src => execWakeEvent_keeps src (.refl s)
  | .wakeReplay => execWakeReplay_keeps (.refl s)
  | .driveReturn found => execDriveReturn_keeps found (.refl s)
  | .tileGroupWakeComplete tg => execTileGroupWakeComplete_keeps tg (.refl s)
  | .sensorSample sensor raw => execSensorSample_keeps sensor raw (.refl s)
  | .sensorFault sensor => execSensorFault_keeps sensor (.refl s)
  | .risecrit sensor => execRisecrit_keeps sensor (.refl s)
  | .sensorClear v => execSensorClear_keeps v (.refl s)
  | .thresholdWrite v => execThresholdWrite_keeps v (.refl s)
  | .creditUpdate railMw portMw => execCreditUpdate_keeps railMw portMw (.refl s)
  | .shutCut sensor => execShutCut_keeps sensor (.refl s)
  | .powerOn => execPowerOn_keeps (.refl s)
  | .powerGood rail => execPowerGood_keeps rail (.refl s)
  | .sequenceFailure rail => execSequenceFailure_keeps rail (.refl s)
  | .sequenceRetry => execSequenceRetry_keeps (.refl s)
  | .undervoltage rail => execUndervoltage_keeps rail (.refl s)
  | .moduleReset => execModuleReset_keeps (.refl s)
  | .swrst => execSwrst_keeps (.refl s)
  | .bootRomStart bifsel engineOk => execBootRomStart_keeps bifsel engineOk (.refl s)
  | .imageVerified a b => execImageVerified_keeps a b (.refl s)
  | .bootPhaseComplete banks wear => execBootPhaseComplete_keeps banks wear (.refl s)
  | .calwaitExpiry => execCalwaitExpiry_keeps (.refl s)
  | .up => execUp_keeps (.refl s)
  | .locklate => execLocklate_keeps (.refl s)
  | .report => execReport_keeps (.refl s)
  | .cert => execCert_keeps (.refl s)
  | .attestationDone window => execAttestationDone_keeps window (.refl s)
  | .sealData => execSeal_keeps (.refl s)
  | .keyRevocation v => execKeyRevocation_keeps v (.refl s)
  | .debugUnlock tokenOk => execDebugUnlock_keeps tokenOk (.refl s)
  | .erase => execErase_keeps (.refl s)
  | .prog => execProg_keeps (.refl s)
  | .verify => execVerify_keeps (.refl s)
  | .flashCommandDone outcome => execFlashCommandDone_keeps outcome (.refl s)
  | .scrubRead sweep addr check mem reader => execScrubRead_keeps sweep addr check mem reader (.refl s)
  | .unfence tile => execUnfence_keeps tile (.refl s)
  | .unfenceComplete tile locked sound => execUnfenceComplete_keeps tile locked sound (.refl s)
  | .fatal => execFatal_keeps (.refl s)
  | .watchdog core => execWatchdog_keeps core (.refl s)
  | .dumpComplete silent fw => execDumpComplete_keeps silent fw (.refl s)
  | .dumpStall => execDumpStall_keeps (.refl s)
  | .dumpDataRead rq => execDumpDataRead_keeps rq (.refl s)
  | .netLinkChange net blockLock fecLock => execNetLinkChange_keeps net blockLock fecLock (.refl s)
  | .pcieLinkUp link width speed flit => execPcieLinkUp_keeps link width speed flit (.refl s)
  | .standbyHeartbeatLoss => execStandbyHeartbeatLoss_keeps (.refl s)
  | .restErrorMeasurement cell => execRestErrorMeasurement_keeps cell (.refl s)
  | .restErrorMeasured cell err => execRestErrorMeasured_keeps cell err (.refl s)
  | .autosave => execAutosave_keeps (.refl s)
  | .sealingDone => execSealingDone_keeps (.refl s)
  | .delayReqTransmit net landPs => execDelayReqTransmit_keeps net landPs (.refl s)
  | .wearLogProgrammed => execWearLogProgrammed_keeps (.refl s)

/-- A step keeps the canonical form: a tick does, and a command does on the state that holds the queue's rest, whose stores are the same. -/
theorem step_canonical {s t : State} (hs : s.canonical = true) (h : step s = .next t) : t.canonical = true := by
  unfold step at h
  split at h
  · cases h
    obtain ⟨hcanonical, -⟩ := State.tick_keeps (Keeps.refl s)
    exact hcanonical hs
  · next c cs _ =>
    obtain ⟨u, hu, hcanonical, -⟩ := exec_answers { s with pending := cs } c
    cases hu.symm.trans h
    exact hcanonical hs

/-- Settles O3: the two kinds of step, a tick and a command, keep the stores canonical. -/
theorem stepKeepsCanonical : Obligations.StepKeepsCanonical := by
  unfold Obligations.StepKeepsCanonical
  exact fun _ _ => step_canonical

/-- Settles O4: each arm of the dispatch answers and keeps. -/
theorem everyCommandAnswers : Obligations.EveryCommandAnswers := by
  unfold Obligations.EveryCommandAnswers
  intro c s
  obtain ⟨t, ht, hcanonical, hout, hpending, hfresh⟩ := exec_answers s c
  exact ⟨t, ht, hpending, hout, hfresh, hcanonical⟩

end Sys2Proof.Machine
end

section
/-! PROOF. O7 and O8: what one register write and one memory write change. -/

namespace Sys2Proof.Machine

/-! ## Register words by their access codes -/

/-- The mask of a field rule covers the rule's bits and no other. -/
theorem FieldRule.mask_getLsbD (r : FieldRule) {i : Nat} (hi : i < 32) :
    (fieldMask r.lo (r.hi + 1 - r.lo)).getLsbD i = (decide (r.lo ≤ i) && decide (i ≤ r.hi)) := by
  rw [fieldMask_getLsbD, Bool.eq_iff_iff]
  simp only [Bool.and_eq_true, decide_eq_true_eq]
  omega

/-- A bit stays in the mask of the bits to be set unless a rule that covers it refuses the value (R5). -/
theorem getLsbD_foldl_rules (rs : List FieldRule) (v m : Word) {i : Nat} (hi : i < 32) :
    (rs.foldl (fun m r => if r.admits v then m else m &&& ~~~ fieldMask r.lo (r.hi + 1 - r.lo)) m).getLsbD i = true ↔
      m.getLsbD i = true ∧ ∀ r ∈ rs, r.lo ≤ i → i ≤ r.hi → r.admits v = true := by
  induction rs generalizing m with
  | nil => simp
  | cons r rs ih =>
    rw [List.foldl_cons, ih, List.forall_mem_cons]
    cases hr : r.admits v with
    | true => simp
    | false =>
      simp only [Bool.false_eq_true, if_false, BitVec.getLsbD_and, BitVec.getLsbD_not, FieldRule.mask_getLsbD r hi, hi, decide_true,
        Bool.true_and, Bool.and_eq_true, Bool.not_eq_true', ← Bool.not_eq_true, decide_eq_true_eq]
      tauto

/-- The bits that a write sets: RW bits that no refusing rule covers. -/
theorem RegEntry.writable_getLsbD (e : RegEntry) (v : Word) {i : Nat} (hi : i < 32) :
    (e.writable v).getLsbD i = true ↔
      (BitVec.ofNat 32 e.rw).getLsbD i = true ∧ ∀ r ∈ e.rules, r.lo ≤ i → i ≤ r.hi → r.admits v = true :=
  getLsbD_foldl_rules e.rules v _ hi

/-- A word after a write, bit by bit: W1S before W1C before the bits the write sets (R4). -/
theorem RegEntry.merge_getLsbD (e : RegEntry) (old v : Word) {i : Nat} (hi : i < 32) :
    (e.merge old v).getLsbD i =
      if (BitVec.ofNat 32 e.w1s).getLsbD i && v.getLsbD i then true
      else if (BitVec.ofNat 32 e.w1c).getLsbD i && v.getLsbD i then false
      else if (e.writable v).getLsbD i then v.getLsbD i
      else old.getLsbD i := by
  unfold RegEntry.merge
  simp only [BitVec.getLsbD_or, BitVec.getLsbD_and, BitVec.getLsbD_not, hi, decide_true, Bool.true_and]
  cases v.getLsbD i with
  | false => cases (e.writable v).getLsbD i <;> simp
  | true => cases (e.writable v).getLsbD i <;> simp [Bool.or_comm, Bool.and_comm]

theorem State.rd_writeReg_same (s : State) {a : Nat} {e : RegEntry} {ix : List Nat} (v : Word) (h : RegMap.find a = some (e, ix)) :
    (s.writeReg a v).rd a = e.merge (s.rd a) v := by
  unfold State.writeReg
  rw [h]
  exact s.rd_wr_same a _

theorem State.rd_writeReg_ne (s : State) {a b : Nat} (v : Word) (h : b ≠ a) : (s.writeReg a v).rd b = s.rd b :=
  (((OnlyWords.refl [a] s).writeReg v (List.mem_singleton.2 rfl)).1 b (by simpa using h)).1

/-- Settles O7, through the bits of a merged word. -/
theorem writesByAccess : Obligations.WritesByAccess := by
  unfold Obligations.WritesByAccess
  intro s a ix e v hfind
  rw [State.rd_writeReg_same s v hfind]
  refine ⟨fun i hi hadmit => ?_, fun r i hr hrefused hlo hhi hi hw1s hw1c => ?_, fun b => s.rd_writeReg_ne v⟩
  · have hmask : (e.writable v).getLsbD i = (BitVec.ofNat 32 e.rw).getLsbD i :=
      Bool.eq_iff_iff.2 ((e.writable_getLsbD v hi).trans (and_iff_left hadmit))
    rw [RegEntry.merge_getLsbD e _ v hi, hmask]
  · have hmask : ¬ (e.writable v).getLsbD i = true := fun h => by
      have hadmits := ((e.writable_getLsbD v hi).1 h).2 r hr hlo hhi
      simp [hrefused] at hadmits
    rw [RegEntry.merge_getLsbD e _ v hi]
    simp [hw1s, hw1c, hmask]

/-! ## Memory words -/

theorem State.byte_putByte (s : State) (a b : Nat) (v : Byte) : (s.putByte a v).byte b = if b = a then v else s.byte b := by
  split
  · next h => rw [h, State.byte_putByte_same]
  · next h => exact s.byte_putByte_ne v h

/-- The bytes after a word is written, little-endian (R6). -/
theorem State.byte_putMemWord (s : State) (a b : Nat) (v : Word) :
    (s.putMemWord a v).byte b =
      if b = a + 3 then v.extractLsb' 24 8 else if b = a + 2 then v.extractLsb' 16 8
      else if b = a + 1 then v.extractLsb' 8 8 else if b = a then v.extractLsb' 0 8 else s.byte b := by
  simp only [State.putMemWord, State.byte_putByte]

/-- A word is its four bytes. -/
theorem append_bytes (v : Word) : v.extractLsb' 24 8 ++ v.extractLsb' 16 8 ++ v.extractLsb' 8 8 ++ v.extractLsb' 0 8 = v := by
  rw [BitVec.extractLsb'_append_extractLsb'_eq_extractLsb' (by omega), BitVec.extractLsb'_append_extractLsb'_eq_extractLsb' (by omega),
    BitVec.extractLsb'_append_extractLsb'_eq_extractLsb' (by omega)]
  exact BitVec.extractLsb'_eq_self

/-- Settles O8, through the bytes after a word is written. -/
theorem memoryWordLittleEndian : Obligations.MemoryWordLittleEndian := by
  unfold Obligations.MemoryWordLittleEndian
  intro s a v
  refine ⟨?_, by simp [State.byte_putMemWord], by simp [State.byte_putMemWord], fun b hb => ?_, fun b => rfl⟩
  · rw [State.memWord]
    simpa [State.byte_putMemWord] using append_bytes v
  · rw [State.byte_putMemWord, if_neg (by omega), if_neg (by omega), if_neg (by omega), if_neg (by omega)]

end Sys2Proof.Machine
end

section
/-! PROOF. O16: a host's write of a busy cue or pattern is kept out and flagged. -/

namespace Sys2Proof.Machine

/-- A CUE_WRITE of one word is a write of that word of that cue. -/
theorem exec_cueWrite_one (s : State) (q : Fin 65536) (w : Fin 8) (v : Word) :
    exec (.cueWrite q w [v]) s = .next (s.writeCueWord q w v) := by
  have hin : 8 * q.val + w.val < 524288 := by omega
  have hcue : (8 * q.val + w.val) / 8 = q := by omega
  have hword : (8 * q.val + w.val) % 8 = w := by omega
  simp only [exec, execCueWrite, State.writeWords, if_pos hin, hcue, hword]

/-- A PATTERN_WRITE of one word is a write of that word of that pattern. -/
theorem exec_patternWrite_one (s : State) (n : Fin 256) (j : Fin 512) (v : Word) :
    exec (.patternWrite n j [v]) s = .next (s.writePatWord n j v) := by
  have hin : 512 * n.val + j.val < 131072 := by omega
  have hpat : (512 * n.val + j.val) / 512 = n := by omega
  have hword : (512 * n.val + j.val) % 512 = j := by omega
  simp only [exec, execPatternWrite, State.writeWords, if_pos hin, hpat, hword]

theorem State.writeCueWord_busy {s : State} {q : Nat} (w : Nat) (v : Word) (h : s.cueBusy q = true) :
    s.writeCueWord q w v = s.err Reg.CIR_ERRSTAT 0 := if_pos h

theorem State.writeCueWord_free {s : State} {q : Nat} (w : Nat) (v : Word) (h : s.cueBusy q = false) :
    s.writeCueWord q w v = s.writeReg (Reg.CUE_W0 q + 4 * w) v := if_neg (by simp [h])

theorem State.writePatWord_busy {s : State} {n : Nat} (j : Nat) (v : Word) (h : s.patBusy n = true) :
    s.writePatWord n j v = s.err Reg.CIR_ERRSTAT 1 := if_pos h

theorem State.writePatWord_free {s : State} {n : Nat} (j : Nat) (v : Word) (h : s.patBusy n = false) :
    s.writePatWord n j v = s.writeReg (Reg.PAT n j) v := if_neg (by simp [h])

/-- A raised bit of CIR_ERRSTAT reads 1, and beside it only what events change is touched. -/
theorem State.err_cirErrstat (s : State) {i : Nat} (hi : i < 32) :
    (s.err Reg.CIR_ERRSTAT i).bit Reg.CIR_ERRSTAT i = true ∧ WordsAndEvents [Reg.CIR_ERRSTAT] s (s.err Reg.CIR_ERRSTAT i) :=
  ⟨s.err_bit hi (by decide), State.err_events (WordsAndEvents.refl _ s) i (List.mem_singleton.2 rfl)⟩

theorem OnlyWords.writeReg_self (s : State) (a : Nat) (v : Word) : OnlyWords [a] s (s.writeReg a v) :=
  (OnlyWords.refl [a] s).writeReg v (List.mem_singleton.2 rfl)

/-- Settles O16: for a cue and for a pattern, the busy case and the free one. -/
theorem busyContentIsKept : Obligations.BusyContentIsKept := by
  unfold Obligations.BusyContentIsKept
  refine ⟨fun s q w v => ?_, fun s n j v => ?_⟩
  · refine ⟨fun h => ⟨_, exec_cueWrite_one s q w v, ?_⟩, fun h => ⟨_, exec_cueWrite_one s q w v, ?_⟩⟩
    · rw [State.writeCueWord_busy _ _ h]
      exact s.err_cirErrstat (by omega)
    · rw [State.writeCueWord_free _ _ h]
      exact ⟨rfl, OnlyWords.writeReg_self s _ v⟩
  · refine ⟨fun h => ⟨_, exec_patternWrite_one s n j v, ?_⟩, fun h => ⟨_, exec_patternWrite_one s n j v, ?_⟩⟩
    · rw [State.writePatWord_busy _ _ h]
      exact s.err_cirErrstat (by omega)
    · rw [State.writePatWord_free _ _ h]
      exact ⟨rfl, OnlyWords.writeReg_self s _ v⟩

end Sys2Proof.Machine
end

section
/-! PROOF. O11: how a request that passes the tests of R24 is served. -/

namespace Sys2Proof.Machine

/-! ## Accesses -/

theorem wordsAt_four (a : Nat) : wordsAt a 4 = [a] := rfl

/-- A request on BAR0 that the tests of R24 let through, its words free of poison, is a read of them. -/
theorem State.access_read {s : State} {rq : Requester} {a n : Nat} (hoff : s.off = false) (hdrain : s.isDraining rq = false)
    (hpass : s.fails rq false false a n = none) (hclean : ∀ b ∈ wordsAt a n, b ∉ s.poisoned) :
    s.access ⟨rq, false, false, a, n, []⟩ =
      (s.readWords rq (n == 4) (wordsAt a n)).2.send (.readData rq (s.readWords rq (n == 4) (wordsAt a n)).1) := by
  have hnone : (wordsAt a n).any s.poisoned.contains = false := by simpa using hclean
  simp [State.access, State.serveRead, hoff, hdrain, hpass, hnone]

/-- A 4-byte request of the kind is a read of its word. -/
theorem State.access_read_one {s : State} {rq : Requester} {a : Nat} (hoff : s.off = false) (hdrain : s.isDraining rq = false)
    (hpass : s.fails rq false false a 4 = none) (hclean : a ∉ s.poisoned) :
    s.access ⟨rq, false, false, a, 4, []⟩ = (s.readWord rq true a).2.send (.readData rq [(s.readWord rq true a).1]) :=
  s.access_read hoff hdrain hpass (by simpa [wordsAt_four] using hclean)

/-- A write on BAR0 that the tests of R24 let through writes its words from its address on. -/
theorem State.access_write {s : State} {rq : Requester} {a n : Nat} {vs : List Word} (hoff : s.off = false)
    (hdrain : s.isDraining rq = false) (hpass : s.fails rq false true a n = none) (hlen : vs.length = n / 4) :
    s.access ⟨rq, false, true, a, n, vs⟩ = s.writeWordsAt rq a vs := by
  simp [State.access, hoff, hdrain, hpass, ← hlen]

/-- A request that fails a test of R24 is refused with that test's cause. -/
theorem State.access_refused {s : State} {x : Access} {c i : Nat} (hoff : s.off = false) (hdrain : s.isDraining x.rq = false)
    (hfail : s.fails x.rq x.bar2 x.write x.addr x.size = some (c, i)) :
    s.access x = s.refuse x.rq x.bar2 x.write x.addr c i ((x.size + 3) / 4) := by
  simp [State.access, hoff, hdrain, hfail]

/-! ## The default target -/

/-- The tests of R24 fail with one of the four causes of MTX_ERRSTAT. -/
theorem State.failsBefore_lt {s : State} {rq : Requester} {bar2 isWrite : Bool} {a n c : Nat}
    (h : s.failsBefore rq bar2 isWrite a n = some c) : c < 4 := by
  unfold State.failsBefore at h
  dsimp only at h
  split_ifs at h <;> cases h <;> omega

theorem State.fails_lt {s : State} {rq : Requester} {bar2 isWrite : Bool} {a n c i : Nat}
    (h : s.fails rq bar2 isWrite a n = some (c, i)) : c < 4 := by
  unfold State.fails at h
  split at h
  · next hbefore =>
    cases h
    exact State.failsBefore_lt hbefore
  · rw [Option.ite_none_right_eq_some] at h
    obtain ⟨-, hcause⟩ := h
    cases hcause
    omega

theorem State.errCores_bit (s : State) {a i : Nat} (hi : i < 32) (hr : isRingWord a = false) : (s.errCores a i).bit a i = true := by
  have hbit := s.err_bit hi hr
  unfold State.err at hbit
  unfold State.errCores
  split
  · assumption
  · next h => exact (if_neg h ▸ hbit :)

/-- The words of the matrix's error log. -/
abbrev mtxLog : List Nat := [Reg.MTX_ERRSTAT, Reg.MTX_ERRADDR, Reg.MTX_ERRINFO]

/-- The error log of a refused request: its cause bit is set, and only the log changes beside what events change (R25). -/
theorem State.mtxError_effect (s : State) (rq : Requester) (bar2 isWrite : Bool) (a island : Nat) {c : Nat} (hc : c < 4) :
    (s.mtxError rq bar2 isWrite a c island).bit Reg.MTX_ERRSTAT c = true ∧
      WordsAndEvents mtxLog s (s.mtxError rq bar2 isWrite a c island) := by
  unfold State.mtxError
  extract_lets held captured logged
  have hcaptured : WordsAndEvents mtxLog s captured := by
    unfold captured
    split
    · exact State.errCores_events (.refl _ s) 5 (by simp)
    · exact ((WordsAndEvents.refl _ s).wr _ (.inl (by simp))).wr _ (.inl (by simp))
  have hevents : WordsAndEvents mtxLog s logged := State.errCores_events hcaptured c (by simp)
  have hbit : logged.bit Reg.MTX_ERRSTAT c = true := State.errCores_bit _ (by omega) (by decide)
  split
  · split
    · exact ⟨hbit, hevents.send _⟩
    · exact ⟨hbit, hevents⟩
  · exact ⟨hbit, hevents⟩

theorem State.answer_bit (s : State) (rq : Requester) (isWrite : Bool) (a status n b i : Nat) :
    (s.answer rq isWrite a status n).bit b i = s.bit b i := by
  unfold State.answer
  split
  · split
    · rfl
    · split <;> rfl
  · rfl
  · rfl

theorem State.answer_events {as : List Nat} {s t : State} (h : WordsAndEvents as s t) (rq : Requester) (isWrite : Bool)
    (a status n : Nat) : WordsAndEvents as s (t.answer rq isWrite a status n) := by
  unfold State.answer
  split
  · split
    · exact h
    · split <;> exact h.send _
  · exact h.send _
  · exact h.send _

/-- A refused request sets its cause bit and changes nothing but the error log and what events change (R25). -/
theorem State.refuse_effect (s : State) (rq : Requester) (bar2 isWrite : Bool) (a island n : Nat) {c : Nat} (hc : c < 4) :
    (s.refuse rq bar2 isWrite a c island n).bit Reg.MTX_ERRSTAT c = true ∧
      WordsAndEvents mtxLog s (s.refuse rq bar2 isWrite a c island n) := by
  unfold State.refuse
  obtain ⟨hbit, hevents⟩ := s.mtxError_effect rq bar2 isWrite a island hc
  exact ⟨(State.answer_bit _ _ _ _ _ _ _ _).trans hbit, State.answer_events hevents _ _ _ _ _⟩

/-! ## Latches -/

theorem State.latchOf_unlatch (s : State) (rq : Requester) (k tag : Nat) : (s.unlatch rq k).latchOf rq k tag = none := by
  simp only [State.latchOf, State.unlatch, Option.map_eq_none_iff, List.find?_eq_none]
  intro l hl
  have hother : (!(l.rq == rq && l.addr == k)) = true := (List.mem_filter.1 hl).2
  rw [Bool.not_eq_true'] at hother
  simp [hother]

theorem State.latchOf_latch (s : State) (rq : Requester) (k tag : Nat) (v : Word) : (s.latch rq k tag v).latchOf rq k tag = some v := by
  have hnone : (s.unlatch rq k).latches.find? (fun l => l.rq == rq && l.addr == k && l.tag == tag) = none :=
    Option.map_eq_none_iff.1 (s.latchOf_unlatch rq k tag)
  simp [State.latchOf, State.latch, List.find?_append, hnone]

/-! ## Reads of a word -/

theorem isTalHalf_ge {a : Nat} (h : isTalHalf a = true) : 0x2000000 ≤ a := by
  simp only [isTalHalf, Bool.and_eq_true, decide_eq_true_eq] at h
  exact h.1.1.1

/-- Only offsets of the HIF_SELF page mean another word. -/
theorem aliasOf_of_ge {a : Nat} (rq : Requester) (h : 0x19000 ≤ a) : aliasOf rq a = a := by
  cases rq with
  | fn l f =>
    have hring : a ≠ Reg.HIF_SELFRING := by unfold Reg.HIF_SELFRING; omega
    have hev : a ≠ Reg.HIF_SELFEV := by unfold Reg.HIF_SELFEV; omega
    have hcql : a ≠ Reg.HIF_SELFCQL := by unfold Reg.HIF_SELFCQL; omega
    simp only [aliasOf, selfAlias, if_neg hring, if_neg hev, if_neg hcql]
  | session | core | internal => rfl

theorem aliasOf_tal {a : Nat} (rq : Requester) (h : isTalHalf a = true) : aliasOf rq a = a :=
  aliasOf_of_ge rq (Nat.le_trans (by omega) (isTalHalf_ge h))

/-- The low half of a tally: the requester's latch takes the high half (R201). -/
theorem State.readWord_talLow (s : State) (rq : Requester) {a : Nat} (htal : isTalHalf a = true) (hlow : a % 8 = 0) :
    s.readWord rq true a = (s.rd a, s.latch rq (talKey a) (a + 4) (s.rd (a + 4))) := by
  simp [State.readWord, aliasOf_tal rq htal, htal, hlow]

/-- The high half of a tally whose low half was read: what was latched, and the latch cleared (R201). -/
theorem State.readWord_talHigh {s : State} {rq : Requester} {a : Nat} {v : Word} (htal : isTalHalf a = true) (hhigh : a % 8 = 4)
    (hlatch : s.latchOf rq (talKey a) a = some v) : s.readWord rq true a = (v, s.unlatch rq (talKey a)) := by
  simp [State.readWord, aliasOf_tal rq htal, htal, hhigh, hlatch]

/-! ## CQLOST of HIF_FNCFG -/

/-- The map names W3 of each of the 68 entries of HIF_FNCFG; CQLOST is its RC field, and it has no WO field. -/
theorem find_fncfgW3_any : ∀ g : Fin 68,
    ((RegMap.find (Reg.HIF_FNCFG_W3 g)).any fun p => p.1.rc == 0xFFFF && p.1.wo == 0) = true := by decide

theorem find_fncfgW3 {g : Nat} (hg : g < 68) :
    ∃ e ix, RegMap.find (Reg.HIF_FNCFG_W3 g) = some (e, ix) ∧ e.rc = 0xFFFF ∧ e.wo = 0 := by
  obtain ⟨⟨e, ix⟩, hfind, hmasks⟩ := (Option.any_eq_true _ _).1 (find_fncfgW3_any ⟨g, hg⟩)
  exact ⟨e, ix, hfind, by simpa using hmasks⟩

theorem fncfgW3_bounds {g : Nat} (hg : g < 68) :
    0x10000 ≤ Reg.HIF_FNCFG_W3 g ∧ Reg.HIF_FNCFG_W3 g < 0x11000 ∧ Reg.HIF_FNCFG_W3 g % 16 = 12 := by
  unfold Reg.HIF_FNCFG_W3
  omega

/-- A management core's read of the word passes the tests of R24 while island 64 answers. -/
theorem State.fails_fncfgW3 {s : State} (n : Fin 4) {g : Nat} (hg : g < 68) (hisland : s.silent 64 = false) :
    s.fails (.core n) false false (Reg.HIF_FNCFG_W3 g) 4 = none := by
  obtain ⟨e, ix, hfind, -, -⟩ := find_fncfgW3 hg
  obtain ⟨hlo, hhi, hmod⟩ := fncfgW3_bounds hg
  generalize Reg.HIF_FNCFG_W3 g = a at hfind hlo hhi hmod ⊢
  have hmap : inMap a = true ∧ inMap (a + 3) = true := by
    unfold inMap
    constructor <;> simp <;> omega
  have hsize : sizeOk a 4 = true := by
    unfold sizeOk
    simp
    omega
  have hregion : inRegion a = false := by
    unfold inRegion
    simp
    omega
  have hreach : s.mayReach (.core n) false a = true := by
    simp [State.mayReach]
    omega
  have hplace : islandOf a = 64 := by
    have hno : a / 0x10000 = 1 := by omega
    rw [islandOf, if_pos (by omega)]
    simp [hno]
  simp [State.fails, State.failsBefore, wordsAt_four, hmap, hsize, hreach, hregion, hfind, hplace, hisland]

/-- Below the MTX block, a word of HIF_FNCFG but W0 shows what the store holds. -/
theorem State.shown_fncfg (s : State) (rq : Requester) {a : Nat} (hhi : a < 0x11000) (hmod : a % 16 ≠ 0) : s.shown rq a = s.rd a := by
  have hne : ∀ b, 0x11000 ≤ b → a ≠ b := fun b hb => by omega
  have hregion : inRegion a = false := by
    unfold inRegion
    simp
    omega
  unfold State.shown
  rw [if_neg (hne _ (by decide)), if_neg (by omega), if_neg (hne _ (by decide)), if_neg, if_neg (hne _ (by decide)), if_neg (by omega),
    if_neg (by omega), if_neg (by omega), if_neg (by omega), if_neg (by omega), hregion]
  · rfl
  · rintro (h | h | h | h | h) <;> exact hne _ (by decide) h

/-- CQLOST cleared through its mask is the field set to 0. -/
theorem State.wrMask_cqlost (s : State) (a : Nat) : s.wrMask a 0xFFFF#32 0#32 = s.wrf a 0 16 0 := by
  have hmask : fieldMask 0 16 = 0xFFFF#32 := by decide
  unfold State.wrMask State.wrf put
  rw [hmask]
  simp

/-- A management core's read of the word gives it as it stands and clears CQLOST (R4). -/
theorem State.readWord_fncfgW3 (s : State) (n : Fin 4) {g : Nat} (hg : g < 68) :
    s.readWord (.core n) true (Reg.HIF_FNCFG_W3 g) = (s.rd (Reg.HIF_FNCFG_W3 g), s.wrf (Reg.HIF_FNCFG_W3 g) 0 16 0) := by
  obtain ⟨e, ix, hfind, hrc, hwo⟩ := find_fncfgW3 hg
  obtain ⟨hlo, hhi, hmod⟩ := fncfgW3_bounds hg
  generalize Reg.HIF_FNCFG_W3 g = a at hfind hlo hhi hmod ⊢
  have hne : ∀ b, 0x11000 ≤ b → a ≠ b := fun b hb => by omega
  have halias : aliasOf (.core n) a = a := rfl
  have htal : isTalHalf a = false := by
    unfold isTalHalf
    simp
    omega
  have hplain : s.readWord (.core n) true a = (s.shown (.core n) a &&& ~~~ BitVec.ofNat 32 e.wo,
      if e.rc = 0 then s else s.wrMask a (BitVec.ofNat 32 e.rc) 0#32) := by
    unfold State.readWord
    rw [halias]
    dsimp only
    rw [htal, if_neg Bool.false_ne_true, if_neg (hne _ (by decide)), if_neg (by simp), if_neg (hne _ (by decide)),
      if_neg (hne _ (by decide)), if_neg (hne _ (by decide)), if_neg (by omega), if_neg (by omega), hfind]
  rw [hplain, s.shown_fncfg _ hhi (by omega), hrc, hwo, BitVec.not_zero, BitVec.and_allOnes, if_neg (by decide)]
  exact congrArg _ (s.wrMask_cqlost a)

/-! ## Statements of O11 -/

/-- A request of 4 bytes that passes the tests is served: a write by the word's block, a read of its word, and of a tally by the
requester's latch. -/
theorem single_requests_served (s : State) (rq : Requester) (a : Nat) (v : Word) (hoff : s.off = false) (hdrain : s.isDraining rq = false) :
    (s.fails rq false true a 4 = none → exec (.registerWrite rq a v) s = .next (s.writeWord rq a v)) ∧
    (s.fails rq false false a 4 = none → a ∉ s.poisoned → ∃ t, exec (.rcRead rq a) s = .next t ∧
      t = (s.readWord rq true a).2.send (.readData rq [(s.readWord rq true a).1])) ∧
    (s.fails rq false false a 4 = none → a ∉ s.poisoned → a % 8 = 0 → isTalHalf a = true → ∃ t, exec (.latchedLowRead rq a) s = .next t ∧
      t.out = .readData rq [s.rd a] :: s.out ∧ t.latchOf rq (talKey a) (a + 4) = some (s.rd (a + 4)) ∧
      t = { s with out := t.out, latches := t.latches }) ∧
    (s.fails rq false false a 4 = none → a ∉ s.poisoned → a % 8 = 4 → isTalHalf a = true → s.latchOf rq (talKey a) a = some v →
      ∃ t, exec (.tallyHighRead rq a) s = .next t ∧ t.out = .readData rq [v] :: s.out ∧ t.latchOf rq (talKey a) a = none ∧
      t = { s with out := t.out, latches := t.latches }) := by
  refine ⟨fun hpass => ?_, fun hpass hclean => ?_, fun hpass hclean hlow htal => ?_, fun hpass hclean hhigh htal hlatch => ?_⟩
  · exact congrArg Host.Outcome.next (s.access_write hoff hdrain hpass rfl)
  · exact ⟨_, rfl, s.access_read_one hoff hdrain hpass hclean⟩
  · refine ⟨_, congrArg Host.Outcome.next (s.access_read_one hoff hdrain hpass hclean), ?_⟩
    rw [s.readWord_talLow rq htal hlow]
    exact ⟨rfl, s.latchOf_latch rq _ _ _, rfl⟩
  · refine ⟨_, congrArg Host.Outcome.next (s.access_read_one hoff hdrain hpass hclean), ?_⟩
    rw [State.readWord_talHigh htal hhigh hlatch]
    exact ⟨rfl, s.latchOf_unlatch rq _ _, rfl⟩

/-- A management core's read of a function's CQLOST gives it, clears it and touches nothing else of the word or of the state. -/
theorem cqlost_read_clears (s : State) (n : Fin 4) (g : Nat) (hg : g < 68) (hoff : s.off = false) (hdrain : s.isDraining (.core n) = false)
    (hisland : s.silent 64 = false) (hclean : Reg.HIF_FNCFG_W3 g ∉ s.poisoned) :
    ∃ t, exec (.rcRead (.core n) (Reg.HIF_FNCFG_W3 g)) s = .next t ∧
      t.out = .readData (.core n) [s.rd (Reg.HIF_FNCFG_W3 g)] :: s.out ∧ t.rdf (Reg.HIF_FNCFG_W3 g) 0 16 = 0 ∧
      t.rdf (Reg.HIF_FNCFG_W3 g) 16 16 = s.rdf (Reg.HIF_FNCFG_W3 g) 16 16 ∧
      OnlyWords [Reg.HIF_FNCFG_W3 g] { s with out := t.out } t := by
  refine ⟨_, congrArg Host.Outcome.next (s.access_read_one hoff hdrain (State.fails_fncfgW3 n hg hisland) hclean), ?_⟩
  rw [s.readWord_fncfgW3 n hg]
  refine ⟨rfl, s.rdf_wrf_same _ 0 (by omega), ?_, ?_⟩
  · exact (congrArg (fld · 16 16) (s.rd_wr_same _ _)).trans (fld_put_ne _ 0 (by omega))
  · exact (OnlyWords.refl _ (s.send (.readData (.core n) [s.rd (Reg.HIF_FNCFG_W3 g)]))).wrf 0 16 0 (List.mem_singleton.2 rfl)

/-- A request of several words is served word by word, and one that fails a test is answered by the default target. -/
theorem longer_requests_served (s : State) (rq : Requester) (a n : Nat) (vs : List Word) (hoff : s.off = false)
    (hdrain : s.isDraining rq = false) :
    (s.fails rq false true a n = none → vs.length = n / 4 →
      exec (.matrixRequest [⟨rq, false, true, a, n, vs⟩]) s = .next (s.writeWordsAt rq a vs)) ∧
    (s.fails rq false false a n = none → (∀ b, b ∈ wordsAt a n → b ∉ s.poisoned) → ∃ t,
      exec (.matrixRequest [⟨rq, false, false, a, n, []⟩]) s = .next t ∧
        t = (s.readWords rq (n == 4) (wordsAt a n)).2.send (.readData rq (s.readWords rq (n == 4) (wordsAt a n)).1)) ∧
    (∀ c i, s.fails rq false false a n = some (c, i) → ∃ t, exec (.matrixRequest [⟨rq, false, false, a, n, []⟩]) s = .next t ∧
      t.bit Reg.MTX_ERRSTAT c = true ∧ WordsAndEvents mtxLog s t) := by
  refine ⟨fun hpass hlen => ?_, fun hpass hclean => ?_, fun c i hfail => ?_⟩
  · exact congrArg Host.Outcome.next (s.access_write hoff hdrain hpass hlen)
  · exact ⟨_, rfl, s.access_read hoff hdrain hpass hclean⟩
  · refine ⟨_, congrArg Host.Outcome.next (s.access_refused hoff hdrain hfail), ?_⟩
    exact s.refuse_effect rq false false a i _ (State.fails_lt hfail)

/-- A burst is its first part and then its rest (R19, R24). -/
theorem exec_matrixRequest_append (xs ys : List Access) (s : State) :
    ∃ t, exec (.matrixRequest xs) s = .next t ∧ exec (.matrixRequest (xs ++ ys)) s = exec (.matrixRequest ys) t :=
  ⟨_, rfl, congrArg Host.Outcome.next List.foldl_append⟩

/-- Settles O11: requests of one word, the RC field of HIF_FNCFG, requests of several words, and bursts. -/
theorem requestsAreServed : Obligations.RequestsAreServed := by
  unfold Obligations.RequestsAreServed
  exact ⟨single_requests_served, cqlost_read_clears, longer_requests_served,
    fun xs ys s => ⟨rfl, exec_matrixRequest_append xs ys s⟩⟩

end Sys2Proof.Machine
end

section
/-! PROOF. For O10, O45 and O60: what the end of a batch, the fence of a tile and the cut of its drive leave alone, whatever the state. -/

namespace Sys2Proof.Machine

/-! ## Bits and fields after a write -/

theorem State.bit_wr_ne (s : State) {a b : Nat} (v : Word) (i : Nat) (h : b ≠ a) : (s.wr a v).bit b i = s.bit b i :=
  congrArg (wbit · i) (s.rd_wr_ne v h)

theorem State.rdf_wr_ne (s : State) {a b : Nat} (v : Word) (lo n : Nat) (h : b ≠ a) : (s.wr a v).rdf b lo n = s.rdf b lo n :=
  congrArg (fld · lo n) (s.rd_wr_ne v h)

theorem State.bit_wrBit_ne (s : State) (a : Nat) {i j : Nat} (b : Bool) (h : j ≠ i) : (s.wrBit a i b).bit a j = s.bit a j :=
  (congrArg (wbit · j) (s.rd_wr_same a _)).trans (wbit_put_ne _ _ (by omega))

theorem State.rdf_wrf_ne (s : State) (a : Nat) {lo n lo' n' : Nat} (v : Nat) (h : lo' + n' ≤ lo ∨ lo + n ≤ lo') :
    (s.wrf a lo n v).rdf a lo' n' = s.rdf a lo' n' :=
  (congrArg (fld · lo' n') (s.rd_wr_same a _)).trans (fld_put_ne _ _ h)

/-! ## Words set aside -/

/-- A word of the matrix's block, or one of the fault block that no index, however large, makes the address of a TOL word. (In a state
that no run reaches, a batch may name any number as its partition.) -/
def AsideWord (a : Nat) : Prop :=
  (0x20000 ≤ a ∧ a < 0x30000) ∨ (0x110000 ≤ a ∧ a < 0x120000 ∧ a % 32 ≠ 16 ∧ a % 32 ≠ 20 ∧ a % 32 ≠ 28)

theorem not_asideWord_of_low {a : Nat} (h : a < 0x20000) : ¬ AsideWord a := by
  unfold AsideWord
  omega

theorem not_asideWord_of_mid {a : Nat} (hlo : 0x30000 ≤ a) (hhi : a < 0x110000) : ¬ AsideWord a := by
  unfold AsideWord
  omega

theorem not_asideWord_of_high {a : Nat} (h : 0x120000 ≤ a) : ¬ AsideWord a := by
  unfold AsideWord
  omega

/-- The words of a partition at the Tollkeeper that `setToll` and `tollStat` write. -/
theorem not_asideWord_toll (p : Nat) :
    ¬ AsideWord (Reg.TOL_SHLEVEL p) ∧ ¬ AsideWord (Reg.TOL_POLEVEL p) ∧ ¬ AsideWord (Reg.TOL_QSTAT p) := by
  unfold AsideWord Reg.TOL_SHLEVEL Reg.TOL_POLEVEL Reg.TOL_QSTAT
  omega

/-- The words of a cell in its tile's window. -/
theorem not_asideWord_coo (c w : Nat) : ¬ AsideWord (cooWord c w) :=
  not_asideWord_of_high (by unfold cooWord Reg.COO_CELL_W0; omega)

theorem not_asideWord_drv (c w : Nat) : ¬ AsideWord (drvWord c w) :=
  not_asideWord_of_high (by unfold drvWord Reg.DRV_CELL_W0; omega)

/-- From `s` to `t` every word set aside reads as before, the drains go on, no function gains Bus Master Enable, and a configuration space
that was as a reset leaves it still is. -/
structure Aside (s t : State) : Prop where
  rd : ∀ a, AsideWord a → t.rd a = s.rd a
  draining : t.draining = s.draining
  bme : ∀ g, g ∉ s.bme → g ∉ t.bme
  cfg : ∀ g, s.cfg g = FnCfg.zero → t.cfg g = FnCfg.zero

theorem Aside.refl (s : State) : Aside s s := ⟨fun _ _ => rfl, rfl, fun _ h => h, fun _ h => h⟩

theorem Aside.trans {s t u : State} (h : Aside s t) (k : Aside t u) : Aside s u :=
  ⟨fun a ha => (k.rd a ha).trans (h.rd a ha), k.draining.trans h.draining, fun g hg => k.bme g (h.bme g hg), fun g hg => k.cfg g (h.cfg g hg)⟩

theorem Aside.bit {s t : State} (h : Aside s t) {a : Nat} (ha : AsideWord a) (i : Nat) : t.bit a i = s.bit a i :=
  congrArg (wbit · i) (h.rd a ha)

theorem Aside.rdf {s t : State} (h : Aside s t) {a : Nat} (ha : AsideWord a) (lo n : Nat) : t.rdf a lo n = s.rdf a lo n :=
  congrArg (fld · lo n) (h.rd a ha)

/-- An update of the state's other fields. -/
theorem Aside.update {s t u : State} (h : Aside s t)
    (hsame : u.words = t.words ∧ u.draining = t.draining ∧ u.bme = t.bme ∧ u.fnCfg = t.fnCfg := by exact ⟨rfl, rfl, rfl, rfl⟩) : Aside s u := by
  obtain ⟨hwords, hdraining, hbme, hcfg⟩ := hsame
  refine h.trans ⟨fun a _ => ?_, hdraining, fun g => by rw [hbme]; exact id, fun g => ?_⟩
  · unfold State.rd
    rw [hwords]
  · unfold State.cfg
    rw [hcfg]
    exact id

theorem Aside.wr {s t : State} (h : Aside s t) {a : Nat} (v : Word) (ha : ¬ AsideWord a) : Aside s (t.wr a v) :=
  ⟨fun b hb => (t.rd_wr_ne v (by rintro rfl; exact ha hb)).trans (h.rd b hb), h.draining, h.bme, h.cfg⟩

theorem Aside.wrf {s t : State} (h : Aside s t) {a : Nat} (lo n v : Nat) (ha : ¬ AsideWord a) : Aside s (t.wrf a lo n v) := h.wr _ ha

theorem Aside.wrBit {s t : State} (h : Aside s t) {a : Nat} (i : Nat) (b : Bool) (ha : ¬ AsideWord a) : Aside s (t.wrBit a i b) := h.wr _ ha

theorem Aside.count {s t : State} (h : Aside s t) {a : Nat} (lo n k : Nat) (ha : ¬ AsideWord a) : Aside s (t.count a lo n k) := h.wr _ ha

theorem Aside.bump {s t : State} (h : Aside s t) {a : Nat} (ha : ¬ AsideWord a) : Aside s (t.bump a) := h.wr _ ha

theorem Aside.send {s t : State} (h : Aside s t) (o : Output) : Aside s (t.send o) := h.update

theorem Aside.setRing {s t : State} (h : Aside s t) (r : Nat) (x : RingRec) : Aside s (t.setRing r x) := h.update

theorem Aside.setSession {s t : State} (h : Aside s t) (n : Nat) (x : SessRec) : Aside s (t.setSession n x) := h.update

theorem Aside.foldl {α : Type} {s t : State} (xs : List α) (f : State → α → State) (hf : ∀ u x, x ∈ xs → Aside s u → Aside s (f u x))
    (h : Aside s t) : Aside s (xs.foldl f t) := by
  induction xs generalizing t with
  | nil => exact h
  | cons x xs ih => exact ih (fun u y hy => hf u y (List.mem_cons_of_mem _ hy)) (hf t x List.mem_cons_self h)

theorem Aside.when {s t : State} (h : Aside s t) (b : Bool) {f : State → State} (hf : Aside s (f t)) : Aside s (t.when b f) := by
  cases b with
  | false => exact h
  | true => exact hf

/-! ## Events and completions -/

/-- A masked vector is left pending, and a configuration space as a reset leaves it masks none. -/
theorem Aside.msixSend {s t : State} (h : Aside s t) (g v : Nat) : Aside s (t.msixSend g v) := by
  unfold State.msixSend
  dsimp only
  split
  · next hmasked =>
    refine h.trans ⟨fun _ _ => rfl, rfl, fun _ hg => hg, fun g' hzero => ?_⟩
    have hne : g' ≠ g := by
      rintro rfl
      rw [hzero] at hmasked
      exact absurd hmasked (by simp [FnCfg.zero])
    exact (Store.get_set_ne _ _ _ _ hne).trans hzero
  · exact h.send _

theorem Aside.ringSignal {s t : State} (h : Aside s t) (r : Nat) : Aside s (t.ringSignal r) := by
  unfold State.ringSignal
  dsimp only
  split
  · exact h
  · split
    · exact (h.setRing _ _).msixSend _ _
    · exact h.setRing _ _

theorem Aside.ringPut {s t : State} (h : Aside s t) (r : Nat) (ws : List Word) : Aside s (t.ringPut r ws) :=
  ((h.send _).wrf _ _ _ (not_asideWord_of_high (by unfold Reg.RING_W4; omega))).ringSignal r

theorem Aside.ringDrop {s t : State} (h : Aside s t) (r : Nat) : Aside s (t.ringDrop r) :=
  (h.count _ _ _ (not_asideWord_of_high (by unfold Reg.RING_W6; omega))).setRing _ _

theorem Aside.payEvlost {s t : State} (h : Aside s t) (r : Nat) : Aside s (t.payEvlost r) := by
  unfold State.payEvlost
  split
  · exact h
  · exact (h.setRing _ _).ringPut _ _

theorem Aside.eventToFn {s t : State} (h : Aside s t) (ws : List Word) (g : Nat) : Aside s (t.eventToFn ws g) := by
  unfold State.eventToFn
  split
  · exact h
  · dsimp only
    split
    · split
      · exact (h.payEvlost _).ringDrop _
      · exact (h.payEvlost _).ringPut _ _
    · exact h.ringDrop _

theorem Aside.eventToSession {s t : State} (h : Aside s t) (ws : List Word) (n : Nat) : Aside s (t.eventToSession ws n) := by
  unfold State.eventToSession
  split
  · exact h
  · exact h.setSession _ _

theorem Aside.eventMgmt {s t : State} (h : Aside s t) (ws : List Word) (skip : Option Nat) : Aside s (t.eventMgmt ws skip) :=
  Aside.foldl _ _ (fun _ n _ hu => hu.eventToSession ws n) (Aside.foldl _ _ (fun _ g _ hu => hu.eventToFn ws g) h)

theorem Aside.eventPart {s t : State} (h : Aside s t) (ws : List Word) (p : Nat) : Aside s (t.eventPart ws p) :=
  Aside.foldl _ _ (fun _ n _ hu => hu.eventToSession ws n) (Aside.foldl _ _ (fun _ g _ hu => hu.eventToFn ws g) h)

theorem Aside.err {s t : State} (h : Aside s t) {a : Nat} (i : Nat) (ha : ¬ AsideWord a) : Aside s (t.err a i) := by
  unfold State.err
  split
  · exact h
  · exact (h.wrBit _ _ ha).eventMgmt _ _

theorem Aside.errOtherLinks {s t : State} (h : Aside s t) {a : Nat} (i l : Nat) (ha : ¬ AsideWord a) : Aside s (t.errOtherLinks a i l) := by
  unfold State.errOtherLinks
  split
  · exact h
  · exact (h.wrBit _ _ ha).eventMgmt _ _

theorem not_asideWord_hifErrstat : ¬ AsideWord Reg.HIF_ERRSTAT := not_asideWord_of_low (by decide)

theorem State.ringOwner_lt {s : State} {r g : Nat} (h : s.ringOwner r = some g) : g < 68 :=
  List.mem_range.1 (List.mem_of_find?_eq_some h)

theorem Aside.cqLost {s t : State} (h : Aside s t) (r : Nat) : Aside s (t.cqLost r) := by
  unfold State.cqLost
  split
  · exact h.err _ not_asideWord_hifErrstat
  · next g hg =>
    have hlt := State.ringOwner_lt hg
    exact (h.count _ _ _ (not_asideWord_of_low (by unfold Reg.HIF_FNCFG_W3; omega))).err _ not_asideWord_hifErrstat

theorem Aside.postCq {s t : State} (h : Aside s t) (r : Nat) (ws : List Word) : Aside s (t.postCq r ws) := by
  unfold State.postCq
  split
  · split
    · exact h
    · split
      · exact (h.setRing _ _).ringPut _ _
      · split
        · exact h.update
        · exact (h.setRing _ _).cqLost _
  · exact h

theorem Aside.postComplete {s t : State} (h : Aside s t) (o : Origin) (ws : List Word) : Aside s (t.postComplete o ws) := by
  cases o with
  | ring cq f tag => exact h.postCq cq ws
  | session n tag => exact h.update
  | dropped => exact h

/-! ## The end of a batch -/

theorem Aside.completeBatch {s t : State} (h : Aside s t) (qs : List Nat) (tc : Option Nat) : Aside s (t.completeBatch qs tc) := by
  refine Aside.foldl _ _ (fun u q _ hu => ?_) h
  unfold State.completeCue
  split
  · exact hu.postComplete _ _
  · exact hu

theorem Aside.finishCues {s t : State} (h : Aside s t) (qs : List Nat) (st status : Nat) (cause : Option Nat) :
    Aside s (t.finishCues qs st status cause) :=
  (Aside.foldl _ _ (fun _ q _ hu =>
    ((hu.wr _ (not_asideWord_of_high (by unfold Reg.CUE_W3; omega))).wr _ (not_asideWord_of_high (by unfold Reg.CUE_W6; omega))).wrf _ _ _
      (not_asideWord_of_high (by unfold Reg.CUE_W7; omega))) h).completeBatch qs none

theorem Aside.leaveCommit {s t : State} (h : Aside s t) (id : Nat) : Aside s (t.leaveCommit id) := by
  unfold State.leaveCommit
  split
  · exact h
  · dsimp only
    split <;> exact h.update

theorem Aside.setToll {s t : State} (h : Aside s t) (p : Nat) (x : TollPart) : Aside s (t.setToll p x) := by
  obtain ⟨hshaper, hpolicer, -⟩ := not_asideWord_toll p
  have hstore : Aside s { t with toll := Store.set TollPart.reset t.toll p x } := h.update
  exact (hstore.wr _ hshaper).wr _ hpolicer

theorem Aside.tagHead {s t : State} (h : Aside s t) (p : Nat) (cause : HeadCause) : Aside s (t.tagHead p cause) := by
  unfold State.tagHead
  dsimp only
  split
  · split
    · exact h.setToll _ _
    · exact h
  · split
    · exact h
    · split <;> exact h.setToll _ _

theorem Aside.tollStat {s t : State} (h : Aside s t) (p : Nat) : Aside s (t.tollStat p) := by
  obtain ⟨-, -, hqstat⟩ := not_asideWord_toll p
  exact (h.wr _ (not_asideWord_of_mid (a := Reg.TOL_STAT) (by decide) (by decide))).wr _ hqstat

theorem Aside.endOne {s t : State} (h : Aside s t) (b : Batch) (e : Ending) : Aside s (t.endOne b e) := by
  have hcues := (h.leaveCommit b.id).finishCues b.cues e.state e.status e.cause
  unfold State.endOne State.dequeue
  exact ((hcues.update).tagHead _ _).tollStat _

theorem Aside.markStale {s t : State} (h : Aside s t) (hit : Batch → Solution → Bool) : Aside s (t.markStale hit) := h.update

theorem Aside.noteNamed {s t : State} (h : Aside s t) (ids : List Nat) : Aside s (t.noteNamed ids) := h.update

theorem Aside.endBatches {s t : State} (h : Aside s t) (n : Nat) (es : List Ending) : Aside s (State.endBatches n t es) := by
  induction n generalizing t es with
  | zero => exact h
  | succ n ih =>
    cases es with
    | nil => exact h
    | cons e es =>
      rw [State.endBatches]
      split
      · exact ih h es
      · next b _ => exact ih (((h.endOne b e).markStale _).noteNamed _) _

theorem Aside.lampStat {s t : State} (h : Aside s t) : Aside s t.lampStat := by
  have hstat : ¬ AsideWord Reg.LMP_STAT := not_asideWord_of_mid (by decide) (by decide)
  have harm : ¬ AsideWord Reg.LMP_ARMTIME := not_asideWord_of_mid (by decide) (by decide)
  have hwhl : ¬ AsideWord Reg.WHL_STAT := not_asideWord_of_mid (by decide) (by decide)
  have htol : ¬ AsideWord Reg.TOL_STAT := not_asideWord_of_mid (by decide) (by decide)
  exact (((h.wr _ hstat).wr _ harm).wr _ hwhl).wrBit _ _ htol

theorem Aside.finish {s t : State} (h : Aside s t) (es : List Ending) : Aside s (t.finish es) := by
  unfold State.finish
  split
  · exact h
  · exact (h.endBatches _ es).lampStat

theorem Aside.invalidateBy {s t : State} (h : Aside s t) (protection : Bool) (hit : Batch → Solution → Bool) :
    Aside s (t.invalidateBy protection hit) :=
  (((h.markStale _).finish _).count _ _ _ (not_asideWord_of_mid (a := Reg.WHL_STALECNT) (by decide) (by decide))).lampStat

theorem Aside.setSolveStart {s t : State} (h : Aside s t) (x : Option SolveRun) : Aside s { t with solveStart := x } := h.update

theorem Aside.invalidate {s t : State} (h : Aside s t) (protection : Bool) (cells near ckts : List Nat) :
    Aside s (t.invalidate protection cells near ckts) :=
  (h.invalidateBy protection (t.reaches cells near ckts)).setSolveStart _

/-! ## Protection -/

theorem Aside.setCommits {s t : State} (h : Aside s t) (cs : List Commit) : Aside s { t with commits := cs } := h.update

theorem Aside.placeSwitch {s t : State} (h : Aside s t) (c : Ckt) : Aside s (t.placeSwitch c) := by
  unfold State.placeSwitch
  dsimp only
  split <;> exact (h.invalidate _ _ _ _).setCommits _

theorem Aside.decideSwitch {s t : State} (h : Aside s t) (c : Ckt) : Aside s (t.decideSwitch c) := by
  unfold State.decideSwitch
  split
  · exact h
  · extract_lets dark record noted
    have hnoted : Aside s noted := by
      unfold noted
      split
      · have hset : Aside s (t.setProt c.inp { record with wkg := c.inp, bothLos := true }) := h.update
        exact (hset.eventMgmt _ _).eventPart _ _
      · split
        · exact h.update
        · exact h
    split
    · exact hnoted.placeSwitch c
    · exact hnoted

theorem Aside.decideProtection {s t : State} (h : Aside s t) : Aside s t.decideProtection :=
  Aside.foldl _ _ (fun _ c _ hu => hu.decideSwitch c) h

/-! ## The fabric state table -/

theorem rotr_lt {x n : Nat} (hx : x < 512) (h1 : 1 ≤ n) (h9 : n ≤ 9) : rotr x n < 512 := by
  unfold rotr
  interval_cases n <;> omega

theorem rotl_lt {x n : Nat} (hx : x < 512) (h1 : 1 ≤ n) (h9 : n ≤ 9) : rotl x n < 512 := by
  unfold rotl
  interval_cases n <;> omega

/-- A link leads from one of the 512 positions to another (Table 2-1). -/
theorem onward_lt {g x : Nat} (hx : x < 512) : onward g x < 512 := by
  unfold onward link
  split
  · split
    · exact rotr_lt hx (by omega) (by omega)
    · split
      · exact rotr_lt hx (by omega) (by omega)
      · split
        · exact rotl_lt hx (by omega) (by omega)
        · exact rotl_lt hx (by omega) (by omega)
  · exact hx

theorem throughCell_lt (cross : Bool) {x : Nat} (hx : x < 512) : throughCell cross x < 512 := by
  unfold throughCell
  split
  · exact Nat.xor_lt_two_pow (n := 9) hx (by omega)
  · exact hx

/-- A trace from an input ends at an output (R38). -/
theorem trace_lt (st : Nat → Bool) {k : Nat} (hk : k < 512) : trace st k < 512 := by
  unfold trace
  generalize List.range 19 = gs
  induction gs generalizing k with
  | nil => exact hk
  | cons g gs ih => exact ih (onward_lt (throughCell_lt _ hk))

theorem Aside.reportTile {s t : State} (h : Aside s t) {tile : Nat} (htile : tile < 64) : Aside s (t.reportTile tile) := by
  refine Aside.foldl _ _ (fun u l hl hu => hu.wr _ (not_asideWord_of_mid ?_ ?_)) h
  · unfold Reg.CIR_CELLST
    omega
  · have := List.mem_range.1 hl
    unfold Reg.CIR_CELLST cellOf cellAt
    omega

theorem Aside.refreshMaps {s t : State} (h : Aside s t) : Aside s t.refreshMaps := by
  refine Aside.foldl _ _ (fun u c hc hu => hu.wrf _ _ _ (not_asideWord_of_mid ?_ ?_)) (Aside.foldl _ _ (fun u k hk hu => ?_) h)
  · unfold Reg.CIR_CELLST
    omega
  · have := List.mem_range.1 hc
    unfold Reg.CIR_CELLST
    omega
  · have hin := List.mem_range.1 hk
    have hout := trace_lt t.reported hin
    exact (hu.wr _ (not_asideWord_of_mid (by unfold Reg.CIR_INMAP; omega) (by unfold Reg.CIR_INMAP; omega))).wr _
      (not_asideWord_of_mid (by unfold Reg.CIR_OUTMAP; omega) (by unfold Reg.CIR_OUTMAP; omega))

theorem Aside.fsTick {s t : State} (h : Aside s t) : Aside s t.fsTick := h.bump (not_asideWord_of_mid (a := Reg.CIR_FSSEQ) (by decide) (by decide))

theorem Aside.reportAlone {s t : State} (h : Aside s t) {tile : Nat} (htile : tile < 64) : Aside s (t.reportAlone tile) :=
  ((h.fsTick.reportTile htile).refreshMaps).fsTick

/-! ## Cells -/

theorem Aside.setCoo {s t : State} (h : Aside s t) (c : Nat) (x : CooRec) : Aside s (t.setCoo c x) := h.update

theorem Aside.setTileRec {s t : State} (h : Aside s t) (tile : Nat) (x : TileRec) : Aside s (t.setTileRec tile x) := h.update

theorem Aside.setCell {s t : State} (h : Aside s t) (c : Nat) (x : CellRec) : Aside s (t.setCell c x) := by
  have hcells : Aside s { t with cells := Store.set CellRec.rest t.cells c x } := h.update
  exact hcells.wr _ (not_asideWord_of_high (by unfold Reg.COO_CELL_W7; omega))

theorem Aside.settleClamps {s t : State} (h : Aside s t) (c : Nat) : Aside s (t.settleClamps c) := by
  unfold State.settleClamps
  dsimp only
  split
  · exact h
  · split
    · exact h.setCoo _ _
    · exact ((h.setCoo _ _).count _ _ _ (not_asideWord_drv c 3)).err _ (not_asideWord_of_high (by unfold Reg.DRV_ERRSTAT; omega))

theorem Aside.toMode {s t : State} (h : Aside s t) (c m : Nat) : Aside s (t.toMode c m) := by
  unfold State.toMode
  dsimp only
  split
  · exact ((h.settleClamps c).wr _ (not_asideWord_drv c 2)).setCell _ _
  · exact (h.settleClamps c).setCell _ _

theorem Aside.cooStat {s t : State} (h : Aside s t) (tile : Nat) : Aside s (t.cooStat tile) :=
  h.wr _ (not_asideWord_of_high (by unfold Reg.COO_STAT; omega))

theorem Aside.traceFire {s t : State} (h : Aside s t) (tile : Nat) : Aside s (t.traceFire tile) := by
  have hstat : ¬ AsideWord (Reg.COO_TRSTAT tile) := not_asideWord_of_high (by unfold Reg.COO_TRSTAT; omega)
  unfold State.traceFire
  dsimp only
  split
  · exact ((h.wrBit _ _ hstat).setTileRec _ _).wrBit _ _ hstat
  · exact h

theorem Aside.dropBand {s t : State} (h : Aside s t) (c : Nat) : Aside s (t.dropBand c) := by
  unfold State.dropBand State.traceFireCell
  dsimp only
  split
  · split
    · exact (h.wrBit _ _ (not_asideWord_coo c 7)).traceFire _
    · exact h.wrBit _ _ (not_asideWord_coo c 7)
  · exact h

theorem Aside.restTile {s t : State} (h : Aside s t) (tile : Nat) : Aside s (t.restTile tile) := by
  refine Aside.cooStat (Aside.foldl _ _ (fun u c _ hu => ?_) h) tile
  have hcodes : Aside s (((u.toMode c 6).setPbase c 0).setHcode c 0) :=
    ((hu.toMode c 6).wrf _ _ _ (not_asideWord_coo c 13)).wrf _ _ _ (not_asideWord_coo c 13)
  exact ((hcodes.dropBand c).setCoo _ _).setCell _ _

theorem Aside.cutTile {s t : State} (h : Aside s t) (tile : Nat) : Aside s (t.cutTile tile) :=
  ((h.setTileRec _ _).restTile tile).wrBit _ _ (not_asideWord_of_high (by unfold Reg.DRV_STAT; omega))

theorem Aside.fenceCell {s t : State} (h : Aside s t) (c : Nat) : Aside s (t.fenceCell c) := (h.toMode c 5).setCoo _ _

/-! ## Cells in CAL -/

theorem Aside.deferCal {s t : State} (h : Aside s t) (x : CalRec) : Aside s (t.deferCal x) := by
  unfold State.deferCal State.asyFinish
  split
  · split
    · exact Aside.wr h.update _ (not_asideWord_of_mid (a := Reg.ASY_CMDRES) (by decide) (by decide))
    · exact h.update
  · exact h

theorem Aside.calSource {s t : State} (h : Aside s t) (en band : Bool) : Aside s (t.calSource en band) := by
  unfold State.calSource
  split
  · exact h
  · exact h.update

theorem Aside.afterCal {s t : State} (h : Aside s t) : Aside s t.afterCal := by
  have hstatus : ∀ {u : State}, Aside s u → Aside s u.asyStat.tnkStat := fun {u} hu =>
    have hasy : ¬ AsideWord Reg.ASY_STAT := not_asideWord_of_mid (by decide) (by decide)
    (((hu.wrBit 31 _ hasy).wrf 28 3 _ hasy).wrBit 26 _ hasy).wrBit 31 _ (not_asideWord_of_mid (a := Reg.TNK_STAT) (by decide) (by decide))
  unfold State.afterCal
  split
  · exact hstatus ((h.calSource _ _).update)
  · exact hstatus h

/-! ## Fencing -/

theorem AsideWord.islstat {i : Nat} (h : i < 69) : AsideWord (Reg.MTX_ISLSTAT i) := by
  unfold AsideWord Reg.MTX_ISLSTAT
  omega

theorem AsideWord.not_ring {a : Nat} (h : AsideWord a) : isRingWord a = false := by
  unfold AsideWord at h
  unfold isRingWord
  simp
  omega

/-- The first words of a fence (R11): LOCK as given, FENCED 1, TBOK 0, and FLT_STAT counting the tile; no other word changes. -/
theorem State.markFenced_effect (s : State) {a : Nat} (lock : Bool) (hne : a ≠ Reg.FLT_STAT) :
    let t := (((s.wrBit a 0 lock).wrBit a 1 true).wrBit a 2 false).countFenced
    t.bit a 0 = lock ∧ t.bit a 1 = true ∧ t.bit a 2 = false ∧ ∀ b, b ≠ a → b ≠ Reg.FLT_STAT → t.rd b = s.rd b := by
  refine ⟨?_, ?_, ?_, fun b hb hstat => ?_⟩
  · refine (State.bit_wr_ne _ _ 0 hne).trans ?_
    rw [State.bit_wrBit_ne _ _ _ (by omega), State.bit_wrBit_ne _ _ _ (by omega), State.bit_wrBit_same _ _ _ (by omega)]
  · refine (State.bit_wr_ne _ _ 1 hne).trans ?_
    rw [State.bit_wrBit_ne _ _ _ (by omega), State.bit_wrBit_same _ _ _ (by omega)]
  · exact (State.bit_wr_ne _ _ 2 hne).trans (State.bit_wrBit_same _ _ _ (by omega))
  · exact (State.rd_wr_ne _ _ hstat).trans ((State.rd_wr_ne _ _ hb).trans ((State.rd_wr_ne _ _ hb).trans (State.rd_wr_ne _ _ hb)))

/-- The fence of a tile that was not fenced (R11, R392): LOCK as given, FENCED 1, TBOK 0, the fault block's FENCED bit set; the other words
set aside but FLT_STAT read as before. -/
theorem State.fenceTile_effect (s : State) {tile : Nat} (lock : Bool) (htile : tile < 64) (hfree : s.bit (Reg.MTX_ISLSTAT tile) 1 = false) :
    let t := s.fenceTile tile lock
    t.bit (Reg.MTX_ISLSTAT tile) 0 = (lock && s.bit (Reg.MTX_ISLSTAT tile) 0) ∧ t.bit (Reg.MTX_ISLSTAT tile) 1 = true ∧
      t.bit (Reg.MTX_ISLSTAT tile) 2 = false ∧ t.bit Reg.FLT_ERRSTAT 3 = true ∧
      ∀ a, AsideWord a → a ≠ Reg.MTX_ISLSTAT tile → a ≠ Reg.FLT_STAT → a ≠ Reg.FLT_ERRSTAT → t.rd a = s.rd a := by
  have hisl : AsideWord (Reg.MTX_ISLSTAT tile) := AsideWord.islstat (by omega)
  have herr : AsideWord Reg.FLT_ERRSTAT := .inr (by decide)
  have hstat : Reg.MTX_ISLSTAT tile ≠ Reg.FLT_STAT := by unfold Reg.MTX_ISLSTAT Reg.FLT_STAT; omega
  have hne : Reg.MTX_ISLSTAT tile ≠ Reg.FLT_ERRSTAT := by unfold Reg.MTX_ISLSTAT Reg.FLT_ERRSTAT; omega
  unfold State.fenceTile
  rw [if_neg (by simp [hfree])]
  extract_lets marked fenced released raised
  obtain ⟨hlock, hfenced, htbok, hrest⟩ := s.markFenced_effect (lock && s.bit (Reg.MTX_ISLSTAT tile) 0) hstat
  have hreleased : Aside marked released := by
    refine Aside.afterCal (Aside.foldl _ _ (fun _ x _ hu => hu.deferCal x) ?_)
    exact Aside.foldl _ _ (fun _ c _ hu => hu.fenceCell c) (Aside.refl marked).update
  have hlogged := (hreleased.reportAlone htile).invalidate false (tileCells tile) [] []
  have hend := (((Aside.refl raised).when (s.tbBad && !raised.tbBad) (Aside.refl raised).decideProtection).cooStat tile).lampStat
  have hkept : ∀ a, AsideWord a → a ≠ Reg.FLT_ERRSTAT →
      (((raised.when (s.tbBad && !raised.tbBad) (·.decideProtection)).cooStat tile).lampStat).rd a = marked.rd a := fun a ha hane =>
    (hend.rd a ha).trans ((State.rd_err_ne _ 3 hane ha.not_ring).trans (hlogged.rd a ha))
  refine ⟨?_, ?_, ?_, ?_, fun a ha haisl hastat hane => (hkept a ha hane).trans (hrest a haisl hastat)⟩
  · exact (congrArg (wbit · 0) (hkept _ hisl hne)).trans hlock
  · exact (congrArg (wbit · 1) (hkept _ hisl hne)).trans hfenced
  · exact (congrArg (wbit · 2) (hkept _ hisl hne)).trans htbok
  · exact (hend.bit herr 3).trans (State.err_bit _ (by omega) herr.not_ring)

end Sys2Proof.Machine
end

section
/-! PROOF. O10: refused requests, and requests that an island does not answer in time. -/

namespace Sys2Proof.Machine

theorem masterOf_lt (rq : Requester) : masterOf rq < 16 := by
  cases rq with
  | fn l f => exact Nat.lt_trans l.isLt (by omega)
  | session n => exact (by decide : 4 < 16)
  | core n => exact (by decide : 5 < 16)
  | internal m => exact m.isLt

/-- With no capture held, the error log takes the request before its cause bit is set (R25). -/
theorem State.mtxError_of_free (s : State) (rq : Requester) (bar2 isWrite : Bool) (a c island : Nat)
    (hfree : s.rdf Reg.MTX_ERRSTAT 0 4 = 0) :
    WordsAndEvents [Reg.MTX_ERRSTAT] ((s.wr Reg.MTX_ERRADDR (wd a)).wr Reg.MTX_ERRINFO
      (pack [(16, 7, if c = 3 then island else 0), (10, 1, bar2.toNat), (9, 1, isWrite.toNat), (4, 5, funcOf rq), (0, 4, masterOf rq)]))
      (s.mtxError rq bar2 isWrite a c island) := by
  unfold State.mtxError
  rw [hfree]
  extract_lets held captured logged
  have hlogged : WordsAndEvents [Reg.MTX_ERRSTAT] captured logged := State.errCores_events (.refl _ captured) c (by simp)
  have hcaptured : captured = (s.wr Reg.MTX_ERRADDR (wd a)).wr Reg.MTX_ERRINFO
      (pack [(16, 7, if c = 3 then island else 0), (10, 1, bar2.toNat), (9, 1, isWrite.toNat), (4, 5, funcOf rq), (0, 4, masterOf rq)]) :=
    if_neg Bool.false_ne_true
  rw [← hcaptured]
  split
  · split
    · exact hlogged.send _
    · exact hlogged
  · exact hlogged

/-- With no capture held, a refusal captures the request's address, master and direction (R25). -/
theorem State.refuse_captures (s : State) (rq : Requester) (isWrite : Bool) (a c island n : Nat) (hfree : s.rdf Reg.MTX_ERRSTAT 0 4 = 0) :
    let t := s.refuse rq false isWrite a c island n
    t.rd Reg.MTX_ERRADDR = wd a ∧ t.rdf Reg.MTX_ERRINFO 0 4 = masterOf rq ∧ t.bit Reg.MTX_ERRINFO 9 = isWrite := by
  have hevents := State.answer_events (s.mtxError_of_free rq false isWrite a c island hfree) rq isWrite a (causeStatus c) n
  have hinfo := (hevents.rd (a := Reg.MTX_ERRINFO) (by decide) (by decide)).trans (State.rd_wr_same _ _ _)
  refine ⟨?_, ?_, ?_⟩
  · refine (hevents.rd (a := Reg.MTX_ERRADDR) (by decide) (by decide)).trans ?_
    exact (State.rd_wr_ne _ _ (by decide)).trans (State.rd_wr_same _ _ _)
  · refine (congrArg (fld · 0 4) hinfo).trans ?_
    simp [pack, fld_put_same, Nat.mod_eq_of_lt (masterOf_lt rq)]
  · refine (congrArg (wbit · 9) hinfo).trans ?_
    simp [pack, wbit_put_ne, wbit_put_same]

/-- A request that the matrix refuses, by its command. -/
theorem refused_write_effect (s : State) (rq : Requester) (a : Nat) (v : Word) (c i : Nat) (hoff : s.off = false)
    (hdrain : s.isDraining rq = false) (hfail : s.fails rq false true a 4 = some (c, i)) :
    ∃ t, exec (.registerWrite rq a v) s = .next t ∧ WordsAndEvents mtxLog s t ∧ t.bit Reg.MTX_ERRSTAT c = true ∧
      (s.rdf Reg.MTX_ERRSTAT 0 4 = 0 → t.rd Reg.MTX_ERRADDR = wd a ∧ t.rdf Reg.MTX_ERRINFO 0 4 = masterOf rq ∧ t.bit Reg.MTX_ERRINFO 9 = true) := by
  obtain ⟨hbit, hevents⟩ := s.refuse_effect rq false true a i 1 (State.fails_lt hfail)
  exact ⟨_, congrArg Host.Outcome.next (s.access_refused (x := ⟨rq, false, true, a, 4, [v]⟩) hoff hdrain hfail), hevents, hbit,
    s.refuse_captures rq true a c i 1⟩

/-- A request that passed the tests before and names its island runs into TOUT there: the default target answers with cause 3, and a tile
that would have answered is fenced. -/
theorem exec_islandTimeout (s : State) (x : Access) (i : Fin 69) (hoff : s.off = false) (hdrain : s.isDraining x.rq = false)
    (hpass : s.failsBefore x.rq x.bar2 x.write x.addr x.size = none) (hisland : i.val = if x.bar2 then 64 else islandOf x.addr) :
    exec (.islandTimeout x i) s =
      .next (if i.val < 64 ∧ !s.silent i then (s.refuse x.rq x.bar2 x.write x.addr 3 i ((x.size + 3) / 4)).fenceTile i true
        else s.refuse x.rq x.bar2 x.write x.addr 3 i ((x.size + 3) / 4)) := by
  simp only [exec, execIslandTimeout, hoff, hdrain, hpass, ← hisland, ne_eq, not_true_eq_false, if_false, Bool.or_self, Bool.false_eq_true]

theorem timeout_at_silent_or_hub (s : State) (x : Access) (i : Fin 69) (hoff : s.off = false) (hdrain : s.isDraining x.rq = false)
    (hpass : s.failsBefore x.rq x.bar2 x.write x.addr x.size = none) (hisland : i.val = if x.bar2 then 64 else islandOf x.addr)
    (hkind : s.silent i = true ∨ 64 ≤ i.val) :
    ∃ t, exec (.islandTimeout x i) s = .next t ∧ WordsAndEvents mtxLog s t ∧ t.bit Reg.MTX_ERRSTAT 3 = true := by
  obtain ⟨hbit, hevents⟩ := s.refuse_effect x.rq x.bar2 x.write x.addr i ((x.size + 3) / 4) (c := 3) (by omega)
  have hstays : ¬ (i.val < 64 ∧ !s.silent i) := by
    rintro ⟨htile, hanswers⟩
    rcases hkind with hsilent | hhub
    · simp [hsilent] at hanswers
    · omega
  refine ⟨_, exec_islandTimeout s x i hoff hdrain hpass hisland, ?_⟩
  rw [if_neg hstays]
  exact ⟨hevents, hbit⟩

theorem timeout_fences_tile (s : State) (x : Access) (i : Fin 69) (hoff : s.off = false) (hdrain : s.isDraining x.rq = false)
    (hpass : s.failsBefore x.rq x.bar2 x.write x.addr x.size = none) (hisland : i.val = if x.bar2 then 64 else islandOf x.addr)
    (hanswers : s.silent i = false) (htile : i.val < 64) :
    ∃ t, exec (.islandTimeout x i) s = .next t ∧ t.bit Reg.MTX_ERRSTAT 3 = true ∧ t.bit (Reg.MTX_ISLSTAT i) 1 = true ∧
      t.bit (Reg.MTX_ISLSTAT i) 2 = false := by
  obtain ⟨hbit, hevents⟩ := s.refuse_effect x.rq x.bar2 x.write x.addr i ((x.size + 3) / 4) (c := 3) (by omega)
  have hisl : AsideWord (Reg.MTX_ISLSTAT i) := AsideWord.islstat i.isLt
  have hfree : s.bit (Reg.MTX_ISLSTAT i) 1 = false := (Bool.or_eq_false_iff.1 hanswers).1
  have hsame := hevents.rd (a := Reg.MTX_ISLSTAT i) (by simp [Reg.MTX_ISLSTAT, Reg.MTX_ERRSTAT, Reg.MTX_ERRADDR, Reg.MTX_ERRINFO]; omega)
    hisl.not_ring
  obtain ⟨-, hfenced, htbok, -, hrest⟩ :=
    State.fenceTile_effect _ true htile ((congrArg (wbit · 1) hsame).trans hfree)
  refine ⟨_, exec_islandTimeout s x i hoff hdrain hpass hisland, ?_⟩
  rw [if_pos ⟨htile, by simp [hanswers]⟩]
  refine ⟨(congrArg (wbit · 3) (hrest _ (.inl (by decide)) ?_ (by decide) (by decide))).trans hbit, hfenced, htbok⟩
  unfold Reg.MTX_ISLSTAT Reg.MTX_ERRSTAT
  omega

theorem exec_islandTimeout_other (s : State) (x : Access) (i : Fin 69) (hoff : s.off = false) (hdrain : s.isDraining x.rq = false)
    (hpass : s.failsBefore x.rq x.bar2 x.write x.addr x.size = none) (hother : i.val ≠ if x.bar2 then 64 else islandOf x.addr) :
    exec (.islandTimeout x i) s = .next s := by
  simp only [exec, execIslandTimeout, hoff, hdrain, hpass, ne_eq, hother, not_false_eq_true, if_true, Bool.or_self, Bool.false_eq_true,
    if_false]

/-- Settles O10: a request that fails a test, and one that reaches TOUT at a silent island or a hub, at a tile that would have answered, and
at another island. -/
theorem refusedRequestsChangeNothing : Obligations.RefusedRequestsChangeNothing := by
  unfold Obligations.RefusedRequestsChangeNothing
  refine ⟨refused_write_effect, fun s x i hoff hdrain hpass => ⟨?_, ?_, ?_⟩⟩
  · exact timeout_at_silent_or_hub s x i hoff hdrain hpass
  · exact timeout_fences_tile s x i hoff hdrain hpass
  · exact exec_islandTimeout_other s x i hoff hdrain hpass

end Sys2Proof.Machine
end

section
/-! PROOF. O12: a master reset, the drain it starts, and the drain's end. -/

namespace Sys2Proof.Machine

/-- A reset that finds no traffic of its scope only starts the drain. -/
theorem State.drainTraffic_idle (s : State) (k : ResetScope) (bursts : List Burst) (reads : List Access)
    (hbursts : ∀ b, b ∈ bursts → scopeCovers k b.rq = false) (hreads : ∀ x, x ∈ reads → scopeCovers k x.rq = false) :
    s.drainTraffic k bursts reads = { s with draining := (s.draining.filter fun d => d.1 != k) ++ [(k, 0, 0)] } := by
  have hb : (bursts.filter fun b => scopeCovers k b.rq) = [] := List.filter_eq_nil_iff.2 fun b hb => by simp [hbursts b hb]
  have hr : (reads.filter fun x => scopeCovers k x.rq) = [] := List.filter_eq_nil_iff.2 fun x hx => by simp [hreads x hx]
  unfold State.drainTraffic
  rw [hb, hr]
  rfl

theorem State.answer_out (s : State) (rq : Requester) (isWrite : Bool) (a status n : Nat) :
    s.answer rq isWrite a status n = { s with out := (s.answer rq isWrite a status n).out } := by
  unfold State.answer
  split
  · split
    · rfl
    · split <;> rfl
  · rfl
  · rfl

/-- A write of a requester whose port drains is answered and does nothing else (R27). -/
theorem draining_write_changes_nothing (s : State) (rq : Requester) (a : Nat) (v : Word) (hdrain : s.isDraining rq = true)
    (hoff : s.off = false) : ∃ t, exec (.registerWrite rq a v) s = .next t ∧ t = { s with out := t.out } := by
  have haccess : s.access ⟨rq, false, true, a, 4, [v]⟩ = s.answer rq true a 5 ((4 + 3) / 4) := by
    simp [State.access, hoff, hdrain]
  exact ⟨_, congrArg Host.Outcome.next haccess, s.answer_out rq true a 5 _⟩

theorem WordsAndEvents.draining {as : List Nat} {s t : State} (h : WordsAndEvents as s t) : t.draining = s.draining := by
  rw [h.2]

/-- The end of a drain (R26, R27): its log, bit DRAIN, and the port open again. -/
theorem drainComplete_logs (s : State) (k : ResetScope) (cyc : Fin 257) (d : ResetScope × Nat × Nat)
    (hfind : s.draining.find? (fun d => d.1 == k) = some d) :
    ∃ t, exec (.drainComplete k cyc) s = .next t ∧
      t.draining = s.draining.filter (fun x => x.1 != k) ∧ t.rdf Reg.MTX_DRAINLOG 9 8 = min d.2.1 255 ∧
      t.rdf Reg.MTX_DRAINLOG 17 6 = min d.2.2 63 ∧ t.rdf Reg.MTX_DRAINLOG 23 9 = cyc.val ∧ t.bit Reg.MTX_ERRSTAT 4 = true ∧
      WordsAndEvents [Reg.MTX_DRAINLOG, Reg.MTX_ERRSTAT] { s with draining := t.draining } t := by
  have hcyc : cyc.val < 512 := by omega
  refine ⟨_, by simp only [exec, execDrainComplete, hfind]; rfl, ?_⟩
  generalize hclosed : { s with draining := s.draining.filter fun x => x.1 != k } = closed
  generalize hlog : pack [(23, 9, cyc.val), (17, 6, satN 6 d.2.2), (9, 8, satN 8 d.2.1), (4, 5, (scopeIds k).2), (0, 4, (scopeIds k).1)] = log
  generalize ht : (closed.wr Reg.MTX_DRAINLOG log).errCores Reg.MTX_ERRSTAT 4 = t
  have hlogged : WordsAndEvents [Reg.MTX_ERRSTAT] (closed.wr Reg.MTX_DRAINLOG log) t :=
    ht ▸ State.errCores_events (.refl _ _) 4 (by simp)
  have hword : t.rd Reg.MTX_DRAINLOG = log := (hlogged.rd (by decide) (by decide)).trans (State.rd_wr_same _ _ _)
  have hevents : WordsAndEvents [Reg.MTX_DRAINLOG, Reg.MTX_ERRSTAT] closed t :=
    ht ▸ State.errCores_events ((WordsAndEvents.refl _ closed).wr log (.inl (by simp))) 4 (by simp)
  have hopen : t.draining = closed.draining := hevents.draining
  refine ⟨hopen.trans (hclosed ▸ rfl), ?_, ?_, ?_, ht ▸ State.errCores_bit _ (by omega) (by decide), ?_⟩
  · refine (congrArg (fld · 9 8) hword).trans ?_
    simp [← hlog, pack, fld_put_ne, fld_put_same, satN]
  · refine (congrArg (fld · 17 6) hword).trans ?_
    simp [← hlog, pack, fld_put_ne, fld_put_same, satN]
  · refine (congrArg (fld · 23 9) hword).trans ?_
    simp [← hlog, pack, fld_put_ne, fld_put_same, Nat.mod_eq_of_lt hcyc]
  · rw [hopen, ← hclosed]
    rw [← hclosed] at hevents
    exact hevents

/-- Settles O12: the start of a drain, a request while it runs, and its end. -/
theorem masterResetDrains : Obligations.MasterResetDrains := by
  unfold Obligations.MasterResetDrains
  intro s k bursts reads cyc
  refine ⟨fun hbursts hreads => ?_, draining_write_changes_nothing s, drainComplete_logs s k cyc⟩
  exact congrArg Host.Outcome.next (s.drainTraffic_idle k bursts reads hbursts hreads)

end Sys2Proof.Machine
end

section
/-! PROOF. O32: the trace ring of a tile. -/

namespace Sys2Proof.Machine

/-! ## Requests of one register word -/

/-- The tests of R24 on a request of one register word that the map names: the access rule, and the island that answers. -/
theorem State.fails_one (s : State) (rq : Requester) (isWrite : Bool) {a : Nat} (hmap : inMap a = true ∧ inMap (a + 3) = true)
    (hmod : a % 4 = 0) (hregion : inRegion a = false) (hfind : (RegMap.find a).isSome = true) :
    s.fails rq false isWrite a 4 =
      if s.mayReach rq isWrite a then if s.silent (islandOf a) then some (3, islandOf a) else none else some (1, 0) := by
  have hsize : sizeOk a 4 = true := by simp [sizeOk, hmod]
  cases hreach : s.mayReach rq isWrite a with
  | false => simp [State.fails, State.failsBefore, wordsAt_four, hmap, hsize, hreach]
  | true => simp [State.fails, State.failsBefore, wordsAt_four, hmap, hsize, hreach, hregion, hfind]

/-! ## COO_TRDATA -/

theorem find_trdata : ∀ t : Fin 64, (RegMap.find (Reg.COO_TRDATA t)).isSome = true := by decide

theorem trdata_bounds (t : Fin 64) : 0x2000000 ≤ Reg.COO_TRDATA t ∧ Reg.COO_TRDATA t + 3 < 0x3000000 ∧ Reg.COO_TRDATA t % 0x40000 = 0x4C ∧
    tileAt (Reg.COO_TRDATA t) = t ∧ islandOf (Reg.COO_TRDATA t) = t := by
  have ht := t.isLt
  have hlo : 0x2000000 ≤ Reg.COO_TRDATA t := by unfold Reg.COO_TRDATA; omega
  have hhi : Reg.COO_TRDATA t + 3 < 0x3000000 := by unfold Reg.COO_TRDATA; omega
  have htile : (Reg.COO_TRDATA t - 0x2000000) / 0x40000 = t := by unfold Reg.COO_TRDATA; omega
  refine ⟨hlo, hhi, by unfold Reg.COO_TRDATA; omega, htile, ?_⟩
  unfold islandOf
  rw [if_neg (by omega), if_neg (by omega), if_neg (by omega), if_neg (by omega), if_pos (by omega), htile]

theorem State.fails_trdata (s : State) (rq : Requester) (t : Fin 64) : s.fails rq false false (Reg.COO_TRDATA t) 4 =
    if s.mayReach rq false (Reg.COO_TRDATA t) then if s.silent t then some (3, t.val) else none else some (1, 0) := by
  obtain ⟨hlo, hhi, hoffset, -, hisland⟩ := trdata_bounds t
  have hone := s.fails_one rq false (a := Reg.COO_TRDATA t) ?_ (by omega) ?_ (find_trdata t)
  · rw [hone, hisland]
  · unfold inMap
    constructor <;> simp <;> omega
  · unfold inRegion
    simp
    omega

/-- A read of COO_TRDATA gives the word that TRADDR names and advances it (R160). -/
theorem State.readWord_trdata (s : State) (rq : Requester) (t : Fin 64) : s.readWord rq true (Reg.COO_TRDATA t) = s.readTrace t := by
  obtain ⟨hlo, hhi, hoffset, htile, -⟩ := trdata_bounds t
  have halias : aliasOf rq (Reg.COO_TRDATA t) = Reg.COO_TRDATA t := aliasOf_of_ge rq (by omega)
  generalize Reg.COO_TRDATA t = a at hlo hhi hoffset htile halias ⊢
  have htal : isTalHalf a = false := by
    unfold isTalHalf
    simp
    omega
  have hne : ∀ b, b < 0x2000000 → a ≠ b := fun b hb => by omega
  unfold State.readWord
  rw [halias]
  dsimp only
  rw [htal, if_neg Bool.false_ne_true, if_neg (hne _ (by decide)), if_neg (by simp), if_neg (hne _ (by decide)),
    if_neg (hne _ (by decide)), if_neg (hne _ (by decide)), if_neg (by omega), if_pos (by omega), htile]

/-! ## Statements of O32 -/

theorem traceEnable_restarts (s : State) (tile : Fin 64) (v : Word) (hoff : s.bit (Reg.COO_TRCTL tile) 31 = false)
    (hon : (s.writeReg (Reg.COO_TRCTL tile) v).bit (Reg.COO_TRCTL tile) 31 = true) :
    ∃ t, exec (.traceEnable tile v) s = .next t ∧ t.rd (Reg.COO_TRSTAT tile) = 0#32 ∧ (t.tileRec tile).tracePost = 0 ∧
      t.bit (Reg.COO_TRCTL tile) 31 = true := by
  have hexec : exec (.traceEnable tile v) s = .next (((s.writeReg (Reg.COO_TRCTL tile) v).wr (Reg.COO_TRSTAT tile) 0#32).setTileRec tile
      { (s.writeReg (Reg.COO_TRCTL tile) v).tileRec tile with tracePost := 0 }) := by
    simp only [exec, execTraceEnable, hoff, hon, Bool.not_false, Bool.and_self, if_true]
  refine ⟨_, hexec, State.rd_wr_same _ _ _, ?_, ?_⟩
  · exact congrArg TileRec.tracePost (Store.get_set_same _ _ _ _)
  · refine (State.bit_wr_ne _ _ 31 ?_).trans hon
    unfold Reg.COO_TRCTL Reg.COO_TRSTAT
    omega

theorem softwareTrigger_shows (s : State) (tile : Fin 64) (hon : s.bit (Reg.COO_TRCTL tile) 31 = true)
    (hstat : s.bit (Reg.COO_TRSTAT tile) 31 = false) :
    ∃ t, exec (.traceTrigger tile .software) s = .next t ∧
      t.bit (Reg.COO_TRSTAT tile) 31 = true ∧ (t.tileRec tile).tracePost = s.rdf (Reg.COO_TRCTL tile) 0 11 ∧
      OnlyWords [Reg.COO_TRSTAT tile] { s with tiles := t.tiles } t := by
  have hon' : wbit (s.rd (Reg.COO_TRCTL tile)) 31 = true := hon
  have hfire : s.traceFire tile = ((s.wrBit (Reg.COO_TRSTAT tile) 31 true).setTileRec tile
      { s.tileRec tile with tracePost := s.rdf (Reg.COO_TRCTL tile) 0 11 }).wrBit (Reg.COO_TRSTAT tile) 30
        (s.rdf (Reg.COO_TRCTL tile) 0 11 == 0) := by
    unfold State.traceFire
    simp only [hon', hstat, Bool.not_false, Bool.and_self, if_true]
    rfl
  refine ⟨_, congrArg Host.Outcome.next hfire, ?_, ?_, ?_⟩
  · refine (State.bit_wrBit_ne _ _ _ (by omega)).trans ?_
    exact s.bit_wrBit_same (Reg.COO_TRSTAT tile) true (by omega)
  · exact congrArg TileRec.tracePost (Store.get_set_same _ _ _ _)
  · exact ((OnlyWords.refl _ _).wrBit 31 true (by simp)).wrBit 30 _ (by simp)

/-- Settles O32: enabling, a software trigger, and a read of COO_TRDATA by the tests of R24. -/
theorem traceRing : Obligations.TraceRing := by
  unfold Obligations.TraceRing
  intro s tile
  refine ⟨traceEnable_restarts s tile, softwareTrigger_shows s tile, fun rq hoff hdrain => ⟨fun hreach hanswers hclean => ?_, fun hfail => ?_⟩⟩
  · have hpass := s.fails_trdata rq tile
    rw [hreach, hanswers] at hpass
    have haccess := s.access_read_one hoff hdrain hpass hclean
    rw [s.readWord_trdata rq tile] at haccess
    refine ⟨_, congrArg Host.Outcome.next haccess, rfl, s.rdf_wrf_same _ _ (by omega), ?_⟩
    exact (OnlyWords.refl _ _).wrf 0 12 _ (by simp)
  · have hfails := s.fails_trdata rq tile
    cases hreach : s.mayReach rq false (Reg.COO_TRDATA tile) with
    | false =>
      rw [hreach] at hfails
      exact ⟨_, congrArg Host.Outcome.next (s.access_refused (x := ⟨rq, false, false, _, 4, []⟩) hoff hdrain hfails),
        s.refuse_effect rq false false _ 0 _ (by omega)⟩
    | true =>
      have hsilent : s.silent tile = true := by simpa [hreach] using hfail
      rw [hreach, hsilent] at hfails
      exact ⟨_, congrArg Host.Outcome.next (s.access_refused (x := ⟨rq, false, false, _, 4, []⟩) hoff hdrain hfails),
        s.refuse_effect rq false false _ tile _ (by omega)⟩

end Sys2Proof.Machine
end

section
/-! PROOF. O54: power requests. -/

namespace Sys2Proof.Machine

/-! ## The request as an access -/

theorem find_pwrReq : ((RegMap.find Reg.PWR_REQ).map fun p => p.1.rules) = some [⟨27, 24, [(0, 5)], 1⟩] := by decide

/-- A target of Table 15-2 is no reserved encoding of PWR_REQ. -/
theorem reservedIn_pwrReq {v : Word} (h : fld v 24 4 ≤ 5) : reservedIn Reg.PWR_REQ v = false := by
  obtain ⟨⟨e, ix⟩, hfind, hrules⟩ := Option.map_eq_some_iff.1 find_pwrReq
  have hrules' : e.rules = [⟨27, 24, [(0, 5)], 1⟩] := hrules
  simp [reservedIn, hfind, hrules', FieldRule.admits, h, Nat.mod_one]

/-- The word of PWR_REQ that a request writes. -/
def pwrReqWord (repl : Bool) (target mask : Nat) : Word := pack [(31, 1, 1), (30, 1, repl.toNat), (24, 4, target), (0, 8, mask)]

theorem pwrReqWord_fields (repl : Bool) {target mask : Nat} (htarget : target ≤ 5) (hmask : mask < 256) :
    wbit (pwrReqWord repl target mask) 31 = true ∧ wbit (pwrReqWord repl target mask) 30 = repl ∧
      fld (pwrReqWord repl target mask) 24 4 = target ∧ fld (pwrReqWord repl target mask) 0 8 = mask := by
  unfold pwrReqWord pack
  simp only [List.foldl]
  refine ⟨?_, ?_, ?_, ?_⟩
  · rw [wbit_put_ne _ _ (by omega), wbit_put_ne _ _ (by omega), wbit_put_ne _ _ (by omega)]
    exact wbit_put_same _ true (by omega)
  · rw [wbit_put_ne _ _ (by omega), wbit_put_ne _ _ (by omega), wbit_put_same _ _ (by omega)]
  · rw [fld_put_ne _ _ (by omega), fld_put_same _ _ (by omega), Nat.mod_eq_of_lt (by omega)]
  · rw [fld_put_same _ _ (by omega), Nat.mod_eq_of_lt (by omega)]

/-- A power request that the matrix serves is judged by the sequencer (R331). -/
theorem State.requestPower_served {s : State} {rq : Requester} (repl : Bool) {target mask : Nat} (htarget : target ≤ 5) (hmask : mask < 256)
    (hoff : s.off = false) (hdrain : s.isDraining rq = false) (hpass : s.fails rq false true Reg.PWR_REQ 4 = none) :
    s.requestPower rq repl target mask = s.powerRequest rq repl target mask := by
  obtain ⟨hgo, hrepl, ht, hm⟩ := pwrReqWord_fields repl htarget hmask
  have halias : aliasOf rq Reg.PWR_REQ = Reg.PWR_REQ := aliasOf_of_ge rq (by decide)
  have hblock : s.writeWord rq Reg.PWR_REQ (pwrReqWord repl target mask) = s.writePwr rq Reg.PWR_REQ (pwrReqWord repl target mask) := by
    unfold State.writeWord
    rw [halias]
    rfl
  refine (s.access_write hoff hdrain hpass rfl).trans (hblock.trans ?_)
  unfold State.writePwr
  rw [reservedIn_pwrReq (by omega), if_pos ⟨rfl, hgo⟩, hrepl, ht, hm, if_pos htarget]
  rfl

/-- The tests of R24 on a write of PWR_REQ: the access rule, and hub H3. -/
theorem State.fails_pwrReq (s : State) (rq : Requester) : s.fails rq false true Reg.PWR_REQ 4 =
    if s.mayReach rq true Reg.PWR_REQ then if s.silent (islandOf Reg.PWR_REQ) then some (3, islandOf Reg.PWR_REQ) else none else some (1, 0) :=
  s.fails_one rq true (by decide) (by decide) (by decide) (by decide)

theorem State.isMgmtFn_fnIndex (s : State) (l : Fin 4) (f : Fin 17) : s.isMgmtFn (fnIndex l f) = s.isMgmt (.fn l f) := by
  unfold State.isMgmt
  by_cases hf : f = 0
  · subst hf
    simp [fnIndex]
  · have hmod : (fnIndex l f % 17 == 0) = false := by
      have := Fin.val_ne_of_ne hf
      simp only [fnIndex, beq_eq_false_iff_ne]
      omega
    simp only [State.isMgmtFn, hmod, beq_false_of_ne hf, Bool.false_and]

/-- Only requesters with full access, and master 11, reach PWR_REQ. -/
theorem State.mayReach_pwrReq {s : State} {rq : Requester} (hmgmt : s.isMgmt rq = false) (happly : rq ≠ .internal 11) :
    s.mayReach rq true Reg.PWR_REQ = false := by
  have hpart : ∀ p, s.partReach p true Reg.PWR_REQ = false := fun p => by
    simp [State.partReach, Reg.PWR_REQ, Reg.CIR_FSCTRL, Reg.CIR_FSSEQ, Reg.CIR_FSGEN, Reg.CIR_FSSNAPSEQ]
  cases rq with
  | fn l f =>
    have hfn : s.fnReach (fnIndex l f) true Reg.PWR_REQ = false := by
      unfold State.fnReach
      rw [if_neg (by decide), if_neg (by decide)]
      split
      · rfl
      · rw [if_neg (by decide)]
        exact hpart _
    have hrecovery : recoveryReach true Reg.PWR_REQ = false := by decide
    simp [State.mayReach, s.isMgmtFn_fnIndex l f, hmgmt, hfn, hrecovery]
  | session n =>
    have hfull : s.bit (Reg.POR_SESS_W0 n) 30 = false := hmgmt
    have hself : ¬ ((0x18000 ≤ Reg.PWR_REQ ∧ Reg.PWR_REQ < 0x19000) ∨ msTable Reg.PWR_REQ = true) := by decide
    unfold State.mayReach
    dsimp only
    rw [if_neg hself, hfull, if_neg Bool.false_ne_true, hpart]
    simp
  | core n => exact absurd hmgmt (by simp [State.isMgmt])
  | internal m =>
    have hm : m ≠ 11 := fun h => happly (h ▸ rfl)
    have hregion : inRegion Reg.PWR_REQ = false := by decide
    simp [State.mayReach, hm, hregion, Reg.PWR_REQ]

/-! ## The sequencer's answer -/

/-- Request `r` taken: PWR_REQ as written, its result open, and the next request's number. -/
def State.noteReq (s : State) (r : PowerReq) (repl : Bool) : State :=
  ({ s with nextReq := s.nextReq + 1 }.wr Reg.PWR_REQ (pack [(30, 1, repl.toNat), (24, 4, r.target), (0, 8, r.mask)])).wr Reg.PWR_REQRES
    (pack [(31, 1, 0), (24, 4, r.target), (16, 4, 1), (4, 6, r.src), (0, 4, r.master)])

/-- The request of a requester, numbered by the sequencer. -/
def State.nextPowerReq (s : State) (rq : Requester) (target mask : Nat) : PowerReq := ⟨s.nextReq, masterOf rq, srcOf rq, target, mask⟩

theorem State.rd_noteReq (s : State) (r : PowerReq) (repl : Bool) {a : Nat} (hreq : a ≠ Reg.PWR_REQ) (hres : a ≠ Reg.PWR_REQRES) :
    (s.noteReq r repl).rd a = s.rd a :=
  (State.rd_wr_ne _ _ hres).trans (State.rd_wr_ne _ _ hreq)

theorem State.noteReq_onlyWords (s : State) (r : PowerReq) (repl : Bool) :
    OnlyWords [Reg.PWR_REQ, Reg.PWR_REQRES] { s with nextReq := s.nextReq + 1 } (s.noteReq r repl) :=
  ((OnlyWords.refl _ _).wr _ (by simp)).wr _ (by simp)

/-- The result of the most recent request is shown in PWR_REQRES (R333). -/
theorem State.reqRes_newest {s : State} {r : PowerReq} (done : Bool) (result : Nat) (hnew : r.id + 1 = s.nextReq) :
    s.reqRes r done result =
      s.wr Reg.PWR_REQRES (pack [(31, 1, done.toNat), (24, 4, r.target), (16, 4, result), (4, 6, r.src), (0, 4, r.master)]) := if_pos hnew

section
variable {s : State} {rq : Requester} {target mask : Nat} (repl : Bool) (hmgmt : s.isMgmt rq = true)
include hmgmt

/-- Before UP a request ends BADSTATE (R376). -/
theorem State.powerRequest_early (hboot : s.bit Reg.BOOT_STAT 31 = false) :
    s.powerRequest rq repl target mask =
      (s.noteReq (s.nextPowerReq rq target mask) repl).reqEnd (s.nextPowerReq rq target mask) 6 := by
  unfold State.powerRequest
  rw [if_pos hmgmt]
  extract_lets r taken noted
  have hnoted : noted = s.noteReq r repl := State.reqRes_newest false 1 rfl
  rw [if_pos (by simp [hboot]), hnoted]
  rfl

variable (hboot : s.bit Reg.BOOT_STAT 31 = true)
include hboot

/-- With no change in progress a request starts (R332). -/
theorem State.powerRequest_idle (hchange : s.change = none) :
    s.powerRequest rq repl target mask =
      ((s.noteReq (s.nextPowerReq rq target mask) repl).startReq (s.nextPowerReq rq target mask)).startSlot := by
  unfold State.powerRequest
  rw [if_pos hmgmt]
  extract_lets r taken noted
  have hnoted : noted = s.noteReq r repl := State.reqRes_newest false 1 rfl
  have hwakes : (s.noteReq r repl).wakesEntry r = false := by
    have hnone : (s.noteReq r repl).change = none := hchange
    simp [State.wakesEntry, hnone]
  rw [if_neg (by simp [hboot]), hnoted, hwakes, if_neg Bool.false_ne_true, hchange]
  rfl

/-- A request that names no group of the change in progress takes the slot when it is free (R332). -/
theorem State.powerRequest_slotted (htarget : target < 4) {k : PowerChange} (hchange : s.change = some k) (hslot : s.slot = none) :
    s.powerRequest rq repl target mask =
      { s.noteReq (s.nextPowerReq rq target mask) repl with slot := some (s.nextPowerReq rq target mask) }.pwrStat := by
  unfold State.powerRequest
  rw [if_pos hmgmt]
  extract_lets r taken noted
  have hnoted : noted = s.noteReq r repl := State.reqRes_newest false 1 rfl
  have hwakes : (s.noteReq r repl).wakesEntry r = false := by
    have hne : target ≠ 5 := by omega
    simp [State.wakesEntry, r, hne]
  rw [if_neg (by simp [hboot]), hnoted, hwakes, if_neg Bool.false_ne_true, hchange, hslot]
  rfl

/-- Where the slot holds another requester's request, or one not to be replaced, a request is DROPPED (R332). -/
theorem State.powerRequest_dropped (htarget : target < 4) {k : PowerChange} {q : PowerReq} (hchange : s.change = some k)
    (hslot : s.slot = some q) (hkeep : repl = false ∨ q.master ≠ masterOf rq ∨ q.src ≠ srcOf rq) :
    s.powerRequest rq repl target mask =
      (s.noteReq (s.nextPowerReq rq target mask) repl).reqEnd (s.nextPowerReq rq target mask) 3 := by
  unfold State.powerRequest
  rw [if_pos hmgmt]
  extract_lets r taken noted
  have hnoted : noted = s.noteReq r repl := State.reqRes_newest false 1 rfl
  have hwakes : (s.noteReq r repl).wakesEntry r = false := by
    have hne : target ≠ 5 := by omega
    simp [State.wakesEntry, r, hne]
  have hother : ¬ (repl && q.master == r.master && q.src == r.src) = true := by
    simp only [Bool.and_eq_true, beq_iff_eq, r]
    rcases hkeep with h | h | h
    · simp [h]
    · exact fun hall => h hall.1.2
    · exact fun hall => h hall.2
  rw [if_neg (by simp [hboot]), hnoted, hwakes, if_neg Bool.false_ne_true, hchange, hslot]
  exact if_neg hother

end

theorem OnlyWords.setSlot {as : List Nat} {s t : State} (h : OnlyWords as s t) (q : Option PowerReq) :
    OnlyWords as { s with slot := q } { t with slot := q } :=
  ⟨h.1, congrArg (fun u : State => { u with slot := q }) h.2⟩

/-! ## A result, and PWR_STAT -/

/-- A request's final result stands in PWR_REQRES (R333), and nothing else changes but what events change. -/
theorem State.reqEnd_effect {s : State} {r : PowerReq} (k : Nat) (hnew : r.id + 1 = s.nextReq) :
    (s.reqEnd r k).rd Reg.PWR_REQRES = pack [(31, 1, 1), (24, 4, r.target), (16, 4, k), (4, 6, r.src), (0, 4, r.master)] ∧
      WordsAndEvents [Reg.PWR_REQRES] s (s.reqEnd r k) := by
  have hres := State.reqRes_newest true k hnew
  have hword : (s.reqRes r true k).rd Reg.PWR_REQRES =
      pack [(31, 1, 1), (24, 4, r.target), (16, 4, k), (4, 6, r.src), (0, 4, r.master)] := by
    rw [hres]
    exact State.rd_wr_same _ _ _
  have hframe : WordsAndEvents [Reg.PWR_REQRES] s (s.reqRes r true k) := by
    rw [hres]
    exact (WordsAndEvents.refl _ s).wr _ (.inl (by simp))
  unfold State.reqEnd
  dsimp only
  split
  · exact ⟨hword, hframe⟩
  · exact ⟨(State.rd_eventMgmt _ _ _ (by decide)).trans hword, State.eventMgmt_events hframe _ _⟩

theorem State.rd_pwrStat (s : State) {a : Nat} (hpwr : a ≠ Reg.PWR_STAT) (htol : a ≠ Reg.TOL_STAT) : s.pwrStat.rd a = s.rd a :=
  (State.rd_wr_ne _ _ htol).trans ((State.rd_wr_ne _ _ hpwr).trans ((State.rd_wr_ne _ _ hpwr).trans (State.rd_wr_ne _ _ hpwr)))

theorem State.pwrStat_onlyWords (s : State) : OnlyWords [Reg.PWR_STAT, Reg.TOL_STAT] s s.pwrStat :=
  ((((OnlyWords.refl _ _).wrBit _ _ (by simp)).wrBit _ _ (by simp)).wrf _ _ _ (by simp)).wrBit _ _ (by simp)

@[simp] theorem State.pwrStat_change (s : State) : s.pwrStat.change = s.change := rfl
@[simp] theorem State.pwrStat_slot (s : State) : s.pwrStat.slot = s.slot := rfl

/-- PWR_STAT before TOL_STAT.RELBLK follows. -/
theorem State.rd_pwrStat_self (s : State) : s.pwrStat.rd Reg.PWR_STAT =
    put (put (put (s.rd Reg.PWR_STAT) 31 1 s.change.isSome.toNat) 30 1 s.slot.isSome.toNat) 24 3 ((s.change.map (·.step)).getD 0) := by
  unfold State.pwrStat
  refine (State.rd_wr_ne _ _ (by decide)).trans ((State.rd_wr_same _ _ _).trans (congrArg (put · 24 3 _) ?_))
  refine (State.rd_wr_same _ _ _).trans (congrArg (put · 30 1 _) ?_)
  exact State.rd_wr_same _ _ _

theorem State.pwrStat_busy (s : State) : s.pwrStat.bit Reg.PWR_STAT 31 = s.change.isSome := by
  unfold State.bit
  rw [s.rd_pwrStat_self, wbit_put_ne _ _ (by omega), wbit_put_ne _ _ (by omega), wbit_put_same _ _ (by omega)]

theorem State.pwrStat_pend (s : State) : s.pwrStat.bit Reg.PWR_STAT 30 = s.slot.isSome := by
  unfold State.bit
  rw [s.rd_pwrStat_self, wbit_put_ne _ _ (by omega), wbit_put_same _ _ (by omega)]

theorem State.pwrStat_step (s : State) : s.pwrStat.rdf Reg.PWR_STAT 24 3 = (s.change.map (·.step)).getD 0 % 8 := by
  unfold State.rdf
  exact (congrArg (fld · 24 3) s.rd_pwrStat_self).trans (fld_put_same _ _ (by omega))

/-- The state, and the groups' sleep and change, stay as they are. -/
theorem State.pwrStat_low (s : State) {i : Nat} (h : i < 24) : s.pwrStat.bit Reg.PWR_STAT i = s.bit Reg.PWR_STAT i := by
  unfold State.bit
  rw [s.rd_pwrStat_self, wbit_put_ne _ _ (by omega), wbit_put_ne _ _ (by omega), wbit_put_ne _ _ (by omega)]

@[simp] theorem State.pwrStat_pstate (s : State) : s.pwrStat.pstate = s.pstate := by
  unfold State.pstate State.rdf
  rw [s.rd_pwrStat_self, fld_put_ne _ _ (by omega), fld_put_ne _ _ (by omega), fld_put_ne _ _ (by omega)]

theorem State.startSlot_busy {s : State} {k : PowerChange} (h : s.change = some k) : s.startSlot = s.pwrStat := by
  unfold State.startSlot
  rw [h]

theorem State.startSlot_empty {s : State} (h : s.slot = none) : s.startSlot = s.pwrStat := by
  unfold State.startSlot
  rw [h]
  cases s.change <;> rfl

/-! ## How a request starts -/

/-- A request that ends at once (R332): its result, over the state `u` that `atOnce` gives. -/
theorem State.startReq_ended {s u : State} {r : PowerReq} {k : Nat} (h : s.atOnce r = some (k, u)) (hslot : u.slot = none) (hchange : u.change = none)
    (hnew : r.id + 1 = u.nextReq) :
    (s.startReq r).startSlot.rd Reg.PWR_REQRES = pack [(31, 1, 1), (24, 4, r.target), (16, 4, k), (4, 6, r.src), (0, 4, r.master)] ∧
      (s.startReq r).startSlot.pstate = u.pstate ∧ (s.startReq r).startSlot.change = none := by
  obtain ⟨hres, hframe⟩ := State.reqEnd_effect k hnew
  have hstart : s.startReq r = u.reqEnd r k := by
    unfold State.startReq
    rw [h]
  have hsame : (u.reqEnd r k).slot = u.slot ∧ (u.reqEnd r k).change = u.change := by
    rw [hframe.2]
    exact ⟨rfl, rfl⟩
  rw [hstart, State.startSlot_empty (hsame.1.trans hslot)]
  refine ⟨(State.rd_pwrStat _ (by decide) (by decide)).trans hres, ?_, hsame.2.trans hchange⟩
  exact (State.pwrStat_pstate _).trans (congrArg (fld · 0 3) (hframe.rd (by decide) (by decide)))

/-- The state once the block of an entry's first step has been asked. -/
def State.begun (s : State) (r : PowerReq) : State :=
  { s with change := some ⟨r, (entrySteps r.target).headD 4, false, 0⟩ }.askStop r ((entrySteps r.target).headD 4)

/-- An entry begins at its first step (R334). -/
theorem State.startReq_begins {s : State} {r : PowerReq} (h : s.atOnce r = none) (htarget : r.target ≠ 5)
    (hchange : (s.begun r).change = some ⟨r, (entrySteps r.target).headD 4, false, 0⟩) :
    (s.startReq r).startSlot = (s.begun r).pwrStat.pwrStat := by
  have hstart : s.startReq r = (s.begun r).pwrStat := by
    unfold State.startReq
    rw [h]
    exact if_neg htarget
  rw [hstart]
  exact State.startSlot_busy hchange

/-- The first step of an entry, in PWR_STAT. -/
theorem State.entry_begins {s : State} {r : PowerReq} (h : s.atOnce r = none) (htarget : r.target ≠ 5)
    (hchange : (s.begun r).change = some ⟨r, (entrySteps r.target).headD 4, false, 0⟩) :
    (s.startReq r).startSlot.change = some ⟨r, (entrySteps r.target).headD 4, false, 0⟩ ∧
      (s.startReq r).startSlot.bit Reg.PWR_STAT 31 = true ∧
      (s.startReq r).startSlot.rdf Reg.PWR_STAT 24 3 = (entrySteps r.target).headD 4 % 8 ∧
      (s.startReq r).startSlot.pstate = (s.begun r).pstate ∧
      ∀ i, i < 24 → (s.startReq r).startSlot.bit Reg.PWR_STAT i = (s.begun r).bit Reg.PWR_STAT i := by
  rw [State.startReq_begins h htarget hchange]
  refine ⟨hchange, ?_, ?_, ?_, fun i hi => ?_⟩
  · rw [State.pwrStat_busy, State.pwrStat_change, hchange]
    rfl
  · rw [State.pwrStat_step, State.pwrStat_change, hchange]
    rfl
  · rw [State.pwrStat_pstate, State.pwrStat_pstate]
  · rw [State.pwrStat_low _ hi, State.pwrStat_low _ hi]

theorem State.begun_plain (s : State) {r : PowerReq} (h : r.target < 4) :
    s.begun r = { s with change := some ⟨r, (entrySteps r.target).headD 4, false, 0⟩ } := by
  unfold State.begun State.askStop
  rw [if_neg, if_neg, if_neg (by omega)]
  all_goals
    rintro ⟨h3, hstep⟩
    rw [h3] at hstep
    exact absurd hstep (by decide)

theorem entrySteps_first_lt (target : Nat) : (entrySteps target).headD 4 < 8 := by
  unfold entrySteps
  split <;> decide

/-- The first step of an entry of the whole module. -/
theorem State.entry_begins_plain {s : State} {r : PowerReq} (h : s.atOnce r = none) (htarget : r.target < 4) :
    (s.startReq r).startSlot.change = some ⟨r, (entrySteps r.target).headD 4, false, 0⟩ ∧
      (s.startReq r).startSlot.bit Reg.PWR_STAT 31 = true ∧
      (s.startReq r).startSlot.rdf Reg.PWR_STAT 24 3 = (entrySteps r.target).headD 4 ∧
      (s.startReq r).startSlot.pstate = s.pstate := by
  have hbegun := s.begun_plain htarget
  obtain ⟨hchg, hbusy, hstep, hstate, -⟩ := State.entry_begins h (by omega) (congrArg State.change hbegun)
  refine ⟨hchg, hbusy, hstep.trans (Nat.mod_eq_of_lt (entrySteps_first_lt _)), hstate.trans ?_⟩
  rw [hbegun]
  rfl

/-- A wake of groups is a change in progress at step 0 (R346). -/
theorem State.wake_begins {s : State} {r : PowerReq} (h : s.atOnce r = none) (htarget : r.target = 5) :
    (s.startReq r).startSlot.change = some ⟨r, 0, false, 0⟩ ∧ (s.startReq r).startSlot.rdf Reg.PWR_STAT 24 3 = 0 := by
  have hstart : s.startReq r = { s.wakeGroups r.mask 4 with change := some ⟨r, 0, false, 0⟩ }.pwrStat := by
    unfold State.startReq
    rw [h]
    exact if_pos htarget
  rw [hstart, State.startSlot_busy rfl]
  exact ⟨rfl, State.pwrStat_step _⟩

/-! ## Which requests end at once (Table 15-2) -/

/-- A target that is not the present state, and that Table 15-2 allows. -/
theorem not_allowed_eq_false {p target : Nat} (hne : target ≠ p) (hfrom : p ≠ 2 ∨ target < 4) : (!allowed p target) = false := by
  simp only [allowed, bne_iff_ne.2 hne, Bool.true_and, Bool.not_eq_false', Bool.or_eq_true, bne_iff_ne, decide_eq_true_eq]
  exact hfrom

section
variable {s : State} {r : PowerReq} (hmaster : r.master ≠ 15)
include hmaster

theorem State.atOnce_reached (htarget : r.target = s.pstate) (hlow : r.target < 3) : s.atOnce r = some (0, s) := by
  unfold State.atOnce
  dsimp only
  rw [if_neg hmaster, if_pos ⟨htarget, hlow⟩]

section
variable (hne : r.target ≠ s.pstate) (hfrom : s.pstate ≠ 2 ∨ r.target < 4)
include hne hfrom

theorem State.atOnce_leave (htarget : r.target = 0) :
    s.atOnce r = some (0, ((s.wrf Reg.PWR_STAT 0 3 0).placeWaiting.decideProtection).lampStat) := by
  unfold State.atOnce
  dsimp only
  rw [if_neg hmaster, if_neg (fun h => hne h.1), not_allowed_eq_false hne hfrom, htarget]
  rfl

theorem State.atOnce_entry (htarget : r.target = 1 ∨ r.target = 2 ∨ r.target = 3) : s.atOnce r = none := by
  unfold State.atOnce
  dsimp only
  rw [if_neg hmaster, if_neg (fun h => hne h.1), not_allowed_eq_false hne hfrom]
  rcases htarget with htarget | htarget | htarget
  · rw [htarget]
    rfl
  · rw [htarget]
    rfl
  · rw [htarget]
    rfl

theorem State.atOnce_sleep (htarget : r.target = 4) :
    s.atOnce r = if (maskGroups r.mask).any s.groupBusy then some (7, s) else if r.mask = 0 then some (0, s) else none := by
  unfold State.atOnce
  dsimp only
  rw [if_neg hmaster, if_neg (fun h => hne h.1), not_allowed_eq_false hne hfrom, htarget]
  rfl

theorem State.atOnce_wake (htarget : r.target = 5) :
    s.atOnce r = if (maskGroups r.mask).any fun g => s.bit Reg.PWR_STAT (16 + g) then none else some (0, s) := by
  unfold State.atOnce
  dsimp only
  rw [if_neg hmaster, if_neg (fun h => hne h.1), not_allowed_eq_false hne hfrom, htarget]
  rfl

end

end

theorem State.masterOf_ne_thermal {s : State} {rq : Requester} (h : s.isMgmt rq = true) : masterOf rq ≠ 15 := by
  cases rq with
  | fn l f => exact fun he => absurd l.isLt (by simp only [masterOf] at he; omega)
  | session n => exact (by decide : (4 : Nat) ≠ 15)
  | core n => exact (by decide : (5 : Nat) ≠ 15)
  | internal m => exact Bool.noConfusion h

/-- The groups of a mask, by its bits. -/
theorem mem_maskGroups {m : BitVec 8} {g : Nat} : g ∈ maskGroups m.toNat ↔ g < 8 ∧ m.getLsbD g = true := by
  simp [maskGroups, ← BitVec.testBit_toNat, Nat.testBit_eq_decide_div_mod_eq]

/-- The circuit table's words. -/
theorem State.ckts_congr {s t : State} (h : ∀ a, 0x40000 ≤ a → a < 0x50000 → t.rd a = s.rd a) : t.ckts = s.ckts := by
  have hckt : ∀ k ∈ List.range 512, t.ckt k = s.ckt k := fun k hk => by
    have hk := List.mem_range.1 hk
    unfold State.ckt
    rw [h (Reg.CIR_CKTA k) (by unfold Reg.CIR_CKTA; omega) (by unfold Reg.CIR_CKTA; omega),
      h (Reg.CIR_CKTB k) (by unfold Reg.CIR_CKTB; omega) (by unfold Reg.CIR_CKTB; omega)]
  exact List.filterMap_congr hckt

theorem State.ckts_noteReq (s : State) (r : PowerReq) (repl : Bool) : (s.noteReq r repl).ckts = s.ckts :=
  State.ckts_congr fun a _ ha => s.rd_noteReq r repl (by unfold Reg.PWR_REQ; omega) (by unfold Reg.PWR_REQRES; omega)

theorem State.groupBusy_noteReq (s : State) (r : PowerReq) (repl : Bool) (g : Nat) : (s.noteReq r repl).groupBusy g = s.groupBusy g := by
  have hsleep : (s.noteReq r repl).bit Reg.PWR_STAT (16 + g) = s.bit Reg.PWR_STAT (16 + g) :=
    congrArg (wbit · (16 + g)) (s.rd_noteReq r repl (by decide) (by decide))
  have hrest := (s.noteReq_onlyWords r repl).2
  have hcells : (s.noteReq r repl).cells = s.cells := by rw [hrest]
  have hbatches : (s.noteReq r repl).batches = s.batches := by rw [hrest]
  have halts : (s.noteReq r repl).alts = s.alts := by rw [hrest]
  unfold State.groupBusy State.cross State.cell State.heldBatches
  rw [hsleep, s.ckts_noteReq, hcells, hbatches, halts]

theorem State.bit_pinGroups (s : State) {g : Nat} (xs : List Nat) (hg : g < 8) (h : g ∈ xs ∨ s.bit Reg.PWR_STAT (8 + g) = true) :
    (xs.foldl (fun s x => s.wrBit Reg.PWR_STAT (8 + x) true) s).bit Reg.PWR_STAT (8 + g) = true := by
  induction xs generalizing s with
  | nil => exact h.resolve_left List.not_mem_nil
  | cons x xs ih =>
    refine ih _ ?_
    by_cases hx : g = x
    · exact .inr (hx ▸ s.bit_wrBit_same _ _ (by omega))
    · refine h.imp (fun hmem => (List.mem_cons.1 hmem).resolve_left hx) fun hset => ?_
      exact (State.bit_wrBit_ne _ _ _ (by omega)).trans hset

/-- The groups of a sleep request are pinned. -/
theorem State.bit_setTrans (s : State) {m g : Nat} (hg : g ∈ maskGroups m) : (s.setTrans m true).bit Reg.PWR_STAT (8 + g) = true :=
  s.bit_pinGroups _ (List.mem_range.1 (List.mem_filter.1 hg).1) (.inl hg)

theorem State.setTrans_onlyWords (s : State) (m : Nat) (b : Bool) : OnlyWords [Reg.PWR_STAT] s (s.setTrans m b) :=
  OnlyWords.each _ _ (fun _ _ _ h => h.wrBit _ _ (by simp)) (.refl _ _)

/-! ## Statements of O54 -/

/-- What POWER_REQUEST, TGSLEEP and TGWAKE do: a write of PWR_REQ with their target and mask. -/
theorem exec_powerRequest {c : Instr} {rq : Requester} {repl : Bool} {target mask : Nat} (s : State)
    (hc : (c = .powerRequestP0 rq repl ∧ target = 0 ∧ mask = 0) ∨ (c = .powerRequestP1 rq repl ∧ target = 1 ∧ mask = 0) ∨
      (c = .powerRequestP2 rq repl ∧ target = 2 ∧ mask = 0) ∨ (c = .powerRequestP3 rq repl ∧ target = 3 ∧ mask = 0) ∨
      (∃ m : BitVec 8, c = .tgsleep rq repl m ∧ target = 4 ∧ mask = m.toNat) ∨
      (∃ m : BitVec 8, c = .tgwake rq repl m ∧ target = 5 ∧ mask = m.toNat)) :
    exec c s = .next (s.requestPower rq repl target mask) ∧ target ≤ 5 ∧ mask < 256 := by
  rcases hc with ⟨rfl, rfl, rfl⟩ | ⟨rfl, rfl, rfl⟩ | ⟨rfl, rfl, rfl⟩ | ⟨rfl, rfl, rfl⟩ | ⟨m, rfl, rfl, rfl⟩ | ⟨m, rfl, rfl, rfl⟩
  · exact ⟨rfl, by omega, by omega⟩
  · exact ⟨rfl, by omega, by omega⟩
  · exact ⟨rfl, by omega, by omega⟩
  · exact ⟨rfl, by omega, by omega⟩
  · exact ⟨rfl, by omega, m.isLt⟩
  · exact ⟨rfl, by omega, m.isLt⟩

/-- A power request that fails a test of R24. -/
theorem powerRequest_refused {s : State} {rq : Requester} (repl : Bool) (target mask : Nat) {e i : Nat} (hoff : s.off = false)
    (hdrain : s.isDraining rq = false) (hfail : s.fails rq false true Reg.PWR_REQ 4 = some (e, i)) :
    (s.requestPower rq repl target mask).bit Reg.MTX_ERRSTAT e = true ∧
      WordsAndEvents mtxLog s (s.requestPower rq repl target mask) := by
  have hcode : e < 4 := by
    have hcases := hfail
    rw [s.fails_pwrReq] at hcases
    split at hcases
    · split at hcases
      · obtain ⟨rfl, -⟩ := Prod.mk.inj (Option.some.inj hcases)
        omega
      · cases hcases
    · obtain ⟨rfl, -⟩ := Prod.mk.inj (Option.some.inj hcases)
      omega
  have haccess : s.requestPower rq repl target mask = s.refuse rq false true Reg.PWR_REQ e i 1 :=
    State.access_refused (x := ⟨rq, false, true, Reg.PWR_REQ, 4, _⟩) hoff hdrain hfail
  rw [haccess]
  exact s.refuse_effect rq false true _ i _ hcode

/-- A request that ends with a result at once, with the state before it: BADSTATE before UP, DROPPED. -/
theorem noteReq_reqEnd_effect (s : State) (rq : Requester) (repl : Bool) (target mask k : Nat) :
    let t := (s.noteReq (s.nextPowerReq rq target mask) repl).reqEnd (s.nextPowerReq rq target mask) k
    t.rd Reg.PWR_REQRES = pack [(31, 1, 1), (24, 4, target), (16, 4, k), (4, 6, srcOf rq), (0, 4, masterOf rq)] ∧
      t.rd Reg.PWR_REQ = pack [(30, 1, repl.toNat), (24, 4, target), (0, 8, mask)] ∧
      WordsAndEvents [Reg.PWR_REQ, Reg.PWR_REQRES] { s with nextReq := s.nextReq + 1 } t := by
  obtain ⟨hres, hframe⟩ := State.reqEnd_effect (s := s.noteReq (s.nextPowerReq rq target mask) repl) (r := s.nextPowerReq rq target mask) k rfl
  refine ⟨hres, (hframe.rd (by decide) (by decide)).trans ?_, ?_⟩
  · exact (State.rd_wr_ne _ _ (by decide)).trans (State.rd_wr_same _ _ _)
  · refine (s.noteReq_onlyWords _ repl).events.trans ⟨fun a ha => hframe.1 a fun hmem => ha (List.mem_cons_of_mem _ hmem), hframe.2⟩

/-- DROPPED is reported in PWR_REQRES alone. -/
theorem reqEnd_dropped_onlyWords {s : State} {r : PowerReq} (hnew : r.id + 1 = s.nextReq) : OnlyWords [Reg.PWR_REQRES] s (s.reqEnd r 3) := by
  have hend : s.reqEnd r 3 = s.reqRes r true 3 := by
    unfold State.reqEnd
    exact if_pos rfl
  rw [hend, State.reqRes_newest true 3 hnew]
  exact (OnlyWords.refl _ _).wr _ (by simp)

theorem OnlyWords.trans {as : List Nat} {s t u : State} (h : OnlyWords as s t) (k : OnlyWords as t u) : OnlyWords as s u := by
  refine ⟨fun a ha => ⟨((k.1 a ha).1).trans (h.1 a ha).1, (k.1 a ha).2.trans (h.1 a ha).2⟩, ?_⟩
  exact k.2.trans (congrArg (fun v : State => { v with words := u.words, poisoned := u.poisoned }) h.2)

section
variable {s : State} {rq : Requester} {target mask : Nat} (repl : Bool) (hmgmt : s.isMgmt rq = true)
include hmgmt

theorem powerRequest_badstate (hboot : s.bit Reg.BOOT_STAT 31 = false) :
    (s.powerRequest rq repl target mask).rd Reg.PWR_REQRES =
        pack [(31, 1, 1), (24, 4, target), (16, 4, 6), (4, 6, srcOf rq), (0, 4, masterOf rq)] ∧
      (s.powerRequest rq repl target mask).rd Reg.PWR_REQ = pack [(30, 1, repl.toNat), (24, 4, target), (0, 8, mask)] ∧
      (s.powerRequest rq repl target mask).nextReq = s.nextReq + 1 ∧
      WordsAndEvents [Reg.PWR_REQ, Reg.PWR_REQRES] { s with nextReq := s.nextReq + 1 } (s.powerRequest rq repl target mask) := by
  obtain ⟨hres, hreq, hframe⟩ := noteReq_reqEnd_effect s rq repl target mask 6
  rw [State.powerRequest_early repl hmgmt hboot]
  exact ⟨hres, hreq, congrArg State.nextReq hframe.2, hframe⟩

theorem powerRequest_drops (hboot : s.bit Reg.BOOT_STAT 31 = true) (htarget : target < 4) {k : PowerChange} {q : PowerReq}
    (hchange : s.change = some k) (hslot : s.slot = some q) (hkeep : repl = false ∨ q.master ≠ masterOf rq ∨ q.src ≠ srcOf rq) :
    (s.powerRequest rq repl target mask).rd Reg.PWR_REQRES =
        pack [(31, 1, 1), (24, 4, target), (16, 4, 3), (4, 6, srcOf rq), (0, 4, masterOf rq)] ∧
      OnlyWords [Reg.PWR_REQ, Reg.PWR_REQRES] { s with nextReq := s.nextReq + 1 } (s.powerRequest rq repl target mask) := by
  obtain ⟨hres, -, -⟩ := noteReq_reqEnd_effect s rq repl target mask 3
  rw [State.powerRequest_dropped repl hmgmt hboot htarget hchange hslot hkeep]
  exact ⟨hres, (s.noteReq_onlyWords _ repl).trans ((reqEnd_dropped_onlyWords rfl).mono fun a ha => List.mem_cons_of_mem _ ha)⟩

theorem powerRequest_takesSlot (hboot : s.bit Reg.BOOT_STAT 31 = true) (htarget : target < 4) {k : PowerChange}
    (hchange : s.change = some k) (hslot : s.slot = none) :
    (s.powerRequest rq repl target mask).slot = some (s.nextPowerReq rq target mask) ∧
      (s.powerRequest rq repl target mask).bit Reg.PWR_STAT 30 = true ∧
      OnlyWords [Reg.PWR_REQ, Reg.PWR_REQRES, Reg.PWR_STAT, Reg.TOL_STAT]
        { s with nextReq := s.nextReq + 1, slot := (s.powerRequest rq repl target mask).slot } (s.powerRequest rq repl target mask) := by
  rw [State.powerRequest_slotted repl hmgmt hboot htarget hchange hslot]
  refine ⟨State.pwrStat_slot _, State.pwrStat_pend _, ?_⟩
  rw [State.pwrStat_slot]
  have htaken : OnlyWords [Reg.PWR_REQ, Reg.PWR_REQRES] { s with nextReq := s.nextReq + 1, slot := some (s.nextPowerReq rq target mask) }
      { s.noteReq (s.nextPowerReq rq target mask) repl with slot := some (s.nextPowerReq rq target mask) } :=
    (s.noteReq_onlyWords _ repl).setSlot _
  refine (htaken.mono ?_).trans ((State.pwrStat_onlyWords _).mono ?_)
  · simp
  · simp

end

/-! ## A request with no change in progress -/

theorem State.pstate_noteReq (s : State) (r : PowerReq) (repl : Bool) : (s.noteReq r repl).pstate = s.pstate :=
  congrArg (fld · 0 3) (s.rd_noteReq r repl (by decide) (by decide))

/-- With no held batch and no circuit, what leaves P1 at once is PWR_STAT.STATE alone, beside the status words of commits. -/
theorem State.leaveP1_idle {s : State} (hbatches : s.batches = []) (hckts : s.ckts = []) :
    ((s.wrf Reg.PWR_STAT 0 3 0).placeWaiting.decideProtection).lampStat = (s.wrf Reg.PWR_STAT 0 3 0).lampStat := by
  have hwaiting : (s.wrf Reg.PWR_STAT 0 3 0).placeWaiting = s.wrf Reg.PWR_STAT 0 3 0 := by
    have hnone : (s.wrf Reg.PWR_STAT 0 3 0).batches = [] := hbatches
    unfold State.placeWaiting
    rw [hnone]
    rfl
  have hnone : (s.wrf Reg.PWR_STAT 0 3 0).ckts = [] := by
    refine (State.ckts_congr fun a _ ha => ?_).trans hckts
    exact State.rd_wr_ne s _ (by unfold Reg.PWR_STAT; omega)
  rw [hwaiting]
  unfold State.decideProtection
  rw [hnone]
  rfl

theorem State.lampStat_pstate (s : State) : s.lampStat.pstate = s.pstate := by
  unfold State.pstate State.lampStat
  dsimp only
  refine congrArg (fld · 0 3) ?_
  refine (State.rd_wr_ne _ _ (by decide)).trans ((State.rd_wr_ne _ _ (by decide)).trans ?_)
  exact (State.rd_wr_ne _ _ (by decide)).trans (State.rd_wr_ne _ _ (by decide))

section
variable {s : State} {rq : Requester} (repl : Bool) (hmgmt : s.isMgmt rq = true) (hboot : s.bit Reg.BOOT_STAT 31 = true)
  (hchange : s.change = none) (hslot : s.slot = none)
include hmgmt hboot hchange

section
include hslot

/-- A request that ends at once, by `atOnce` of the state with the request noted. -/
theorem powerRequest_ends {target mask k : Nat} {u : State}
    (h : (s.noteReq (s.nextPowerReq rq target mask) repl).atOnce (s.nextPowerReq rq target mask) = some (k, u))
    (hu : u = s.noteReq (s.nextPowerReq rq target mask) repl) :
    (s.powerRequest rq repl target mask).rd Reg.PWR_REQRES =
        pack [(31, 1, 1), (24, 4, target), (16, 4, k), (4, 6, srcOf rq), (0, 4, masterOf rq)] ∧
      (s.powerRequest rq repl target mask).pstate = s.pstate ∧ (s.powerRequest rq repl target mask).change = none := by
  subst hu
  obtain ⟨hres, hstate, hnone⟩ := State.startReq_ended h hslot hchange rfl
  rw [State.powerRequest_idle repl hmgmt hboot hchange]
  exact ⟨hres, hstate.trans (s.pstate_noteReq _ repl), hnone⟩

/-- P0 asked for in P1, with nothing that waits. -/
theorem powerRequest_leavesP1 (hstate : s.pstate = 1) (hbatches : s.batches = []) (hckts : s.ckts = []) :
    (s.powerRequest rq repl 0 0).rd Reg.PWR_REQRES = pack [(31, 1, 1), (24, 4, 0), (16, 4, 0), (4, 6, srcOf rq), (0, 4, masterOf rq)] ∧
      (s.powerRequest rq repl 0 0).pstate = 0 ∧ (s.powerRequest rq repl 0 0).change = none := by
  have hp := (s.pstate_noteReq (s.nextPowerReq rq 0 0) repl).trans hstate
  have honce := State.atOnce_leave (s := s.noteReq (s.nextPowerReq rq 0 0) repl) (r := s.nextPowerReq rq 0 0)
    (State.masterOf_ne_thermal hmgmt) (by rw [hp]; exact Nat.zero_ne_one) (.inr (by decide : 0 < 4)) rfl
  have hidle := State.leaveP1_idle (s := s.noteReq (s.nextPowerReq rq 0 0) repl) hbatches ((s.ckts_noteReq _ repl).trans hckts)
  have hended := honce.trans (congrArg (fun u => some (0, u)) hidle)
  obtain ⟨hres, hleft, hnone⟩ := State.startReq_ended hended hslot hchange rfl
  rw [State.powerRequest_idle repl hmgmt hboot hchange]
  refine ⟨hres, hleft.trans ((State.lampStat_pstate _).trans ?_), hnone⟩
  exact State.rdf_wrf_same _ _ 0 (by omega)

end

/-- A request whose entry begins at step `n`. -/
theorem powerRequest_begins {target mask n : Nat}
    (h : (s.noteReq (s.nextPowerReq rq target mask) repl).atOnce (s.nextPowerReq rq target mask) = none) (htarget : target < 4)
    (hn : (entrySteps target).headD 4 = n) :
    (s.powerRequest rq repl target mask).change = some ⟨s.nextPowerReq rq target mask, n, false, 0⟩ ∧
      (s.powerRequest rq repl target mask).bit Reg.PWR_STAT 31 = true ∧
      (s.powerRequest rq repl target mask).rdf Reg.PWR_STAT 24 3 = n ∧ (s.powerRequest rq repl target mask).pstate = s.pstate := by
  obtain ⟨hchg, hbusy, hstep, hstate⟩ := State.entry_begins_plain h htarget
  rw [State.powerRequest_idle repl hmgmt hboot hchange, ← hn]
  exact ⟨hchg, hbusy, hstep, hstate.trans (s.pstate_noteReq _ repl)⟩

/-- A sleep of groups begins at step 3, with the groups pinned (R340). -/
theorem powerRequest_sleeps {mask : Nat}
    (h : (s.noteReq (s.nextPowerReq rq 4 mask) repl).atOnce (s.nextPowerReq rq 4 mask) = none) :
    (s.powerRequest rq repl 4 mask).change = some ⟨s.nextPowerReq rq 4 mask, 3, false, 0⟩ ∧
      (s.powerRequest rq repl 4 mask).rdf Reg.PWR_STAT 24 3 = 3 ∧
      ∀ g ∈ maskGroups mask, (s.powerRequest rq repl 4 mask).bit Reg.PWR_STAT (8 + g) = true := by
  have hbegun : (s.noteReq (s.nextPowerReq rq 4 mask) repl).begun (s.nextPowerReq rq 4 mask) =
      State.setTrans { s.noteReq (s.nextPowerReq rq 4 mask) repl with change := some ⟨s.nextPowerReq rq 4 mask, 3, false, 0⟩ } mask true := rfl
  have hkeeps := (State.setTrans_onlyWords { s.noteReq (s.nextPowerReq rq 4 mask) repl with change := some ⟨s.nextPowerReq rq 4 mask, 3, false, 0⟩ } mask true).2
  obtain ⟨hchg, -, hstep, -, hlow⟩ := State.entry_begins (r := s.nextPowerReq rq 4 mask) h (show 4 ≠ 5 by decide)
    ((congrArg State.change hbegun).trans (congrArg State.change hkeeps))
  rw [State.powerRequest_idle repl hmgmt hboot hchange]
  refine ⟨hchg, hstep, fun g hg => ?_⟩
  have hlt := List.mem_range.1 (List.mem_filter.1 hg).1
  rw [hlow _ (by omega), hbegun]
  exact State.bit_setTrans _ hg

theorem powerRequest_wakes {mask : Nat}
    (h : (s.noteReq (s.nextPowerReq rq 5 mask) repl).atOnce (s.nextPowerReq rq 5 mask) = none) :
    (s.powerRequest rq repl 5 mask).change = some ⟨s.nextPowerReq rq 5 mask, 0, false, 0⟩ ∧
      (s.powerRequest rq repl 5 mask).rdf Reg.PWR_STAT 24 3 = 0 := by
  rw [State.powerRequest_idle repl hmgmt hboot hchange]
  exact State.wake_begins h rfl

end

section
variable {s : State} {rq : Requester} (repl : Bool) (hmgmt : s.isMgmt rq = true)
include hmgmt

theorem atOnce_entry_noted {target : Nat} (hne : target ≠ s.pstate) (htarget : target = 1 ∨ target = 2 ∨ target = 3) :
    (s.noteReq (s.nextPowerReq rq target 0) repl).atOnce (s.nextPowerReq rq target 0) = none := by
  have hp := s.pstate_noteReq (s.nextPowerReq rq target 0) repl
  have hlow : target < 4 := by omega
  exact State.atOnce_entry (State.masterOf_ne_thermal hmgmt) (hp ▸ hne) (.inr hlow) htarget

variable {mask : Nat} (hstate : s.pstate < 2)
include hstate

theorem atOnce_sleep_noted : (s.noteReq (s.nextPowerReq rq 4 mask) repl).atOnce (s.nextPowerReq rq 4 mask) =
    if (maskGroups mask).any s.groupBusy then some (7, s.noteReq (s.nextPowerReq rq 4 mask) repl)
    else if mask = 0 then some (0, s.noteReq (s.nextPowerReq rq 4 mask) repl) else none := by
  have hp := s.pstate_noteReq (s.nextPowerReq rq 4 mask) repl
  have hbusy : (s.noteReq (s.nextPowerReq rq 4 mask) repl).groupBusy = s.groupBusy := funext (s.groupBusy_noteReq _ repl)
  rw [State.atOnce_sleep (State.masterOf_ne_thermal hmgmt) (r := s.nextPowerReq rq 4 mask) (by rw [hp]; exact (by omega : 4 ≠ s.pstate))
    (.inl (by omega)) rfl, hbusy]
  rfl

theorem atOnce_wake_noted : (s.noteReq (s.nextPowerReq rq 5 mask) repl).atOnce (s.nextPowerReq rq 5 mask) =
    if (maskGroups mask).any fun g => s.bit Reg.PWR_STAT (16 + g) then none else some (0, s.noteReq (s.nextPowerReq rq 5 mask) repl) := by
  have hp := s.pstate_noteReq (s.nextPowerReq rq 5 mask) repl
  have hasleep : (fun g => (s.noteReq (s.nextPowerReq rq 5 mask) repl).bit Reg.PWR_STAT (16 + g)) = fun g => s.bit Reg.PWR_STAT (16 + g) :=
    funext fun g => congrArg (wbit · (16 + g)) (s.rd_noteReq _ repl (by decide) (by decide))
  rw [State.atOnce_wake (State.masterOf_ne_thermal hmgmt) (r := s.nextPowerReq rq 5 mask) (by rw [hp]; exact (by omega : 5 ≠ s.pstate))
    (.inl (by omega)) rfl, hasleep]
  rfl

end

theorem any_maskGroups {m : BitVec 8} {p : Nat → Bool} : (maskGroups m.toNat).any p = true ↔ ∃ g, g < 8 ∧ m.getLsbD g = true ∧ p g = true := by
  simp only [List.any_eq_true, mem_maskGroups, and_assoc]

/-- Settles O54: the matrix's answer by the tests of R24, the sequencer's by its state, and the start of a request by `atOnce`. -/
theorem powerRequests : Obligations.PowerRequests := by
  unfold Obligations.PowerRequests
  intro s rq repl
  refine ⟨fun c target mask hc hoff hdrain => ?_, fun hoff hdrain hmgmt hpass hboot hchange hslot => ?_⟩
  · obtain ⟨hexec, htarget, hmask⟩ := exec_powerRequest s hc
    have hserved : s.fails rq false true Reg.PWR_REQ 4 = none → exec c s = .next (s.powerRequest rq repl target mask) :=
      fun hpass => hexec.trans (congrArg _ (s.requestPower_served repl htarget hmask hoff hdrain hpass))
    refine ⟨fun e i hfail => ⟨_, hexec, powerRequest_refused repl target mask hoff hdrain hfail⟩, fun hmgmt happly => ?_, fun hmgmt hpass hboot => ?_,
      fun hmgmt hpass hboot hlow k q hchange hslot hkeep => ?_, fun hmgmt hpass hboot hlow k hchange hslot => ?_⟩
    · rw [s.fails_pwrReq, State.mayReach_pwrReq hmgmt happly]
      rfl
    · exact ⟨_, hserved hpass, powerRequest_badstate repl hmgmt hboot⟩
    · exact ⟨_, hserved hpass, powerRequest_drops repl hmgmt hboot hlow hchange hslot hkeep⟩
    · exact ⟨_, hserved hpass, powerRequest_takesSlot repl hmgmt hboot hlow hchange hslot⟩
  · have hserved : ∀ {c target mask}, exec c s = .next (s.requestPower rq repl target mask) → target ≤ 5 → mask < 256 →
        exec c s = .next (s.powerRequest rq repl target mask) :=
      fun hexec htarget hmask => hexec.trans (congrArg _ (s.requestPower_served repl htarget hmask hoff hdrain hpass))
    have hmaster := State.masterOf_ne_thermal hmgmt
    refine ⟨fun hstate => ?_, fun hstate hbatches hckts => ?_, fun hstate => ?_, fun hstate => ?_, fun hstate => ?_,
      fun m hstate => ⟨fun hbusy => ?_, fun hidle hsome => ?_, fun hawake => ?_, fun hasleep => ?_⟩⟩
    · obtain ⟨hres, hkept, hnone⟩ := powerRequest_ends repl hmgmt hboot hchange hslot (target := 0) (mask := 0)
        (State.atOnce_reached hmaster ((s.pstate_noteReq _ repl).trans hstate).symm (by decide : 0 < 3)) rfl
      exact ⟨_, hserved rfl (by omega) (by omega), hres, hkept.trans hstate, hnone⟩
    · exact ⟨_, hserved rfl (by omega) (by omega), powerRequest_leavesP1 repl hmgmt hboot hchange hslot hstate hbatches hckts⟩
    · exact ⟨_, hserved rfl (by omega) (by omega), powerRequest_begins repl hmgmt hboot hchange
        (atOnce_entry_noted repl hmgmt (by omega) (by omega)) (by omega) rfl⟩
    · exact ⟨_, hserved rfl (by omega) (by omega), powerRequest_begins repl hmgmt hboot hchange
        (atOnce_entry_noted repl hmgmt (by omega) (by omega)) (by omega) rfl⟩
    · exact ⟨_, hserved rfl (by omega) (by omega), powerRequest_begins repl hmgmt hboot hchange
        (atOnce_entry_noted repl hmgmt (by omega) (by omega)) (by omega) rfl⟩
    · have honce := atOnce_sleep_noted repl hmgmt (mask := m.toNat) hstate
      obtain ⟨hres, -, hnone⟩ := powerRequest_ends repl hmgmt hboot hchange hslot (honce.trans (if_pos hbusy)) rfl
      exact ⟨_, hserved rfl (by omega) m.isLt, hres, hnone⟩
    · have honce := atOnce_sleep_noted repl hmgmt (mask := m.toNat) hstate
      have hmask : m.toNat ≠ 0 := fun h => hsome (BitVec.eq_of_toNat_eq h)
      obtain ⟨hbegun, hstep, hpinned⟩ := powerRequest_sleeps repl hmgmt hboot hchange
        (honce.trans ((if_neg (by simp [hidle])).trans (if_neg hmask)))
      exact ⟨_, hserved rfl (by omega) m.isLt, hbegun, hstep, fun g hg hm => hpinned g (mem_maskGroups.2 ⟨hg, hm⟩)⟩
    · have honce := atOnce_wake_noted repl hmgmt (mask := m.toNat) hstate
      have hnone : ¬ ((maskGroups m.toNat).any fun g => s.bit Reg.PWR_STAT (16 + g)) = true := fun h => by
        obtain ⟨g, hg, hm, hset⟩ := any_maskGroups.1 h
        exact absurd hset (by rw [hawake g hg hm]; decide)
      obtain ⟨hres, -, hended⟩ := powerRequest_ends repl hmgmt hboot hchange hslot (honce.trans (if_neg hnone)) rfl
      exact ⟨_, hserved rfl (by omega) m.isLt, hres, hended⟩
    · have honce := atOnce_wake_noted repl hmgmt (mask := m.toNat) hstate
      have hbegun := powerRequest_wakes repl hmgmt hboot hchange (honce.trans (if_pos (any_maskGroups.2 hasleep)))
      exact ⟨_, hserved rfl (by omega) m.isLt, hbegun⟩

end Sys2Proof.Machine
end

section
/-! PROOF. O13 fails: its statement ranges over states in which a batch names a partition above 63, and the words of such a partition at the
Tollkeeper lie in a tile's window. -/

namespace Sys2Proof.Machine

/-! ## The state -/

/-- A partition number whose TOL_POLEVEL has the address of word 13 of cell 0, where the cell's Pockels base stands. -/
def strayPart : Nat := 0xFE839

theorem polevel_strayPart : Reg.TOL_POLEVEL strayPart = cooWord 0 13 := by decide

/-- A solved batch of that partition, at its commit instant, whose delta has a cell of tile 0. -/
def strayBatch : Batch where
  id := 0
  cues := []
  part := strayPart
  origin := .dropped
  rule := 0
  policy := 0
  cost := 0
  phase := .placed 0
  sol := some ⟨[⟨0, false, false, false⟩], [], [], [], [], [], [], 0⟩
  stale := false
  waited := false
  lastWindow := none
  heldBack := false
  tbWait := false
  secs := none
  clamped := false

/-- The partition at the Tollkeeper: a head, and a policer of one work unit. -/
def strayToll : TollPart := ⟨0, some ⟨0, 0, false⟩, 0, 1000⟩

/-- The reset state with that batch. -/
def strayState : State := { State.reset with batches := [strayBatch], toll := [(strayPart, strayToll)] }

/-! ## Up to the end of the batch -/

/-- Nothing happened to the batch yet. -/
structure BatchStands (t : State) : Prop where
  now : t.now = 0
  batches : t.batches = [strayBatch]
  toll : t.toll = [(strayPart, strayToll)]
  commits : t.commits = []

theorem BatchStands.update {t u : State} (h : BatchStands t)
    (hsame : u.now = t.now ∧ u.batches = t.batches ∧ u.toll = t.toll ∧ u.commits = t.commits := by exact ⟨rfl, rfl, rfl, rfl⟩) :
    BatchStands u := by
  obtain ⟨hnow, hbatches, htoll, hcommits⟩ := hsame
  exact ⟨hnow.trans h.now, hbatches.trans h.batches, htoll.trans h.toll, hcommits.trans h.commits⟩

theorem BatchStands.wr {t : State} (h : BatchStands t) (a : Nat) (v : Word) : BatchStands (t.wr a v) := ⟨h.now, h.batches, h.toll, h.commits⟩

theorem BatchStands.foldl {α : Type} {t : State} (xs : List α) (f : State → α → State) (hf : ∀ u x, BatchStands u → BatchStands (f u x))
    (h : BatchStands t) : BatchStands (xs.foldl f t) := by
  induction xs generalizing t with
  | nil => exact h
  | cons x xs ih => exact ih (hf t x h)

theorem BatchStands.setCell {t : State} (h : BatchStands t) (c : Nat) (x : CellRec) : BatchStands (t.setCell c x) :=
  ⟨h.now, h.batches, h.toll, h.commits⟩

theorem BatchStands.setCoo {t : State} (h : BatchStands t) (c : Nat) (x : CooRec) : BatchStands (t.setCoo c x) :=
  ⟨h.now, h.batches, h.toll, h.commits⟩

/-- At time 0 no sample instant has passed. -/
theorem State.settleClamps_at_zero {t : State} (h : t.now = 0) (c : Nat) : t.settleClamps c = t := by
  unfold State.settleClamps State.ns
  dsimp only
  rw [h]
  exact if_pos (Nat.zero_le _)

theorem BatchStands.fenceCell {t : State} (h : BatchStands t) (c : Nat) : BatchStands (t.fenceCell c) := by
  have hmode : BatchStands (t.toMode c 5) := by
    unfold State.toMode
    dsimp only
    rw [State.settleClamps_at_zero h.now]
    split
    · exact (h.wr _ _).setCell _ _
    · exact h.setCell _ _
  exact hmode.setCoo _ _

/-- What of a tile's commits, cells in CAL and light runs a fence releases. -/
theorem BatchStands.release {t : State} (h : BatchStands t) (f : Commit → Commit) (cal : List CalRec) (tink : Option TinkOp)
    (runs : List (Nat × LightRun)) :
    BatchStands { t with commits := t.commits.map f, calCells := cal, tink := tink, lightRuns := runs } :=
  ⟨h.now, h.batches, h.toll, (congrArg (List.map f) h.commits).trans List.map_nil⟩

theorem BatchStands.deferCal {t : State} (h : BatchStands t) (x : CalRec) : BatchStands (t.deferCal x) := by
  unfold State.deferCal State.asyFinish
  dsimp only
  split
  · split
    · exact ⟨h.now, h.batches, h.toll, h.commits⟩
    · exact ⟨h.now, h.batches, h.toll, h.commits⟩
  · exact h

theorem BatchStands.calSource {t : State} (h : BatchStands t) (en band : Bool) : BatchStands (t.calSource en band) := by
  unfold State.calSource
  split
  · exact h
  · exact ⟨h.now, h.batches, h.toll, h.commits⟩

theorem BatchStands.afterCal {t : State} (h : BatchStands t) : BatchStands t.afterCal := by
  have hstatus : ∀ u, BatchStands u → BatchStands (u.asyStat.tnkStat) := fun u hu => (((hu.wr _ _).wr _ _).wr _ _).wr _ _
  unfold State.afterCal
  split
  · exact hstatus _ (h.calSource _ _).update
  · exact hstatus _ h

theorem BatchStands.reportAlone {t : State} (h : BatchStands t) (tile : Nat) : BatchStands (t.reportAlone tile) := by
  have hreport : BatchStands (t.fsTick.reportTile tile) := BatchStands.foldl _ _ (fun _ _ hu => hu.wr _ _) (h.wr _ _)
  have hmaps : BatchStands (t.fsTick.reportTile tile).refreshMaps :=
    BatchStands.foldl _ _ (fun _ _ hu => hu.wr _ _) (BatchStands.foldl _ _ (fun _ _ hu => (hu.wr _ _).wr _ _) hreport)
  exact hmaps.wr _ _

/-! ## The end of the batch -/

theorem AsideWord.fltStat : AsideWord Reg.FLT_STAT := .inr (by decide)

/-- The batch's partition loses its head, and its level is written at the cell's word. -/
theorem State.dequeue_stray {t : State} (hbatches : t.batches = [strayBatch]) (htoll : t.toll = [(strayPart, strayToll)]) :
    (t.dequeue strayBatch).rd (cooWord 0 13) = 1#32 ∧ (t.dequeue strayBatch).batches = [] := by
  have hstat : cooWord 0 13 ≠ Reg.TOL_STAT := by decide
  have hqstat : cooWord 0 13 ≠ Reg.TOL_QSTAT strayPart := by decide
  have hnone : (t.dropBatch strayBatch.id).batches = [] := by
    unfold State.dropBatch
    dsimp only
    rw [hbatches]
    rfl
  have hqueue : (t.dropBatch strayBatch.id).queueOf strayPart = [] := by
    unfold State.queueOf
    rw [hnone]
    rfl
  have hpart : (t.dropBatch strayBatch.id).tollPart strayPart = strayToll := by
    unfold State.tollPart State.dropBatch
    dsimp only
    rw [htoll]
    rfl
  have hhead : (t.dropBatch strayBatch.id).tagHead strayPart .successor =
      (t.dropBatch strayBatch.id).setToll strayPart { strayToll with head := none } := by
    unfold State.tagHead
    dsimp only
    rw [hqueue, hpart]
    rfl
  have hdequeue : t.dequeue strayBatch = ((t.dropBatch strayBatch.id).setToll strayPart { strayToll with head := none }).tollStat strayPart :=
    congrArg (·.tollStat strayPart) hhead
  rw [hdequeue]
  refine ⟨(State.rd_wr_ne _ _ hqstat).trans ((State.rd_wr_ne _ _ hstat).trans ?_), hnone⟩
  unfold State.setToll
  rw [polevel_strayPart, State.rd_wr_same]
  rfl

theorem BatchStands.endOne {t : State} (h : BatchStands t) (e : Ending) :
    (t.endOne strayBatch e).rd (cooWord 0 13) = 1#32 ∧ (t.endOne strayBatch e).batches = [] := by
  have hleave : t.leaveCommit strayBatch.id = t := by
    unfold State.leaveCommit
    rw [h.commits]
    rfl
  unfold State.endOne
  rw [hleave]
  exact State.dequeue_stray h.batches h.toll

/-- The one batch ended, no other fails with it. -/
theorem BatchStands.rd_endBatches {t : State} (h : BatchStands t) (n : Nat) (e : Ending) (he : e.id = 0) :
    (State.endBatches (n + 2) t [e]).rd (cooWord 0 13) = 1#32 := by
  have hfound : t.batch e.id = some strayBatch := by
    unfold State.batch
    rw [h.batches, he]
    rfl
  obtain ⟨hrd, hnone⟩ := h.endOne e
  rw [State.endBatches]
  simp only [hfound, hnone, List.filter_nil, List.filterMap_nil, List.append_nil]
  exact hrd

theorem State.rd_lampStat (s : State) {a : Nat} (hstat : a ≠ Reg.LMP_STAT) (harm : a ≠ Reg.LMP_ARMTIME) (hwhl : a ≠ Reg.WHL_STAT)
    (htol : a ≠ Reg.TOL_STAT) : s.lampStat.rd a = s.rd a :=
  (State.rd_wr_ne _ _ htol).trans ((State.rd_wr_ne _ _ hwhl).trans ((State.rd_wr_ne _ _ harm).trans (State.rd_wr_ne _ _ hstat)))

theorem rd_cell_lampStat (s : State) : s.lampStat.rd (cooWord 0 13) = s.rd (cooWord 0 13) :=
  s.rd_lampStat (by decide) (by decide) (by decide) (by decide)

/-- An event that reaches no solution marks no batch. -/
theorem State.markStale_of_no_hit {t : State} {hit : Batch → Solution → Bool} (h : ∀ b ∈ t.batches, ∀ x, hit b x = false) :
    t.markStale hit = t := by
  have hsame : (t.markStale hit).batches = t.batches := by
    refine (List.map_congr_left fun b hb => ?_).trans (List.map_id _)
    split
    · next x _ => rw [h b hb x]; rfl
    · rfl
  exact congrArg (fun bs => { t with batches := bs }) hsame

/-- The fence of tile 0 reaches the batch's solution. -/
theorem State.reaches_stray (t : State) : strayBatch.sol.any (t.reaches (tileCells 0) [] [] strayBatch) = true := by
  have hmeets : meets (tileCells 0) [0] = true := by decide
  unfold strayBatch State.reaches
  simp only [Option.any_some, Solution.cells, List.map_cons, List.map_nil, hmeets, Bool.true_or]

theorem State.rd_setSolveStart (s : State) (x : Option SolveRun) (a : Nat) : { s with solveStart := x }.rd a = s.rd a := rfl

section
variable {t : State} (h : BatchStands t)
include h

/-- Time 0 is the batch's commit instant, and so past its T_rs. -/
theorem BatchStands.atRs : t.atRs strayBatch = true := by
  unfold State.atRs State.ns
  rw [h.now]
  rfl

theorem BatchStands.pastArm : t.pastArm strayBatch = false := by
  unfold State.pastArm
  rw [h.commits]
  rfl

theorem BatchStands.finish (hlive : t.fatalOn = false) (e : Ending) (he : e.id = 0) : (t.finish [e]).rd (cooWord 0 13) = 1#32 := by
  unfold State.finish
  rw [hlive, h.batches]
  exact (rd_cell_lampStat _).trans (h.rd_endBatches 1 e he)

/-- The fence of tile 0 reaches the batch at its T_rs: it is not re-solved but ends. -/
theorem BatchStands.markStale : t.markStale (fun b x => t.reaches (tileCells 0) [] [] b x && !t.atRs b) = t := by
  refine State.markStale_of_no_hit fun b hb x => ?_
  rw [h.batches, List.mem_singleton] at hb
  rw [hb, h.atRs]
  exact Bool.and_false _

theorem BatchStands.dead :
    (t.batches.filter fun b => t.atRs b && !t.pastArm b && b.sol.any (t.reaches (tileCells 0) [] [] b)) = [strayBatch] := by
  rw [h.batches, List.filter_cons_of_pos]
  · rfl
  · rw [h.atRs, h.pastArm, t.reaches_stray]
    rfl

theorem BatchStands.rd_invalidateBy (hlive : t.fatalOn = false) :
    (t.invalidateBy false (t.reaches (tileCells 0) [] [])).rd (cooWord 0 13) = 1#32 := by
  have hcount : cooWord 0 13 ≠ Reg.WHL_STALECNT := by decide
  unfold State.invalidateBy
  dsimp only
  rw [h.markStale, if_neg Bool.false_ne_true, h.dead, rd_cell_lampStat, List.map_cons, List.map_nil]
  refine (State.rd_wr_ne _ _ hcount).trans ?_
  exact h.finish hlive ⟨strayBatch.id, 7, 10, some (strayBatch.cues.headD 0)⟩ rfl

/-- The run that R107 may restart is no word. -/
theorem BatchStands.rd_invalidate (hlive : t.fatalOn = false) :
    (t.invalidate false (tileCells 0) [] []).rd (cooWord 0 13) = 1#32 :=
  (State.rd_setSolveStart _ _ _).trans (h.rd_invalidateBy hlive)

end

/-! ## The fence of tile 0 -/

/-- The fatal bit beside the count of fenced tiles. -/
theorem State.fatalOn_countFenced (s : State) : s.countFenced.fatalOn = s.fatalOn :=
  (congrArg (wbit · 31) (s.rd_wr_same Reg.FLT_STAT _)).trans (wbit_put_ne _ _ (by omega))

theorem State.fatalOn_wr_ne (s : State) {a : Nat} (v : Word) (h : Reg.FLT_STAT ≠ a) : (s.wr a v).fatalOn = s.fatalOn := s.bit_wr_ne v 31 h

theorem Aside.fatalOn {s t : State} (h : Aside s t) : t.fatalOn = s.fatalOn := h.bit AsideWord.fltStat 31

theorem State.when_false (s : State) (f : State → State) : s.when false f = s := rfl

theorem State.rd_cooStat (s : State) {a tile : Nat} (h : a ≠ Reg.COO_STAT tile) : (s.cooStat tile).rd a = s.rd a := State.rd_wr_ne _ _ h

theorem BatchStands.fenceTile {s : State} (h : BatchStands s) (hfree : s.bit (Reg.MTX_ISLSTAT 0) 1 = false) (hlive : s.fatalOn = false)
    (htb : s.tbBad = false) : (s.fenceTile 0 false).rd (cooWord 0 13) = 1#32 := by
  unfold State.fenceTile
  rw [if_neg (by simp [hfree])]
  extract_lets marked fenced released raised
  have hmarked : BatchStands marked := (((h.wr _ _).wr _ _).wr _ _).wr _ _
  have hcells : BatchStands fenced := BatchStands.foldl _ _ (fun u c hu => hu.fenceCell c) (hmarked.release _ _ _ _)
  have hreleased : BatchStands released := (BatchStands.foldl _ _ (fun u x hu => hu.deferCal x) hcells).afterCal
  have haside : Aside marked (released.reportAlone 0) := by
    refine Aside.reportAlone (Aside.afterCal (Aside.foldl _ _ (fun _ x _ hu => hu.deferCal x) ?_)) (by omega)
    exact Aside.foldl _ _ (fun _ c _ hu => hu.fenceCell c) (Aside.refl marked).update
  have hisl : Reg.FLT_STAT ≠ Reg.MTX_ISLSTAT 0 := by decide
  have hfatal : (released.reportAlone 0).fatalOn = false := by
    refine haside.fatalOn.trans ((State.fatalOn_countFenced _).trans ?_)
    exact (State.fatalOn_wr_ne _ _ hisl).trans ((State.fatalOn_wr_ne _ _ hisl).trans ((State.fatalOn_wr_ne _ _ hisl).trans hlive))
  have hraised : raised.rd (cooWord 0 13) = 1#32 :=
    (State.rd_err_ne _ 3 (by decide) (by decide)).trans ((hreleased.reportAlone 0).rd_invalidate hfatal)
  have hcoo : cooWord 0 13 ≠ Reg.COO_STAT 0 := by decide
  rw [rd_cell_lampStat, htb, Bool.false_and, State.rd_cooStat _ hcoo, State.when_false]
  exact hraised

/-! ## The reset state with the batch -/

theorem strayState_island : strayState.bit (Reg.MTX_ISLSTAT 0) 1 = false ∧ strayState.fatalOn = false ∧ strayState.powered 0 = true := by decide

theorem strayState_tbBad : strayState.tbBad = false := by decide

theorem strayState_pbase : strayState.pbase 0 = 0 := by decide

theorem exec_pllLockLoss_tile {s : State} {i : Fin 69} (htile : i.val < 64) (hpowered : s.powered i = true) :
    exec (.pllLockLoss i) s = .next (s.fenceTile i false) := by
  simp only [exec, execPllLockLoss, hpowered, htile, Bool.not_true, Bool.false_eq_true, if_false, if_true]

/-- Refutes O13: with a batch of partition 0xFE839 at its T_rs, whose delta has cell 0, the fence of tile 0 ends the batch; the partition's
TOL_POLEVEL, which then follows its policer, has the address of the word where cell 0's Pockels base stands. No run reaches such a
state, but the statement is of every state. -/
theorem not_islandsAndTimeBus : ¬ Obligations.IslandsAndTimeBus := by
  unfold Obligations.IslandsAndTimeBus
  rintro ⟨-, htile, -⟩
  obtain ⟨hfree, hlive, hpowered⟩ := strayState_island
  obtain ⟨t, hexec, -, -, -, hcells⟩ := htile strayState 0 (by decide) hpowered hfree
  obtain rfl : strayState.fenceTile 0 false = t := Host.Outcome.next.inj ((exec_pllLockLoss_tile (i := 0) (by decide) hpowered).symm.trans hexec)
  obtain ⟨-, hbase, -⟩ := hcells 0 (by omega)
  have hword := BatchStands.fenceTile ⟨rfl, rfl, rfl, rfl⟩ hfree hlive strayState_tbBad
  have hmoved : (strayState.fenceTile 0 false).pbase 0 = 1 :=
    (congrArg (sfld · 0 16) hword).trans (by decide)
  exact absurd (hmoved.symm.trans (hbase.trans strayState_pbase)) (by decide)

end Sys2Proof.Machine
end

section
/-! PROOF. O45, the first part: the words of links, functions and streams. -/

namespace Sys2Proof.Machine

/-! ## Masked writes -/

theorem fld_congr {v w : Word} {lo n : Nat} (h : ∀ i, i < n → v.getLsbD (lo + i) = w.getLsbD (lo + i)) : fld v lo n = fld w lo n := by
  refine Nat.eq_of_testBit_eq fun i => ?_
  rw [fld_getLsbD, fld_getLsbD]
  by_cases hi : i < n
  · rw [h i hi]
  · simp [hi]

theorem State.getLsbD_wrMask (s : State) (a : Nat) (m v : Word) {i : Nat} (hi : i < 32) :
    ((s.wrMask a m v).rd a).getLsbD i = if m.getLsbD i then v.getLsbD i else (s.rd a).getLsbD i := by
  unfold State.wrMask
  rw [State.rd_wr_same]
  simp only [BitVec.getLsbD_or, BitVec.getLsbD_and, BitVec.getLsbD_not, hi, decide_true, Bool.true_and]
  cases m.getLsbD i <;> simp

/-- A field under the mask takes the written value. -/
theorem State.rdf_wrMask_in (s : State) (a : Nat) {m : Word} (v : Word) {lo n : Nat} (hn : lo + n ≤ 32) (hm : ∀ i, i < n → m.getLsbD (lo + i) = true) :
    (s.wrMask a m v).rdf a lo n = fld v lo n :=
  fld_congr fun i hi => by rw [s.getLsbD_wrMask a m v (by omega), if_pos (hm i hi)]

/-- A field outside the mask keeps its value. -/
theorem State.rdf_wrMask_out (s : State) (a : Nat) {m : Word} (v : Word) {lo n : Nat} (hn : lo + n ≤ 32) (hm : ∀ i, i < n → m.getLsbD (lo + i) = false) :
    (s.wrMask a m v).rdf a lo n = s.rdf a lo n :=
  fld_congr fun i hi => by rw [s.getLsbD_wrMask a m v (by omega), hm i hi, if_neg Bool.false_ne_true]

theorem State.bit_wrMask_in (s : State) (a : Nat) {m : Word} (v : Word) {i : Nat} (hi : i < 32) (hm : m.getLsbD i = true) :
    (s.wrMask a m v).bit a i = wbit v i :=
  (s.getLsbD_wrMask a m v hi).trans (if_pos hm)

theorem State.bit_wrMask_out (s : State) (a : Nat) {m : Word} (v : Word) {i : Nat} (hi : i < 32) (hm : m.getLsbD i = false) :
    (s.wrMask a m v).bit a i = s.bit a i :=
  (s.getLsbD_wrMask a m v hi).trans (if_neg (by simp [hm]))

theorem State.wrMask_onlyWords (s : State) (a : Nat) (m v : Word) : OnlyWords [a] s (s.wrMask a m v) :=
  (OnlyWords.refl _ _).wrMask _ _ (List.mem_singleton.2 rfl)

/-! ## Links (R236) -/

/-- PERST deasserted on a link that the bifurcation has. -/
theorem perstDeassert_trains (s : State) (l : Fin 4)
    (h : l.val = 0 ∨ (s.rdf (Reg.HIF_LINKCFG 0) 8 2 = 1 ∧ l.val < 2) ∨ 2 ≤ s.rdf (Reg.HIF_LINKCFG 0) 8 2) :
    ∃ t, exec (.perstDeassert l) s = .next t ∧ l.val ∈ t.training ∧ t = { s with training := t.training } := by
  have hlinks : l.val < (if s.rdf (Reg.HIF_LINKCFG 0) 8 2 = 0 then 1 else if s.rdf (Reg.HIF_LINKCFG 0) 8 2 = 1 then 2 else 4) := by
    have hl := l.isLt
    split
    · omega
    · split <;> omega
  refine ⟨_, congrArg Host.Outcome.next (if_pos hlinks), ?_, rfl⟩
  exact List.mem_eraseDups.2 List.mem_cons_self

/-- A link up shows its width, speed and mode (Table 10-14). -/
theorem pcieLinkUp_shows (s : State) (l : Fin 4) (w : Fin 32) (sp : Fin 16) (flit : Bool) :
    ∃ t, exec (.pcieLinkUp l w sp flit) s = .next t ∧ t.bit (Reg.HIF_LINKCFG l) 31 = true ∧
      t.rdf (Reg.HIF_LINKCFG l) 16 5 = w ∧ t.rdf (Reg.HIF_LINKCFG l) 12 4 = sp ∧ t.bit (Reg.HIF_LINKCFG l) 11 = flit ∧ l.val ∉ t.training ∧
      OnlyWords [Reg.HIF_LINKCFG l] { s with training := t.training } t := by
  refine ⟨_, rfl, ?_, ?_, ?_, ?_, ?_, (OnlyWords.refl _ _).wr _ (by simp)⟩
  · unfold State.bit putBit
    rw [State.rd_wr_same, wbit_put_ne _ _ (by omega), wbit_put_ne _ _ (by omega), wbit_put_ne _ _ (by omega), wbit_put_same _ _ (by omega)]
  · unfold State.rdf putBit
    rw [State.rd_wr_same, fld_put_ne _ _ (by omega), fld_put_ne _ _ (by omega), fld_put_same _ _ (by omega)]
    exact Nat.mod_eq_of_lt w.isLt
  · unfold State.rdf putBit
    rw [State.rd_wr_same, fld_put_ne _ _ (by omega), fld_put_same _ _ (by omega)]
    exact Nat.mod_eq_of_lt sp.isLt
  · unfold State.bit putBit
    rw [State.rd_wr_same, wbit_put_same _ _ (by omega)]
  · simp

/-! ## FNCFG (R238, R241) -/

section
variable (s : State) (l : Fin 4) (f : Fin 17) (v : Word)

theorem fnIndex_mod_ne_zero {f : Fin 17} (hf : f ≠ 0) : ¬ fnIndex l f % 17 = 0 := by
  have := Fin.val_ne_of_ne hf
  simp only [fnIndex, Fin.val_zero] at *
  omega

/-- A VF bound while it has no enabled ring. -/
theorem bindFn_takes (hf : f ≠ 0) (hidle : s.hasRingOn (fnIndex l f) = false) :
    ∃ t, exec (.functionConfigWrite l f 0 v) s = .next t ∧ t.bit (Reg.HIF_FNCFG_W0 (fnIndex l f)) 31 = wbit v 31 ∧
      t.rdf (Reg.HIF_FNCFG_W0 (fnIndex l f)) 16 6 = fld v 16 6 ∧ OnlyWords [Reg.HIF_FNCFG_W0 (fnIndex l f)] s t := by
  have hbind : s.writeBinding (fnIndex l f) v = s.wrMask (Reg.HIF_FNCFG_W0 (fnIndex l f)) 0xC03F0000#32 v := by
    unfold State.writeBinding
    dsimp only
    rw [if_neg (fnIndex_mod_ne_zero l hf), hidle, Bool.and_false]
    rfl
  refine ⟨_, congrArg Host.Outcome.next hbind, s.bit_wrMask_in _ v (by omega) (by decide), s.rdf_wrMask_in _ v (by omega) (by decide),
    s.wrMask_onlyWords _ _ _⟩

/-- A VF with an enabled ring keeps its binding. -/
theorem bindFn_refused (hf : f ≠ 0) (hbusy : s.hasRingOn (fnIndex l f) = true) (hchange : wbit v 31 ≠ s.bit (Reg.HIF_FNCFG_W0 (fnIndex l f)) 31) :
    ∃ t, exec (.functionConfigWrite l f 0 v) s = .next t ∧ t.bit Reg.HIF_ERRSTAT 0 = true ∧
      t.bit (Reg.HIF_FNCFG_W0 (fnIndex l f)) 31 = s.bit (Reg.HIF_FNCFG_W0 (fnIndex l f)) 31 ∧
      t.rdf (Reg.HIF_FNCFG_W0 (fnIndex l f)) 16 6 = s.rdf (Reg.HIF_FNCFG_W0 (fnIndex l f)) 16 6 ∧
      WordsAndEvents [Reg.HIF_FNCFG_W0 (fnIndex l f), Reg.HIF_ERRSTAT] s t := by
  have hdiffers : ((v ^^^ s.rd (Reg.HIF_FNCFG_W0 (fnIndex l f))) &&& 0x803F0000#32 != 0#32) = true := by
    refine bne_iff_ne.2 fun h => hchange ?_
    have hbit := congrArg (·.getLsbD 31) h
    have hmask : (0x803F0000#32).getLsbD 31 = true := by decide
    simp only [BitVec.getLsbD_and, BitVec.getLsbD_xor, hmask, Bool.and_true, BitVec.getLsbD_zero] at hbit
    exact bne_eq_false_iff_eq.1 hbit
  have hbind : s.writeBinding (fnIndex l f) v = (s.wrMask (Reg.HIF_FNCFG_W0 (fnIndex l f)) 0x40000000#32 v).err Reg.HIF_ERRSTAT 0 := by
    unfold State.writeBinding
    dsimp only
    rw [if_neg (fnIndex_mod_ne_zero l hf), hdiffers, hbusy]
    rfl
  have hg : fnIndex l f < 68 := by unfold fnIndex; omega
  have hne : Reg.HIF_FNCFG_W0 (fnIndex l f) ≠ Reg.HIF_ERRSTAT := by unfold Reg.HIF_FNCFG_W0 Reg.HIF_ERRSTAT; omega
  have hring : isRingWord (Reg.HIF_FNCFG_W0 (fnIndex l f)) = false := by
    unfold isRingWord Reg.HIF_FNCFG_W0
    simp
    omega
  have hkept := State.rd_err_ne (s.wrMask (Reg.HIF_FNCFG_W0 (fnIndex l f)) 0x40000000#32 v) 0 hne hring
  refine ⟨_, congrArg Host.Outcome.next hbind, State.err_bit _ (by omega) (by decide), ?_, ?_, ?_⟩
  · exact (congrArg (wbit · 31) hkept).trans (s.bit_wrMask_out _ v (by omega) (by decide))
  · exact (congrArg (fld · 16 6) hkept).trans (s.rdf_wrMask_out _ v (by omega) (by decide))
  · exact State.err_events ((WordsAndEvents.refl _ _).wrMask _ _ (.inl (by simp))) 0 (by simp)

/-- A range that meets no other function's. -/
theorem ringRange_takes
    (hfree : ∀ h, h < 68 → h ≠ fnIndex l f → rangesMeet (fld v 16 15) (fld v 0 16) (s.rdf (Reg.HIF_FNCFG_W1 h) 16 15) (s.rdf (Reg.HIF_FNCFG_W1 h) 0 16) = false)
    (hidle : s.hasRingOn (fnIndex l f) = false) :
    ∃ t, exec (.functionConfigWrite l f 1 v) s = .next t ∧ t.rdf (Reg.HIF_FNCFG_W1 (fnIndex l f)) 16 15 = fld v 16 15 ∧
        t.rdf (Reg.HIF_FNCFG_W1 (fnIndex l f)) 0 16 = fld v 0 16 ∧ OnlyWords [Reg.HIF_FNCFG_W1 (fnIndex l f)] s t := by
  have hclash : ((List.range 68).any fun h => h != fnIndex l f &&
      rangesMeet (fld v 16 15) (fld v 0 16) (s.rdf (Reg.HIF_FNCFG_W1 h) 16 15) (s.rdf (Reg.HIF_FNCFG_W1 h) 0 16)) = false := by
    simp only [List.any_eq_false, List.mem_range, Bool.and_eq_true, bne_iff_ne, not_and, Bool.not_eq_true]
    exact hfree
  have hinside : ((List.range' (s.rdf (Reg.HIF_FNCFG_W1 (fnIndex l f)) 16 15) (s.rdf (Reg.HIF_FNCFG_W1 (fnIndex l f)) 0 16)).any fun r =>
      s.ringOn r && !(decide (fld v 16 15 ≤ r) && decide (r < fld v 16 15 + fld v 0 16))) = false := by
    have hoff := List.any_eq_false.1 hidle
    exact List.any_eq_false.2 fun r hr => by simp [Bool.eq_false_iff.2 (hoff r hr)]
  have hrange : s.writeRingRange (fnIndex l f) v = s.wrMask (Reg.HIF_FNCFG_W1 (fnIndex l f)) 0x7FFFFFFF#32 v := by
    unfold State.writeRingRange
    dsimp only
    rw [hclash, hinside]
    rfl
  refine ⟨_, congrArg Host.Outcome.next hrange, s.rdf_wrMask_in _ v (by omega) (by decide), s.rdf_wrMask_in _ v (by omega) (by decide),
    s.wrMask_onlyWords _ _ _⟩

theorem State.err_hifErrstat (s : State) {i : Nat} (hi : i < 32) :
    (s.err Reg.HIF_ERRSTAT i).bit Reg.HIF_ERRSTAT i = true ∧ WordsAndEvents [Reg.HIF_ERRSTAT] s (s.err Reg.HIF_ERRSTAT i) :=
  ⟨s.err_bit hi (by decide), State.err_events (WordsAndEvents.refl _ s) i (List.mem_singleton.2 rfl)⟩

/-- A range over another function's is refused. -/
theorem ringRange_refused {h : Nat} (hlt : h < 68) (hne : h ≠ fnIndex l f)
    (hmeets : rangesMeet (fld v 16 15) (fld v 0 16) (s.rdf (Reg.HIF_FNCFG_W1 h) 16 15) (s.rdf (Reg.HIF_FNCFG_W1 h) 0 16) = true) :
    ∃ t, exec (.functionConfigWrite l f 1 v) s = .next t ∧ t.bit Reg.HIF_ERRSTAT 0 = true ∧ WordsAndEvents [Reg.HIF_ERRSTAT] s t := by
  have hclash : ((List.range 68).any fun h => h != fnIndex l f &&
      rangesMeet (fld v 16 15) (fld v 0 16) (s.rdf (Reg.HIF_FNCFG_W1 h) 16 15) (s.rdf (Reg.HIF_FNCFG_W1 h) 0 16)) = true :=
    List.any_eq_true.2 ⟨h, List.mem_range.2 hlt, by simp [hne, hmeets]⟩
  have hrange : s.writeRingRange (fnIndex l f) v = s.err Reg.HIF_ERRSTAT 0 := by
    unfold State.writeRingRange
    dsimp only
    rw [hclash]
    rfl
  exact ⟨_, congrArg Host.Outcome.next hrange, s.err_hifErrstat (by omega)⟩

/-- The event ring selected among the function's own. -/
theorem eventRing_takes (howed : s.owed = []) (howns : s.ownsRing (fnIndex l f) (fld v 0 15) = true) :
    ∃ t, exec (.functionConfigWrite l f 2 v) s = .next t ∧ t.bit (Reg.HIF_FNCFG_W2 (fnIndex l f)) 31 = wbit v 31 ∧
      t.rdf (Reg.HIF_FNCFG_W2 (fnIndex l f)) 0 15 = fld v 0 15 ∧ OnlyWords [Reg.HIF_FNCFG_W2 (fnIndex l f)] s t := by
  have hselect : (s.writeEventRing (fnIndex l f) v).payOwed = s.wrMask (Reg.HIF_FNCFG_W2 (fnIndex l f)) 0x80007FFF#32 v := by
    have hwrite : s.writeEventRing (fnIndex l f) v = s.wrMask (Reg.HIF_FNCFG_W2 (fnIndex l f)) 0x80007FFF#32 v := by
      unfold State.writeEventRing
      rw [howns]
      rfl
    have hnone : (s.wrMask (Reg.HIF_FNCFG_W2 (fnIndex l f)) 0x80007FFF#32 v).owed = [] := howed
    rw [hwrite]
    unfold State.payOwed
    rw [hnone]
    rfl
  exact ⟨_, congrArg Host.Outcome.next hselect, s.bit_wrMask_in _ v (by omega) (by decide), s.rdf_wrMask_in _ v (by omega) (by decide),
    s.wrMask_onlyWords _ _ _⟩

end

/-! ## Streams (R252) -/

/-- The entry of a stream's W0 in Table 10-13: reserved encodings in bits 28 to 30 alone. -/
theorem find_crstream : ∀ i : Fin 64, ((RegMap.find (Reg.HIF_CRSTREAM_W0 i)).map fun p => (p.1.rw, p.1.w1c, p.1.w1s, p.1.rules)) =
    some (0xF03F7FFF, 0, 0, [⟨30, 28, [(0x0, 0x3)], 1⟩]) := by decide

/-- EN and RING of a stream as written. -/
theorem State.getLsbD_writeReg_crstream (s : State) (stream : Fin 64) (v : Word) {i : Nat} (hi : i < 15 ∨ i = 31) :
    ((s.writeReg (Reg.HIF_CRSTREAM_W0 stream) v).rd (Reg.HIF_CRSTREAM_W0 stream)).getLsbD i = v.getLsbD i := by
  obtain ⟨⟨e, ix⟩, hfind, hfields⟩ := Option.map_eq_some_iff.1 (find_crstream stream)
  obtain ⟨hrw, hw1c, hw1s, hrules⟩ : e.rw = 0xF03F7FFF ∧ e.w1c = 0 ∧ e.w1s = 0 ∧ e.rules = [⟨30, 28, [(0x0, 0x3)], 1⟩] := by
    simpa only [Prod.mk.injEq] using hfields
  have hbits : ∀ i, i < 32 → i < 15 ∨ i = 31 → (BitVec.ofNat 32 0xF03F7FFF).getLsbD i = true := by decide
  have hlt : i < 32 := by omega
  have hwritable : (e.writable v).getLsbD i = true := by
    refine (e.writable_getLsbD v hlt).2 ⟨by rw [hrw]; exact hbits i hlt hi, fun r hr hlo hhi => ?_⟩
    rw [hrules, List.mem_singleton] at hr
    subst hr
    exfalso
    simp only at hlo hhi
    omega
  rw [State.rd_writeReg_same s v hfind, e.merge_getLsbD _ _ hlt, hw1c, hw1s, hwritable]
  simp

theorem streamEnable_refused (s : State) (i : Fin 64) (v : Word) (hen : wbit v 31 = true)
    (hbad : s.ringOn (fld v 0 15) = false ∨ s.ringType (fld v 0 15) ≠ 3) :
    ∃ t, exec (.streamEnable i v) s = .next t ∧ t.bit Reg.HIF_ERRSTAT 0 = true ∧ WordsAndEvents [Reg.HIF_ERRSTAT] s t := by
  have hcond : (wbit v 31 && !(s.ringOn (fld v 0 15) && s.ringType (fld v 0 15) == 3)) = true := by
    rcases hbad with h | h
    · simp [hen, h]
    · simp [hen, h]
  exact ⟨_, congrArg Host.Outcome.next (if_pos hcond), s.err_hifErrstat (by omega)⟩

theorem streamEnable_takes (s : State) (i : Fin 64) (v : Word)
    (hgood : wbit v 31 = false ∨ (s.ringOn (fld v 0 15) = true ∧ s.ringType (fld v 0 15) = 3)) :
    ∃ t, exec (.streamEnable i v) s = .next t ∧ t.bit (Reg.HIF_CRSTREAM_W0 i) 31 = wbit v 31 ∧
      t.rdf (Reg.HIF_CRSTREAM_W0 i) 0 15 = fld v 0 15 ∧ OnlyWords [Reg.HIF_CRSTREAM_W0 i] s t := by
  have hcond : ¬ (wbit v 31 && !(s.ringOn (fld v 0 15) && s.ringType (fld v 0 15) == 3)) = true := by
    rcases hgood with h | ⟨hon, htype⟩
    · simp [h]
    · simp [hon, htype]
  refine ⟨_, congrArg Host.Outcome.next (if_neg hcond), s.getLsbD_writeReg_crstream i v (.inr rfl), ?_, OnlyWords.writeReg_self _ _ _⟩
  exact fld_congr fun j hj => s.getLsbD_writeReg_crstream i v (.inl (by omega))

end Sys2Proof.Machine
end

section
/-! PROOF. O45, the second part: function resets, and bus mastering. -/

namespace Sys2Proof.Machine

/-! ## What a function's reset leaves aside -/

theorem Aside.ringOff {s t : State} (h : Aside s t) (r : Nat) : Aside s (t.ringOff r) := by
  have hw2 : ¬ AsideWord (Reg.RING_W2 r) := not_asideWord_of_high (by unfold Reg.RING_W2; omega)
  have hw5 : ¬ AsideWord (Reg.RING_W5 r) := not_asideWord_of_high (by unfold Reg.RING_W5; omega)
  exact ((h.wrBit _ _ hw2).wrf _ _ _ hw5).setRing r _

theorem Aside.dropOrigins {s t : State} (h : Aside s t) (r : Nat) : Aside s (t.dropOrigins r) := h.update

theorem State.cfg_setCfg_same (s : State) (g : Nat) (x : FnCfg) : (s.setCfg g x).cfg g = x := Store.get_set_same _ _ _ _

theorem State.cfg_setCfg_ne (s : State) {g h : Nat} (x : FnCfg) (hne : h ≠ g) : (s.setCfg g x).cfg h = s.cfg h := Store.get_set_ne _ _ _ _ hne

/-- Bus Master Enable and the configuration space of a function reset. -/
def State.resetCfg (s : State) (g : Nat) : State := { s with bme := s.bme.filter (· != g) }.setCfg g FnCfg.zero

theorem Aside.resetCfg {s t : State} (h : Aside s t) (g : Nat) : Aside s (t.resetCfg g) := by
  refine h.trans ⟨fun _ _ => rfl, rfl, fun x hx hmem => hx (List.mem_filter.1 hmem).1, fun x hx => ?_⟩
  by_cases hg : x = g
  · subst hg
    exact State.cfg_setCfg_same _ _ _
  · exact (State.cfg_setCfg_ne _ _ hg).trans hx

/-- The function itself: no Bus Master Enable, and its configuration space as a reset leaves it. -/
theorem State.resetCfg_clears (s : State) (g : Nat) : g ∉ (s.resetCfg g).bme ∧ (s.resetCfg g).cfg g = FnCfg.zero := by
  refine ⟨fun h => ?_, State.cfg_setCfg_same _ _ _⟩
  have hne := (List.mem_filter.1 h).2
  simp at hne

/-- A function's rings and streams disabled (R257). -/
def State.stopFn (s : State) (g : Nat) : State :=
  (s.each ((s.fnRings g).filter s.ringOn) fun t r => if t.ringType r = 1 then (t.ringOff r).dropOrigins r else t.ringOff r).each
    ((List.range 64).filter fun i => s.ownsRing g (s.rdf (Reg.HIF_CRSTREAM_W0 i) 0 15)) fun t i => t.wrBit (Reg.HIF_CRSTREAM_W0 i) 31 false

/-- A function's reset before FLRABORT is looked at. -/
def State.clearFn (s : State) (g : Nat) : State := (s.stopFn g).resetCfg g

theorem State.resetFn_eq (s : State) (g : Nat) :
    ∃ es, s.resetFn g = if s.bit (Reg.HIF_FNCFG_W0 g) 30 then (s.clearFn g).finish es else s.clearFn g := by
  unfold State.resetFn
  extract_lets rings off stopped cleared
  have hcleared : cleared = s.clearFn g := rfl
  rw [hcleared]
  exact ⟨_, rfl⟩

theorem Aside.stopFn (s : State) (g : Nat) : Aside s (s.stopFn g) := by
  refine Aside.foldl _ _ (fun u i hi hu => ?_) (Aside.foldl _ _ (fun u r _ hu => ?_) (Aside.refl s))
  · have hlt := List.mem_range.1 (List.mem_filter.1 hi).1
    exact hu.wrBit _ _ (not_asideWord_of_low (by unfold Reg.HIF_CRSTREAM_W0; omega))
  · split
    · exact (hu.ringOff r).dropOrigins r
    · exact hu.ringOff r

theorem Aside.clearFn (s : State) (g : Nat) : Aside s (s.clearFn g) := (Aside.stopFn s g).resetCfg g

theorem Aside.resetFn {s t : State} (h : Aside s t) (g : Nat) : Aside s (t.resetFn g) := by
  refine h.trans ?_
  obtain ⟨es, heq⟩ := State.resetFn_eq t g
  rw [heq]
  split
  · exact (Aside.clearFn t g).finish _
  · exact Aside.clearFn t g

theorem State.resetFn_clears (s : State) (g : Nat) : g ∉ (s.resetFn g).bme ∧ (s.resetFn g).cfg g = FnCfg.zero := by
  obtain ⟨hbme, hcfg⟩ : g ∉ (s.clearFn g).bme ∧ (s.clearFn g).cfg g = FnCfg.zero := (s.stopFn g).resetCfg_clears g
  obtain ⟨es, heq⟩ := State.resetFn_eq s g
  rw [heq]
  split
  · have hend := (Aside.refl (s.clearFn g)).finish es
    exact ⟨hend.bme g hbme, hend.cfg g hcfg⟩
  · exact ⟨hbme, hcfg⟩

/-- Every function of a list reset. -/
theorem resetFns_clear (gs : List Nat) (s : State) {g : Nat} (hg : g ∈ gs) :
    g ∉ (gs.foldl State.resetFn s).bme ∧ (gs.foldl State.resetFn s).cfg g = FnCfg.zero := by
  induction gs generalizing s with
  | nil => exact absurd hg List.not_mem_nil
  | cons x xs ih =>
    by_cases hmem : g ∈ xs
    · exact ih _ hmem
    · have hx : g = x := (List.mem_cons.1 hg).resolve_right hmem
      obtain ⟨hbme, hcfg⟩ := s.resetFn_clears x
      have hrest : Aside (s.resetFn x) (xs.foldl State.resetFn (s.resetFn x)) := Aside.foldl _ _ (fun _ y _ hu => hu.resetFn y) (Aside.refl _)
      rw [hx]
      exact ⟨hrest.bme x hbme, hrest.cfg x hcfg⟩

theorem Aside.resetFns {s t : State} (h : Aside s t) (gs : List Nat) : Aside s (gs.foldl State.resetFn t) :=
  Aside.foldl _ _ (fun _ g _ hu => hu.resetFn g) h

/-- The drain of a scope has begun. -/
theorem State.drainTraffic_mem (s : State) (k : ResetScope) (bursts : List Burst) (reads : List Access) :
    ∃ x ∈ (s.drainTraffic k bursts reads).draining, x.1 = k :=
  ⟨_, List.mem_append_right _ (List.mem_singleton.2 rfl), rfl⟩

/-! ## Hot reset (R258) -/

theorem State.rd_errOtherLinks_ne (s : State) {a b : Nat} (i l : Nat) (h : b ≠ a) (hr : isRingWord b = false) :
    (s.errOtherLinks a i l).rd b = s.rd b :=
  (State.errOtherLinks_events (WordsAndEvents.refl [a] s) i l (List.mem_singleton.2 rfl)).rd (by simpa using h) hr

theorem State.errOtherLinks_bit (s : State) {a i : Nat} (l : Nat) (hi : i < 32) (hr : isRingWord a = false) : (s.errOtherLinks a i l).bit a i = true := by
  unfold State.errOtherLinks
  split
  · assumption
  · exact (congrArg (wbit · i) (State.rd_eventMgmt _ _ _ hr)).trans (s.bit_wrBit_same a true hi)

theorem not_asideWord_linkcfg (l : Fin 4) : ¬ AsideWord (Reg.HIF_LINKCFG l) := not_asideWord_of_low (by unfold Reg.HIF_LINKCFG; omega)

theorem hotReset_effect (s : State) (l : Fin 4) (bursts : List Burst) (reads : List Access) :
    ∃ t, exec (.hotReset ⟨l, bursts, reads⟩) s = .next t ∧ t.bit (Reg.HIF_LINKCFG l) 31 = false ∧ t.bit Reg.HIF_ERRSTAT 6 = true ∧
      (∀ f : Fin 17, fnIndex l f ∉ t.bme ∧ t.cfg (fnIndex l f) = FnCfg.zero) ∧ ∃ x ∈ t.draining, x.1 = .master ⟨l.val, by omega⟩ := by
  have hexec : exec (.hotReset ⟨l, bursts, reads⟩) s = .next (((((List.range 17).map (fnIndex l)).foldl State.resetFn
      (s.drainTraffic (.master ⟨l.val, by omega⟩) bursts reads)).wrBit (Reg.HIF_LINKCFG l) 31 false).errOtherLinks Reg.HIF_ERRSTAT 6 l) := rfl
  obtain ⟨x, hdraining, hscope⟩ := s.drainTraffic_mem (.master ⟨l.val, by omega⟩) bursts reads
  generalize s.drainTraffic (.master ⟨l.val, by omega⟩) bursts reads = drained at hexec hdraining
  have hclear := fun (f : Fin 17) => resetFns_clear ((List.range 17).map (fnIndex l)) drained (g := fnIndex l f)
    (List.mem_map.2 ⟨f, List.mem_range.2 f.isLt, rfl⟩)
  have hreset := (Aside.refl drained).resetFns ((List.range 17).map (fnIndex l))
  generalize ((List.range 17).map (fnIndex l)).foldl State.resetFn drained = reset at hexec hclear hreset
  have hend := ((Aside.refl reset).wrBit 31 false (not_asideWord_linkcfg l)).errOtherLinks 6 l not_asideWord_hifErrstat
  have hne : Reg.HIF_LINKCFG l ≠ Reg.HIF_ERRSTAT := by unfold Reg.HIF_LINKCFG Reg.HIF_ERRSTAT; omega
  have hring : isRingWord (Reg.HIF_LINKCFG l) = false := by unfold isRingWord Reg.HIF_LINKCFG; simp; omega
  refine ⟨_, hexec, ?_, State.errOtherLinks_bit _ _ (by omega) (by decide), fun f => ?_, x, ?_, hscope⟩
  · exact (congrArg (wbit · 31) (State.rd_errOtherLinks_ne _ 6 l hne hring)).trans (State.bit_wrBit_same _ _ _ (by omega))
  · obtain ⟨hbme, hcfg⟩ := hclear f
    exact ⟨hend.bme _ hbme, hend.cfg _ hcfg⟩
  · rw [hend.draining, hreset.draining]
    exact hdraining

end Sys2Proof.Machine
end

section
/-! PROOF. O45, the third part: function-level reset, and bus mastering. -/

namespace Sys2Proof.Machine

/-! ## Function-level reset (R257) -/

/-- A field that no pass of a loop changes. -/
theorem foldl_keeps {α β : Type} (p : State → β) {f : State → α → State} (hf : ∀ u x, p (f u x) = p u) (xs : List α) (s : State) :
    p (xs.foldl f s) = p s := by
  induction xs generalizing s with
  | nil => rfl
  | cons x xs ih => exact (ih _).trans (hf s x)

theorem State.clearFn_batches (s : State) (g : Nat) : (s.clearFn g).batches = s.batches := by
  have hrings : ∀ (u : State) (r : Nat), (if u.ringType r = 1 then (u.ringOff r).dropOrigins r else u.ringOff r).batches = u.batches :=
    fun u r => by
      split
      · rfl
      · rfl
  have hstop : (s.stopFn g).batches = s.batches := by
    unfold State.stopFn State.each
    have hstream : ∀ (u : State) (i : Nat), (u.wrBit (Reg.HIF_CRSTREAM_W0 i) 31 false).batches = u.batches := fun _ _ => rfl
    exact (foldl_keeps State.batches hstream _ _).trans (foldl_keeps State.batches hrings _ s)
  exact hstop

theorem State.mem_fnRings {s : State} {g r : Nat} : r ∈ s.fnRings g ↔ s.ownsRing g r = true := by
  unfold State.fnRings State.ownsRing
  simp only [List.mem_range'_1, Bool.and_eq_true, decide_eq_true_eq]

/-- Disabling ring `q` clears EN of that ring alone. -/
theorem State.ringOn_ringOff (s : State) (q r : Nat) : (s.ringOff q).ringOn r = (s.ringOn r && r != q) := by
  have hw5 : Reg.RING_W2 r ≠ Reg.RING_W5 q := by unfold Reg.RING_W2 Reg.RING_W5; omega
  have hstate : (s.ringOff q).ringOn r = (s.wrBit (Reg.RING_W2 q) 31 false).ringOn r := State.bit_wr_ne _ _ 31 hw5
  rw [hstate]
  by_cases hq : r = q
  · subst hq
    simp [State.ringOn, State.bit_wrBit_same]
  · have hw2 : Reg.RING_W2 r ≠ Reg.RING_W2 q := by unfold Reg.RING_W2; omega
    have hkept : (s.wrBit (Reg.RING_W2 q) 31 false).ringOn r = s.ringOn r := State.bit_wr_ne s _ 31 hw2
    simp [hkept, hq]

theorem State.ringOn_stopRings (xs : List Nat) (s : State) (r : Nat) :
    (xs.foldl (fun t r => if t.ringType r = 1 then (t.ringOff r).dropOrigins r else t.ringOff r) s).ringOn r = (s.ringOn r && !xs.contains r) := by
  induction xs generalizing s with
  | nil => simp
  | cons x xs ih =>
    have hstep : (if s.ringType x = 1 then (s.ringOff x).dropOrigins x else s.ringOff x).ringOn r = (s.ringOn r && r != x) := by
      split
      · exact s.ringOn_ringOff x r
      · exact s.ringOn_ringOff x r
    rw [List.foldl_cons, ih, hstep, List.contains_cons, Bool.not_or, Bool.and_assoc]
    rfl

/-- A function's reset disables its rings and no other. -/
theorem State.ringOn_clearFn (s : State) (g r : Nat) : (s.clearFn g).ringOn r = (s.ringOn r && !s.ownsRing g r) := by
  have hstreams : (s.clearFn g).ringOn r = (s.each ((s.fnRings g).filter s.ringOn) fun t r =>
      if t.ringType r = 1 then (t.ringOff r).dropOrigins r else t.ringOff r).ringOn r := by
    have hstep : ∀ (xs : List Nat) (u : State), (∀ i ∈ xs, i < 64) →
        (xs.foldl (fun t i => t.wrBit (Reg.HIF_CRSTREAM_W0 i) 31 false) u).ringOn r = u.ringOn r := by
      intro xs
      induction xs with
      | nil => exact fun _ _ => rfl
      | cons x xs ih =>
        intro u hlt
        have hx := hlt x List.mem_cons_self
        have hne : Reg.RING_W2 r ≠ Reg.HIF_CRSTREAM_W0 x := by unfold Reg.RING_W2 Reg.HIF_CRSTREAM_W0; omega
        exact (ih _ fun i hi => hlt i (List.mem_cons_of_mem _ hi)).trans (State.bit_wr_ne u _ 31 hne)
    exact hstep _ _ fun i hi => List.mem_range.1 (List.mem_filter.1 hi).1
  have howned : ((s.fnRings g).filter s.ringOn).contains r = (s.ownsRing g r && s.ringOn r) := by
    rw [Bool.eq_iff_iff, List.contains_iff_mem, List.mem_filter, State.mem_fnRings, Bool.and_eq_true]
  rw [hstreams]
  refine (State.ringOn_stopRings _ s r).trans ?_
  rw [howned]
  cases s.ringOn r <;> simp

/-- A VF's reset with no traffic of its own and no FLRABORT. -/
theorem State.resetFn_plain {s : State} {g : Nat} (h : s.bit (Reg.HIF_FNCFG_W0 g) 30 = false) : s.resetFn g = s.clearFn g := by
  obtain ⟨es, heq⟩ := s.resetFn_eq g
  rw [heq, h, if_neg Bool.false_ne_true]

/-- The functions that a function-level reset resets. -/
def flrFns (l : Fin 4) (f : Fin 17) : List Nat := (if f.val = 0 then List.finRange 17 else [f] : List (Fin 17)).map fun h => fnIndex l h.val

theorem exec_functionLevelReset (s : State) (l : Fin 4) (f : Fin 17) (bursts : List Burst) (reads : List Access) :
    ∃ drained, exec (.functionLevelReset ⟨l, bursts, reads⟩ f) s = .next ((flrFns l f).foldl State.resetFn drained) ∧
      (f ≠ 0 → drained = s.drainTraffic (.function l f) bursts reads) := by
  refine ⟨_, congrArg Host.Outcome.next (List.foldl_map (g := State.resetFn)).symm, fun hf => ?_⟩
  have hval : ¬ f.val = 0 := fun h => hf (Fin.ext h)
  rw [if_neg hval]
  rfl

theorem functionLevelReset_effect (s : State) (l : Fin 4) (f : Fin 17) (bursts : List Burst) (reads : List Access) :
    ∃ t, exec (.functionLevelReset ⟨l, bursts, reads⟩ f) s = .next t ∧ fnIndex l f ∉ t.bme ∧ t.cfg (fnIndex l f) = FnCfg.zero ∧
      (f = 0 → ∀ h : Fin 17, fnIndex l h ∉ t.bme ∧ t.cfg (fnIndex l h) = FnCfg.zero) ∧
      (f ≠ 0 → s.bit (Reg.HIF_FNCFG_W0 (fnIndex l f)) 30 = false → bursts = [] → reads = [] →
        t.draining = s.draining.filter (fun d => d.1 != .function l f) ++ [(.function l f, 0, 0)] ∧ t.batches = s.batches ∧
        ∀ r, r < 32768 → t.ringOn r = (s.ringOn r && !s.ownsRing (fnIndex l f) r)) := by
  obtain ⟨drained, hexec, hdrained⟩ := exec_functionLevelReset s l f bursts reads
  have hself : fnIndex l f ∈ flrFns l f := by
    refine List.mem_map.2 ⟨f, ?_, rfl⟩
    split
    · exact List.mem_finRange f
    · exact List.mem_singleton.2 rfl
  obtain ⟨hbme, hcfg⟩ := resetFns_clear (flrFns l f) drained hself
  refine ⟨_, hexec, hbme, hcfg, fun hf h => resetFns_clear _ drained ?_, fun hf hkeep hbursts hreads => ?_⟩
  · subst hf
    exact List.mem_map.2 ⟨h, List.mem_finRange h, rfl⟩
  · subst hbursts hreads
    have hidle := s.drainTraffic_idle (.function l f) [] [] (fun _ hb => absurd hb List.not_mem_nil) (fun _ hx => absurd hx List.not_mem_nil)
    have hone : flrFns l f = [fnIndex l f] := by
      unfold flrFns
      have hval : ¬ f.val = 0 := fun h => hf (Fin.ext h)
      rw [if_neg hval]
      rfl
    have hplain : (flrFns l f).foldl State.resetFn drained =
        State.clearFn { s with draining := (s.draining.filter fun d => d.1 != .function l f) ++ [(.function l f, 0, 0)] } (fnIndex l f) := by
      rw [hone, hdrained hf, hidle]
      exact State.resetFn_plain hkeep
    rw [hplain]
    exact ⟨(Aside.clearFn _ _).draining, State.clearFn_batches _ _, fun r _ => State.ringOn_clearFn _ _ r⟩

/-! ## Bus mastering (R256) -/

theorem busMasterEnable_retries {s : State} (l : Fin 4) (f : Fin 17) (hready : s.hostReady = false) :
    exec (.busMasterEnable l f) s = .next (s.send (.retry l f)) := by
  simp only [exec, execBusMasterEnable, hready, Bool.not_false, if_true]

/-- A fetch changes the ring it is of, and what is sent. -/
theorem State.issueFetch_eq (s : State) (r : Nat) : s.issueFetch r = { s with rings := (s.issueFetch r).rings, out := (s.issueFetch r).out } := by
  unfold State.issueFetch
  dsimp only
  split
  · rfl
  · rfl

theorem State.fetches_eq (xs : List Nat) (s : State) :
    xs.foldl State.issueFetch s = { s with rings := (xs.foldl State.issueFetch s).rings, out := (xs.foldl State.issueFetch s).out } := by
  induction xs generalizing s with
  | nil => rfl
  | cons x xs ih =>
    exact (ih (s.issueFetch x)).trans (congrArg (fun u : State => { u with
      rings := (xs.foldl State.issueFetch (s.issueFetch x)).rings, out := (xs.foldl State.issueFetch (s.issueFetch x)).out }) (s.issueFetch_eq x))

theorem State.ring_issueFetch_ne (s : State) {q r : Nat} (h : r ≠ q) : (s.issueFetch q).ring r = s.ring r := by
  unfold State.issueFetch
  dsimp only
  split
  · rfl
  · exact State.ring_setRing_ne s _ h

/-- The conditions under which ring `r` has a fetch to issue, but for a read outstanding (R245). -/
structure MayFetch (s : State) (r : Nat) : Prop where
  owed : (s.ring r).fetched.length < s.ringUsed r
  running : s.rdf (Reg.RING_W5 r) 28 4 = 1
  allowed : s.submitStopped = false
  master : (s.ringOwner r).any s.dmaOk = true

/-- A ring that may fetch has a read outstanding after its turn. -/
theorem MayFetch.asked {s : State} {r : Nat} (h : MayFetch s r) : ((s.issueFetch r).ring r).asked ≠ 0 := by
  obtain ⟨howed, hrunning, hallowed, hmaster⟩ := h
  have hwant : min 16 (s.ringUsed r - (s.ring r).fetched.length) ≠ 0 := by omega
  unfold State.issueFetch
  dsimp only
  by_cases hasked : (s.ring r).asked = 0
  · rw [if_neg (by simp [hasked, hrunning, hallowed, hmaster]; omega)]
    have hset : ∀ (x : RingRec) (o : Output), ((s.setRing r x).send o).ring r = x := fun x o => State.ring_setRing_same s r x
    rw [hset]
    exact hwant
  · rw [if_pos (by simp [hasked])]
    exact hasked

theorem MayFetch.of_same {s t : State} {r : Nat} (h : MayFetch s r) (hring : t.ring r = s.ring r)
    (hsame : t = { s with rings := t.rings, out := t.out }) : MayFetch t r := by
  obtain ⟨howed, hrunning, hallowed, hmaster⟩ := h
  rw [← hring] at howed
  generalize t.rings = rings, t.out = out at hsame
  subst hsame
  exact ⟨howed, hrunning, hallowed, hmaster⟩

/-- A ring whose turn has come, or comes, has a read outstanding at the end. -/
theorem asked_fetches (xs : List Nat) {s : State} {r : Nat} (h : (s.ring r).asked ≠ 0 ∨ (MayFetch s r ∧ r ∈ xs)) :
    ((xs.foldl State.issueFetch s).ring r).asked ≠ 0 := by
  induction xs generalizing s with
  | nil => exact h.resolve_right fun hmem => absurd hmem.2 List.not_mem_nil
  | cons x xs ih =>
    refine ih ?_
    rcases h with hasked | ⟨hmay, hmem⟩
    · left
      by_cases hx : r = x
      · subst hx
        have hdone : s.issueFetch r = s := by
          unfold State.issueFetch
          exact if_pos (by simp [hasked])
        rw [hdone]
        exact hasked
      · rw [s.ring_issueFetch_ne hx]
        exact hasked
    · by_cases hx : r = x
      · subst hx
        exact .inl hmay.asked
      · exact .inr ⟨hmay.of_same (s.ring_issueFetch_ne hx) (s.issueFetch_eq x), (List.mem_cons.1 hmem).resolve_left hx⟩

/-- Bus Master Enable of a function. -/
def State.master (s : State) (g : Nat) : State := { s with bme := (g :: s.bme).eraseDups }

theorem State.no_heldCq {s : State} (h : s.heldCq = []) : { s with heldCq := [] } = s := congrArg (fun x => { s with heldCq := x }) h.symm

/-- With nothing held for it, a function that becomes master fetches for its running SUBMIT rings. -/
theorem exec_busMasterEnable {s : State} (l : Fin 4) (f : Fin 17) (hready : s.hostReady = true) (hheld : s.heldCq = []) :
    exec (.busMasterEnable l f) s = .next (if (s.cfg (fnIndex l f)).d3hot then s.master (fnIndex l f)
      else ((s.fnRings (fnIndex l f)).filter fun r => s.ringOn r && s.ringType r == 0).foldl State.issueFetch (s.master (fnIndex l f))) := by
  have hnone : { s.master (fnIndex l f) with heldCq := [] } = s.master (fnIndex l f) := State.no_heldCq hheld
  have hstart : (s.heldCq.filter fun p => s.ownsRing (fnIndex l f) p.1).foldl (fun t p => t.postCq p.1 p.2)
      { s.master (fnIndex l f) with heldCq := s.heldCq.filter fun p => !s.ownsRing (fnIndex l f) p.1 } = s.master (fnIndex l f) := by
    rw [hheld]
    exact hnone
  simp only [exec, execBusMasterEnable, hready, Bool.not_true]
  rw [if_neg Bool.false_ne_true]
  refine congrArg (fun u => Host.Outcome.next (if (s.cfg (fnIndex l f)).d3hot then s.master (fnIndex l f)
    else ((State.fnRings u (fnIndex l f)).filter fun r => State.ringOn u r && State.ringType u r == 0).foldl State.issueFetch u)) ?_
  exact hstart

theorem busMasterEnable_fetches {s : State} (l : Fin 4) (f : Fin 17) (hready : s.hostReady = true) (hheld : s.heldCq = []) :
    ∃ t, exec (.busMasterEnable l f) s = .next t ∧ fnIndex l f ∈ t.bme ∧
      t = { s with bme := t.bme, rings := t.rings, out := t.out } ∧ ((s.cfg (fnIndex l f)).d3hot = true → t = { s with bme := t.bme }) ∧
      ∀ r, (s.cfg (fnIndex l f)).d3hot = false → s.ringOwner r = some (fnIndex l f) → s.ringOn r = true → s.ringType r = 0 →
        s.rdf (Reg.RING_W5 r) 28 4 = 1 → s.submitStopped = false → (s.ring r).fetched.length < s.ringUsed r → (t.ring r).asked ≠ 0 := by
  have hmem : fnIndex l f ∈ (s.master (fnIndex l f)).bme := List.mem_eraseDups.2 List.mem_cons_self
  have hexec := exec_busMasterEnable l f hready hheld
  cases hd3 : (s.cfg (fnIndex l f)).d3hot with
  | true =>
    rw [hd3, if_pos rfl] at hexec
    exact ⟨_, hexec, hmem, rfl, fun _ => rfl, fun r h => Bool.noConfusion h⟩
  | false =>
    rw [hd3, if_neg Bool.false_ne_true] at hexec
    have hframe := State.fetches_eq ((s.fnRings (fnIndex l f)).filter fun r => s.ringOn r && s.ringType r == 0) (s.master (fnIndex l f))
    refine ⟨_, hexec, ?_, ?_, fun h => Bool.noConfusion h, fun r _ howner hon htype hrun hallowed howed => ?_⟩
    · rw [hframe]
      exact hmem
    · exact hframe.trans (congrArg (fun b => { s with
        bme := b
        rings := (((s.fnRings (fnIndex l f)).filter fun r => s.ringOn r && s.ringType r == 0).foldl State.issueFetch (s.master (fnIndex l f))).rings
        out := (((s.fnRings (fnIndex l f)).filter fun r => s.ringOn r && s.ringType r == 0).foldl State.issueFetch (s.master (fnIndex l f))).out })
        (congrArg State.bme hframe).symm)
    · have howns : s.ownsRing (fnIndex l f) r = true := by
        have := List.find?_some howner
        exact this
      have hturn : r ∈ (s.fnRings (fnIndex l f)).filter fun r => s.ringOn r && s.ringType r == 0 :=
        List.mem_filter.2 ⟨State.mem_fnRings.2 howns, by simp [hon, htype]⟩
      have hdma : (s.master (fnIndex l f)).dmaOk (fnIndex l f) = true := by
        have hcfg : ((s.master (fnIndex l f)).cfg (fnIndex l f)).d3hot = false := hd3
        unfold State.dmaOk
        rw [hcfg, List.contains_iff_mem.2 hmem]
        rfl
      have howner' : (s.master (fnIndex l f)).ringOwner r = some (fnIndex l f) := howner
      exact asked_fetches _ (.inr ⟨⟨howed, hrun, hallowed, by rw [howner']; exact hdma⟩, hturn⟩)

/-- Settles O45, case by case: links, FNCFG, bus mastering and resets, streams. -/
theorem linksAndFunctions : Obligations.LinksAndFunctions := by
  unfold Obligations.LinksAndFunctions
  refine ⟨fun s l => ⟨perstDeassert_trains s l, pcieLinkUp_shows s l, hotReset_effect s l⟩, fun s l f v => ?_,
    fun s i v => ⟨streamEnable_refused s i v, streamEnable_takes s i v⟩⟩
  exact ⟨rfl, bindFn_takes s l f v, bindFn_refused s l f v, ringRange_takes s l f v, fun h hlt hne => ringRange_refused s l f v hlt hne,
    eventRing_takes s l f v, busMasterEnable_retries l f, busMasterEnable_fetches l f, functionLevelReset_effect s l f⟩

end Sys2Proof.Machine
end

section
/-! PROOF. O60, the first part: memory errors (R389 to R391). -/

namespace Sys2Proof.Machine

/-! ## Corrected errors -/

theorem State.rdf_count_same (s : State) (a : Nat) {lo n : Nat} (k : Nat) (h : lo + n ≤ 32) :
    (s.count a lo n k).rdf a lo n = satN n (s.rdf a lo n + k) := by
  have hlt : satN n (s.rdf a lo n + k) < 2 ^ n := by
    have := Nat.two_pow_pos n
    unfold satN
    omega
  exact (s.rdf_wrf_same a _ h).trans (Nat.mod_eq_of_lt hlt)

/-- The words of a corrected error: counted, its address logged, and CE set. -/
def State.countCe (s : State) (a : Nat) : State := ((s.count Reg.FLT_CECNT 0 32 1).wr Reg.FLT_CELOG (wd a)).err Reg.FLT_ERRSTAT 1

theorem State.countCe_effect (s : State) (a : Nat) :
    (s.countCe a).rdf Reg.FLT_CECNT 0 32 = satN 32 (s.rdf Reg.FLT_CECNT 0 32 + 1) ∧ (s.countCe a).rd Reg.FLT_CELOG = wd a ∧
      (s.countCe a).bit Reg.FLT_ERRSTAT 1 = true ∧ WordsAndEvents [Reg.FLT_CECNT, Reg.FLT_CELOG, Reg.FLT_ERRSTAT] s (s.countCe a) := by
  refine ⟨?_, ?_, State.err_bit _ (by omega) (by decide), ?_⟩
  · refine (congrArg (fld · 0 32) ?_).trans (s.rdf_count_same Reg.FLT_CECNT 1 (by omega))
    exact (State.rd_err_ne _ 1 (by decide) (by decide)).trans (State.rd_wr_ne _ _ (by decide))
  · exact (State.rd_err_ne _ 1 (by decide) (by decide)).trans (State.rd_wr_same _ _ _)
  · exact State.err_events (((WordsAndEvents.refl _ s).count 0 32 1 (.inl (by simp))).wr _ (.inl (by simp))) 1 (by simp)

/-- The corrected errors that the word of address `a` has shown in the last second, with the one now. -/
def State.shownCe (s : State) (a : Nat) : Nat :=
  1 + (s.ceTimes.filter fun p => decide (s.ns < p.2 + 1000000000) && p.1 == a / 8).length

/-- The times of corrected errors once the one now is noted. -/
def State.ceTimesWith (s : State) (a : Nat) : List (Nat × Nat) :=
  (a / 8, s.ns) :: s.ceTimes.filter fun p => decide (s.ns < p.2 + 1000000000)

theorem State.noteCe_eq (s : State) (a : Nat) :
    s.noteCe a = { s with ceTimes := s.ceTimesWith a }.when (decide (s.rdf Reg.FLT_CTRL 16 16 < s.shownCe a)) (·.err Reg.FLT_ERRSTAT 4) := by
  have hcount : ((s.ceTimesWith a).filter fun p => p.1 == a / 8).length = s.shownCe a := by
    unfold State.ceTimesWith State.shownCe
    rw [List.filter_cons_of_pos (by simp), List.filter_filter, List.length_cons, Nat.add_comm]
    simp only [Bool.and_comm]
  unfold State.noteCe
  exact congrArg (fun n => { s with ceTimes := s.ceTimesWith a }.when (decide (s.rdf Reg.FLT_CTRL 16 16 < n)) (·.err Reg.FLT_ERRSTAT 4)) hcount

theorem exec_scrubRead_corrected {s : State} (sweep : Bool) (a : Nat) (i : Fin 64) (m : MemRow) (n : Option Requester) (hoff : s.off = false) :
    exec (.scrubRead sweep a (.corrected i) m n) s = .next ((s.countCe a).noteCe a) := by
  simp only [exec, execScrubRead, hoff, Bool.false_and, Bool.false_eq_true, if_false]
  rfl

section
variable {s : State} (a : Nat)

theorem State.countCe_shownCe : (s.countCe a).shownCe a = s.shownCe a ∧ (s.countCe a).ceTimesWith a = s.ceTimesWith a ∧
    (s.countCe a).rdf Reg.FLT_CTRL 16 16 = s.rdf Reg.FLT_CTRL 16 16 := by
  obtain ⟨-, -, -, hframe⟩ := s.countCe_effect a
  have htimes : (s.countCe a).ceTimes = s.ceTimes := by rw [hframe.2]
  have hns : (s.countCe a).ns = s.ns := by
    rw [hframe.2]
    rfl
  refine ⟨?_, ?_, congrArg (fld · 16 16) (hframe.rd (by decide) (by decide))⟩
  · unfold State.shownCe
    rw [htimes, hns]
  · unfold State.ceTimesWith
    rw [htimes, hns]

theorem WordsAndEvents.setCeTimes {as : List Nat} {t : State} (h : WordsAndEvents as s t) (x : List (Nat × Nat)) :
    WordsAndEvents as { s with ceTimes := x } { t with ceTimes := x } :=
  ⟨h.1, congrArg (fun u : State => { u with ceTimes := x }) h.2⟩

variable (sweep : Bool) (m : MemRow) (n : Option Requester) (i : Fin 64) (hoff : s.off = false)
include hoff

theorem scrubRead_counts (hfew : s.shownCe a ≤ s.rdf Reg.FLT_CTRL 16 16) :
    ∃ t, exec (.scrubRead sweep a (.corrected i) m n) s = .next t ∧
      t.rdf Reg.FLT_CECNT 0 32 = satN 32 (s.rdf Reg.FLT_CECNT 0 32 + 1) ∧ t.rd Reg.FLT_CELOG = wd a ∧ t.bit Reg.FLT_ERRSTAT 1 = true ∧
      (a / 8, s.ns) ∈ t.ceTimes ∧ WordsAndEvents [Reg.FLT_CECNT, Reg.FLT_CELOG, Reg.FLT_ERRSTAT] { s with ceTimes := t.ceTimes } t := by
  obtain ⟨hcount, hlog, hbit, hframe⟩ := s.countCe_effect a
  obtain ⟨hshown, htimes, hthr⟩ := State.countCe_shownCe (s := s) a
  have hnote : (s.countCe a).noteCe a = { s.countCe a with ceTimes := s.ceTimesWith a } := by
    rw [State.noteCe_eq, hshown, htimes, hthr, decide_eq_false (by omega)]
    rfl
  refine ⟨_, (exec_scrubRead_corrected sweep a i m n hoff).trans (congrArg _ hnote), hcount, hlog, hbit, List.mem_cons_self, ?_⟩
  exact hframe.setCeTimes _

theorem scrubRead_exceeds (hmany : s.rdf Reg.FLT_CTRL 16 16 < s.shownCe a) :
    ∃ t, exec (.scrubRead sweep a (.corrected i) m n) s = .next t ∧ t.bit Reg.FLT_ERRSTAT 4 = true := by
  obtain ⟨hshown, -, hthr⟩ := State.countCe_shownCe (s := s) a
  refine ⟨_, exec_scrubRead_corrected sweep a i m n hoff, ?_⟩
  rw [State.noteCe_eq, hshown, hthr, decide_eq_true hmany]
  exact State.err_bit _ (by omega) (by decide)

end

/-! ## Uncorrectable errors -/

/-- The log of an uncorrectable error. -/
def State.logUe (s : State) (a row : Nat) : State :=
  (s.wr Reg.FLT_UELOG_W0 (wd a)).wr Reg.FLT_UELOG_W1 (pack [(30, 2, rowClass row), (16, 7, rowIsland a row), (0, 4, row)])

theorem State.logUe_effect (s : State) (a row : Nat) :
    (s.logUe a row).rd Reg.FLT_UELOG_W0 = wd a ∧ (s.logUe a row).rdf Reg.FLT_UELOG_W1 30 2 = rowClass row % 4 ∧
      (s.logUe a row).rdf Reg.FLT_UELOG_W1 0 4 = row % 16 ∧
      ∀ b, b ≠ Reg.FLT_UELOG_W0 → b ≠ Reg.FLT_UELOG_W1 → (s.logUe a row).rd b = s.rd b := by
  have hw1 : (s.logUe a row).rd Reg.FLT_UELOG_W1 = pack [(30, 2, rowClass row), (16, 7, rowIsland a row), (0, 4, row)] := State.rd_wr_same _ _ _
  refine ⟨(State.rd_wr_ne _ _ (by decide)).trans (State.rd_wr_same _ _ _), ?_, ?_, fun b h0 h1 => (State.rd_wr_ne _ _ h1).trans (State.rd_wr_ne _ _ h0)⟩
  · refine (congrArg (fld · 30 2) hw1).trans ?_
    unfold pack
    simp only [List.foldl]
    rw [fld_put_ne _ _ (by omega), fld_put_ne _ _ (by omega)]
    exact fld_put_same _ _ (by omega)
  · refine (congrArg (fld · 0 4) hw1).trans ?_
    unfold pack
    simp only [List.foldl]
    exact fld_put_same _ row (lo := 0) (n := 4) (by omega)

theorem exec_scrubRead_uncorrectable {s : State} (sweep : Bool) (a : Nat) (m : MemRow) (n : Option Requester) (hoff : s.off = false) :
    exec (.scrubRead sweep a .uncorrectable m n) s = .next ((((s.logUe a (s.memRow a m)).when (rowClass (s.memRow a m) == 1)
      (·.err Reg.FLT_ERRSTAT 2)).rowEffect a (s.memRow a m)).answerUe n) := by
  simp only [exec, execScrubRead, hoff, Bool.false_and, Bool.false_eq_true, if_false]
  rfl

/-- The answer to the reader changes no word and no poison mark. -/
theorem State.answerUe_keeps_words (s : State) (n : Option Requester) : (∀ b, (s.answerUe n).rd b = s.rd b) ∧ (s.answerUe n).poisoned = s.poisoned := by
  cases n with
  | none => exact ⟨fun _ => rfl, rfl⟩
  | some rq =>
    cases rq with
    | fn l f => exact ⟨fun _ => rfl, rfl⟩
    | session k => exact ⟨fun _ => rfl, rfl⟩
    | core k => exact ⟨fun _ => rfl, rfl⟩
    | internal k => exact ⟨fun _ => rfl, rfl⟩

theorem State.mem_poison {s : State} {a n i : Nat} (h : i < n) : a + 4 * i ∈ (s.poison a n).poisoned :=
  List.mem_append_right _ (List.mem_map.2 ⟨i, List.mem_range.2 h, rfl⟩)

section
variable {s : State} (sweep : Bool) (a : Nat) (hoff : s.off = false)
include hoff

theorem exec_scrubRead_pattern (n : Option Requester) : exec (.scrubRead sweep a .uncorrectable .pattern n) s =
    .next ((((s.logUe a 3).err Reg.FLT_ERRSTAT 2).poison (a / 2048 * 2048) 512).answerUe n) :=
  exec_scrubRead_uncorrectable sweep a .pattern n hoff

theorem scrubRead_pattern_contained (n : Option Requester) :
    ∃ t, exec (.scrubRead sweep a .uncorrectable .pattern n) s = .next t ∧ t.rd Reg.FLT_UELOG_W0 = wd a ∧
      t.rdf Reg.FLT_UELOG_W1 30 2 = 1 ∧ t.rdf Reg.FLT_UELOG_W1 0 4 = 3 ∧ t.bit Reg.FLT_ERRSTAT 2 = true ∧
      (∀ i, i < 512 → a / 2048 * 2048 + 4 * i ∈ t.poisoned) := by
  obtain ⟨hw0, hclass, hrow, -⟩ := s.logUe_effect a 3
  obtain ⟨hwords, hmarks⟩ := (((s.logUe a 3).err Reg.FLT_ERRSTAT 2).poison (a / 2048 * 2048) 512).answerUe_keeps_words n
  have hkept : ∀ b, b ≠ Reg.FLT_ERRSTAT → isRingWord b = false →
      ((((s.logUe a 3).err Reg.FLT_ERRSTAT 2).poison (a / 2048 * 2048) 512).answerUe n).rd b = (s.logUe a 3).rd b := fun b hne hring =>
    (hwords b).trans (State.rd_err_ne _ 2 hne hring)
  refine ⟨_, exec_scrubRead_pattern sweep a hoff n, ?_, ?_, ?_, ?_, fun i hi => ?_⟩
  · exact (hkept _ (by decide) (by decide)).trans hw0
  · exact (congrArg (fld · 30 2) (hkept _ (by decide) (by decide))).trans hclass
  · exact (congrArg (fld · 0 4) (hkept _ (by decide) (by decide))).trans hrow
  · exact (congrArg (wbit · 2) (hwords _)).trans (State.err_bit _ (by omega) (by decide))
  · rw [hmarks]
    exact State.mem_poison hi

/-- A master on the module's own side sees a bus error. -/
theorem scrubRead_busError {rq : Requester} (hfn : ∀ l f, rq ≠ .fn l f) (hsession : ∀ k, rq ≠ .session k) :
    ∃ t, exec (.scrubRead false a .uncorrectable .pattern (some rq)) s = .next t ∧ t.out.head? = some (.busError rq false []) := by
  refine ⟨_, exec_scrubRead_pattern false a hoff (some rq), ?_⟩
  cases rq with
  | fn l f => exact absurd rfl (hfn l f)
  | session k => exact absurd rfl (hsession k)
  | core k => rfl
  | internal k => rfl

/-- A function sees a poisoned completion. -/
theorem scrubRead_poisoned (l : Fin 4) (f : Fin 17) :
    ∃ t, exec (.scrubRead false a .uncorrectable .pattern (some (.fn l f))) s = .next t ∧ t.out.head? = some (.poisoned (.fn l f)) :=
  ⟨_, exec_scrubRead_pattern false a hoff (some (.fn l f)), rfl⟩

theorem scrubRead_fences (n : Option Requester) (tile : Nat) (htile : tile < 64) (haddr : tileOfAddr a = tile)
    (hfree : s.bit (Reg.MTX_ISLSTAT tile) 1 = false) :
    ∃ t, exec (.scrubRead sweep a .uncorrectable .tile n) s = .next t ∧ t.bit (Reg.MTX_ISLSTAT tile) 1 = true ∧ t.rdf Reg.FLT_UELOG_W1 30 2 = 2 ∧
      t.bit Reg.FLT_ERRSTAT 3 = true := by
  obtain ⟨-, hclass, -, hrest⟩ := s.logUe_effect a 9
  have hexec : exec (.scrubRead sweep a .uncorrectable .tile n) s = .next (((s.logUe a 9).fenceTile tile true).answerUe n) := by
    rw [← haddr]
    exact exec_scrubRead_uncorrectable sweep a .tile n hoff
  have hisl : Reg.MTX_ISLSTAT tile ≠ Reg.FLT_UELOG_W0 ∧ Reg.MTX_ISLSTAT tile ≠ Reg.FLT_UELOG_W1 := by
    unfold Reg.MTX_ISLSTAT Reg.FLT_UELOG_W0 Reg.FLT_UELOG_W1
    omega
  have hfree' : (s.logUe a 9).bit (Reg.MTX_ISLSTAT tile) 1 = false := (congrArg (wbit · 1) (hrest _ hisl.1 hisl.2)).trans hfree
  obtain ⟨-, hfenced, -, herr, hkept⟩ := (s.logUe a 9).fenceTile_effect true htile hfree'
  obtain ⟨hwords, -⟩ := ((s.logUe a 9).fenceTile tile true).answerUe_keeps_words n
  refine ⟨_, hexec, (congrArg (wbit · 1) (hwords _)).trans hfenced, ?_, (congrArg (wbit · 3) (hwords _)).trans herr⟩
  exact (congrArg (fld · 30 2) ((hwords _).trans (hkept _ (.inr (by decide)) hisl.2.symm (by decide) (by decide)))).trans hclass

end

end Sys2Proof.Machine
end

section
/-! PROOF. O60, the second part: UNFENCE, and fatal errors (R393 to R396). -/

namespace Sys2Proof.Machine

/-! ## UNFENCE (R393) -/

theorem unfence_notFenced {s : State} {t0 : Fin 64} (h : s.bit (Reg.MTX_ISLSTAT t0) 1 = false) :
    ∃ t, exec (.unfence t0) s = .next t ∧ t.rd Reg.FLT_CMDRES = 0x80000001#32 ∧ OnlyWords [Reg.FLT_CMDRES] s t := by
  have hres : s.unfence t0 = s.wr Reg.FLT_CMDRES 0x80000001#32 := if_neg (by simp [h])
  exact ⟨_, congrArg Host.Outcome.next hres, State.rd_wr_same _ _ _, (OnlyWords.refl _ _).wr _ (by simp)⟩

theorem unfence_begins {s : State} {t0 : Fin 64} (h : s.bit (Reg.MTX_ISLSTAT t0) 1 = true) :
    ∃ t, exec (.unfence t0) s = .next t ∧ t.rd Reg.FLT_CMDRES = 0#32 ∧ t0.val ∈ t.unfencing ∧
      OnlyWords [Reg.FLT_CMDRES] { s with unfencing := t.unfencing } t := by
  have hres : s.unfence t0 = { s with unfencing := (t0.val :: s.unfencing).eraseDups }.wr Reg.FLT_CMDRES 0#32 := if_pos h
  refine ⟨_, congrArg Host.Outcome.next hres, State.rd_wr_same _ _ _, List.mem_eraseDups.2 List.mem_cons_self, ?_⟩
  exact (OnlyWords.refl _ { s with unfencing := (t0.val :: s.unfencing).eraseDups }).wr _ (by simp)

/-- The attempt of a tile taken out of the list. -/
def State.endUnfence (s : State) (tile : Nat) : State := { s with unfencing := s.unfencing.filter (· != tile) }

theorem unfenceComplete_idle {s : State} {t0 : Fin 64} (l d : Bool) (h : t0.val ∉ s.unfencing) : exec (.unfenceComplete t0 l d) s = .next s := by
  have hnone : ¬ s.unfencing.contains t0.val = true := by simpa using h
  simp only [exec, execUnfenceComplete, if_neg hnone]

theorem unfenceComplete_fails {s : State} {t0 : Fin 64} {l d : Bool} (h : t0.val ∈ s.unfencing) (hbad : (l && d) = false) :
    ∃ t, exec (.unfenceComplete t0 l d) s = .next t ∧ t.rd Reg.FLT_CMDRES = 0x80000002#32 ∧ t0.val ∉ t.unfencing ∧
      OnlyWords [Reg.FLT_CMDRES] { s with unfencing := t.unfencing } t := by
  have hsome : s.unfencing.contains t0.val = true := by simpa using h
  have hexec : exec (.unfenceComplete t0 l d) s = .next ((s.endUnfence t0).wr Reg.FLT_CMDRES 0x80000002#32) := by
    simp only [exec, execUnfenceComplete, if_pos hsome, hbad, Bool.false_eq_true, if_false]
    rfl
  refine ⟨_, hexec, State.rd_wr_same _ _ _, fun hmem => ?_, ?_⟩
  · have hne := (List.mem_filter.1 hmem).2
    simp at hne
  · exact (OnlyWords.refl _ (s.endUnfence t0)).wr _ (by simp)

/-- A fenced cell back in its loop state. -/
def State.returnCell (ls : List Nat) (s : State) (c : Nat) : State :=
  if (s.cell c).mode = 5 then (s.setMode c (s.returnMode ls c)).wrf (cooWord c 7) 8 2 (classOf ls c) else s

theorem Aside.returnCell {s t : State} (h : Aside s t) (ls : List Nat) (c : Nat) : Aside s (t.returnCell ls c) := by
  unfold State.returnCell
  split
  · exact (h.setCell c _).wrf _ _ _ (not_asideWord_coo c 7)
  · exact h

/-- The island's bits of a tile that comes back: LOCK and TBOK set, FENCED clear. -/
theorem State.markUnfenced_effect (s : State) {a : Nat} (hne : a ≠ Reg.FLT_STAT) :
    let t := (((s.wrBit a 0 true).wrBit a 1 false).wrBit a 2 true).countFenced
    t.bit a 0 = true ∧ t.bit a 1 = false ∧ t.bit a 2 = true := by
  refine ⟨?_, ?_, ?_⟩
  · refine (State.bit_wr_ne _ _ 0 hne).trans ?_
    rw [State.bit_wrBit_ne _ _ _ (by omega), State.bit_wrBit_ne _ _ _ (by omega), State.bit_wrBit_same _ _ _ (by omega)]
  · refine (State.bit_wr_ne _ _ 1 hne).trans ?_
    rw [State.bit_wrBit_ne _ _ _ (by omega), State.bit_wrBit_same _ _ _ (by omega)]
  · exact (State.bit_wr_ne _ _ 2 hne).trans (State.bit_wrBit_same _ _ _ (by omega))

/-- A tile that comes back, locked and sound: its island's bits, then its cells and reports, then the answer. -/
theorem exec_unfenceComplete_sound {s : State} {t0 : Fin 64} (h : t0.val ∈ s.unfencing) :
    ∃ u, exec (.unfenceComplete t0 true true) s = .next (u.wr Reg.FLT_CMDRES 0x80000000#32).lampStat ∧
      Aside ((((s.endUnfence t0).wrBit (Reg.MTX_ISLSTAT t0) 0 true).wrBit (Reg.MTX_ISLSTAT t0) 1 false).wrBit (Reg.MTX_ISLSTAT t0) 2 true).countFenced u := by
  have hsome : s.unfencing.contains t0.val = true := by simpa using h
  have hcoo : ¬ AsideWord (Reg.COO_STAT t0) := not_asideWord_of_high (by unfold Reg.COO_STAT; omega)
  show ∃ u, execUnfenceComplete t0 true true s = _ ∧ _
  unfold execUnfenceComplete
  rw [if_pos hsome]
  extract_lets ended island marked ls thawed cells
  rw [if_pos (by decide)]
  have hcells : Aside marked cells :=
    Aside.foldl _ _ (fun u c _ hu => hu.returnCell ls c) (((Aside.refl marked).wrBit 24 _ hcoo).update)
  exact ⟨_, rfl, (hcells.reportAlone t0.isLt).cooStat t0⟩

theorem unfenceComplete_succeeds {s : State} {t0 : Fin 64} (h : t0.val ∈ s.unfencing) :
    ∃ t, exec (.unfenceComplete t0 true true) s = .next t ∧ t.rd Reg.FLT_CMDRES = 0x80000000#32 ∧
      t.bit (Reg.MTX_ISLSTAT t0) 1 = false ∧ t.bit (Reg.MTX_ISLSTAT t0) 0 = true ∧ t.bit (Reg.MTX_ISLSTAT t0) 2 = true := by
  have hisl : AsideWord (Reg.MTX_ISLSTAT t0) := AsideWord.islstat (by omega)
  have hstat : Reg.MTX_ISLSTAT t0 ≠ Reg.FLT_STAT := by unfold Reg.MTX_ISLSTAT Reg.FLT_STAT; omega
  have hres : Reg.MTX_ISLSTAT t0 ≠ Reg.FLT_CMDRES := by unfold Reg.MTX_ISLSTAT Reg.FLT_CMDRES; omega
  obtain ⟨u, hexec, haside⟩ := exec_unfenceComplete_sound h
  obtain ⟨hlock, hfenced, htbok⟩ := (s.endUnfence t0).markUnfenced_effect hstat
  have hlast := (Aside.refl (u.wr Reg.FLT_CMDRES 0x80000000#32)).lampStat
  have hkept : ((u.wr Reg.FLT_CMDRES 0x80000000#32).lampStat).rd (Reg.MTX_ISLSTAT t0) = _ :=
    (hlast.rd _ hisl).trans ((State.rd_wr_ne _ _ hres).trans (haside.rd _ hisl))
  refine ⟨_, hexec, (hlast.rd _ (.inr (by decide))).trans (State.rd_wr_same _ _ _), ?_, ?_, ?_⟩
  · exact (congrArg (wbit · 1) hkept).trans hfenced
  · exact (congrArg (wbit · 0) hkept).trans hlock
  · exact (congrArg (wbit · 2) hkept).trans htbok

end Sys2Proof.Machine
end

section
/-! PROOF. O60, the third part: the fatal declaration (R395, R396). -/

namespace Sys2Proof.Machine

/-! ## What is stopped at T_fat -/

/-- From `s` to `t` memory alone changed. -/
def MemOnly (s t : State) : Prop := ∃ m, t = { s with mem := m }

theorem MemOnly.refl (s : State) : MemOnly s s := ⟨s.mem, rfl⟩

theorem MemOnly.putByte {s t : State} (h : MemOnly s t) (a : Nat) (v : Byte) : MemOnly s (t.putByte a v) := by
  obtain ⟨m, rfl⟩ := h
  exact ⟨_, rfl⟩

theorem MemOnly.putMemWord {s t : State} (h : MemOnly s t) (a : Nat) (v : Word) : MemOnly s (t.putMemWord a v) :=
  (((h.putByte _ _).putByte _ _).putByte _ _).putByte _ _

theorem MemOnly.putMem {s t : State} (h : MemOnly s t) (a : Nat) (ws : List Word) : MemOnly s (t.putMem a ws) := by
  unfold State.putMem
  generalize ws.zip (List.range ws.length) = ps
  induction ps generalizing t with
  | nil => exact h
  | cons p ps ih => exact ih (h.putMemWord _ _)

theorem MemOnly.eraseMem {s t : State} (h : MemOnly s t) (lo n : Nat) : MemOnly s (t.eraseMem lo n) := by
  obtain ⟨m, rfl⟩ := h
  exact ⟨_, rfl⟩

/-- A finished NOR command leaves the NOR changed, and nothing else. -/
theorem State.flashEffect_rest (s : State) (f : FlashOp) :
    (s.flashEffect f).words = s.words ∧ (s.flashEffect f).out = s.out ∧ (s.flashEffect f).flash = s.flash := by
  unfold State.flashEffect
  dsimp only
  split
  · exact ⟨rfl, rfl, rfl⟩
  · split
    · obtain ⟨m, hm⟩ := (MemOnly.refl { s with norOwn := (f.addr / 0x10000 :: s.norOwn).eraseDups }).putMem (norBase + f.addr / 256 * 256) f.data
      rw [hm]
      exact ⟨rfl, rfl, rfl⟩
    · exact ⟨rfl, rfl, rfl⟩

/-- The NOR command at T_fat (R396): none is left, and BOOT_FLSTAT alone shows it. -/
theorem State.cutFlash_effect (s : State) : s.cutFlash.flash = none ∧ s.cutFlash.out = s.out ∧
    ∀ a, a ≠ Reg.BOOT_FLSTAT → s.cutFlash.rd a = s.rd a := by
  unfold State.cutFlash
  split
  · next h => exact ⟨h, rfl, fun _ _ => rfl⟩
  · next f _ =>
    split
    · exact ⟨rfl, rfl, fun a ha => State.rd_wr_ne _ _ ha⟩
    · obtain ⟨hwords, hout, hflash⟩ := { s with flash := none }.flashEffect_rest f
      refine ⟨hflash, hout, fun a ha => (State.rd_wr_ne _ _ ha).trans ?_⟩
      exact congrArg (fun ws => Store.get (resetWord a) ws a) hwords

/-- The save at T_fat: none is left in progress. -/
theorem State.dropSave_effect (s : State) : s.dropSave.saving = none ∧ s.dropSave.words = s.words ∧ s.dropSave.out = s.out ∧
    (s.flash = none → s.dropSave.flash = none) := by
  have hflash : s.flash = none → s.noSave.flash = none := fun h => by
    unfold State.noSave
    dsimp only
    rw [h]
    rfl
  unfold State.dropSave
  dsimp only
  split
  · exact ⟨rfl, rfl, rfl, hflash⟩
  · exact ⟨rfl, rfl, rfl, hflash⟩

/-- What T_fat stops: the NOR command, the save, the solve in progress and the Tinker's operation. -/
def State.haltFatal (s : State) : State :=
  { s.cutFlash.dropSave with solveStart := none, tink := s.tink.map fun (k : TinkOp) => { k with active := false } }

theorem State.haltFatal_effect (s : State) : s.haltFatal.saving = none ∧ s.haltFatal.flash = none ∧ s.haltFatal.solveStart = none ∧
    s.haltFatal.out = s.out ∧ ∀ a, a ≠ Reg.BOOT_FLSTAT → s.haltFatal.rd a = s.rd a := by
  obtain ⟨hflash, hout, hrd⟩ := s.cutFlash_effect
  obtain ⟨hsaving, hwords, hout', hflash'⟩ := s.cutFlash.dropSave_effect
  refine ⟨hsaving, hflash' hflash, rfl, hout'.trans hout, fun a ha => ?_⟩
  exact (congrArg (fun ws => Store.get (resetWord a) ws a) hwords).trans (hrd a ha)

/-! ## The declaration -/

/-- FLT_LAST as a fatal error writes it. -/
def State.logFatal (s : State) (cause island : Nat) : State :=
  ((s.wr Reg.FLT_LAST_W0 (pack [(31, 1, 1), (28, 3, cause), (0, 7, island)])).wr Reg.FLT_LAST_W1 (wd (nsecOf s.ns))).wr
    Reg.FLT_LAST_W2 (wd (secOf s.ns))

theorem State.logFatal_effect (s : State) (cause island : Nat) :
    (s.logFatal cause island).rd Reg.FLT_LAST_W0 = pack [(31, 1, 1), (28, 3, cause), (0, 7, island)] ∧
      (s.logFatal cause island).rd Reg.FLT_LAST_W1 = wd (nsecOf s.ns) ∧ (s.logFatal cause island).rd Reg.FLT_LAST_W2 = wd (secOf s.ns) ∧
      OnlyWords [Reg.FLT_LAST_W0, Reg.FLT_LAST_W1, Reg.FLT_LAST_W2] s (s.logFatal cause island) := by
  refine ⟨?_, ?_, State.rd_wr_same _ _ _, (((OnlyWords.refl _ _).wr _ (by simp)).wr _ (by simp)).wr _ (by simp)⟩
  · exact (State.rd_wr_ne _ _ (by decide)).trans ((State.rd_wr_ne _ _ (by decide)).trans (State.rd_wr_same _ _ _))
  · exact (State.rd_wr_ne _ _ (by decide)).trans (State.rd_wr_same _ _ _)

/-- The fatal state entered and the dump begun: FLT_STAT, FAULT_N, and the event. -/
def State.raiseFatal (s : State) : State :=
  ((((s.wrBit Reg.FLT_STAT 31 true).wrBit Reg.FLT_STAT 30 true).send (.pin "FAULT_N" false))).err Reg.FLT_ERRSTAT 5

theorem State.mem_out_err {s : State} {o : Output} (a i : Nat) (h : o ∈ s.out) : o ∈ (s.err a i).out := by
  obtain ⟨l, hl⟩ := (State.err_keeps a i (.refl s)).2.1
  rw [hl]
  exact List.mem_append_right _ h

theorem State.raiseFatal_effect (s : State) : s.raiseFatal.fatalOn = true ∧ s.raiseFatal.bit Reg.FLT_STAT 30 = true ∧
    s.raiseFatal.bit Reg.FLT_ERRSTAT 5 = true ∧ .pin "FAULT_N" false ∈ s.raiseFatal.out ∧
    ∀ a, a ≠ Reg.FLT_STAT → a ≠ Reg.FLT_ERRSTAT → isRingWord a = false → s.raiseFatal.rd a = s.rd a := by
  have hstat : s.raiseFatal.rd Reg.FLT_STAT = ((s.wrBit Reg.FLT_STAT 31 true).wrBit Reg.FLT_STAT 30 true).rd Reg.FLT_STAT :=
    State.rd_err_ne _ 5 (by decide) (by decide)
  refine ⟨?_, ?_, State.err_bit _ (by omega) (by decide), State.mem_out_err _ _ List.mem_cons_self, fun a hs he hring => ?_⟩
  · refine (congrArg (wbit · 31) hstat).trans ((State.bit_wrBit_ne _ _ _ (by omega)).trans ?_)
    exact State.bit_wrBit_same _ _ _ (by omega)
  · exact (congrArg (wbit · 30) hstat).trans (State.bit_wrBit_same _ _ _ (by omega))
  · exact (State.rd_err_ne _ 5 he hring).trans ((State.rd_wr_ne _ _ hs).trans (State.rd_wr_ne _ _ hs))

section
variable {s : State} (cause island : Nat)

theorem State.fatal_counts (hon : s.fatalOn = true) :
    s.fatal cause island = if s.bit Reg.FLT_STAT 30 then s.count Reg.FLT_LAST_W0 16 8 1 else s := by
  unfold State.fatal
  rw [if_pos hon]

variable (hnone : s.fatalOn = false)
include hnone

theorem State.fatal_inP3 (hoff : s.off = true) : s.fatal cause island =
    { s.logFatal cause island with retained := s.retained.map fun r => { r with sound := false } } := by
  unfold State.fatal
  rw [if_neg (by simp [hnone])]
  exact if_pos hoff

theorem State.fatal_starts (hoff : s.off = false) : s.fatal cause island =
    if s.bit Reg.THM_STAT 30 then (List.range 64).foldl State.cutTile (s.logFatal cause island).raiseFatal.haltFatal
    else (s.logFatal cause island).raiseFatal.haltFatal := by
  unfold State.fatal
  rw [if_neg (by simp [hnone])]
  exact if_neg (by simp [hoff])

end

/-! ## Statements of O60 on fatal errors -/

theorem exec_fatal_watchdog {c : Instr} {cause island : Nat} (s : State)
    (hc : (c = .fatal ∧ cause = 4 ∧ island = 0x7F) ∨ (∃ k, c = .watchdog k ∧ cause = 2 ∧ island = 67)) :
    exec c s = .next (s.fatal cause island) := by
  rcases hc with ⟨rfl, rfl, rfl⟩ | ⟨k, rfl, rfl, rfl⟩
  · rfl
  · rfl

theorem fatal_during_dump {s : State} (cause island : Nat) (hon : s.fatalOn = true) :
    (s.bit Reg.FLT_STAT 30 = false → s.fatal cause island = s) ∧
    (s.bit Reg.FLT_STAT 30 = true → (s.fatal cause island).rdf Reg.FLT_LAST_W0 16 8 = satN 8 (s.rdf Reg.FLT_LAST_W0 16 8 + 1) ∧
      OnlyWords [Reg.FLT_LAST_W0] s (s.fatal cause island)) := by
  have hcounts := State.fatal_counts cause island hon
  refine ⟨fun h => hcounts.trans (if_neg (by simp [h])), fun h => ?_⟩
  rw [hcounts, if_pos h]
  exact ⟨s.rdf_count_same _ 1 (by omega), (OnlyWords.refl _ _).count _ _ _ (by simp)⟩

theorem fatal_first {s : State} (cause island : Nat) (hnone : s.fatalOn = false) (hoff : s.off = false) (hstop : s.bit Reg.THM_STAT 30 = false) :
    (s.fatal cause island).fatalOn = true ∧ (s.fatal cause island).bit Reg.FLT_STAT 30 = true ∧
      (s.fatal cause island).rd Reg.FLT_LAST_W0 = pack [(31, 1, 1), (28, 3, cause), (0, 7, island)] ∧
      (s.fatal cause island).rd Reg.FLT_LAST_W1 = wd (nsecOf s.ns) ∧ (s.fatal cause island).rd Reg.FLT_LAST_W2 = wd (secOf s.ns) ∧
      (s.fatal cause island).bit Reg.FLT_ERRSTAT 5 = true ∧ (s.fatal cause island).saving = none ∧ (s.fatal cause island).flash = none ∧
      (s.fatal cause island).solveStart = none ∧ .pin "FAULT_N" false ∈ (s.fatal cause island).out := by
  obtain ⟨hw0, hw1, hw2, -⟩ := s.logFatal_effect cause island
  obtain ⟨hfatal, hdump, herr, hpin, hraised⟩ := (s.logFatal cause island).raiseFatal_effect
  obtain ⟨hsaving, hflash, hsolve, hout, hhalted⟩ := (s.logFatal cause island).raiseFatal.haltFatal_effect
  rw [State.fatal_starts cause island hnone hoff, hstop, if_neg Bool.false_ne_true]
  refine ⟨?_, ?_, ?_, ?_, ?_, ?_, hsaving, hflash, hsolve, hout ▸ hpin⟩
  · exact (congrArg (wbit · 31) (hhalted _ (by decide))).trans hfatal
  · exact (congrArg (wbit · 30) (hhalted _ (by decide))).trans hdump
  · exact (hhalted _ (by decide)).trans ((hraised _ (by decide) (by decide) (by decide)).trans hw0)
  · exact (hhalted _ (by decide)).trans ((hraised _ (by decide) (by decide) (by decide)).trans hw1)
  · exact (hhalted _ (by decide)).trans ((hraised _ (by decide) (by decide) (by decide)).trans hw2)
  · exact (congrArg (wbit · 5) (hhalted _ (by decide))).trans herr

theorem OnlyWords.setRetained {as : List Nat} {s t : State} (h : OnlyWords as s t) (x : Option RetImage) :
    OnlyWords as { s with retained := x } { t with retained := x } :=
  ⟨h.1, congrArg (fun u : State => { u with retained := x }) h.2⟩

theorem fatal_in_P3 {s : State} (cause island : Nat) (hnone : s.fatalOn = false) (hoff : s.off = true) :
    (s.fatal cause island).rd Reg.FLT_LAST_W0 = pack [(31, 1, 1), (28, 3, cause), (0, 7, island)] ∧
      (∀ r, (s.fatal cause island).retained = some r → r.sound = false) ∧
      OnlyWords [Reg.FLT_LAST_W0, Reg.FLT_LAST_W1, Reg.FLT_LAST_W2] { s with retained := (s.fatal cause island).retained } (s.fatal cause island) := by
  obtain ⟨hw0, -, -, hframe⟩ := s.logFatal_effect cause island
  rw [State.fatal_inP3 cause island hnone hoff]
  refine ⟨hw0, fun r hr => ?_, hframe.setRetained _⟩
  obtain ⟨q, -, rfl⟩ := Option.map_eq_some_iff.1 hr
  rfl

/-- A fatal error in any state that has none: the fatal state is in force, and the log of uncorrectable errors keeps what it shows. -/
theorem fatal_keeps_ueLog {s : State} (cause island : Nat) (hnone : s.fatalOn = false) (hoff : s.off = false) :
    (s.fatal cause island).fatalOn = true ∧ (s.fatal cause island).rd Reg.FLT_UELOG_W1 = s.rd Reg.FLT_UELOG_W1 := by
  obtain ⟨-, -, -, hlog⟩ := s.logFatal_effect cause island
  obtain ⟨hfatal, -, -, -, hraised⟩ := (s.logFatal cause island).raiseFatal_effect
  obtain ⟨-, -, -, -, hhalted⟩ := (s.logFatal cause island).raiseFatal.haltFatal_effect
  have hend : Aside (s.logFatal cause island).raiseFatal.haltFatal (s.fatal cause island) := by
    rw [State.fatal_starts cause island hnone hoff]
    split
    · exact Aside.foldl _ _ (fun _ tile _ hu => hu.cutTile tile) (Aside.refl _)
    · exact Aside.refl _
  refine ⟨hend.fatalOn.trans ((congrArg (wbit · 31) (hhalted _ (by decide))).trans hfatal), ?_⟩
  refine (hend.rd _ (.inr (by decide))).trans ((hhalted _ (by decide)).trans ((hraised _ (by decide) (by decide) (by decide)).trans ?_))
  exact (hlog.1 _ (by decide)).1

theorem scrubRead_fatal {s : State} (sweep : Bool) (a : Nat) (n : Option Requester) (hoff : s.off = false) (hnone : s.fatalOn = false) :
    ∃ t, exec (.scrubRead sweep a .uncorrectable .tables n) s = .next t ∧ t.fatalOn = true ∧ t.rdf Reg.FLT_UELOG_W1 30 2 = 3 := by
  obtain ⟨-, hclass, -, hrest⟩ := s.logUe_effect a 4
  have hexec : exec (.scrubRead sweep a .uncorrectable .tables n) s = .next (((s.logUe a 4).fatal 1 66).answerUe n) :=
    exec_scrubRead_uncorrectable sweep a .tables n hoff
  have hnone' : (s.logUe a 4).fatalOn = false := (congrArg (wbit · 31) (hrest _ (by decide) (by decide))).trans hnone
  obtain ⟨hfatal, hlog⟩ := fatal_keeps_ueLog 1 66 hnone' hoff
  obtain ⟨hwords, -⟩ := ((s.logUe a 4).fatal 1 66).answerUe_keeps_words n
  exact ⟨_, hexec, (congrArg (wbit · 31) (hwords _)).trans hfatal, (congrArg (fld · 30 2) ((hwords _).trans hlog)).trans hclass⟩

end Sys2Proof.Machine
end

section
/-! PROOF. O60, the last part: the dump, its reset, and its reading through the matrix (R396 to R399). -/

namespace Sys2Proof.Machine

/-! ## Memory where the dump is written -/

/-- An entry that the filter keeps is still there. -/
theorem Store.get_filter_kept {α : Type} (d : α) (m : List (Nat × α)) {f : Nat × α → Bool} {a : Nat} (h : ∀ v, f (a, v) = true) :
    Store.get d (m.filter f) a = Store.get d m a := by
  induction m with
  | nil => rfl
  | cons p m ih =>
    obtain ⟨k, v⟩ := p
    by_cases hk : k = a
    · subst hk
      rw [List.filter_cons_of_pos (h v)]
      simp [Store.get]
    · rw [List.filter_cons]
      split
      · simp [Store.get, hk, ih]
      · simp [Store.get, hk, ih]

/-- An entry that the filter drops reads as the default. -/
theorem Store.get_filter_dropped {α : Type} (d : α) (m : List (Nat × α)) {f : Nat × α → Bool} {a : Nat} (h : ∀ v, f (a, v) = false) :
    Store.get d (m.filter f) a = d := by
  induction m with
  | nil => rfl
  | cons p m ih =>
    obtain ⟨k, v⟩ := p
    by_cases hk : k = a
    · subst hk
      rw [List.filter_cons_of_neg (by simp [h v])]
      exact ih
    · rw [List.filter_cons]
      split
      · simp [Store.get, hk, ih]
      · exact ih

theorem State.byte_eraseMem_ne (s : State) {lo n b : Nat} (h : b < lo ∨ lo + n ≤ b) : (s.eraseMem lo n).byte b = s.byte b := by
  refine Store.get_filter_kept _ _ fun v => ?_
  simp only [Bool.not_eq_true', Bool.and_eq_false_iff, decide_eq_false_iff_not]
  omega

theorem State.byte_putMemWord_ne (s : State) {a b : Nat} (v : Word) (h : b < a ∨ a + 4 ≤ b) : (s.putMemWord a v).byte b = s.byte b := by
  rw [State.byte_putMemWord, if_neg (by omega), if_neg (by omega), if_neg (by omega), if_neg (by omega)]

/-- A byte that none of the words covers. -/
theorem State.byte_foldl_putMemWord (ps : List (Word × Nat)) (s : State) {a b : Nat} (h : ∀ p ∈ ps, b < a + 4 * p.2 ∨ a + 4 * p.2 + 4 ≤ b) :
    (ps.foldl (fun (s : State) p => s.putMemWord (a + 4 * p.2) p.1) s).byte b = s.byte b := by
  induction ps generalizing s with
  | nil => rfl
  | cons p ps ih =>
    exact (ih _ fun q hq => h q (List.mem_cons_of_mem _ hq)).trans (s.byte_putMemWord_ne _ (h p List.mem_cons_self))

theorem State.byte_putMem_ne (s : State) {a b : Nat} (ws : List Word) (h : b < a ∨ a + 4 * ws.length ≤ b) : (s.putMem a ws).byte b = s.byte b := by
  refine State.byte_foldl_putMemWord _ s fun p hp => ?_
  have hlt := List.mem_range.1 (List.of_mem_zip hp).2
  omega

/-- The first word written stands where the writing began. -/
theorem State.memWord_putMem (s : State) (a : Nat) (w : Word) (ws : List Word) : (s.putMem a (w :: ws)).memWord a = w := by
  have hfirst : s.putMem a (w :: ws) =
      (ws.zip ((List.range ws.length).map Nat.succ)).foldl (fun (s : State) p => s.putMemWord (a + 4 * p.2) p.1) (s.putMemWord a w) := by
    unfold State.putMem
    rw [List.length_cons, List.range_succ_eq_map, List.zip_cons_cons, List.foldl_cons]
    rfl
  have hkept : ∀ b, b < a + 4 → (s.putMem a (w :: ws)).byte b = (s.putMemWord a w).byte b := fun b hb => by
    rw [hfirst]
    refine State.byte_foldl_putMemWord _ _ fun p hp => ?_
    obtain ⟨i, -, hi⟩ := List.mem_map.1 (List.of_mem_zip hp).2
    omega
  have hword : (s.putMem a (w :: ws)).memWord a = (s.putMemWord a w).memWord a := by
    unfold State.memWord
    rw [hkept _ (by omega), hkept _ (by omega), hkept _ (by omega), hkept _ (by omega)]
  rw [hword]
  exact (memoryWordLittleEndian s a w).1

/-! ## The end of the dump (R397, R398) -/

/-- DMP_STAT once a dump was written to destination `dest`. -/
def State.dumpStat (s : State) (dest : Nat) (ps : List DumpPart) : Word :=
  pack [(31, 1, 1), (28, 3, dest), (24, 4, if truncated ps then 2 else 0), (0, 16, s.rdf Reg.DMP_STAT 0 16 + 1)]

/-- The dump sent to the host buffer on link `l`. -/
def State.dumpOutput (s : State) (l : Nat) (ps : List DumpPart) : Output :=
  .dump l ((s.rd Reg.DMP_ADDRHI).toNat * 2 ^ 32 + s.rdf Reg.DMP_ADDRLO 12 20 * 4096) (s.dumpWords ps)

/-- The words of a stalled dump: DMP_STAT with STALL, and no dump in progress. -/
def State.stallDump (s : State) : State :=
  ((s.wrf Reg.DMP_STAT 28 3 (if s.dumpLink.isSome then 1 else 2)).wrf Reg.DMP_STAT 24 4 1).wrBit Reg.FLT_STAT 30 false

theorem State.afterDump_stays {s : State} (h : s.bit Reg.THM_STAT 30 = false) : s.afterDump false = s := by
  unfold State.afterDump
  rw [h, if_neg Bool.false_ne_true, if_neg Bool.false_ne_true]

theorem State.afterDump_resets {s : State} (h : s.bit Reg.THM_STAT 30 = false) : s.afterDump true = s.resetStart 3 0 := by
  unfold State.afterDump
  rw [h, if_neg Bool.false_ne_true, if_pos rfl]

theorem dump_idle {s : State} (silent : List (Fin 69)) (fw : List Word) (h : s.bit Reg.FLT_STAT 30 = false) :
    exec (.dumpComplete silent fw) s = .next s ∧ exec .dumpStall s = .next s := by
  have hno : ¬ s.bit Reg.FLT_STAT 30 = true := by simp [h]
  exact ⟨if_neg hno, if_neg hno⟩

section
variable {s : State} (silent : List (Fin 69)) (fw : List Word) (hdump : s.bit Reg.FLT_STAT 30 = true) (hstop : s.bit Reg.THM_STAT 30 = false)
  (hauto : s.bit Reg.FLT_CTRL 12 = false)
include hdump hstop hauto

/-- The dump written and noted, with no reset to follow. -/
theorem exec_dumpComplete {u : State} (hnoted : (s.putDump (s.dumpParts silent fw s.dumpSize)).noteDump (s.dumpParts silent fw s.dumpSize) = u)
    (hthm : u.rd Reg.THM_STAT = s.rd Reg.THM_STAT) :
    exec (.dumpComplete silent fw) s = .next (u.wrBit Reg.FLT_STAT 30 false) := by
  have hu : (u.wrBit Reg.FLT_STAT 30 false).bit Reg.THM_STAT 30 = false :=
    (State.bit_wr_ne _ _ 30 (by decide)).trans ((congrArg (wbit · 30) hthm).trans hstop)
  have hexec : exec (.dumpComplete silent fw) s = .next ((((s.putDump (s.dumpParts silent fw s.dumpSize)).noteDump
      (s.dumpParts silent fw s.dumpSize)).wrBit Reg.FLT_STAT 30 false).afterDump (s.bit Reg.FLT_CTRL 12)) := if_pos hdump
  rw [hexec, hnoted, hauto, State.afterDump_stays hu]

theorem dumpComplete_toHost {l : Nat} (hlink : s.dumpLink = some l) :
    ∃ t, exec (.dumpComplete silent fw) s = .next t ∧ t.bit Reg.FLT_STAT 30 = false ∧
      t.rd Reg.DMP_STAT = s.dumpStat 1 (s.dumpParts silent fw s.dumpSize) ∧
      t.out = s.dumpOutput l (s.dumpParts silent fw s.dumpSize) :: s.out ∧
      OnlyWords [Reg.DMP_STAT, Reg.FLT_STAT] { s with out := t.out } t := by
  generalize hps : s.dumpParts silent fw s.dumpSize = ps
  have hput : s.putDump ps = s.send (s.dumpOutput l ps) := by
    unfold State.putDump
    rw [hlink]
    rfl
  have hnote : (s.send (s.dumpOutput l ps)).noteDump ps = (s.send (s.dumpOutput l ps)).wr Reg.DMP_STAT (s.dumpStat 1 ps) := by
    have hlink' : (s.send (s.dumpOutput l ps)).dumpLink = some l := hlink
    unfold State.noteDump
    rw [hlink']
    rfl
  have hexec := exec_dumpComplete silent fw hdump hstop hauto (u := (s.send (s.dumpOutput l ps)).wr Reg.DMP_STAT (s.dumpStat 1 ps)) (by rw [hps, hput, hnote])
    (State.rd_wr_ne _ _ (by decide))
  refine ⟨_, hexec, State.bit_wrBit_same _ _ _ (by omega), ?_, rfl, ?_⟩
  · exact (State.rd_wr_ne _ _ (by decide)).trans (State.rd_wr_same _ _ _)
  · exact ((OnlyWords.refl _ _).wr _ (by simp)).wrBit _ _ (by simp)

theorem dumpComplete_toNvm {d : Nat × Nat} (hlink : s.dumpLink = none) (hnvm : s.dumpNvm = some d) :
    ∃ t, exec (.dumpComplete silent fw) s = .next t ∧ t.bit Reg.FLT_STAT 30 = false ∧
      t.rd Reg.DMP_STAT = s.dumpStat 2 (s.dumpParts silent fw s.dumpSize) ∧ t.memWord d.1 = 0x4E47444D#32 ∧
      (∀ b, (b < d.1 ∨ d.1 + max d.2 (4 * (s.dumpWords (s.dumpParts silent fw s.dumpSize)).length) ≤ b) → t.byte b = s.byte b) ∧
      OnlyWords [Reg.DMP_STAT, Reg.FLT_STAT] { s with mem := t.mem } t := by
  generalize hps : s.dumpParts silent fw s.dumpSize = ps
  obtain ⟨ws, hws⟩ : ∃ ws, s.dumpWords ps = 0x4E47444D#32 :: ws := ⟨_, rfl⟩
  have hput : s.putDump ps = (s.eraseMem d.1 d.2).putMem d.1 (s.dumpWords ps) := by
    unfold State.putDump
    rw [hlink, hnvm]
  have hfirst : (s.putDump ps).memWord d.1 = 0x4E47444D#32 := by
    rw [hput, hws]
    exact State.memWord_putMem _ _ _ _
  have hbytes : ∀ b, (b < d.1 ∨ d.1 + max d.2 (4 * (s.dumpWords ps).length) ≤ b) → (s.putDump ps).byte b = s.byte b := fun b hb => by
    rw [hput, State.byte_putMem_ne _ _ (by omega)]
    exact s.byte_eraseMem_ne (by omega)
  obtain ⟨m, hm⟩ : MemOnly s (s.putDump ps) := hput ▸ ((MemOnly.refl s).eraseMem d.1 d.2).putMem d.1 (s.dumpWords ps)
  rw [hm] at hfirst hbytes
  have hnote : ({ s with mem := m }).noteDump ps = ({ s with mem := m }).wr Reg.DMP_STAT (s.dumpStat 2 ps) := by
    have hlink' : ({ s with mem := m } : State).dumpLink = none := hlink
    have hnvm' : ({ s with mem := m } : State).dumpNvm = some d := hnvm
    unfold State.noteDump
    rw [hlink', hnvm']
    rfl
  have hexec := exec_dumpComplete silent fw hdump hstop hauto (u := ({ s with mem := m } : State).wr Reg.DMP_STAT (s.dumpStat 2 ps)) (by rw [hps, hm, hnote])
    (State.rd_wr_ne _ _ (by decide))
  refine ⟨_, hexec, State.bit_wrBit_same _ _ _ (by omega), ?_, hfirst, hbytes, ?_⟩
  · exact (State.rd_wr_ne _ _ (by decide)).trans (State.rd_wr_same _ _ _)
  · exact ((OnlyWords.refl _ _).wr _ (by simp)).wrBit _ _ (by simp)

theorem dumpComplete_nowhere (hlink : s.dumpLink = none) (hnvm : s.dumpNvm = none) :
    ∃ t, exec (.dumpComplete silent fw) s = .next t ∧ t.bit Reg.FLT_STAT 30 = false ∧ OnlyWords [Reg.FLT_STAT] s t := by
  have hput : ∀ ps, s.putDump ps = s := fun ps => by
    unfold State.putDump
    rw [hlink, hnvm]
  have hnote : ∀ ps, s.noteDump ps = s := fun ps => by
    unfold State.noteDump
    rw [hlink, hnvm]
    rfl
  have hexec := exec_dumpComplete silent fw hdump hstop hauto (u := s) (by rw [hput, hnote]) rfl
  exact ⟨_, hexec, State.bit_wrBit_same _ _ _ (by omega), (OnlyWords.refl _ _).wrBit _ _ (by simp)⟩

end

/-! ## The reset that a stalled dump brings (R396) -/

/-- Through a restart the words that `keep` keeps read as before, and the others as reset leaves them. -/
theorem State.rd_restart (s : State) (keep : Nat → Bool) (a : Nat) : (s.restart keep).rd a = if keep a then s.rd a else resetWord a := by
  split
  · next h => exact Store.get_filter_kept _ _ fun _ => h
  · next h => exact Store.get_filter_dropped _ _ fun _ => Bool.eq_false_iff.2 h

theorem State.rd_dropSource (s : State) (a : Nat) : s.dropSource.rd a = s.rd a := by
  unfold State.dropSource
  split
  · rfl
  · rfl

theorem State.rd_releaseFault (s : State) (a : Nat) : s.releaseFault.rd a = s.rd a := by
  unfold State.releaseFault
  split
  · rfl
  · rfl

/-- The first rail asked for drives an output alone. -/
theorem State.rd_restartRails (s : State) (a : Nat) : (if s.enables.isEmpty then s.enable .vcore else s).rd a = s.rd a := by
  split
  · rfl
  · rfl

/-- The start that follows a reset drives outputs alone. -/
theorem State.rd_resetStart (s : State) (cause rail a : Nat) : (s.resetStart cause rail).rd a = (s.moduleReset cause rail).rd a := by
  unfold State.resetStart
  dsimp only
  by_cases hfails : 3 ≤ s.seqFails
  · rw [if_pos hfails]
    exact State.rd_restartRails _ a
  · rw [if_neg hfails]
    exact State.rd_restartRails _ a

/-- The state of a module reset before GEN_RSTCAUSE and the words kept in step with it. -/
def State.resetWords (s : State) : State := s.dropSource.releaseFault.restart keptByReset

theorem State.rd_resetWords (s : State) (a : Nat) : s.resetWords.rd a = if keptByReset a then s.rd a else resetWord a := by
  unfold State.resetWords
  rw [State.rd_restart, State.rd_releaseFault, State.rd_dropSource]

/-- The module reset, word by word: GEN_RSTCAUSE, SEC_OTPSTAT and FLT_ERRSTAT apart. -/
theorem State.rd_moduleReset_ne (s : State) (cause rail : Nat) {a : Nat} (hcause : a ≠ Reg.GEN_RSTCAUSE) (hotp : a ≠ Reg.SEC_OTPSTAT)
    (herr : a ≠ Reg.FLT_ERRSTAT) : (s.moduleReset cause rail).rd a = if keptByReset a then s.rd a else resetWord a := by
  have hwords : (s.moduleReset cause rail).rd a = s.resetWords.rd a :=
    (State.rd_wr_ne _ _ herr).trans ((State.rd_wr_ne _ _ hotp).trans ((State.rd_wr_ne _ _ hcause).trans (State.rd_wr_ne _ _ hcause)))
  rw [hwords, State.rd_resetWords]

theorem State.rdf_moduleReset_cause (s : State) (cause rail : Nat) : (s.moduleReset cause rail).rdf Reg.GEN_RSTCAUSE 0 4 = cause % 16 := by
  have hword : (s.moduleReset cause rail).rd Reg.GEN_RSTCAUSE = (s.resetWords.setCause cause rail).rd Reg.GEN_RSTCAUSE :=
    (State.rd_wr_ne _ _ (by decide)).trans (State.rd_wr_ne _ _ (by decide))
  refine (congrArg (fld · 0 4) hword).trans ((State.rdf_wrf_ne _ _ _ (by omega)).trans ?_)
  exact State.rdf_wrf_same _ _ cause (by omega)

theorem dumpStall_resets {s : State} (hdump : s.bit Reg.FLT_STAT 30 = true) (hstop : s.bit Reg.THM_STAT 30 = false) :
    ∃ t, exec .dumpStall s = .next t ∧ t.rdf Reg.GEN_RSTCAUSE 0 4 = 3 ∧ t.rdf Reg.DMP_STAT 24 4 = 1 ∧ t.fatalOn = false := by
  have hthm : s.stallDump.bit Reg.THM_STAT 30 = false :=
    (State.bit_wr_ne _ _ 30 (by decide)).trans ((State.bit_wr_ne _ _ 30 (by decide)).trans ((State.bit_wr_ne _ _ 30 (by decide)).trans hstop))
  have hexec : exec .dumpStall s = .next (s.stallDump.afterDump true) := if_pos hdump
  have hstat : s.stallDump.rdf Reg.DMP_STAT 24 4 = 1 := (State.rdf_wr_ne _ _ _ _ (by decide)).trans (State.rdf_wrf_same _ _ 1 (by omega))
  rw [State.afterDump_resets hthm] at hexec
  refine ⟨_, hexec, ?_, ?_, ?_⟩
  · exact (congrArg (fld · 0 4) (State.rd_resetStart _ _ _ _)).trans (State.rdf_moduleReset_cause _ _ _)
  · refine (congrArg (fld · 24 4) ?_).trans hstat
    exact (State.rd_resetStart _ _ _ _).trans ((State.rd_moduleReset_ne _ _ _ (by decide) (by decide) (by decide)).trans (if_pos (by decide)))
  · have hreset : wbit (resetWord Reg.FLT_STAT) 31 = false := by decide
    refine (congrArg (wbit · 31) ?_).trans hreset
    exact (State.rd_resetStart _ _ _ _).trans ((State.rd_moduleReset_ne _ _ _ (by decide) (by decide) (by decide)).trans (if_neg (by decide)))

/-! ## Reading the dump area (R399) -/

/-- The tests of R24 on a read of DMP_NVMDATA: the access rule, and hub H3. -/
theorem State.fails_nvmdata (s : State) (rq : Requester) : s.fails rq false false Reg.DMP_NVMDATA 4 =
    if s.mayReach rq false Reg.DMP_NVMDATA then
      if s.silent (islandOf Reg.DMP_NVMDATA) then some (3, islandOf Reg.DMP_NVMDATA) else none
    else some (1, 0) :=
  s.fails_one rq false (by decide) (by decide) (by decide) (by decide)

theorem State.readWord_nvmdata (s : State) (rq : Requester) : s.readWord rq true Reg.DMP_NVMDATA = s.readDump := by
  have halias : aliasOf rq Reg.DMP_NVMDATA = Reg.DMP_NVMDATA := aliasOf_of_ge rq (by decide)
  unfold State.readWord
  rw [halias]
  rfl

theorem dumpDataRead_refused {s : State} {rq : Requester} {e i : Nat} (hoff : s.off = false) (hdrain : s.isDraining rq = false)
    (hfail : s.fails rq false false Reg.DMP_NVMDATA 4 = some (e, i)) :
    ∃ t, exec (.dumpDataRead rq) s = .next t ∧ t.bit Reg.MTX_ERRSTAT e = true ∧ WordsAndEvents mtxLog s t := by
  have hcode : e < 4 := by
    have hcases := hfail
    rw [s.fails_nvmdata] at hcases
    split at hcases
    · split at hcases
      · obtain ⟨rfl, -⟩ := Prod.mk.inj (Option.some.inj hcases)
        omega
      · cases hcases
    · obtain ⟨rfl, -⟩ := Prod.mk.inj (Option.some.inj hcases)
      omega
  exact ⟨_, congrArg Host.Outcome.next (s.access_refused (x := ⟨rq, false, false, _, 4, []⟩) hoff hdrain hfail),
    s.refuse_effect rq false false _ i _ hcode⟩

theorem dumpDataRead_reads {s : State} {rq : Requester} (hoff : s.off = false) (hdrain : s.isDraining rq = false)
    (hpass : s.fails rq false false Reg.DMP_NVMDATA 4 = none) (hclean : Reg.DMP_NVMDATA ∉ s.poisoned) :
    ∃ t, exec (.dumpDataRead rq) s = .next t ∧ t.out = .readData rq [s.readDump.1] :: s.out ∧
      (s.dumpNvm = none → s.readDump.1 = 0xFFFFFFFF#32) ∧
      (∀ d, s.dumpNvm = some d → s.readDump.1 = s.memWord (d.1 + 4 * s.rdf Reg.DMP_NVMPTR 2 16)) ∧
      t.rdf Reg.DMP_NVMPTR 2 16 = (s.rdf Reg.DMP_NVMPTR 2 16 + 1) % 65536 ∧ OnlyWords [Reg.DMP_NVMPTR] { s with out := t.out } t := by
  have haccess := State.access_read_one hoff hdrain hpass hclean
  rw [s.readWord_nvmdata rq] at haccess
  refine ⟨_, congrArg Host.Outcome.next haccess, rfl, fun h => ?_, fun d h => ?_, s.rdf_wrf_same _ _ (by omega), ?_⟩
  · unfold State.readDump
    rw [h]
    rfl
  · unfold State.readDump
    rw [h]
    rfl
  · exact (OnlyWords.refl _ _).wrf _ _ _ (by simp)

/-- Settles O60, command by command: a memory error by its row, UNFENCE, the fatal declaration, the dump and its reading. -/
theorem faultsAndDump : Obligations.FaultsAndDump := by
  unfold Obligations.FaultsAndDump
  refine ⟨fun s sweep a m n => ⟨?_, fun hoff => ?_⟩, fun s t0 => ?_, fun s c cause island hc => ?_, fun s silent fw => ?_, fun s rq => ?_⟩
  · simp only [exec, execScrubRead, ite_self]
  · exact ⟨fun i => scrubRead_counts a sweep m n i hoff, fun i => scrubRead_exceeds a sweep m n i hoff, fun rq => scrubRead_busError a hoff,
      scrubRead_poisoned a hoff, scrubRead_pattern_contained sweep a hoff n, scrubRead_fences sweep a hoff n, scrubRead_fatal sweep a n hoff⟩
  · exact ⟨unfence_notFenced, unfence_begins, unfenceComplete_idle, fun l d => unfenceComplete_fails, unfenceComplete_succeeds⟩
  · rw [exec_fatal_watchdog s hc]
    refine ⟨fun hon hdone => congrArg _ ((fatal_during_dump cause island hon).1 hdone), fun hon hdump => ⟨_, rfl, (fatal_during_dump cause island hon).2 hdump⟩,
      fun hnone hoff hstop => ⟨_, rfl, fatal_first cause island hnone hoff hstop⟩, fun hnone hoff => ⟨_, rfl, fatal_in_P3 cause island hnone hoff⟩⟩
  · exact ⟨dump_idle silent fw, fun hdump hstop hauto => ⟨fun l => dumpComplete_toHost silent fw hdump hstop hauto,
      fun d => dumpComplete_toNvm silent fw hdump hstop hauto, dumpComplete_nowhere silent fw hdump hstop hauto⟩, dumpStall_resets⟩
  · exact ⟨fun hoff => congrArg Host.Outcome.next (if_pos hoff), fun e i => dumpDataRead_refused, dumpDataRead_reads⟩

end Sys2Proof.Machine
end

section
/-! PROOF. O14 and O15: the fabric state table, its snapshot, and the report of a tile. -/

namespace Sys2Proof.Machine

/-! ## Words that a pass over a list writes -/

theorem OnlyWords.rd {as : List Nat} {s t : State} (h : OnlyWords as s t) {a : Nat} (ha : a ∉ as) : t.rd a = s.rd a := (h.1 a ha).1

/-- A word that no step of a pass writes reads as before. -/
theorem State.rd_each {α : Type} (s : State) {xs : List α} {f : State → α → State} {a : Nat}
    (hf : ∀ u x, x ∈ xs → (f u x).rd a = u.rd a) : (s.each xs f).rd a = s.rd a :=
  List.foldlRecOn (motive := fun u : State => u.rd a = s.rd a) xs f rfl fun u hu x hx => (hf u x hx).trans hu

/-- What the step of `x` establishes, given an invariant of the pass, and the other steps keep, holds when the pass is done. -/
theorem State.each_establishes {α : Type} {I P : State → Prop} {s : State} {xs : List α} {f : State → α → State} {x : α} (hx : x ∈ xs)
    (hstart : I s) (hstep : ∀ u y, y ∈ xs → I u → I (f u y)) (hmade : ∀ u, I u → P (f u x))
    (hkept : ∀ u y, y ∈ xs → y ≠ x → P u → P (f u y)) : P (s.each xs f) := by
  have hrest : ∀ u, I u → P u → ∀ y ∈ xs, P (f u y) := fun u hI hP y hy => by
    by_cases hyx : y = x
    · exact hyx ▸ hmade u hI
    · exact hkept u y hy hyx hP
  obtain ⟨before, after, rfl⟩ := List.append_of_mem hx
  unfold State.each
  rw [List.foldl_append, List.foldl_cons]
  have hreached : I (before.foldl f s) :=
    List.foldlRecOn before f hstart fun u hu y hy => hstep u y (List.mem_append_left _ hy) hu
  have hboth : I (f (before.foldl f s) x) ∧ P (f (before.foldl f s) x) := ⟨hstep _ x hx hreached, hmade _ hreached⟩
  refine (List.foldlRecOn (motive := fun u => I u ∧ P u) after f hboth fun u ⟨hI, hP⟩ y hy => ?_).2
  have hmem : y ∈ before ++ x :: after := List.mem_append_right _ (List.mem_cons_of_mem _ hy)
  exact ⟨hstep u y hmem hI, hrest u hI hP y hmem⟩

/-! ## OVER of a map entry (R53) -/

theorem isRingWord_mapWord (out : Bool) (k : Fin 512) : isRingWord (mapWord out k) = false := by
  have hk := k.isLt
  unfold isRingWord mapWord Reg.CIR_OUTMAP Reg.CIR_INMAP
  cases out with
  | false => simp; omega
  | true => simp; omega

/-- An event to the MGMT functions and a partition changes no word but ring descriptors. -/
theorem State.eventBoth_events {as : List Nat} {s t : State} (h : WordsAndEvents as s t) (code part tile gen : Nat) (data : List Word) :
    WordsAndEvents as s (t.eventBoth code part tile gen data) :=
  State.eventPart_events (State.eventMgmt_events h _ _) _ _

/-- OVER rises with an event; otherwise the entry alone is written. -/
theorem exec_overpowerChange (s : State) (out : Bool) (k : Fin 512) (high : Bool) :
    exec (.overpowerChange out k high) s = .next (if high && !s.bit (mapWord out k) 29 then
      (s.wrBit (mapWord out k) 29 high).eventBoth 0x06 (s.portOwner out k) (inputTile k) 0
        [pack [(0, 9, k), (16, 1, out.toNat)]]
    else s.wrBit (mapWord out k) 29 high) := rfl

theorem overpowerChange_follows (s : State) (out : Bool) (k : Fin 512) (high : Bool) :
    ∃ t, exec (.overpowerChange out k high) s = .next t ∧
      t.rd (mapWord out k) = putBit (s.rd (mapWord out k)) 29 high ∧ WordsAndEvents [mapWord out k] s t ∧
      ((high = false ∨ s.bit (mapWord out k) 29 = true) → OnlyWords [mapWord out k] s t) := by
  have hentry : (s.wrBit (mapWord out k) 29 high).rd (mapWord out k) = putBit (s.rd (mapWord out k)) 29 high := s.rd_wr_same _ _
  have honly : OnlyWords [mapWord out k] s (s.wrBit (mapWord out k) 29 high) := (OnlyWords.refl _ _).wrBit _ _ (List.mem_singleton.2 rfl)
  refine ⟨_, exec_overpowerChange s out k high, ?_⟩
  split
  · next hrises =>
    refine ⟨?_, State.eventBoth_events honly.events _ _ _ _ _, fun hquiet => ?_⟩
    · exact ((State.eventBoth_events (.refl [] _) _ _ _ _ _).rd (List.not_mem_nil) (isRingWord_mapWord out k)).trans hentry
    · rcases hquiet with h | h <;> simp [h] at hrises
  · exact ⟨hentry, honly.events, fun _ => honly⟩

/-! ## The snapshot (R46) -/

/-- The words of the snapshot. -/
def snapshotWords : List Nat :=
  (List.range 512).map Reg.CIR_OUTMAP_SNAP ++ (List.range 512).map Reg.CIR_INMAP_SNAP ++ (List.range 4864).map Reg.CIR_CELLST_SNAP

theorem mem_snapshotWords {a : Nat} : a ∈ snapshotWords ↔ (∃ k, k < 512 ∧ Reg.CIR_OUTMAP_SNAP k = a) ∨
    (∃ k, k < 512 ∧ Reg.CIR_INMAP_SNAP k = a) ∨ ∃ c, c < 4864 ∧ Reg.CIR_CELLST_SNAP c = a := by
  unfold snapshotWords
  simp only [List.mem_append, List.mem_map, List.mem_range, or_assoc]

/-- The snapshot lies apart from the live table. -/
theorem range_of_mem_snapshotWords {a : Nat} (h : a ∈ snapshotWords) : 0x44000 ≤ a ∧ a < 0x45000 ∨ 0x4A000 ≤ a := by
  obtain ⟨k, hk, rfl⟩ | ⟨k, hk, rfl⟩ | ⟨c, -, rfl⟩ := mem_snapshotWords.1 h
  · unfold Reg.CIR_OUTMAP_SNAP
    omega
  · unfold Reg.CIR_INMAP_SNAP
    omega
  · unfold Reg.CIR_CELLST_SNAP
    omega

theorem not_mem_snapshotWords {a : Nat} (h : a < 0x44000 ∨ 0x45000 ≤ a ∧ a < 0x4A000) : a ∉ snapshotWords := fun hmem => by
  have := range_of_mem_snapshotWords hmem
  omega

theorem outmap_not_mem_snapshotWords {k : Nat} (hk : k < 512) : Reg.CIR_OUTMAP k ∉ snapshotWords :=
  not_mem_snapshotWords (by unfold Reg.CIR_OUTMAP; omega)

theorem inmap_not_mem_snapshotWords {k : Nat} (hk : k < 512) : Reg.CIR_INMAP k ∉ snapshotWords :=
  not_mem_snapshotWords (by unfold Reg.CIR_INMAP; omega)

theorem cellst_not_mem_snapshotWords {c : Nat} (hc : c < 4864) : Reg.CIR_CELLST c ∉ snapshotWords :=
  not_mem_snapshotWords (by unfold Reg.CIR_CELLST; omega)

/-- The maps copied to the snapshot, entry by entry. -/
def State.snapshotMaps (s : State) : State :=
  s.each (List.range 512) fun s k =>
    (s.wr (Reg.CIR_OUTMAP_SNAP k) (s.rd (Reg.CIR_OUTMAP k))).wr (Reg.CIR_INMAP_SNAP k) (s.rd (Reg.CIR_INMAP k))

/-- The cells copied to the snapshot. -/
def State.snapshotCells (s : State) : State :=
  s.each (List.range 4864) fun s c => s.wr (Reg.CIR_CELLST_SNAP c) (s.rd (Reg.CIR_CELLST c))

theorem State.snapshotFabric_eq (s : State) : s.snapshotFabric = s.snapshotMaps.snapshotCells := rfl

theorem OnlyWords.snapshotEntry {s u : State} (h : OnlyWords snapshotWords s u) {k : Nat} (hk : k < 512) (v w : Word) :
    OnlyWords snapshotWords s ((u.wr (Reg.CIR_OUTMAP_SNAP k) v).wr (Reg.CIR_INMAP_SNAP k) w) :=
  (h.wr v (mem_snapshotWords.2 (.inl ⟨k, hk, rfl⟩))).wr w (mem_snapshotWords.2 (.inr (.inl ⟨k, hk, rfl⟩)))

theorem OnlyWords.snapshotCell {s u : State} (h : OnlyWords snapshotWords s u) {c : Nat} (hc : c < 4864) (v : Word) :
    OnlyWords snapshotWords s (u.wr (Reg.CIR_CELLST_SNAP c) v) :=
  h.wr v (mem_snapshotWords.2 (.inr (.inr ⟨c, hc, rfl⟩)))

theorem State.snapshotMaps_onlyWords (s : State) : OnlyWords snapshotWords s s.snapshotMaps :=
  OnlyWords.each _ _ (fun _ _ hk hu => hu.snapshotEntry (List.mem_range.1 hk) _ _) (.refl _ _)

theorem State.snapshotCells_onlyWords (s : State) : OnlyWords snapshotWords s s.snapshotCells :=
  OnlyWords.each _ _ (fun _ _ hc hu => hu.snapshotCell (List.mem_range.1 hc) _) (.refl _ _)

theorem State.snapshotFabric_onlyWords (s : State) : OnlyWords snapshotWords s s.snapshotFabric :=
  s.snapshotMaps_onlyWords.trans s.snapshotMaps.snapshotCells_onlyWords

theorem State.rd_snapshotMaps (s : State) {k : Nat} (hk : k < 512) :
    s.snapshotMaps.rd (Reg.CIR_OUTMAP_SNAP k) = s.rd (Reg.CIR_OUTMAP k) ∧
      s.snapshotMaps.rd (Reg.CIR_INMAP_SNAP k) = s.rd (Reg.CIR_INMAP k) := by
  refine State.each_establishes (I := OnlyWords snapshotWords s)
    (P := fun u => u.rd (Reg.CIR_OUTMAP_SNAP k) = s.rd (Reg.CIR_OUTMAP k) ∧ u.rd (Reg.CIR_INMAP_SNAP k) = s.rd (Reg.CIR_INMAP k))
    (List.mem_range.2 hk) (.refl _ _) (fun u j hj hu => hu.snapshotEntry (List.mem_range.1 hj) _ _) (fun u hu => ?_)
    (fun u j hj hne hu => ?_)
  · have hout : Reg.CIR_OUTMAP_SNAP k ≠ Reg.CIR_INMAP_SNAP k := by unfold Reg.CIR_OUTMAP_SNAP Reg.CIR_INMAP_SNAP; omega
    have hin : Reg.CIR_INMAP k ≠ Reg.CIR_OUTMAP_SNAP k := by unfold Reg.CIR_INMAP Reg.CIR_OUTMAP_SNAP; omega
    rw [State.rd_wr_ne _ _ hout, State.rd_wr_same, State.rd_wr_same, hu.rd (outmap_not_mem_snapshotWords hk),
      hu.rd (inmap_not_mem_snapshotWords hk)]
    exact ⟨rfl, rfl⟩
  · have hj := List.mem_range.1 hj
    rw [State.rd_wr_ne _ _ (by unfold Reg.CIR_OUTMAP_SNAP Reg.CIR_INMAP_SNAP; omega),
      State.rd_wr_ne _ _ (by unfold Reg.CIR_OUTMAP_SNAP; omega), State.rd_wr_ne _ _ (by unfold Reg.CIR_INMAP_SNAP; omega),
      State.rd_wr_ne _ _ (by unfold Reg.CIR_INMAP_SNAP Reg.CIR_OUTMAP_SNAP; omega)]
    exact hu

theorem State.rd_snapshotCells (s : State) {c : Nat} (hc : c < 4864) :
    s.snapshotCells.rd (Reg.CIR_CELLST_SNAP c) = s.rd (Reg.CIR_CELLST c) := by
  refine State.each_establishes (I := OnlyWords snapshotWords s) (P := fun u => u.rd (Reg.CIR_CELLST_SNAP c) = s.rd (Reg.CIR_CELLST c))
    (List.mem_range.2 hc) (.refl _ _) (fun u d hd hu => hu.snapshotCell (List.mem_range.1 hd) _) (fun u hu => ?_) (fun u d _ hne hu => ?_)
  · rw [State.rd_wr_same, hu.rd (cellst_not_mem_snapshotWords hc)]
  · rw [State.rd_wr_ne _ _ (by unfold Reg.CIR_CELLST_SNAP; omega), hu]

/-- The copy of the cells leaves the copied maps as they are. -/
theorem State.rd_snapshotCells_ne (s : State) {a : Nat} (ha : a < 0x4A000) : s.snapshotCells.rd a = s.rd a :=
  s.rd_each fun _ _ _ => State.rd_wr_ne _ _ (by unfold Reg.CIR_CELLST_SNAP; omega)

theorem State.rd_snapshotFabric_maps (s : State) {k : Nat} (hk : k < 512) :
    s.snapshotFabric.rd (Reg.CIR_OUTMAP_SNAP k) = s.rd (Reg.CIR_OUTMAP k) ∧
      s.snapshotFabric.rd (Reg.CIR_INMAP_SNAP k) = s.rd (Reg.CIR_INMAP k) := by
  rw [State.snapshotFabric_eq, State.rd_snapshotCells_ne _ (by unfold Reg.CIR_OUTMAP_SNAP; omega),
    State.rd_snapshotCells_ne _ (by unfold Reg.CIR_INMAP_SNAP; omega)]
  exact s.rd_snapshotMaps hk

theorem State.rd_snapshotFabric_cells (s : State) {c : Nat} (hc : c < 4864) :
    s.snapshotFabric.rd (Reg.CIR_CELLST_SNAP c) = s.rd (Reg.CIR_CELLST c) := by
  rw [State.snapshotFabric_eq, State.rd_snapshotCells _ hc]
  exact s.snapshotMaps_onlyWords.rd (cellst_not_mem_snapshotWords hc)

theorem fabricSnapshot_shows (s : State) {v : Word} (hv : wbit v 0 = true) :
    ∃ t, exec (.fabricSnapshot v) s = .next t ∧ t.bit Reg.CIR_FSCTRL 0 = true ∧ OnlyWords [Reg.CIR_FSCTRL] s t := by
  have hexec : exec (.fabricSnapshot v) s = .next (s.wrBit Reg.CIR_FSCTRL 0 true) := congrArg Host.Outcome.next (if_pos hv)
  exact ⟨_, hexec, State.bit_wrBit_same _ _ _ (by omega), (OnlyWords.refl _ _).wrBit _ _ (List.mem_singleton.2 rfl)⟩

theorem exec_fabricSnapshotCopy {s : State} (hsnap : s.bit Reg.CIR_FSCTRL 0 = true) (hopen : s.fsOpen = false) :
    exec .fabricSnapshotCopy s =
      .next ((s.snapshotFabric.wr Reg.CIR_FSSNAPSEQ (s.rd Reg.CIR_FSSEQ)).wrBit Reg.CIR_FSCTRL 0 false) :=
  if_pos (by rw [hsnap, hopen]; rfl)

/-- Beside the copy, FSSNAPSEQ and FSCTRL are written; they lie below the snapshot. -/
theorem State.rd_snapshotEnd (s : State) (v : Word) {a : Nat} (ha : 0x44000 ≤ a) :
    ((s.wr Reg.CIR_FSSNAPSEQ v).wrBit Reg.CIR_FSCTRL 0 false).rd a = s.rd a :=
  (State.rd_wr_ne _ _ (by unfold Reg.CIR_FSCTRL; omega)).trans (State.rd_wr_ne _ _ (by unfold Reg.CIR_FSSNAPSEQ; omega))

theorem fabricSnapshotCopy_takes {s : State} (hsnap : s.bit Reg.CIR_FSCTRL 0 = true) (hopen : s.fsOpen = false) :
    ∃ t, exec .fabricSnapshotCopy s = .next t ∧
      (∀ k, k < 512 → t.rd (Reg.CIR_OUTMAP_SNAP k) = s.rd (Reg.CIR_OUTMAP k) ∧ t.rd (Reg.CIR_INMAP_SNAP k) = s.rd (Reg.CIR_INMAP k)) ∧
      (∀ c, c < 4864 → t.rd (Reg.CIR_CELLST_SNAP c) = s.rd (Reg.CIR_CELLST c)) ∧
      t.rd Reg.CIR_FSSNAPSEQ = s.rd Reg.CIR_FSSEQ ∧ t.bit Reg.CIR_FSCTRL 0 = false ∧
      OnlyWords ([Reg.CIR_FSCTRL, Reg.CIR_FSSNAPSEQ] ++ snapshotWords) s t := by
  refine ⟨_, exec_fabricSnapshotCopy hsnap hopen, fun k hk => ?_, fun c hc => ?_, ?_, State.bit_wrBit_same _ _ _ (by omega), ?_⟩
  · rw [State.rd_snapshotEnd _ _ (by unfold Reg.CIR_OUTMAP_SNAP; omega), State.rd_snapshotEnd _ _ (by unfold Reg.CIR_INMAP_SNAP; omega)]
    exact s.rd_snapshotFabric_maps hk
  · rw [State.rd_snapshotEnd _ _ (by unfold Reg.CIR_CELLST_SNAP; omega)]
    exact s.rd_snapshotFabric_cells hc
  · exact (State.rd_wr_ne _ _ (by decide)).trans (State.rd_wr_same _ _ _)
  · have hcopy := s.snapshotFabric_onlyWords.mono fun a ha => List.mem_append_right [Reg.CIR_FSCTRL, Reg.CIR_FSSNAPSEQ] ha
    exact (hcopy.wr _ (by simp)).wrBit _ _ (by simp)

/-- Settles O14: OVER with and without its event, the request for a snapshot, and the copy. -/
theorem fabricTable : Obligations.FabricTable := by
  unfold Obligations.FabricTable
  refine ⟨overpowerChange_follows, fun s => ⟨fun v => fabricSnapshot_shows s, fun hsnap hopen => ?_⟩⟩
  obtain ⟨t, hexec, hmaps, hcells, hseq, hdone, honly⟩ := fabricSnapshotCopy_takes hsnap hopen
  refine ⟨t, hexec, hmaps, hcells, hseq, hdone, ?_⟩
  unfold snapshotWords at honly
  rwa [← List.append_assoc, ← List.append_assoc] at honly

/-! ## The report of a tile (R43, R44) -/

/-- A word of CIR_CELLST shows a cell: its state, band, mode and generation. -/
def ShowsCell (w : Word) (x : CellRec) : Prop :=
  wbit w 0 = x.cross ∧ wbit w 4 = x.band ∧ fld w 8 3 = x.mode % 8 ∧ fld w 16 16 = x.gen % 65536

theorem showsCell_pack (x : CellRec) (occ : Nat) :
    ShowsCell (pack [(16, 16, x.gen), (8, 3, x.mode), (4, 1, x.band.toNat), (2, 2, occ), (0, 1, x.cross.toNat)]) x := by
  simp only [ShowsCell, pack, List.foldl_cons, List.foldl_nil]
  refine ⟨wbit_put_same _ _ (by omega), ?_, ?_, ?_⟩
  · rw [wbit_put_ne _ _ (by omega), wbit_put_ne _ _ (by omega), wbit_put_same _ _ (by omega)]
  · rw [fld_put_ne _ _ (by omega), fld_put_ne _ _ (by omega), fld_put_ne _ _ (by omega)]
    exact fld_put_same _ _ (by omega)
  · rw [fld_put_ne _ _ (by omega), fld_put_ne _ _ (by omega), fld_put_ne _ _ (by omega), fld_put_ne _ _ (by omega)]
    exact fld_put_same _ _ (by omega)

/-- OCCU and OCCL, bits 2 and 3, play no part in what a word shows of its cell. -/
theorem ShowsCell.congr {v w : Word} {x : CellRec} (h : ShowsCell v x) (hbits : ∀ i, i < 2 ∨ 4 ≤ i → w.getLsbD i = v.getLsbD i) :
    ShowsCell w x := by
  obtain ⟨hcross, hband, hmode, hgen⟩ := h
  refine ⟨(hbits 0 (by omega)).trans hcross, (hbits 4 (by omega)).trans hband, ?_, ?_⟩
  · exact (fld_congr fun i _ => hbits (8 + i) (by omega)).trans hmode
  · exact (fld_congr fun i _ => hbits (16 + i) (by omega)).trans hgen

theorem cellst_ne {c d : Nat} (h : c ≠ d) : Reg.CIR_CELLST c ≠ Reg.CIR_CELLST d := by
  unfold Reg.CIR_CELLST
  omega

/-- A tile's cells are numbered apart (R40). -/
theorem cellOf_ne {tile l m : Nat} (h : l ≠ m) : cellOf tile l ≠ cellOf tile m := by
  unfold cellOf cellAt
  omega

/-- A report shows each cell of the tile as the tile holds it. -/
theorem State.reportTile_shows (s : State) (tile : Nat) {l : Nat} (hl : l < 76) :
    ShowsCell ((s.reportTile tile).rd (Reg.CIR_CELLST (cellOf tile l))) (s.cell (cellOf tile l)) := by
  refine State.each_establishes (I := fun u => u.cells = s.cells)
    (P := fun u => ShowsCell (u.rd (Reg.CIR_CELLST (cellOf tile l))) (s.cell (cellOf tile l)))
    (List.mem_range.2 hl) rfl (fun u m _ hu => hu) (fun u hu => ?_) (fun u m _ hne hu => ?_)
  · have hcell : u.cell (cellOf tile l) = s.cell (cellOf tile l) := by
      unfold State.cell
      rw [hu]
    rw [State.rd_wr_same, ← hcell]
    exact showsCell_pack _ _
  · rw [State.rd_wr_ne _ _ (cellst_ne (cellOf_ne hne.symm))]
    exact hu

/-- The words of the live table lie from 0x43000 on. -/
theorem State.rd_reportTile_ne (s : State) (tile : Nat) {a : Nat} (ha : a < 0x43000) : (s.reportTile tile).rd a = s.rd a :=
  s.rd_each fun _ _ _ => State.rd_wr_ne _ _ (by unfold Reg.CIR_CELLST; omega)

theorem State.rd_refreshMaps_ne (s : State) {a : Nat} (ha : a < 0x43000) : s.refreshMaps.rd a = s.rd a := by
  refine (State.rd_each _ fun u c _ => State.rd_wr_ne _ _ (by unfold Reg.CIR_CELLST; omega)).trans (s.rd_each fun u k _ => ?_)
  exact (State.rd_wr_ne _ _ (by unfold Reg.CIR_OUTMAP; omega)).trans (State.rd_wr_ne _ _ (by unfold Reg.CIR_INMAP; omega))

/-- Of CIR_CELLST, recomputing the maps touches OCCU and OCCL alone. -/
theorem State.getLsbD_refreshMaps (s : State) (c : Nat) {i : Nat} (hi : i < 2 ∨ 4 ≤ i) :
    (s.refreshMaps.rd (Reg.CIR_CELLST c)).getLsbD i = (s.rd (Reg.CIR_CELLST c)).getLsbD i := by
  refine List.foldlRecOn (motive := fun u : State => (u.rd (Reg.CIR_CELLST c)).getLsbD i = (s.rd (Reg.CIR_CELLST c)).getLsbD i) _ _ ?_
    fun u hu d _ => ?_
  · refine congrArg (BitVec.getLsbD · i) (s.rd_each fun u k hk => ?_)
    have hin := List.mem_range.1 hk
    have hout := trace_lt s.reported hin
    exact (State.rd_wr_ne _ _ (by unfold Reg.CIR_CELLST Reg.CIR_OUTMAP; omega)).trans
      (State.rd_wr_ne _ _ (by unfold Reg.CIR_CELLST Reg.CIR_INMAP; omega))
  · by_cases hd : d = c
    · rw [hd, State.wrf, State.rd_wr_same, put_getLsbD, if_neg (by omega), hu]
    · rw [State.wrf, State.rd_wr_ne _ _ (cellst_ne (Ne.symm hd)), hu]

/-- With no commit and no late report, a tile reports in a bracket of its own. -/
theorem exec_tileStateReport_alone {s : State} (tile : Fin 64) (hcommits : s.commits = []) (hlate : s.lateReports = []) :
    exec (.tileStateReport tile) s = .next (s.reportAlone tile) := by
  change execTileStateReport tile s = _
  unfold execTileStateReport
  rw [hcommits, hlate]
  rfl

theorem State.rd_reportAlone_fsseq (s : State) (tile : Nat) : (s.reportAlone tile).rd Reg.CIR_FSSEQ = s.rd Reg.CIR_FSSEQ + 2#32 := by
  have hbump : ∀ u : State, u.fsTick.rd Reg.CIR_FSSEQ = u.rd Reg.CIR_FSSEQ + 1#32 := fun u => u.rd_wr_same _ _
  rw [State.reportAlone, hbump, State.rd_refreshMaps_ne _ (by decide), State.rd_reportTile_ne _ _ (by decide), hbump, BitVec.add_assoc]
  rfl

theorem State.reportAlone_shows (s : State) (tile : Nat) {l : Nat} (hl : l < 76) :
    ShowsCell ((s.reportAlone tile).rd (Reg.CIR_CELLST (cellOf tile l))) (s.cell (cellOf tile l)) := by
  have hclosed : ∀ u : State, u.fsTick.rd (Reg.CIR_CELLST (cellOf tile l)) = u.rd (Reg.CIR_CELLST (cellOf tile l)) := fun u =>
    u.rd_wr_ne _ (by unfold Reg.CIR_CELLST Reg.CIR_FSSEQ; omega)
  rw [State.reportAlone, hclosed]
  exact (s.fsTick.reportTile_shows tile hl).congr fun i hi => State.getLsbD_refreshMaps _ _ hi

/-- Settles O15: the bracket, and the words of the tile's cells. -/
theorem tileReports : Obligations.TileReports := by
  unfold Obligations.TileReports
  intro s tile hcommits hlate
  exact ⟨_, exec_tileStateReport_alone tile hcommits hlate, s.rd_reportAlone_fsseq tile, fun l hl => s.reportAlone_shows tile hl⟩

end Sys2Proof.Machine
end

section
/-! PROOF. O17: the capture of a pattern. -/

namespace Sys2Proof.Machine

/-- Where no batch is admitted, no pattern is busy. -/
theorem State.patBusy_idle {s : State} (n : Nat) (h : s.batches = []) : s.patBusy n = false := by
  unfold State.patBusy
  rw [h]
  rfl

theorem patternCapture_starts {s : State} {v : Word} (hgo : wbit v 31 = true) (hidle : s.batches = []) :
    ∃ t, exec (.patternCapture v) s = .next t ∧ t.bit Reg.CIR_PATCAP 31 = true ∧ t.rdf Reg.CIR_PATCAP 0 8 = fld v 0 8 ∧
      OnlyWords [Reg.CIR_PATCAP] s t := by
  have hfree : (s.wrMask Reg.CIR_PATCAP 0x40003FFF#32 v).patBusy (fld v 0 8) = false := State.patBusy_idle _ hidle
  have hexec : exec (.patternCapture v) s = .next ((s.wrMask Reg.CIR_PATCAP 0x40003FFF#32 v).wrBit Reg.CIR_PATCAP 31 true) :=
    congrArg Host.Outcome.next ((if_pos hgo).trans (if_neg (by simp [hfree])))
  refine ⟨_, hexec, State.bit_wrBit_same _ _ _ (by omega), ?_, (s.wrMask_onlyWords _ _ _).wrBit _ _ (List.mem_singleton.2 rfl)⟩
  exact (State.rdf_wrf_ne _ _ _ (by omega)).trans (s.rdf_wrMask_in _ v (by omega) (by decide))

/-- The circuits `cs` written to pattern `n`, output by output. -/
def State.capturePattern (s : State) (n : Nat) (cs : List Ckt) : State :=
  s.each (List.range 512) fun s j => s.wr (Reg.PAT n j) (captureWord cs j)

theorem State.rd_capturePattern (s : State) (n : Nat) (cs : List Ckt) {j : Nat} (hj : j < 512) :
    (s.capturePattern n cs).rd (Reg.PAT n j) = captureWord cs j :=
  State.each_establishes (I := fun _ => True) (P := fun u => u.rd (Reg.PAT n j) = captureWord cs j) (List.mem_range.2 hj) trivial
    (fun _ _ _ _ => trivial) (fun u _ => u.rd_wr_same _ _)
    fun u i _ hne hu => (u.rd_wr_ne _ (by unfold Reg.PAT; omega)).trans hu

/-- A capture stays within its pattern. -/
theorem State.rd_capturePattern_outside (s : State) (n : Nat) (cs : List Ckt) {a : Nat} (ha : a < Reg.PAT n 0 ∨ Reg.PAT (n + 1) 0 ≤ a) :
    (s.capturePattern n cs).rd a = s.rd a :=
  s.rd_each fun u j hj => u.rd_wr_ne _ (by
    have := List.mem_range.1 hj
    unfold Reg.PAT at ha ⊢
    omega)

/-- The circuits that the capture under way asks for: those of its partition, or all. -/
def State.captured (s : State) : List Ckt := s.ckts.filter fun c => s.bit Reg.CIR_PATCAP 30 || c.owner == s.rdf Reg.CIR_PATCAP 8 6

/-- The end of a capture: the pattern, no longer poisoned, and GO. -/
theorem exec_patternCaptureDone {s : State} (hgo : s.bit Reg.CIR_PATCAP 31 = true) : exec .patternCaptureDone s =
    .next ({ s.capturePattern (s.rdf Reg.CIR_PATCAP 0 8) s.captured with
      poisoned := (s.capturePattern (s.rdf Reg.CIR_PATCAP 0 8) s.captured).poisoned.filter fun a =>
        !(decide (Reg.PAT (s.rdf Reg.CIR_PATCAP 0 8) 0 ≤ a) && decide (a < Reg.PAT (s.rdf Reg.CIR_PATCAP 0 8 + 1) 0)) }.wrBit
      Reg.CIR_PATCAP 31 false) := if_pos hgo

theorem State.rd_setPoisoned (s : State) (ps : List Nat) (a : Nat) : { s with poisoned := ps }.rd a = s.rd a := rfl

theorem patternCaptureDone_writes {s : State} (hgo : s.bit Reg.CIR_PATCAP 31 = true) :
    ∃ t, exec .patternCaptureDone s = .next t ∧ t.bit Reg.CIR_PATCAP 31 = false ∧
      (∀ j, j < 512 → t.rd (Reg.PAT (s.rdf Reg.CIR_PATCAP 0 8) j) = captureWord s.captured j) ∧
      ∀ a, a ≠ Reg.CIR_PATCAP → (a < Reg.PAT (s.rdf Reg.CIR_PATCAP 0 8) 0 ∨ Reg.PAT (s.rdf Reg.CIR_PATCAP 0 8 + 1) 0 ≤ a) → t.rd a = s.rd a := by
  refine ⟨_, exec_patternCaptureDone hgo, State.bit_wrBit_same _ _ _ (by omega), fun j hj => ?_, fun a hne ha => ?_⟩
  · exact (State.rd_wr_ne _ _ (by unfold Reg.PAT Reg.CIR_PATCAP; omega)).trans ((State.rd_setPoisoned _ _ _).trans (s.rd_capturePattern _ _ hj))
  · exact (State.rd_wr_ne _ _ hne).trans ((State.rd_setPoisoned _ _ _).trans (s.rd_capturePattern_outside _ _ ha))

/-- Settles O17: GO accepted where no batch is admitted, and the end of a capture. -/
theorem captureWritesCircuits : Obligations.CaptureWritesCircuits := by
  unfold Obligations.CaptureWritesCircuits
  exact fun s => ⟨fun _ => patternCapture_starts, patternCaptureDone_writes⟩

end Sys2Proof.Machine
end

section
/-! PROOF. O18: port ownership, partition ranges and partition control. -/

namespace Sys2Proof.Machine

/-! ## The word of an array in the map -/

/-- Every word of an entry lies below `a`. -/
def RegEntry.Below (e : RegEntry) (a : Nat) : Prop :=
  match e.dims with
  | [] => e.base < a
  | (n, st) :: _ => 0 < st ∧ e.base + n * st ≤ a

theorem RegEntry.Below.mono {e : RegEntry} {a b : Nat} (h : e.Below a) (hab : a ≤ b) : e.Below b := by
  unfold RegEntry.Below at h ⊢
  split at h
  · exact h.trans_le hab
  · exact ⟨h.1, h.2.trans hab⟩

/-- An entry that ends below an offset names no word there. -/
theorem RegEntry.Below.locate {e : RegEntry} {a : Nat} (h : e.Below a) : RegMap.locate e.dims (a - e.base) = none := by
  unfold RegEntry.Below at h
  split at h
  · next hdims =>
    rw [hdims]
    exact if_neg (by omega)
  · next n st ds hdims =>
    rw [hdims]
    exact if_neg (Nat.not_lt.2 ((Nat.le_div_iff_mul_le h.1).2 (by omega)))

/-- A word of an array, in a block whose earlier entries end below the array. -/
theorem RegMap.find_array {es before after : List RegEntry} {e : RegEntry} {n st i : Nat} (hblock : RegMap.blockOf (e.base + st * i) = es)
    (hes : es = before ++ e :: after) (hbefore : ∀ x ∈ before, x.Below e.base) (hdims : e.dims = [(n, st)]) (hst : 0 < st) (hi : i < n) :
    RegMap.find (e.base + st * i) = some (e, [i]) := by
  have hskip : before.findSome? (fun x => if e.base + st * i < x.base then none
      else (RegMap.locate x.dims (e.base + st * i - x.base)).map (x, ·)) = none :=
    List.findSome?_eq_none_iff.2 fun x hx => by
      rw [((hbefore x hx).mono (Nat.le_add_right _ _)).locate]
      exact ite_self none
  have hhere : RegMap.locate e.dims (e.base + st * i - e.base) = some [i] := by
    rw [hdims, Nat.add_sub_cancel_left]
    simp [RegMap.locate, Nat.mul_div_cancel_left i hst, hi]
  unfold RegMap.find
  rw [hblock, hes, List.findSome?_append, hskip, Option.none_or, List.findSome?_cons, if_neg (by omega), hhere]
  rfl

/-! ## CIR_PORTOWN (R74) -/

/-- The entry of CIR_PORTOWN: its owners and LOSTHR are RW, and LOSTHR has reserved encodings. -/
def portownEntry : RegEntry :=
  ⟨"CIR_PORTOWN", 0x40800, [(512, 0x4)], .const 0xED400000, 0xFFF03F3F, 0x0, 0x0, 0x0, 0x0, [⟨31, 20, [(0x0, 0xC8), (0xE70, 0xFFF)], 1⟩], false⟩

theorem find_portown (k : Fin 512) : RegMap.find (Reg.CIR_PORTOWN k) = some (portownEntry, [k.val]) := by
  have hk := k.isLt
  have hblock : RegMap.blockOf (Reg.CIR_PORTOWN k) = RegMap.cir := by
    have hdiv : Reg.CIR_PORTOWN k / 0x10000 = 4 := by unfold Reg.CIR_PORTOWN; omega
    unfold RegMap.blockOf
    rw [if_pos (by unfold Reg.CIR_PORTOWN; omega), hdiv]
    rfl
  refine RegMap.find_array (e := portownEntry) (st := 4) hblock (before := RegMap.cir.take 6) (after := RegMap.cir.drop 7) rfl ?_ rfl (by omega) hk
  simp [RegMap.cir, RegEntry.Below, portownEntry]

/-- The one rule of CIR_PORTOWN covers LOSTHR and admits what is no reserved encoding. -/
theorem portown_admits (v : Word) (r : FieldRule) (hr : r ∈ portownEntry.rules) :
    r.lo = 20 ∧ r.hi = 31 ∧ (r.admits v = true ↔ fld v 20 12 ≤ 0xC8 ∨ 0xE70 ≤ fld v 20 12) := by
  have hlt := fld_lt v 20 12
  obtain rfl := List.mem_singleton.1 hr
  refine ⟨rfl, rfl, ?_⟩
  simp [FieldRule.admits, Nat.mod_one]
  omega

/-- The owner bits of CIR_PORTOWN take what is written. -/
theorem State.getLsbD_writeReg_owner (s : State) (k : Fin 512) (v : Word) {i : Nat} (hi : i < 6 ∨ 8 ≤ i ∧ i < 14) :
    ((s.writeReg (Reg.CIR_PORTOWN k) v).rd (Reg.CIR_PORTOWN k)).getLsbD i = v.getLsbD i := by
  have hbits : ∀ i, i < 14 → i < 6 ∨ 8 ≤ i ∧ i < 14 → (BitVec.ofNat 32 portownEntry.rw).getLsbD i = true := by decide
  have hlt : i < 32 := by omega
  have hwritable : (portownEntry.writable v).getLsbD i = true :=
    (portownEntry.writable_getLsbD v hlt).2 ⟨hbits i (by omega) hi, fun r hr hlo _ => by
      obtain ⟨hrlo, -⟩ := portown_admits v r hr
      omega⟩
  rw [State.rd_writeReg_same s v (find_portown k), RegEntry.merge_getLsbD _ _ _ hlt, hwritable]
  simp [portownEntry]

/-- LOSTHR takes what its range admits. -/
theorem State.getLsbD_writeReg_losthr (s : State) (k : Fin 512) (v : Word) {i : Nat} (hlo : 20 ≤ i) (hi : i < 32) :
    ((s.writeReg (Reg.CIR_PORTOWN k) v).rd (Reg.CIR_PORTOWN k)).getLsbD i =
      if fld v 20 12 ≤ 0xC8 ∨ 0xE70 ≤ fld v 20 12 then v.getLsbD i else (s.rd (Reg.CIR_PORTOWN k)).getLsbD i := by
  have hbits : ∀ i, i < 32 → 20 ≤ i → (BitVec.ofNat 32 portownEntry.rw).getLsbD i = true := by decide
  have hwritable : (portownEntry.writable v).getLsbD i = true ↔ fld v 20 12 ≤ 0xC8 ∨ 0xE70 ≤ fld v 20 12 := by
    refine (portownEntry.writable_getLsbD v hi).trans ⟨fun h => ?_, fun h => ⟨hbits i hi hlo, fun r hr _ _ => ?_⟩⟩
    · have hr := List.mem_singleton.2 (rfl : (⟨31, 20, [(0x0, 0xC8), (0xE70, 0xFFF)], 1⟩ : FieldRule) = _)
      obtain ⟨-, hadmitted⟩ := h
      obtain ⟨-, -, hrange⟩ := portown_admits v _ hr
      exact hrange.1 (hadmitted _ hr hlo (Nat.le_of_lt_succ hi))
    · obtain ⟨-, -, hrange⟩ := portown_admits v r hr
      exact hrange.2 h
  rw [State.rd_writeReg_same s v (find_portown k), RegEntry.merge_getLsbD _ _ _ hi]
  simp only [hwritable]
  simp [portownEntry]

theorem State.portown_writeReg (s : State) (k : Fin 512) (v : Word) :
    (s.writeReg (Reg.CIR_PORTOWN k) v).inOwner k = fld v 0 6 ∧ (s.writeReg (Reg.CIR_PORTOWN k) v).outOwner k = fld v 8 6 ∧
      (s.writeReg (Reg.CIR_PORTOWN k) v).rdf (Reg.CIR_PORTOWN k) 20 12 =
        if fld v 20 12 ≤ 0xC8 ∨ 0xE70 ≤ fld v 20 12 then fld v 20 12 else s.rdf (Reg.CIR_PORTOWN k) 20 12 := by
  refine ⟨fld_congr fun i hi => s.getLsbD_writeReg_owner k v (by omega), fld_congr fun i hi => s.getLsbD_writeReg_owner k v (by omega), ?_⟩
  split
  · next h => exact fld_congr fun i hi => (s.getLsbD_writeReg_losthr k v (by omega) (by omega)).trans (if_pos h)
  · next h => exact fld_congr fun i hi => (s.getLsbD_writeReg_losthr k v (by omega) (by omega)).trans (if_neg h)

/-- The write would change the owner of an input in use. -/
def State.inClash (s : State) (k : Nat) (v : Word) : Bool := fld v 0 6 != s.inOwner k && s.inBusy k

/-- The write would change the owner of an output in use. -/
def State.outClash (s : State) (k : Nat) (v : Word) : Bool := fld v 8 6 != s.outOwner k && s.outBusy k

/-- The word that is written: with the owner of a side in use as it stands. -/
def State.portownWord (s : State) (k : Nat) (v : Word) : Word :=
  let v1 := if s.inClash k v then put v 0 6 (s.inOwner k) else v
  if s.outClash k v then put v1 8 6 (s.outOwner k) else v1

theorem exec_portOwnershipWrite (s : State) (k : Fin 512) (v : Word) : exec (.portOwnershipWrite k v) s =
    .next ((s.writeReg (Reg.CIR_PORTOWN k) (s.portownWord k v)).when (s.inClash k v || s.outClash k v) (·.err Reg.CIR_ERRSTAT 2)) := rfl

theorem fld_ite_put_same (b : Bool) (v : Word) {lo n : Nat} (x : Nat) (h : lo + n ≤ 32) (hx : x < 2 ^ n) :
    fld (if b then put v lo n x else v) lo n = if b then x else fld v lo n := by
  split
  · rw [fld_put_same _ _ h, Nat.mod_eq_of_lt hx]
  · rfl

theorem fld_ite_put_ne (b : Bool) (v : Word) {lo n lo' n' : Nat} (x : Nat) (h : lo' + n' ≤ lo ∨ lo + n ≤ lo') :
    fld (if b then put v lo n x else v) lo' n' = fld v lo' n' := by
  split
  · exact fld_put_ne _ _ h
  · rfl

/-- A side takes the owner written unless it is in use. -/
theorem ite_clash_eq_ite_busy (busy : Bool) (x owner : Nat) : (if x != owner && busy then owner else x) = if busy then owner else x := by
  cases busy with
  | false => simp
  | true =>
    by_cases h : x = owner
    · simp [h]
    · simp [h]

theorem State.fld_portownWord (s : State) (k : Nat) (v : Word) :
    fld (s.portownWord k v) 0 6 = (if s.inBusy k then s.inOwner k else fld v 0 6) ∧
      fld (s.portownWord k v) 8 6 = (if s.outBusy k then s.outOwner k else fld v 8 6) ∧ fld (s.portownWord k v) 20 12 = fld v 20 12 := by
  have hin : s.inOwner k < 2 ^ 6 := fld_lt _ _ _
  have hout : s.outOwner k < 2 ^ 6 := fld_lt _ _ _
  unfold State.portownWord
  refine ⟨?_, ?_, ?_⟩
  · rw [fld_ite_put_ne _ _ _ (by omega), fld_ite_put_same _ _ _ (by omega) hin]
    exact ite_clash_eq_ite_busy _ _ _
  · rw [fld_ite_put_same _ _ _ (by omega) hout, fld_ite_put_ne _ _ _ (by omega)]
    exact ite_clash_eq_ite_busy _ _ _
  · rw [fld_ite_put_ne _ _ _ (by omega), fld_ite_put_ne _ _ _ (by omega)]

/-- OWNBUSY leaves the port's word as it is. -/
theorem State.rd_portown_ownbusy (s : State) (b : Bool) (k : Fin 512) :
    (s.when b (·.err Reg.CIR_ERRSTAT 2)).rd (Reg.CIR_PORTOWN k) = s.rd (Reg.CIR_PORTOWN k) := by
  have hk := k.isLt
  unfold State.when
  split
  · refine State.rd_err_ne _ _ (by unfold Reg.CIR_PORTOWN Reg.CIR_ERRSTAT; omega) ?_
    unfold isRingWord Reg.CIR_PORTOWN
    simp
    omega
  · rfl

theorem portOwnershipWrite_takes (s : State) (k : Fin 512) (v : Word) :
    ∃ t, exec (.portOwnershipWrite k v) s = .next t ∧
      t.inOwner k = (if s.inBusy k then s.inOwner k else fld v 0 6) ∧ t.outOwner k = (if s.outBusy k then s.outOwner k else fld v 8 6) ∧
      t.rdf (Reg.CIR_PORTOWN k) 20 12 = (if fld v 20 12 ≤ 0xC8 ∨ 0xE70 ≤ fld v 20 12 then fld v 20 12 else s.rdf (Reg.CIR_PORTOWN k) 20 12) ∧
      ((s.inBusy k = true ∧ fld v 0 6 ≠ s.inOwner k) ∨ (s.outBusy k = true ∧ fld v 8 6 ≠ s.outOwner k) →
        t.bit Reg.CIR_ERRSTAT 2 = true ∧ WordsAndEvents [Reg.CIR_PORTOWN k, Reg.CIR_ERRSTAT] s t) ∧
      (¬((s.inBusy k = true ∧ fld v 0 6 ≠ s.inOwner k) ∨ (s.outBusy k = true ∧ fld v 8 6 ≠ s.outOwner k)) →
        OnlyWords [Reg.CIR_PORTOWN k] s t) := by
  have hclash : (s.inClash k v || s.outClash k v) = true ↔
      (s.inBusy k = true ∧ fld v 0 6 ≠ s.inOwner k) ∨ (s.outBusy k = true ∧ fld v 8 6 ≠ s.outOwner k) := by
    simp [State.inClash, State.outClash, and_comm]
  obtain ⟨hin, hout, hthr⟩ := s.portown_writeReg k (s.portownWord k v)
  obtain ⟨hwin, hwout, hwthr⟩ := s.fld_portownWord k v
  have hword := (s.writeReg (Reg.CIR_PORTOWN k) (s.portownWord k v)).rd_portown_ownbusy (s.inClash k v || s.outClash k v) k
  refine ⟨_, exec_portOwnershipWrite s k v, ?_, ?_, ?_, fun h => ?_, fun h => ?_⟩
  · exact (congrArg (fld · 0 6) hword).trans (hin.trans hwin)
  · exact (congrArg (fld · 8 6) hword).trans (hout.trans hwout)
  · rw [hwthr] at hthr
    exact (congrArg (fld · 20 12) hword).trans hthr
  · rw [hclash.2 h]
    exact ⟨State.err_bit _ (by omega) (by decide),
      State.err_events ((WordsAndEvents.refl _ s).writeReg _ (by simp)) 2 (by simp)⟩
  · rw [Bool.eq_false_iff.2 (mt hclash.1 h)]
    exact OnlyWords.writeReg_self _ _ _

/-! ## Partition ranges (R75) -/

/-- The range register of a partition: of patterns or of cues. -/
def rangeWord (pat : Bool) (p : Nat) : Nat := if pat then Reg.CIR_PARTPAT p else Reg.CIR_PARTCUE p

/-- A range that R75 refuses partition `p`: past the table's end, or, for partitions 1 to 63, over another's. -/
def State.RangeRefused (s : State) (p : Fin 64) (pat : Bool) (v : Word) : Prop :=
  256 < fld v 0 8 + fld v 8 9 ∨ (p ≠ 0 ∧ ∃ q, 1 ≤ q ∧ q < 64 ∧ q ≠ p.val ∧
    rangesMeet (fld v 0 8) (fld v 8 9) (s.rdf (rangeWord pat q) 0 8) (s.rdf (rangeWord pat q) 8 9) = true)

/-- The test of R75 as the model makes it. -/
def State.rangeClash (s : State) (p : Fin 64) (pat : Bool) (v : Word) : Bool :=
  decide (256 < fld v 0 8 + fld v 8 9) || (p.val != 0 && (List.range 64).any fun q => q != 0 && q != p.val &&
    rangesMeet (fld v 0 8) (fld v 8 9) (s.rdf (rangeWord pat q) 0 8) (s.rdf (rangeWord pat q) 8 9))

theorem exec_partitionRangeWrite (s : State) (p : Fin 64) (pat : Bool) (v : Word) : exec (.partitionRangeWrite p pat v) s =
    if s.rangeClash p pat v then .next (s.err Reg.CIR_ERRSTAT 3) else .next (s.wrMask (rangeWord pat p) 0x0001FFFF#32 v) := rfl

theorem State.rangeClash_iff (s : State) (p : Fin 64) (pat : Bool) (v : Word) : s.rangeClash p pat v = true ↔ s.RangeRefused p pat v := by
  have hzero : p.val ≠ 0 ↔ p ≠ 0 := Fin.val_ne_zero_iff
  unfold State.rangeClash State.RangeRefused
  simp only [Bool.or_eq_true, decide_eq_true_eq, Bool.and_eq_true, bne_iff_ne, hzero, List.any_eq_true, List.mem_range]
  refine or_congr_right (and_congr_right fun _ => exists_congr fun q => ?_)
  rw [Nat.one_le_iff_ne_zero]
  tauto

theorem partitionRangeWrite_takes (s : State) (p : Fin 64) (pat : Bool) (v : Word) :
    ∃ t, exec (.partitionRangeWrite p pat v) s = .next t ∧
      (s.RangeRefused p pat v → t.bit Reg.CIR_ERRSTAT 3 = true ∧ WordsAndEvents [Reg.CIR_ERRSTAT] s t) ∧
      (¬s.RangeRefused p pat v → t.rdf (rangeWord pat p) 0 8 = fld v 0 8 ∧ t.rdf (rangeWord pat p) 8 9 = fld v 8 9 ∧
        OnlyWords [rangeWord pat p] s t) := by
  by_cases hrefused : s.RangeRefused p pat v
  · exact ⟨_, (exec_partitionRangeWrite s p pat v).trans (if_pos ((s.rangeClash_iff p pat v).2 hrefused)), fun _ => s.err_cirErrstat (by omega),
      fun h => absurd hrefused h⟩
  · exact ⟨_, (exec_partitionRangeWrite s p pat v).trans (if_neg (mt (s.rangeClash_iff p pat v).1 hrefused)), fun h => absurd h hrefused,
      fun _ => ⟨s.rdf_wrMask_in _ v (by omega) (by decide), s.rdf_wrMask_in _ v (by omega) (by decide), s.wrMask_onlyWords _ _ _⟩⟩

/-! ## Partition control (R72) -/

theorem partitionControlWrite_takes (s : State) (p : Fin 64) (v : Word) : ∃ t, exec (.partitionControlWrite p v) s = .next t ∧
    t.rdf (Reg.CIR_PARTCTL p) 0 4 = fld v 0 4 ∧ t.rdf (Reg.CIR_PARTCTL p) 4 28 = s.rdf (Reg.CIR_PARTCTL p) 4 28 ∧
    OnlyWords [Reg.CIR_PARTCTL p] s t :=
  ⟨_, rfl, s.rdf_wrMask_in _ v (by omega) (by decide), s.rdf_wrMask_out _ v (by omega) (by decide), s.wrMask_onlyWords _ _ _⟩

/-- Settles O18: ports, ranges and control, register by register. -/
theorem partitionTables : Obligations.PartitionTables := by
  unfold Obligations.PartitionTables
  exact fun s v => ⟨fun k => portOwnershipWrite_takes s k v, fun p pat => partitionRangeWrite_takes s p pat v,
    fun p => partitionControlWrite_takes s p v⟩

end Sys2Proof.Machine
end

section
/-! PROOF. O19: light, and the protection that follows it. -/

namespace Sys2Proof.Machine

/-! ## The circuits that use an input -/

/-- The circuit table's own words. -/
theorem State.ckts_congr_table {s t : State} (h : ∀ a, 0x41000 ≤ a → a < 0x42000 → t.rd a = s.rd a) : t.ckts = s.ckts := by
  refine List.filterMap_congr fun k hk => ?_
  have hk := List.mem_range.1 hk
  unfold State.ckt
  rw [h (Reg.CIR_CKTA k) (by unfold Reg.CIR_CKTA; omega) (by unfold Reg.CIR_CKTA; omega),
    h (Reg.CIR_CKTB k) (by unfold Reg.CIR_CKTB; omega) (by unfold Reg.CIR_CKTB; omega)]

theorem mapWord_bounds (out : Bool) (k : Fin 512) : 0x43000 ≤ mapWord out k ∧ mapWord out k < 0x44000 := by
  have hk := k.isLt
  unfold mapWord Reg.CIR_OUTMAP Reg.CIR_INMAP
  split <;> omega

theorem State.ckts_wrBit_mapWord (s : State) (out : Bool) (k : Fin 512) (i : Nat) (b : Bool) : (s.wrBit (mapWord out k) i b).ckts = s.ckts :=
  State.ckts_congr_table fun _ _ ha => s.rd_wr_ne _ (by have := mapWord_bounds out k; omega)

/-- The circuits that use IN `k`, as working or as protect input. -/
def State.usersOf (s : State) (k : Nat) : List Ckt := s.ckts.filter fun c => c.inp == k || c.peer == some k

theorem State.usersOf_congr {s t : State} (h : t.ckts = s.ckts) (k : Nat) : t.usersOf k = s.usersOf k := by
  unfold State.usersOf
  rw [h]

theorem State.decideFor_unused {s : State} {k : Nat} (h : s.usersOf k = []) : s.decideFor k = s :=
  congrArg (List.foldl State.decideSwitch s) h

theorem State.decideFor_one {s : State} {k : Nat} {c : Ckt} (h : s.usersOf k = [c]) : s.decideFor k = s.decideSwitch c :=
  congrArg (List.foldl State.decideSwitch s) h

/-! ## What LIGHT and the hold-off leave for protection to judge -/

/-- The state in which LIGHT of a port has fallen, before protection judges it. -/
def State.lightLost (s : State) (out : Bool) (k : Fin 512) : State :=
  if out then s.wrBit (mapWord out k) 30 false
  else { s.wrBit (mapWord out k) 30 false with darkIn := (k.val :: s.darkIn).eraseDups }

/-- The state in which LIGHT of a port has returned, before protection judges it. -/
def State.lightBack (s : State) (out : Bool) (k : Fin 512) : State :=
  if out then s.wrBit (mapWord out k) 30 true
  else { s.wrBit (mapWord out k) 30 true with darkIn := s.darkIn.filter (· != k.val) }.shutCouplers

/-- The state in which the hold-off of the circuit on IN `k` has ended, at `x`. -/
def State.holdoffEnded (s : State) (k x : Nat) : State := (s.raise x).setProt k { s.prot k with holdoff := none }

theorem State.usersOf_lightLost (s : State) (out : Bool) (k : Fin 512) (j : Nat) : (s.lightLost out k).usersOf j = s.usersOf j := by
  refine State.usersOf_congr ?_ j
  cases out <;> exact s.ckts_wrBit_mapWord _ k 30 false

theorem State.usersOf_lightBack (s : State) (out : Bool) (k : Fin 512) (j : Nat) : (s.lightBack out k).usersOf j = s.usersOf j := by
  refine State.usersOf_congr ?_ j
  cases out <;> exact s.ckts_wrBit_mapWord _ k 30 true

theorem State.prot_setProt_same (s : State) (k : Nat) (x : ProtRec) : (s.setProt k x).prot k = x := Store.get_set_same _ _ _ _

section
variable {s : State} {out : Bool} {k : Fin 512}

theorem exec_lossOfLight_declared (h : 4 ≤ (s.lightRun out k).below) :
    exec (.lossOfLight out k) s = .next (if out then s.lightLost out k else (s.lightLost out k).decideFor k) := by
  change execLossOfLight out k s = _
  unfold execLossOfLight State.lightLost
  cases out with
  | false => simp only [if_pos h, Bool.false_eq_true, if_false, State.wrBit, State.wrf, State.wr_darkIn]
  | true => simp only [if_pos h, if_true]

theorem exec_lightRegained_declared (h : 4 ≤ (s.lightRun out k).above) :
    exec (.lightRegained out k) s = .next (if out then s.lightBack out k else (s.lightBack out k).decideFor k) := by
  change execLightRegained out k s = _
  unfold execLightRegained State.lightBack
  cases out with
  | false => simp only [if_pos h, Bool.false_eq_true, if_false, State.wrBit, State.wrf, State.wr_darkIn]
  | true => simp only [if_pos h, if_true]

theorem exec_holdoffExpiry_ends {x : Nat} (h : (s.prot k).holdoff = some x) :
    exec (.holdoffExpiry k) s = .next ((s.holdoffEnded k x).decideFor k) := by
  change execHoldoffExpiry k s = _
  unfold execHoldoffExpiry
  rw [h]
  rfl

/-! ## A port no circuit uses (R83) -/

section
variable (hunused : s.usersOf k = [])
include hunused

theorem lossOfLight_unused (h : 4 ≤ (s.lightRun out k).below) :
    ∃ t, exec (.lossOfLight out k) s = .next t ∧ t.bit (mapWord out k) 30 = false ∧ (out = false → k.val ∈ t.darkIn) ∧
      OnlyWords [mapWord out k] { s with darkIn := t.darkIn } t := by
  have hquiet : (s.lightLost out k).decideFor k = s.lightLost out k := State.decideFor_unused ((s.usersOf_lightLost out k k).trans hunused)
  refine ⟨s.lightLost out k, ?_, ?_⟩
  · rw [exec_lossOfLight_declared h, hquiet, ite_self]
  have hbit := s.bit_wrBit_same (mapWord out k) (i := 30) false (by omega)
  have honly : ∀ d, OnlyWords [mapWord out k] { s with darkIn := d } { s.wrBit (mapWord out k) 30 false with darkIn := d } :=
    fun d => (OnlyWords.refl _ { s with darkIn := d }).wrBit 30 false (List.mem_singleton.2 rfl)
  cases out with
  | true => exact ⟨hbit, fun h => Bool.noConfusion h, honly s.darkIn⟩
  | false => exact ⟨hbit, fun _ => List.mem_eraseDups.2 List.mem_cons_self, honly _⟩

theorem lightRegained_unused (h : 4 ≤ (s.lightRun out k).above) :
    ∃ t, exec (.lightRegained out k) s = .next t ∧ t.bit (mapWord out k) 30 = true ∧ (out = false → k.val ∉ t.darkIn) ∧
      OnlyWords [mapWord out k] { s with darkIn := t.darkIn, couplers := t.couplers } t := by
  have hquiet : (s.lightBack out k).decideFor k = s.lightBack out k := State.decideFor_unused ((s.usersOf_lightBack out k k).trans hunused)
  refine ⟨s.lightBack out k, ?_, ?_⟩
  · rw [exec_lightRegained_declared h, hquiet, ite_self]
  have hbit := s.bit_wrBit_same (mapWord out k) (i := 30) true (by omega)
  have honly : ∀ d cs, OnlyWords [mapWord out k] { s with darkIn := d, couplers := cs }
      { s.wrBit (mapWord out k) 30 true with darkIn := d, couplers := cs } :=
    fun d cs => (OnlyWords.refl _ { s with darkIn := d, couplers := cs }).wrBit 30 true (List.mem_singleton.2 rfl)
  cases out with
  | true => exact ⟨hbit, fun h => Bool.noConfusion h, honly s.darkIn s.couplers⟩
  | false => exact ⟨hbit, fun _ hmem => by simp [State.lightBack, State.shutCouplers] at hmem, honly _ _⟩

theorem holdoffExpiry_unused {x : Nat} (h : (s.prot k).holdoff = some x) :
    ∃ t, exec (.holdoffExpiry k) s = .next t ∧ (t.prot k).holdoff = none ∧ x * nsUnit ≤ t.now ∧ t = { s with now := t.now, prots := t.prots } := by
  have hquiet : (s.holdoffEnded k x).decideFor k = s.holdoffEnded k x := State.decideFor_unused hunused
  refine ⟨s.holdoffEnded k x, (exec_holdoffExpiry_ends h).trans (congrArg _ hquiet), ?_, Nat.le_max_right _ _, rfl⟩
  exact congrArg ProtRec.holdoff (State.prot_setProt_same _ _ _)

end
end

/-! ## A switch (R84) -/

/-- An end of no batch brings the status words up to date. -/
theorem State.rd_finish_nil (s : State) {a : Nat} (hstat : a ≠ Reg.LMP_STAT) (harm : a ≠ Reg.LMP_ARMTIME) (hwhl : a ≠ Reg.WHL_STAT)
    (htol : a ≠ Reg.TOL_STAT) : (s.finish []).rd a = s.rd a := by
  unfold State.finish
  split
  · rfl
  · exact s.rd_lampStat hstat harm hwhl htol

/-- A protection switch ends no batch: beside status words it counts nothing. -/
theorem State.rd_invalidate_protection (s : State) (cells near ckts : List Nat) {a : Nat} (ha : a < 0x50000) (htol : a ≠ Reg.TOL_STAT) :
    (s.invalidate true cells near ckts).rd a = s.rd a := by
  have hstat : a ≠ Reg.LMP_STAT := by unfold Reg.LMP_STAT; omega
  have harm : a ≠ Reg.LMP_ARMTIME := by unfold Reg.LMP_ARMTIME; omega
  have hwhl : a ≠ Reg.WHL_STAT := by unfold Reg.WHL_STAT; omega
  have hcount : a ≠ Reg.WHL_STALECNT := by unfold Reg.WHL_STALECNT; omega
  unfold State.invalidate State.invalidateBy
  refine (State.rd_setSolveStart _ _ a).trans ((State.rd_lampStat _ hstat harm hwhl htol).trans ((State.rd_wr_ne _ _ hcount).trans ?_))
  rw [if_pos rfl, List.map_nil, State.rd_finish_nil _ hstat harm hwhl htol]
  rfl

theorem State.rd_setCommits (s : State) (cs : List Commit) (a : Nat) : { s with commits := cs }.rd a = s.rd a := rfl

/-- A switch placed changes commits, and no word of the fabric. -/
theorem State.rd_placeSwitch (s : State) (c : Ckt) {a : Nat} (ha : a < 0x50000) (htol : a ≠ Reg.TOL_STAT) : (s.placeSwitch c).rd a = s.rd a := by
  unfold State.placeSwitch
  extract_lets floor alt invalidated lost
  have hrd : invalidated.rd a = s.rd a := s.rd_invalidate_protection _ _ _ ha htol
  clear_value invalidated
  split <;> exact (State.rd_setCommits _ _ a).trans hrd

theorem State.switching_of_mem {s : State} {k : Nat} {x : Commit} (hmem : x ∈ s.commits) (hkind : x.kind = .protection) (hk : k ∈ x.switches) :
    s.switching k = true :=
  List.any_eq_true.2 ⟨x, hmem, by simp [hkind, hk]⟩

/-- A commit that replaces the one at its instant. -/
theorem State.mem_setCommit {s : State} {x c : Commit} (hmem : x ∈ s.commits) (hinstant : x.tc = c.tc) : c ∈ (s.setCommit c).commits :=
  List.mem_map.2 ⟨x, hmem, if_pos hinstant⟩

/-- A switch placed joins a protection commit or opens one. -/
theorem State.switching_placeSwitch (s : State) (c : Ckt) : (s.placeSwitch c).switching c.inp = true := by
  unfold State.placeSwitch
  extract_lets floor alt invalidated lost
  clear_value invalidated
  split
  · next k hfound =>
    have hkind : k.kind = .protection := by
      have hfits := List.find?_some hfound
      simp only [Bool.and_eq_true, beq_iff_eq] at hfits
      obtain ⟨⟨hkind, -⟩, -⟩ := hfits
      exact hkind
    have hmem := State.mem_setCommit (c := { k with switches := k.switches ++ [c.inp], lost := k.lost ++ [lost] })
      (List.mem_of_find?_eq_some hfound) rfl
    exact State.switching_of_mem hmem hkind (List.mem_append_right _ (List.mem_singleton.2 rfl))
  · exact State.switching_of_mem (List.mem_append_right _ (List.mem_singleton.2 rfl)) rfl (List.mem_singleton.2 rfl)

/-- R84 reads of a circuit's record the hold-off alone. -/
theorem State.switchable_setProt (s : State) (c : Ckt) {x : ProtRec} (h : x.holdoff = (s.prot c.inp).holdoff) :
    (s.setProt c.inp x).switchable c = s.switchable c := by
  have hover : (s.setProt c.inp x).holdoffOver c.inp = s.holdoffOver c.inp := by
    unfold State.holdoffOver
    rw [State.prot_setProt_same, h]
    rfl
  unfold State.switchable
  rw [hover]
  rfl

/-- A switch goes to an input with light. -/
theorem State.lit_of_switchable {s : State} {c : Ckt} {o : Nat} (hother : c.other = some o) (h : s.switchable c = true) : s.lit o = true := by
  simp only [State.switchable, hother, Bool.and_eq_true] at h
  obtain ⟨⟨⟨⟨⟨-, hlit⟩, -⟩, -⟩, -⟩, -⟩ := h
  exact hlit

/-- Under every condition of R84 the switch is placed, an earlier BOTHLOS over. -/
theorem State.decideSwitch_switches {s : State} {c : Ckt} (hswitchable : s.switchable c = true) (hblocked : s.protBlocked = false)
    (hswitching : s.switching c.inp = false) : ∃ u : State, s.decideSwitch c = u.placeSwitch c ∧ ∀ a, u.rd a = s.rd a := by
  unfold State.decideSwitch
  split
  · next hother => simp [State.switchable, hother] at hswitchable
  next o hother =>
    have hlight : (!s.lit c.feed && !s.lit o) = false := by rw [State.lit_of_switchable hother hswitchable, Bool.not_true, Bool.and_false]
    extract_lets dark record noted
    have hnoted : noted.switchable c = true ∧ noted.protBlocked = false ∧ noted.switching c.inp = false ∧ ∀ a, noted.rd a = s.rd a := by
      unfold noted dark
      rw [hlight, if_neg (by simp)]
      split
      · exact ⟨(State.switchable_setProt s c (by rfl)).trans hswitchable, hblocked, hswitching, fun _ => rfl⟩
      · exact ⟨hswitchable, hblocked, hswitching, fun _ => rfl⟩
    obtain ⟨hready, hunblocked, hnone, hrd⟩ := hnoted
    exact ⟨noted, if_pos (by simp [hready, hunblocked, hnone]), hrd⟩

/-- Protection judged for the one circuit of an input that meets R84. -/
theorem State.decideFor_switches {s : State} {k : Nat} {c : Ckt} (hone : s.usersOf k = [c]) (hswitchable : s.switchable c = true)
    (hblocked : s.protBlocked = false) (hswitching : s.switching c.inp = false) :
    (s.decideFor k).switching c.inp = true ∧ ∀ a, a < 0x50000 → a ≠ Reg.TOL_STAT → (s.decideFor k).rd a = s.rd a := by
  obtain ⟨u, hplaced, hsame⟩ := State.decideSwitch_switches hswitchable hblocked hswitching
  rw [State.decideFor_one hone, hplaced]
  exact ⟨u.switching_placeSwitch c, fun a ha htol => (u.rd_placeSwitch c ha htol).trans (hsame a)⟩

theorem lossOfLight_switches {s : State} {k : Fin 512} {c : Ckt} (hone : s.usersOf k = [c]) (hrun : 4 ≤ (s.lightRun false k).below)
    (hswitchable : (s.lightLost false k).switchable c = true) (hblocked : (s.lightLost false k).protBlocked = false)
    (hswitching : s.switching c.inp = false) :
    ∃ t, exec (.lossOfLight false k) s = .next t ∧ t.switching c.inp = true ∧ t.bit (mapWord false k) 30 = false := by
  obtain ⟨hon, hwords⟩ := State.decideFor_switches ((s.usersOf_lightLost false k k).trans hone) hswitchable hblocked hswitching
  obtain ⟨hlo, hhi⟩ := mapWord_bounds false k
  have hword := hwords (mapWord false k) (by omega) (by unfold Reg.TOL_STAT; omega)
  exact ⟨_, exec_lossOfLight_declared hrun, hon, (congrArg (wbit · 30) hword).trans (s.bit_wrBit_same (mapWord false k) false (by omega))⟩

theorem holdoffExpiry_switches {s : State} {k : Fin 512} {c : Ckt} {x : Nat} (hone : s.usersOf k = [c]) (hholdoff : (s.prot k).holdoff = some x)
    (hswitchable : (s.holdoffEnded k x).switchable c = true) (hblocked : s.protBlocked = false) (hswitching : s.switching c.inp = false) :
    ∃ t, exec (.holdoffExpiry k) s = .next t ∧ t.switching c.inp = true :=
  ⟨_, exec_holdoffExpiry_ends hholdoff, (State.decideFor_switches (s := s.holdoffEnded k x) hone hswitchable hblocked hswitching).1⟩

/-- Settles O19: a port no circuit uses, and an input that one circuit uses. -/
theorem lightFollowsSamples : Obligations.LightFollowsSamples := by
  unfold Obligations.LightFollowsSamples
  refine ⟨fun s out k hunused => ⟨lossOfLight_unused hunused, fun h => if_neg (Nat.not_le.2 h), lightRegained_unused hunused,
    fun h => if_neg (Nat.not_le.2 h), fun x => holdoffExpiry_unused hunused⟩, fun s k c hone => ⟨fun _ => lossOfLight_switches hone,
    fun x _ => holdoffExpiry_switches hone⟩⟩

end Sys2Proof.Machine
end

section
/-! PROOF. O20: the Wheelwright's results, and the release of a batch. -/

namespace Sys2Proof.Machine

/-! ## What the solver's commands leave alone -/

/-- WHL_SOLVEMAX, and the words at the place of W3 in a cue's entry within the cue window. -/
def SolverWord (a : Nat) : Prop := a = Reg.WHL_SOLVEMAX ∨ (0x1000000 ≤ a ∧ a < 0x1200000 ∧ a % 32 = 12)

theorem solverWord_cueW3 {q : Nat} (h : q < 65536) : SolverWord (Reg.CUE_W3 q) := by
  unfold SolverWord Reg.CUE_W3
  omega

theorem not_solverWord_of_window {a : Nat} (h : 0x1200000 ≤ a) : ¬ SolverWord a := by
  unfold SolverWord Reg.WHL_SOLVEMAX
  omega

theorem not_solverWord_of_low {a : Nat} (h : a < 0x1000000) (hmax : a ≠ Reg.WHL_SOLVEMAX) : ¬ SolverWord a := by
  unfold SolverWord
  omega

theorem not_solverWord_ring {a : Nat} (h : isRingWord a = true) : ¬ SolverWord a := by
  unfold isRingWord at h
  simp only [Bool.and_eq_true, decide_eq_true_eq] at h
  exact not_solverWord_of_window (by omega)

theorem not_solverWord_coo (c w : Nat) : ¬ SolverWord (cooWord c w) :=
  not_solverWord_of_window (by unfold cooWord Reg.COO_CELL_W0; omega)

theorem not_solverWord_drv (c w : Nat) : ¬ SolverWord (drvWord c w) :=
  not_solverWord_of_window (by unfold drvWord Reg.DRV_CELL_W0; omega)

/-- From `s` to `t` the batches, the solve in progress, the solve order, virtual time and the words of `SolverWord` are as before. -/
structure SolverKept (s t : State) : Prop where
  rd : ∀ a, SolverWord a → t.rd a = s.rd a
  batches : t.batches = s.batches
  solveStart : t.solveStart = s.solveStart
  nextSolve : t.nextSolve = s.nextSolve
  vtime : t.vtime = s.vtime

namespace SolverKept

theorem refl (s : State) : SolverKept s s := ⟨fun _ _ => rfl, rfl, rfl, rfl, rfl⟩

theorem trans {s t u : State} (h : SolverKept s t) (k : SolverKept t u) : SolverKept s u :=
  ⟨fun a ha => (k.rd a ha).trans (h.rd a ha), k.batches.trans h.batches, k.solveStart.trans h.solveStart, k.nextSolve.trans h.nextSolve,
    k.vtime.trans h.vtime⟩

theorem batch {s t : State} (h : SolverKept s t) (id : Nat) : t.batch id = s.batch id := by
  unfold State.batch
  rw [h.batches]

/-- An update of the state's other fields. -/
theorem update {s t u : State} (h : SolverKept s t)
    (hsame : u.words = t.words ∧ u.batches = t.batches ∧ u.solveStart = t.solveStart ∧ u.nextSolve = t.nextSolve ∧ u.vtime = t.vtime := by
      exact ⟨rfl, rfl, rfl, rfl, rfl⟩) : SolverKept s u := by
  obtain ⟨hwords, hbatches, hstart, hnext, hvtime⟩ := hsame
  exact h.trans ⟨fun a _ => congrArg (Store.get (resetWord a) · a) hwords, hbatches, hstart, hnext, hvtime⟩

theorem wr {s t : State} (h : SolverKept s t) {a : Nat} (v : Word) (ha : ¬ SolverWord a) : SolverKept s (t.wr a v) :=
  h.trans ⟨fun _ hb => t.rd_wr_ne v (by rintro rfl; exact ha hb), rfl, rfl, rfl, rfl⟩

theorem wrf {s t : State} (h : SolverKept s t) {a : Nat} (lo n v : Nat) (ha : ¬ SolverWord a) : SolverKept s (t.wrf a lo n v) := h.wr _ ha

theorem wrBit {s t : State} (h : SolverKept s t) {a : Nat} (i : Nat) (b : Bool) (ha : ¬ SolverWord a) : SolverKept s (t.wrBit a i b) :=
  h.wr _ ha

theorem count {s t : State} (h : SolverKept s t) {a : Nat} (lo n k : Nat) (ha : ¬ SolverWord a) : SolverKept s (t.count a lo n k) :=
  h.wr _ ha

theorem when {s t : State} (h : SolverKept s t) (b : Bool) {f : State → State} (hf : SolverKept s (f t)) : SolverKept s (t.when b f) := by
  cases b with
  | false => exact h
  | true => exact hf

theorem foldl {α : Type} {s t : State} (xs : List α) (f : State → α → State) (hf : ∀ u x, SolverKept s u → SolverKept s (f u x))
    (h : SolverKept s t) : SolverKept s (xs.foldl f t) :=
  List.foldlRecOn xs f h fun u hu x _ => hf u x hu

/-- What changes words and delivers events changes nothing of the solver. -/
theorem events {as : List Nat} {s t u : State} (h : SolverKept s t) (hevents : WordsAndEvents as t u) (has : ∀ a ∈ as, ¬ SolverWord a) :
    SolverKept s u := by
  have hrest := hevents.2
  refine h.trans ⟨fun a ha => hevents.rd (fun hmem => has a hmem ha) ?_, by rw [hrest], by rw [hrest], by rw [hrest], by rw [hrest]⟩
  exact Bool.eq_false_iff.2 fun hring => not_solverWord_ring hring ha

theorem err {s t : State} (h : SolverKept s t) {a : Nat} (i : Nat) (ha : ¬ SolverWord a) : SolverKept s (t.err a i) :=
  h.events (State.err_events (.refl [a] t) i (List.mem_singleton.2 rfl)) fun _ hb => List.mem_singleton.1 hb ▸ ha

/-! ## Completions -/

theorem ringPut {s t : State} (h : SolverKept s t) (r : Nat) (ws : List Word) : SolverKept s (t.ringPut r ws) :=
  ((h.update (u := t.send _)).wrf _ _ _ (not_solverWord_of_window (by unfold Reg.RING_W4; omega))).events
    (State.ringSignal_events (.refl [] _) r) (fun _ ha => absurd ha List.not_mem_nil)

theorem cqLost {s t : State} (h : SolverKept s t) (r : Nat) : SolverKept s (t.cqLost r) := by
  have hstat : ¬ SolverWord Reg.HIF_ERRSTAT := not_solverWord_of_low (by decide) (by decide)
  unfold State.cqLost
  split
  · exact h.err _ hstat
  · next g hg =>
    have hlt := State.ringOwner_lt hg
    exact (h.count _ _ _ (not_solverWord_of_low (by unfold Reg.HIF_FNCFG_W3; omega)
      (by unfold Reg.HIF_FNCFG_W3 Reg.WHL_SOLVEMAX; omega))).err _ hstat

theorem postCq {s t : State} (h : SolverKept s t) (r : Nat) (ws : List Word) : SolverKept s (t.postCq r ws) := by
  have hfreed : SolverKept s (t.unreserve r 1) := h.update
  unfold State.postCq
  split
  · split
    · exact h
    · split
      · exact hfreed.ringPut r ws
      · split
        · exact h.update
        · exact hfreed.cqLost r
  · exact h

theorem postComplete {s t : State} (h : SolverKept s t) (o : Origin) (ws : List Word) : SolverKept s (t.postComplete o ws) := by
  cases o with
  | ring cq f tag => exact h.postCq cq ws
  | session n tag => exact h.update
  | dropped => exact h

theorem completeBatch {s t : State} (h : SolverKept s t) (qs : List Nat) (tc : Option Nat) : SolverKept s (t.completeBatch qs tc) := by
  refine foldl _ _ (fun u q hu => ?_) h
  unfold State.completeCue
  split
  · exact hu.postComplete _ _
  · exact hu

/-! ## The Tollkeeper and the status words -/

theorem setToll {s t : State} (h : SolverKept s t) (p : Nat) (x : TollPart) : SolverKept s (t.setToll p x) := by
  have hstore : SolverKept s { t with toll := Store.set TollPart.reset t.toll p x } := h.update
  exact (hstore.wr _ (by unfold SolverWord Reg.TOL_SHLEVEL Reg.WHL_SOLVEMAX; omega)).wr _
    (by unfold SolverWord Reg.TOL_POLEVEL Reg.WHL_SOLVEMAX; omega)

theorem tagHead {s t : State} (h : SolverKept s t) (p : Nat) (cause : HeadCause) : SolverKept s (t.tagHead p cause) := by
  unfold State.tagHead
  dsimp only
  split
  · split
    · exact h.setToll _ _
    · exact h
  · split
    · exact h
    · split <;> exact h.setToll _ _

theorem tollStat {s t : State} (h : SolverKept s t) (p : Nat) : SolverKept s (t.tollStat p) :=
  (h.wr _ (not_solverWord_of_low (a := Reg.TOL_STAT) (by decide) (by decide))).wr _
    (by unfold SolverWord Reg.TOL_QSTAT Reg.WHL_SOLVEMAX; omega)

theorem lampStat {s t : State} (h : SolverKept s t) : SolverKept s t.lampStat :=
  (((h.wr _ (not_solverWord_of_low (a := Reg.LMP_STAT) (by decide) (by decide))).wr _
    (not_solverWord_of_low (a := Reg.LMP_ARMTIME) (by decide) (by decide))).wr _
    (not_solverWord_of_low (a := Reg.WHL_STAT) (by decide) (by decide))).wrBit _ _
    (not_solverWord_of_low (a := Reg.TOL_STAT) (by decide) (by decide))

/-! ## Cells in CAL that a held solution names (R214) -/

theorem noteStale {s t : State} (h : SolverKept s t) (tile ch : Nat) : SolverKept s (t.noteStale tile ch) :=
  h.wr _ (not_solverWord_of_window (by unfold Reg.TAL_LIVE_W7; omega))

theorem settleClamps {s t : State} (h : SolverKept s t) (c : Nat) : SolverKept s (t.settleClamps c) := by
  unfold State.settleClamps
  dsimp only
  split
  · exact h
  · have hcounted : ∀ x : CooRec, SolverKept s (t.setCoo c x) := fun x => h.update
    split
    · exact hcounted _
    · exact ((hcounted _).count _ _ _ (not_solverWord_drv c 3)).err _ (not_solverWord_of_window (by unfold Reg.DRV_ERRSTAT; omega))

theorem setMode {s t : State} (h : SolverKept s t) (c m : Nat) : SolverKept s (t.setMode c m) := by
  have hcells : ∀ cells, SolverKept s { t with cells := cells } := fun _ => h.update
  exact (hcells _).wr _ (not_solverWord_of_window (by unfold Reg.COO_CELL_W7; omega))

theorem toMode {s t : State} (h : SolverKept s t) (c m : Nat) : SolverKept s (t.toMode c m) := by
  unfold State.toMode
  dsimp only
  split
  · exact ((h.settleClamps c).wr _ (not_solverWord_drv c 2)).setMode c m
  · exact (h.settleClamps c).setMode c m

theorem leaveCal {s t : State} (h : SolverKept s t) (x : CalRec) : SolverKept s (t.leaveCal x) := by
  unfold State.leaveCal
  extract_lets c settled left
  have hleft : SolverKept s left := ((h.noteStale _ _).settleClamps c).update
  split
  · exact ((hleft.wrf _ _ _ (not_solverWord_coo c 13)).toMode _ _).wr _ (not_solverWord_of_window (by unfold Reg.COO_STAT; omega))
  · exact hleft

theorem calSource {s t : State} (h : SolverKept s t) (en band : Bool) : SolverKept s (t.calSource en band) := by
  unfold State.calSource
  split
  · exact h
  · exact h.update

theorem afterCal {s t : State} (h : SolverKept s t) : SolverKept s t.afterCal := by
  have hasy : ¬ SolverWord Reg.ASY_STAT := not_solverWord_of_low (by decide) (by decide)
  have hstatus : ∀ {u}, SolverKept s u → SolverKept s u.asyStat.tnkStat := fun hu =>
    (((hu.wrBit _ _ hasy).wrf _ _ _ hasy).wrBit _ _ hasy).wrBit _ _
      (not_solverWord_of_low (a := Reg.TNK_STAT) (by decide) (by decide))
  unfold State.afterCal
  split
  · exact hstatus (h.calSource _ _).update
  · exact hstatus h

theorem asyFinish {s t : State} (h : SolverKept s t) (k status result : Nat) : SolverKept s (t.asyFinish k status result) := by
  unfold State.asyFinish State.asyResult
  split
  · exact (h.update (u := { t with asyLast := 0 })).wr _ (not_solverWord_of_low (a := Reg.ASY_CMDRES) (by decide) (by decide))
  · exact h

theorem yieldCell {s t : State} (h : SolverKept s t) (x : CalRec) : SolverKept s (t.yieldCell x) := by
  unfold State.yieldCell
  extract_lets band left
  have hleft : SolverKept s left := h.leaveCal x
  split
  · exact (hleft.update).afterCal
  · have hnoted : SolverKept s ((left.qualResult x.cell band 7).count Reg.ASY_YIELDCNT 0 32 1) :=
      (hleft.wrf _ _ _ (by unfold SolverWord Reg.ASY_QUAL_W0 Reg.WHL_SOLVEMAX; omega)).count _ _ _
        (not_solverWord_of_low (by decide) (by decide))
    exact (hnoted.when _ (hnoted.asyFinish _ _ _)).afterCal

theorem yieldCells {s t : State} (h : SolverKept s t) (cells : List Nat) : SolverKept s (t.yieldCells cells) :=
  foldl _ _ (fun _ x hu => hu.yieldCell x) h

end SolverKept

/-! ## Batches in the state -/

theorem State.batch_id {s : State} {id : Nat} {b : Batch} (h : s.batch id = some b) : b.id = id := by
  unfold State.batch at h
  exact eq_of_beq (List.find?_some h :)

/-- The batch put in the place of a held one is the one found there. -/
theorem State.batch_setBatch_same {s : State} {b : Batch} (c : Batch) (h : s.batch c.id = some b) : (s.setBatch c).batch c.id = some c := by
  unfold State.batch State.setBatch at *
  dsimp only
  generalize s.batches = bs at h
  induction bs with
  | nil => exact absurd h (by simp)
  | cons x xs ih =>
    by_cases hx : x.id = c.id
    · simp [hx]
    · rw [List.find?_cons_of_neg (by simpa using hx)] at h
      rw [List.map_cons, if_neg hx, List.find?_cons_of_neg (by simpa using hx)]
      exact ih h

/-! ## Updates of words alone -/

namespace OnlyWords

variable {as : List Nat} {s t : State} (h : OnlyWords as s t)
include h

theorem batches : t.batches = s.batches := by rw [h.2]

theorem commits : t.commits = s.commits := by rw [h.2]

theorem solveStart : t.solveStart = s.solveStart := by rw [h.2]

theorem nextSolve : t.nextSolve = s.nextSolve := by rw [h.2]

theorem batch (id : Nat) : t.batch id = s.batch id := by rw [h.2]; rfl

end OnlyWords

/-- CLAMP counts in a word of the Wheelwright's partition table (R95). -/
theorem State.noteClamp_onlyWords (s : State) (b : Batch) (clamps : Bool) : OnlyWords [Reg.WHL_PARTSTAT b.part] s (s.noteClamp b clamps) := by
  unfold State.noteClamp State.when
  split
  · exact (OnlyWords.refl _ s).count _ _ _ (List.mem_singleton.2 rfl)
  · exact .refl _ s

/-- Whatever the partition, the count leaves the fatal state: its field ends below bit 31. -/
theorem State.fatalOn_noteClamp (s : State) (b : Batch) (clamps : Bool) : (s.noteClamp b clamps).fatalOn = s.fatalOn := by
  unfold State.noteClamp State.when
  split
  · by_cases hword : Reg.FLT_STAT = Reg.WHL_PARTSTAT b.part
    · unfold State.fatalOn
      rw [hword]
      exact (congrArg (wbit · 31) (s.rd_wr_same _ _)).trans (wbit_put_ne _ _ (by omega))
    · exact s.fatalOn_wr_ne _ hword
  · rfl

theorem State.setCueStates_onlyWords (s : State) (qs : List Nat) (st : Nat) : OnlyWords (qs.map Reg.CUE_W3) s (s.setCueStates qs st) :=
  OnlyWords.each qs _ (fun _ _ hq h => h.wrf _ _ _ (List.mem_map_of_mem hq)) (.refl _ s)

/-! ## The end of a solve (R95, R106) -/

/-- The search over, its time and its clamp counted. -/
def State.searchEnded (s : State) (r : SolveRun) (b : Batch) (ns : Nat) : State :=
  ({ s with solveStart := none }.wr Reg.WHL_SOLVEMAX (wd (max ns (s.rd Reg.WHL_SOLVEMAX).toNat))).noteClamp b ((s.asSolved r).clamps b)

section
variable (s : State) (r : SolveRun) (b : Batch) (ns : Nat)

theorem State.searchEnded_onlyWords : OnlyWords [Reg.WHL_PARTSTAT b.part]
    ({ s with solveStart := none }.wr Reg.WHL_SOLVEMAX (wd (max ns (s.rd Reg.WHL_SOLVEMAX).toNat))) (s.searchEnded r b ns) :=
  State.noteClamp_onlyWords _ b _

theorem State.rd_searchEnded_solvemax :
    (s.searchEnded r b ns).rd Reg.WHL_SOLVEMAX = wd (max ns (s.rd Reg.WHL_SOLVEMAX).toNat) := by
  refine ((s.searchEnded_onlyWords r b ns).rd fun hmem => ?_).trans (State.rd_wr_same _ _ _)
  have hword := List.mem_singleton.1 hmem
  unfold Reg.WHL_SOLVEMAX Reg.WHL_PARTSTAT at hword
  omega

theorem State.fatalOn_searchEnded : (s.searchEnded r b ns).fatalOn = s.fatalOn :=
  (State.fatalOn_noteClamp _ b _).trans (State.fatalOn_wr_ne { s with solveStart := none } _ (by decide))

end

/-- A solution held in `y`: next in solve order, the cues SOLVED, cells in CAL yielded to it. -/
def State.holdSolution (s : State) (y : Batch) (cells : List Nat) : State :=
  (((({ s with nextSolve := s.nextSolve + 1 } : State).setBatch y).setCueStates y.cues 2).yieldCells cells).lampStat

section
variable {s : State} {b : Batch} {found : List Candidate} {r : SolveRun} (ns : Nat) (hheld : s.batch b.id = some b) (hrun : s.solveStart = some r)
  (hbatch : r.batch = b.id) (hlive : s.fatalOn = false)
include hheld hrun hbatch hlive

/-- A search that finds a solution ends with the batch holding it. -/
theorem exec_solveComplete_ok {x : Solution} (hsolved : (s.asSolved r).solve s b found = .ok x) :
    ∃ stale clamped cells, exec (.solveComplete found ns) s = .next ((s.searchEnded r b ns).holdSolution
      { b with phase := .solved, sol := some x, stale := stale, clamped := clamped } cells) := by
  refine ⟨s.reaches r.changed r.near r.ckts b x || s.metDuring r b x, b.clamped || (s.asSolved r).clamps b,
    x.cells ++ x.pathCells ++ x.alts.flatMap (State.altCells { s.searchEnded r b ns with nextSolve := (s.searchEnded r b ns).nextSolve + 1 }
      (State.afterCues { s.searchEnded r b ns with nextSolve := (s.searchEnded r b ns).nextSolve + 1 } b.cues (s.searchEnded r b ns).ckts)), ?_⟩
  show execSolveComplete found ns s = _
  unfold execSolveComplete
  simp only [hrun, hlive, hbatch, hheld, hsolved, Bool.false_eq_true, if_false]
  rfl

/-- A search that finds none fails the batch (R102). -/
theorem exec_solveComplete_error {st : Nat} {cue : Option Nat} (hnone : (s.asSolved r).solve s b found = .error (st, cue)) :
    exec (.solveComplete found ns) s = .next ((s.searchEnded r b ns).failBatch b st cue) := by
  show execSolveComplete found ns s = _
  unfold execSolveComplete
  simp only [hrun, hlive, hbatch, hheld, hnone, Bool.false_eq_true, if_false]
  rfl

end

section
variable {s : State} {b y : Batch} (hheld : s.batch y.id = some b) (cells : List Nat)

/-- What holding a solution leaves, from the batch put in place and the cues marked. -/
theorem State.holdSolution_kept : ∃ u, OnlyWords (y.cues.map Reg.CUE_W3) ({ s with nextSolve := s.nextSolve + 1 }.setBatch y) u ∧
    SolverKept u (s.holdSolution y cells) :=
  ⟨_, State.setCueStates_onlyWords _ y.cues 2, ((SolverKept.refl _).yieldCells cells).lampStat⟩

theorem State.holdSolution_solver : (s.holdSolution y cells).solveStart = s.solveStart ∧ (s.holdSolution y cells).nextSolve = s.nextSolve + 1 ∧
    (s.holdSolution y cells).rd Reg.WHL_SOLVEMAX = s.rd Reg.WHL_SOLVEMAX := by
  obtain ⟨u, hcues, hkept⟩ := s.holdSolution_kept (y := y) cells
  refine ⟨hkept.solveStart.trans hcues.solveStart, hkept.nextSolve.trans hcues.nextSolve,
    (hkept.rd _ (.inl rfl)).trans (hcues.rd fun hmem => ?_)⟩
  obtain ⟨q, -, hword⟩ := List.mem_map.1 hmem
  unfold Reg.CUE_W3 Reg.WHL_SOLVEMAX at hword
  omega

include hheld in
theorem State.holdSolution_batch : (s.holdSolution y cells).batch y.id = some y := by
  obtain ⟨u, hcues, hkept⟩ := s.holdSolution_kept (y := y) cells
  exact (hkept.batch y.id).trans ((hcues.batch y.id).trans (State.batch_setBatch_same y hheld))

end

theorem solveComplete_holds {s : State} {b : Batch} {found : List Candidate} {r : SolveRun} {x : Solution} (ns : Nat)
    (hheld : s.batch b.id = some b) (hrun : s.solveStart = some r) (hbatch : r.batch = b.id) (hlive : s.fatalOn = false)
    (hsolved : (s.asSolved r).solve s b found = .ok x) :
    ∃ t, exec (.solveComplete found ns) s = .next t ∧ t.solveStart = none ∧
      t.rd Reg.WHL_SOLVEMAX = wd (max ns (s.rd Reg.WHL_SOLVEMAX).toNat) ∧ t.nextSolve = s.nextSolve + 1 ∧
      ∃ y, t.batch b.id = some y ∧ y.phase = .solved ∧ y.sol = some x ∧ y.cues = b.cues ∧ y.part = b.part := by
  obtain ⟨stale, clamped, cells, hexec⟩ := exec_solveComplete_ok ns hheld hrun hbatch hlive hsolved
  have hended := s.searchEnded_onlyWords r b ns
  obtain ⟨hstart, hnext, hmax⟩ := (s.searchEnded r b ns).holdSolution_solver
    (y := { b with phase := .solved, sol := some x, stale := stale, clamped := clamped }) cells
  refine ⟨_, hexec, hstart.trans hended.solveStart, hmax.trans (s.rd_searchEnded_solvemax r b ns), hnext.trans (congrArg (· + 1) hended.nextSolve),
    { b with phase := .solved, sol := some x, stale := stale, clamped := clamped }, ?_, rfl, rfl, rfl, rfl⟩
  exact State.holdSolution_batch (y := { b with phase := .solved, sol := some x, stale := stale, clamped := clamped })
    ((hended.batch b.id).trans hheld) cells

/-! ## A batch that ends alone (R67, R102) -/

theorem State.each_kept {α β : Type} (s : State) {xs : List α} {f : State → α → State} (field : State → β)
    (hf : ∀ u x, field (f u x) = field u) : field (s.each xs f) = field s :=
  List.foldlRecOn (motive := fun u => field u = field s) xs f rfl fun u hu x _ => (hf u x).trans hu

section
variable (s : State) (qs : List Nat) (st status : Nat) (cause : Option Nat)

theorem State.finishCues_batches : (s.finishCues qs st status cause).batches = s.batches :=
  ((SolverKept.refl _).completeBatch qs none).batches.trans (s.each_kept State.batches fun _ _ => rfl)

theorem State.finishCues_solveStart : (s.finishCues qs st status cause).solveStart = s.solveStart :=
  ((SolverKept.refl _).completeBatch qs none).solveStart.trans (s.each_kept State.solveStart fun _ _ => rfl)

theorem State.rd_finishCues {q : Nat} (hq : q ∈ qs) (hlt : q < 65536) :
    (s.finishCues qs st status cause).rd (Reg.CUE_W3 q) = cueW3 st status (cause == some q) false := by
  refine (((SolverKept.refl _).completeBatch qs none).rd _ (solverWord_cueW3 hlt)).trans ?_
  have hothers : ∀ p, Reg.CUE_W3 q ≠ Reg.CUE_W6 p ∧ Reg.CUE_W3 q ≠ Reg.CUE_W7 p := fun p => by
    unfold Reg.CUE_W3 Reg.CUE_W6 Reg.CUE_W7
    omega
  refine State.each_establishes (I := fun _ => True) (P := fun u => u.rd (Reg.CUE_W3 q) = cueW3 st status (cause == some q) false) hq trivial
    (fun _ _ _ _ => trivial) (fun u _ => ?_) fun u p _ hpq hu => ?_
  · exact (State.rd_wr_ne _ _ (hothers q).2).trans ((State.rd_wr_ne _ _ (hothers q).1).trans (State.rd_wr_same _ _ _))
  · have hne : Reg.CUE_W3 q ≠ Reg.CUE_W3 p := by
      unfold Reg.CUE_W3
      omega
    exact (State.rd_wr_ne _ _ (hothers p).2).trans ((State.rd_wr_ne _ _ (hothers p).1).trans ((State.rd_wr_ne _ _ hne).trans hu))

end

theorem fld_cueW3_state {st status : Nat} (cause applied : Bool) (h : st < 8) : fld (cueW3 st status cause applied) 0 3 = st := by
  simp [cueW3, pack, fld_put_same, Nat.mod_eq_of_lt h]

theorem fld_cueW3_status {st status : Nat} (cause applied : Bool) (h : status < 16) : fld (cueW3 st status cause applied) 8 4 = status := by
  simp [cueW3, pack, fld_put_same, fld_put_ne, Nat.mod_eq_of_lt h]

theorem State.endBatches_nil (n : Nat) (s : State) : State.endBatches n s [] = s := by
  cases n with
  | zero => rfl
  | succ n => rfl

/-- The batch that `e` ends is over: no batch and no solve is left, and its cues have their final state and status. -/
structure EndedAlone (b : Batch) (e : Ending) (t : State) : Prop where
  batches : t.batches = []
  solveStart : t.solveStart = none
  cues : ∀ q ∈ b.cues, q < 65536 → t.rd (Reg.CUE_W3 q) = cueW3 e.state e.status (e.cause == some q) false

theorem EndedAlone.kept {b : Batch} {e : Ending} {t u : State} (h : EndedAlone b e t) (hkept : SolverKept t u) : EndedAlone b e u :=
  ⟨hkept.batches.trans h.batches, hkept.solveStart.trans h.solveStart,
    fun q hq hlt => (hkept.rd _ (solverWord_cueW3 hlt)).trans (h.cues q hq hlt)⟩

/-- With no batch left, R107 finds none to mark. -/
theorem EndedAlone.noted {b : Batch} {e : Ending} {t : State} (h : EndedAlone b e t) (hit : Batch → Solution → Bool) (ids : List Nat) :
    EndedAlone b e ((t.markStale hit).noteNamed ids) :=
  ⟨congrArg (List.map _) h.batches, congrArg (Option.map _) h.solveStart, h.cues⟩

section
variable {s : State} {b : Batch} (e : Ending) (hbatches : s.batches = [b]) (hcommits : s.commits = []) (hstart : s.solveStart = none)
include hbatches hcommits hstart

theorem State.endOne_alone : EndedAlone b e (s.endOne b e) := by
  have hleave : s.leaveCommit b.id = s := by
    unfold State.leaveCommit
    rw [hcommits]
    rfl
  unfold State.endOne State.dequeue
  rw [hleave]
  extract_lets final
  have hnone : final.solveStart = none := (s.finishCues_solveStart _ _ _ _).trans hstart
  have hqueue : ∀ u, EndedAlone b e u → EndedAlone b e ((u.tagHead b.part .successor).tollStat b.part) := fun u hu =>
    hu.kept (((SolverKept.refl u).tagHead b.part .successor).tollStat b.part)
  refine hqueue _ ⟨?_, ?_, fun q hq hlt => s.rd_finishCues _ _ _ _ hq hlt⟩
  · have hone : final.batches = [b] := (s.finishCues_batches _ _ _ _).trans hbatches
    unfold State.dropBatch
    dsimp only
    rw [hone]
    simp
  · unfold State.dropBatch
    dsimp only
    rw [hnone]

theorem State.finish_alone (hlive : s.fatalOn = false) (hid : e.id = b.id) : EndedAlone b e (s.finish [e]) := by
  have hfound : s.batch e.id = some b := by
    unfold State.batch
    rw [hbatches, hid]
    exact List.find?_cons_of_pos (beq_self_eq_true _)
  have hended := s.endOne_alone e hbatches hcommits hstart
  unfold State.finish
  rw [hlive, hbatches, if_neg Bool.false_ne_true]
  refine EndedAlone.kept ?_ (SolverKept.refl _).lampStat
  show EndedAlone b e (State.endBatches 3 s [e])
  rw [State.endBatches]
  simp only [hfound, hended.batches, List.filter_nil, List.filterMap_nil, List.append_nil, State.endBatches_nil]
  exact hended.noted _ _

end

theorem solveComplete_fails {s : State} {b : Batch} {found : List Candidate} {r : SolveRun} {st : Nat} {cue : Option Nat} (ns : Nat)
    (hheld : s.batch b.id = some b) (hrun : s.solveStart = some r) (hbatch : r.batch = b.id) (hlive : s.fatalOn = false)
    (hbatches : s.batches = [b]) (hcommits : s.commits = []) (hcues : ∀ q, q ∈ b.cues → q < 65536) (hst : st < 16)
    (hnone : (s.asSolved r).solve s b found = .error (st, cue)) :
    ∃ t, exec (.solveComplete found ns) s = .next t ∧ t.solveStart = none ∧ t.batches = [] ∧
      ∀ q, q ∈ b.cues → t.cueState q = 7 ∧ t.rdf (Reg.CUE_W3 q) 8 4 = st := by
  have hended := s.searchEnded_onlyWords r b ns
  have hfailed := State.finish_alone ⟨b.id, 7, st, some (cue.getD (b.cues.headD 0))⟩ (hended.batches.trans hbatches)
    (hended.commits.trans hcommits) hended.solveStart ((s.fatalOn_searchEnded r b ns).trans hlive) rfl
  refine ⟨_, exec_solveComplete_error ns hheld hrun hbatch hlive hnone, hfailed.solveStart, hfailed.batches, fun q hq => ?_⟩
  have hword := hfailed.cues q hq (hcues q hq)
  exact ⟨(congrArg (fld · 0 3) hword).trans (fld_cueW3_state _ _ (by decide : 7 < 8)),
    (congrArg (fld · 8 4) hword).trans (fld_cueW3_status _ _ hst)⟩

/-! ## The end of a re-solve (R108) -/

/-- A re-solve by its deadline that binds the batch to none that commits later: the solution replaced in the batch's place, in its commit,
and cells in CAL yielded to it. -/
theorem exec_resolveComplete_ok {s : State} {b : Batch} {found : List Candidate} {x : Solution} (hheld : s.batch b.id = some b)
    (hsolved : s.solve s b found = .ok x) (hlive : s.fatalOn = false) (hstale : b.stale = true) (hdeadline : s.pastRs b = false)
    (hbound : s.boundLate b x = false) :
    ∃ (clamped : Bool) (cells : List Nat) (u : State), exec (.resolveComplete b.id found) s = .next (u.yieldCells cells).lampStat ∧
      u.batches = (s.setBatch { b with sol := some x, stale := false, clamped := clamped }).batches := by
  let y : Batch := { b with sol := some x, stale := false, clamped := b.clamped || s.clamps b }
  let replaced : State :=
    ({ s.noteClamp b (s.clamps b) with nextSolve := s.nextSolve + 1 }.setBatch y).count Reg.WHL_RESOLVECNT 0 32 1
  have hreplaced : replaced.batches = (s.setBatch y).batches := congrArg (List.map _) (s.noteClamp_onlyWords b (s.clamps b)).batches
  refine ⟨b.clamped || s.clamps b, ?_⟩
  show ∃ (cells : List Nat) (u : State), execResolveComplete b.id found s = _ ∧ _
  unfold execResolveComplete
  simp only [hheld, hsolved, hlive, hstale, hdeadline, hbound, Bool.not_false, Bool.and_self, Bool.false_eq_true, if_true, if_false]
  refine ⟨_, _, rfl, ?_⟩
  split
  · exact hreplaced
  · exact hreplaced

theorem resolveComplete_replaces {s : State} {b : Batch} {found : List Candidate} {x : Solution} (hheld : s.batch b.id = some b)
    (hsolved : s.solve s b found = .ok x) (hlive : s.fatalOn = false) (hstale : b.stale = true) (hdeadline : s.pastRs b = false)
    (hbound : s.boundLate b x = false) :
    ∃ t, exec (.resolveComplete b.id found) s = .next t ∧
      ∃ y, t.batch b.id = some y ∧ y.sol = some x ∧ y.stale = false ∧ y.phase = b.phase ∧ y.cues = b.cues := by
  obtain ⟨clamped, cells, u, hexec, hbatches⟩ := exec_resolveComplete_ok hheld hsolved hlive hstale hdeadline hbound
  refine ⟨_, hexec, { b with sol := some x, stale := false, clamped := clamped }, ?_, rfl, rfl, rfl, rfl⟩
  refine ((((SolverKept.refl u).yieldCells cells).lampStat).batch b.id).trans ?_
  unfold State.batch
  rw [hbatches]
  exact State.batch_setBatch_same { b with sol := some x, stale := false, clamped := clamped } hheld

/-! ## A release (R264) -/

theorem State.lampStat_onlyWords (s : State) : OnlyWords [Reg.LMP_STAT, Reg.LMP_ARMTIME, Reg.WHL_STAT, Reg.TOL_STAT] s s.lampStat :=
  ((((OnlyWords.refl _ s).wr _ (by simp)).wr _ (by simp)).wr _ (by simp)).wrBit _ _ (by simp)

theorem State.tollPart_lampStat (s : State) (p : Nat) : s.lampStat.tollPart p = s.tollPart p := rfl

/-- Blocked, or with a search running, nothing is released. -/
theorem State.batchRelease_blocked {s : State} (h : s.releaseBlocked = true ∨ s.batches.any (·.phase == .solving) = true) :
    s.batchRelease = s :=
  if_pos (by rw [Bool.or_eq_true]; exact h)

@[simp] theorem State.tollPart_setToll_same (s : State) (p : Nat) (x : TollPart) : (s.setToll p x).tollPart p = x := Store.get_set_same _ _ _ _

/-- A partition's next head leaves the finish tag of its last release. -/
theorem State.tagHead_fLast (s : State) (p : Nat) (cause : HeadCause) : ((s.tagHead p cause).tollPart p).fLast = (s.tollPart p).fLast := by
  unfold State.tagHead
  dsimp only
  split
  · split
    · rw [State.tollPart_setToll_same]
    · rfl
  · split
    · rfl
    · split <;> rw [State.tollPart_setToll_same]

/-- Batch `b`, head `h` of partition `p`, taken out of its queue to be solved: the tag of the release noted, its work taken from the shaper,
virtual time brought up to the tag, and the fabric kept as it stands for the search. -/
def State.startSolve (s : State) (p : Nat) (h : HeadTag) (b : Batch) : State :=
  let x := s.tollPart p
  let noted := s.setToll p
    { x with fLast := h.finish, head := none, shaper := if s.shapes p then x.shaper - 1000 * b.cost else x.shaper }
  { noted with
    vtime := tagMax noted.vtime h.finish
    solveStart := some ⟨b.id, noted.words, noted.cells, noted.commits, noted.batches, noted.alts, [], [], [], [], false⟩ }.setBatch
    { b with phase := .solving }

/-- The status words after a release, and the partition's next head tagged. -/
def State.releaseNoted (s : State) (p : Nat) (h : HeadTag) : State :=
  (((s.when h.waited (·.count (Reg.TOL_PCNT p) 0 16 1)).wrBit Reg.WHL_STAT 0 true).tagHead p .successor).tollStat p

section
variable {s : State} {p : Nat} {h : HeadTag} {b : Batch}

theorem State.batchRelease_best (hblocked : s.releaseBlocked = false) (hidle : s.batches.any (·.phase == .solving) = false)
    (hbest : s.bestHead = some (p, h)) (hheld : s.batch h.batch = some b) : s.batchRelease = (s.startSolve p h b).releaseNoted p h := by
  unfold State.batchRelease
  simp only [hblocked, hidle, hbest, hheld, Bool.or_self, Bool.false_eq_true, if_false]
  rfl

theorem State.startSolve_solver (hheld : s.batch b.id = some b) : ((s.startSolve p h b).solveStart.map (·.batch)) = some b.id ∧
    (s.startSolve p h b).vtime = tagMax s.vtime h.finish ∧ ((s.startSolve p h b).tollPart p).fLast = h.finish ∧
    (s.startSolve p h b).batch b.id = some { b with phase := .solving } :=
  ⟨rfl, rfl, congrArg TollPart.fLast (s.tollPart_setToll_same p _), State.batch_setBatch_same { b with phase := .solving } hheld⟩

theorem State.releaseNoted_kept : SolverKept s (s.releaseNoted p h) := by
  have hcounted : SolverKept s (s.count (Reg.TOL_PCNT p) 0 16 1) :=
    (SolverKept.refl s).count _ _ _ (by unfold SolverWord Reg.TOL_PCNT Reg.WHL_SOLVEMAX; omega)
  exact (((((SolverKept.refl s).when h.waited hcounted).wrBit 0 true (not_solverWord_of_low (a := Reg.WHL_STAT) (by decide) (by decide))).tagHead
    p .successor).tollStat p)

theorem State.releaseNoted_fLast : ((s.releaseNoted p h).tollPart p).fLast = (s.tollPart p).fLast := by
  refine (State.tagHead_fLast _ p .successor).trans ?_
  unfold State.when
  split <;> rfl

end

theorem batchRelease_takesBest {s : State} {p : Nat} {h : HeadTag} {b : Batch} (hblocked : s.releaseBlocked = false)
    (hidle : s.batches.any (·.phase == .solving) = false) (hbest : s.bestHead = some (p, h)) (hheld : s.batch h.batch = some b) :
    ∃ t, exec .batchRelease s = .next t ∧ (t.solveStart.map (·.batch)) = some b.id ∧ t.vtime = tagMax s.vtime h.finish ∧
      (t.tollPart p).fLast = h.finish ∧ ∃ y, t.batch b.id = some y ∧ y.phase = .solving ∧ y.cues = b.cues := by
  obtain ⟨hstart, hvtime, hlast, hsolving⟩ := State.startSolve_solver (p := p) (h := h) ((State.batch_id hheld).symm ▸ hheld)
  have hkept := (State.releaseNoted_kept (s := s.startSolve p h b) (p := p) (h := h)).lampStat
  refine ⟨s.batchRelease.lampStat, rfl, ?_⟩
  rw [State.batchRelease_best hblocked hidle hbest hheld]
  exact ⟨(congrArg (Option.map (·.batch)) hkept.solveStart).trans hstart, hkept.vtime.trans hvtime,
    (congrArg TollPart.fLast (State.tollPart_lampStat _ p)).trans (State.releaseNoted_fLast.trans hlast), _,
    (hkept.batch b.id).trans hsolving, rfl, rfl⟩

/-- Settles O20: a solve that finds a solution and one that does not, a re-solve, and a release. -/
theorem releasesAndSolutions : Obligations.ReleasesAndSolutions := by
  unfold Obligations.ReleasesAndSolutions
  refine ⟨fun s b found r ns hheld hrun hbatch hlive => ⟨fun x => solveComplete_holds ns hheld hrun hbatch hlive,
    fun st cue => solveComplete_fails ns hheld hrun hbatch hlive⟩, fun s b found x => resolveComplete_replaces,
    fun s => ⟨fun hblocked => ⟨_, rfl, ?_⟩, fun p h b => batchRelease_takesBest⟩⟩
  rw [State.batchRelease_blocked hblocked]
  exact s.lampStat_onlyWords

end Sys2Proof.Machine
end

section
/-! PROOF. O24 fails: its statement ranges over states in which a commit involves a tile above 63, and the word of such a tile at the matrix
may be LMP_ARMTIME, which the arm point brings up to date before it looks for missing residency. Of commits whose tiles are tiles of the
module, what it asserts holds (`armPoint_opensJournal`). -/

namespace Sys2Proof.Machine

/-! ## Commits in the state -/

theorem State.commitAt_tc {s : State} {tc : Nat} {c : Commit} (h : s.commitAt tc = some c) : c.tc = tc := by
  unfold State.commitAt at h
  exact eq_of_beq (List.find?_some h :)

/-- The commit put in the place of one at its instant is the one found there. -/
theorem State.commitAt_setCommit {s : State} {x : Commit} (c : Commit) (h : s.commitAt c.tc = some x) : (s.setCommit c).commitAt c.tc = some c := by
  unfold State.commitAt State.setCommit at *
  dsimp only
  generalize s.commits = cs at h
  induction cs with
  | nil => exact absurd h (by simp)
  | cons y ys ih =>
    by_cases hy : y.tc = c.tc
    · simp [hy]
    · rw [List.find?_cons_of_neg (by simpa using hy)] at h
      rw [List.map_cons, if_neg hy, List.find?_cons_of_neg (by simpa using hy)]
      exact ih h

theorem State.phase_timeCodes {s : State} {k x : Commit} (cells : List Nat) (h : s.commitAt k.tc = some x) :
    ((s.timeCodes k cells).commitAt k.tc).map (·.phase) = some k.phase := by
  unfold State.timeCodes
  extract_lets before after timed
  exact congrArg (Option.map (·.phase))
    (State.commitAt_setCommit { k with codes := (k.codes.filter fun p => !timed.any (·.1 == p.1)) ++ timed } h)

/-- The timed entries fixed at the arm point change no word, and no phase of the commit. -/
theorem State.fixCodes_kept (s : State) (tc : Nat) : (∀ a, (s.fixCodes tc).rd a = s.rd a) ∧
    ((s.fixCodes tc).commitAt tc).map (·.phase) = (s.commitAt tc).map (·.phase) := by
  unfold State.fixCodes
  split
  · next k hk =>
    obtain rfl := State.commitAt_tc hk
    split
    · exact ⟨fun _ => rfl, (State.phase_timeCodes _ hk).trans (congrArg (Option.map _) hk.symm)⟩
    · exact ⟨fun _ => rfl, rfl⟩
  · exact ⟨fun _ => rfl, rfl⟩

/-! ## The checks of Table 5-1 (R117) -/

theorem any_congr_of_mem {α : Type} {xs : List α} {f g : α → Bool} (h : ∀ x ∈ xs, f x = g x) : xs.any f = xs.any g := by
  rw [Bool.eq_iff_iff, List.any_eq_true, List.any_eq_true]
  exact exists_congr fun x => and_congr_right fun hx => by rw [h x hx]

theorem State.arm_passes {s : State} {c : Commit} (hkind : c.kind ≠ .protection) (hcool : s.thermalBlock = false) (htb : s.tbBad = false)
    (hresident : s.notResident c = false) (hstep : s.stepReq = none) (hfree : s.holdsBack c = false) : s.arm c = s.armGo c := by
  have hblocks : s.stepBlocks c.tc = false := by
    unfold State.stepBlocks
    rw [hstep]
    rfl
  unfold State.arm
  cases hk : c.kind with
  | protection => exact absurd hk hkind
  | host => simp [hcool, htb, hresident, hblocks, hfree]
  | calibration => simp [hcool, htb, hresident, hblocks, hfree]

theorem State.thermalBlock_lampStat (s : State) : s.lampStat.thermalBlock = s.thermalBlock := by
  unfold State.thermalBlock State.lampStat
  extract_lets n first tb thr holding
  refine (State.bit_wr_ne _ _ 1 (by decide)).trans ((State.bit_wr_ne _ _ 1 (by decide)).trans ((State.bit_wr_ne _ _ 1 (by decide)).trans ?_))
  refine (congrArg (wbit · 1) (s.rd_wr_same _ _)).trans ?_
  exact (wbit_put_ne _ _ (.inr (Nat.le_refl 1))).trans (wbit_put_same _ _ (by decide : 1 < 32))

/-- The words that an arm point brings up to date before the checks. -/
def armStatus : List Nat := [Reg.LMP_STAT, Reg.LMP_ARMTIME, Reg.WHL_STAT, Reg.TOL_STAT, Reg.WHL_STALECNT]

/-- The state that the checks see where no re-solve is late. -/
def State.atArm (s : State) (tc : Nat) : State := ((s.raise (tc - 200)).finish []).count Reg.WHL_STALECNT 0 32 0

theorem State.commitAt_atArm (s : State) {tc : Nat} {c : Commit} (hat : s.commitAt tc = some c) : (s.atArm tc).commitAt tc = some c := by
  rw [← hat]
  unfold State.atArm State.finish
  split <;> rfl

theorem exec_armPoint_sound {s : State} {c : Commit} (hat : s.commitAt c.tc = some c) (hphase : c.phase = .armed)
    (hfresh : (s.commitBatches c).filter (·.stale) = []) (hlive : s.fatalOn = false) :
    exec (.armPoint c.tc) s = .next (((s.atArm c.tc).arm c).fixCodes c.tc) := by
  have hlate : ((s.raise (c.tc - 200)).commitBatches c).filter (·.stale) = [] := hfresh
  show execArmPoint c.tc s = _
  unfold execArmPoint
  simp only [hat, hphase, hlive, hlate, Bool.not_false, Bool.and_true, beq_self_eq_true, Bool.or_true, if_true]
  change (match (s.atArm c.tc).commitAt c.tc with
    | some c2 => _
    | none => _) = _
  rw [s.commitAt_atArm hat]
  rfl

theorem State.atArm_onlyWords (s : State) (tc : Nat) : OnlyWords armStatus (s.raise (tc - 200)) (s.atArm tc) := by
  refine OnlyWords.count ?_ _ _ _ (by simp [armStatus])
  unfold State.finish
  split
  · exact .refl _ _
  · exact (State.lampStat_onlyWords _).mono (by simp [armStatus])

section
variable {s : State} {tc : Nat}

theorem State.rd_atArm {a : Nat} (ha : a ∉ armStatus) : (s.atArm tc).rd a = s.rd a := (s.atArm_onlyWords tc).rd ha

theorem islstat_not_armStatus {i : Nat} (hi : i < 64) : Reg.MTX_ISLSTAT i ∉ armStatus := by
  simp only [armStatus, List.mem_cons, List.not_mem_nil, or_false, Reg.MTX_ISLSTAT, Reg.LMP_STAT, Reg.LMP_ARMTIME, Reg.WHL_STAT, Reg.TOL_STAT,
    Reg.WHL_STALECNT]
  omega

theorem State.tileLive_atArm {t : Nat} (ht : t < 64) : (s.atArm tc).tileLive t = s.tileLive t := by
  unfold State.tileLive State.bit
  rw [State.rd_atArm (islstat_not_armStatus ht)]

theorem State.tbBad_atArm : (s.atArm tc).tbBad = s.tbBad := by
  unfold State.tbBad State.bit
  refine any_congr_of_mem fun t ht => ?_
  have htile : t < 64 := List.mem_range.1 ht
  rw [State.tileLive_atArm htile, State.rd_atArm (islstat_not_armStatus htile)]

theorem State.notResident_atArm {c : Commit} (htiles : ∀ t ∈ c.involved, t < 64) : (s.atArm tc).notResident c = s.notResident c :=
  any_congr_of_mem fun t ht => by rw [State.tileLive_atArm (htiles t ht)]

theorem State.holdsBack_atArm (c : Commit) : (s.atArm tc).holdsBack c = s.holdsBack c := by
  have hpstate : (s.atArm tc).pstate = s.pstate := congrArg (fld · 0 3) (State.rd_atArm (by decide))
  have hhold : (s.atArm tc).bit Reg.LMP_CTRL 8 = s.bit Reg.LMP_CTRL 8 := congrArg (wbit · 8) (State.rd_atArm (by decide))
  have hentering : (s.atArm tc).enteringP2 = s.enteringP2 := by
    unfold State.enteringP2
    rw [(s.atArm_onlyWords tc).2]
    rfl
  unfold State.holdsBack State.commitsHeld
  rw [hpstate, hhold, hentering]

theorem State.thermalBlock_atArm : (s.atArm tc).thermalBlock = s.thermalBlock := by
  refine (State.bit_wr_ne _ _ 1 (by decide)).trans ?_
  unfold State.finish
  split
  · rfl
  · exact State.thermalBlock_lampStat _

end

/-! ## GO (R112, R117, R118) -/

theorem journalEntry_at {ws : List Word} {p : Word × Nat} (h : p ∈ ws.zip (List.range 8)) : ws[p.2]? = some p.1 := by
  obtain ⟨k, hk, rfl⟩ := List.mem_iff_getElem.1 h
  simp

theorem State.rd_putJournal_ne (s : State) (i : Nat) (ws : List Word) {a : Nat} (h : a < 0x61000) : (s.putJournal i ws).rd a = s.rd a :=
  State.rd_each s (xs := ws.zip (List.range 8)) (f := fun s p => s.wr (Reg.LMP_JOURNAL i p.2) p.1) fun _ _ _ =>
    State.rd_wr_ne _ _ (by unfold Reg.LMP_JOURNAL; omega)

theorem State.rd_putJournal (s : State) (i : Nat) {ws : List Word} {j : Nat} {w : Word} (h : (w, j) ∈ ws.zip (List.range 8)) :
    (s.putJournal i ws).rd (Reg.LMP_JOURNAL i j) = w := by
  refine State.each_establishes (I := fun _ => True) (P := fun u => u.rd (Reg.LMP_JOURNAL i j) = w) h trivial (fun _ _ _ _ => trivial)
    (fun u _ => State.rd_wr_same _ _ _) fun u p hp hne hu => (State.rd_wr_ne _ _ fun hword => hne ?_).trans hu
  have hj : p.2 = j := by
    unfold Reg.LMP_JOURNAL at hword
    omega
  have hw : some p.1 = some w := by rw [← journalEntry_at hp, ← journalEntry_at h, hj]
  exact Prod.ext (Option.some.inj hw) hj

theorem nextGen_ne_zero (g : Word) : nextGen g ≠ 0#32 := by
  unfold nextGen
  split
  · decide
  · bv_omega

/-- The words of the journal entry that GO opens for a commit. -/
def State.openedEntry (s : State) (c : Commit) : List Word :=
  [nextGen (s.rd Reg.LMP_GEN), wd (nsecOf c.tc), wd (secOf c.tc), s.journalW3 c, tileMask c.involved 0, tileMask c.involved 1, 0#32, 0#32]

section
variable (s : State) (c : Commit)

/-- The generation number and the journal head advanced, and the entry written, before the status words are brought up to date. -/
def State.journalOpened : State :=
  (((s.markWindows c).wr Reg.LMP_GEN (nextGen (s.rd Reg.LMP_GEN))).wrf Reg.LMP_JHEAD 0 8 (s.rdf Reg.LMP_JHEAD 0 8 + 1)).putJournal
    (s.rdf Reg.LMP_JHEAD 0 8) (s.openedEntry c)

/-- The commit past its arm point. -/
def State.goCommit : Commit :=
  { c with phase := .go, gen := (nextGen (s.rd Reg.LMP_GEN)).toNat, journal := s.rdf Reg.LMP_JHEAD 0 8, going := c.involved.filter s.tileLive,
           bands := c.involved.map fun t => (t, s.tileBand t + 8 * s.rdf (Reg.DRV_PECTL t) 0 1) }

theorem State.armGo_eq : s.armGo c = ((s.journalOpened c).setCommit (s.goCommit c)).lampStat := rfl

theorem State.rd_armGo {a : Nat} (ha : 0x60000 ≤ a) (hstat : a ≠ Reg.LMP_STAT) (harm : a ≠ Reg.LMP_ARMTIME) :
    (s.armGo c).rd a = (s.journalOpened c).rd a := by
  rw [State.armGo_eq, State.rd_lampStat _ hstat harm (by unfold Reg.WHL_STAT; omega) (by unfold Reg.TOL_STAT; omega)]
  exact State.rd_setCommits _ _ a

theorem State.rd_armGo_gen : (s.armGo c).rd Reg.LMP_GEN = nextGen (s.rd Reg.LMP_GEN) :=
  (s.rd_armGo c (by decide) (by decide) (by decide)).trans ((State.rd_putJournal_ne _ _ _ (by decide)).trans
    ((State.rd_wr_ne _ _ (by decide)).trans (State.rd_wr_same _ _ _)))

theorem State.rdf_armGo_jhead : (s.armGo c).rdf Reg.LMP_JHEAD 0 8 = (s.rdf Reg.LMP_JHEAD 0 8 + 1) % 256 :=
  (congrArg (fld · 0 8) ((s.rd_armGo c (by decide) (by decide) (by decide)).trans (State.rd_putJournal_ne _ _ _ (by decide)))).trans
    (State.rdf_wrf_same _ _ _ (by decide))

theorem State.rd_armGo_journal {j : Nat} {w : Word} (h : (w, j) ∈ (s.openedEntry c).zip (List.range 8)) :
    (s.armGo c).rd (Reg.LMP_JOURNAL (s.rdf Reg.LMP_JHEAD 0 8) j) = w :=
  (s.rd_armGo c (by unfold Reg.LMP_JOURNAL; omega) (by unfold Reg.LMP_JOURNAL Reg.LMP_STAT; omega)
    (by unfold Reg.LMP_JOURNAL Reg.LMP_ARMTIME; omega)).trans (State.rd_putJournal _ _ h)

theorem State.commitAt_lampStat (tc : Nat) : s.lampStat.commitAt tc = s.commitAt tc := rfl

theorem State.commits_putJournal (i : Nat) (ws : List Word) : (s.putJournal i ws).commits = s.commits :=
  List.foldlRecOn (motive := fun u : State => u.commits = s.commits) _ _ rfl fun _ hu _ _ => hu

theorem State.phase_armGo {x : Commit} (h : s.commitAt c.tc = some x) : ((s.armGo c).commitAt c.tc).map (·.phase) = some .go := by
  have hat : (s.journalOpened c).commitAt (s.goCommit c).tc = some x :=
    (congrArg (List.find? _) (State.commits_putJournal _ _ _)).trans h
  rw [State.armGo_eq, State.commitAt_lampStat]
  exact congrArg (Option.map (·.phase)) (State.commitAt_setCommit (s.goCommit c) hat)

end

theorem State.openedEntry_atArm {s : State} {tc : Nat} {c : Commit} (hkind : c.kind ≠ .protection) :
    (s.atArm tc).openedEntry c = s.openedEntry c := by
  have hgen : (s.atArm tc).rd Reg.LMP_GEN = s.rd Reg.LMP_GEN := State.rd_atArm (by decide)
  have hbatches : (s.atArm tc).commitBatches c = s.commitBatches c := by
    unfold State.commitBatches
    rw [(s.atArm_onlyWords tc).batches]
    rfl
  have hword : (s.atArm tc).journalW3 c = s.journalW3 c := by
    unfold State.journalW3
    cases hk : c.kind with
    | protection => exact absurd hk hkind
    | host => rw [hbatches]
    | calibration => rfl
  unfold State.openedEntry
  rw [hgen, hword]

/-- What O24 asserts, and every word of the entry, of a commit whose involved tiles are tiles of the module; the state of
`witness_ArmOpensJournal_1` is one that meets the hypotheses. -/
theorem armPoint_opensJournal {s : State} {c : Commit} (hat : s.commitAt c.tc = some c) (hkind : c.kind ≠ .protection)
    (hphase : c.phase = .armed) (hfresh : (s.commitBatches c).filter (·.stale) = []) (hlive : s.fatalOn = false)
    (hcool : s.thermalBlock = false) (htb : s.tbBad = false) (hresident : s.notResident c = false) (hstep : s.stepReq = none)
    (hfree : s.holdsBack c = false) (htiles : ∀ t ∈ c.involved, t < 64) :
    ∃ t, exec (.armPoint c.tc) s = .next t ∧ t.rd Reg.LMP_GEN = nextGen (s.rd Reg.LMP_GEN) ∧ t.rd Reg.LMP_GEN ≠ 0#32 ∧
      t.rdf Reg.LMP_JHEAD 0 8 = (s.rdf Reg.LMP_JHEAD 0 8 + 1) % 256 ∧
      (∀ j w, (w, j) ∈ (s.openedEntry c).zip (List.range 8) → t.rd (Reg.LMP_JOURNAL (s.rdf Reg.LMP_JHEAD 0 8) j) = w) ∧
      (t.commitAt c.tc).map (·.phase) = some .go := by
  have harm := (s.atArm c.tc).arm_passes hkind (State.thermalBlock_atArm.trans hcool) (State.tbBad_atArm.trans htb)
    ((State.notResident_atArm htiles).trans hresident) ((congrArg State.stepReq (s.atArm_onlyWords c.tc).2).trans hstep)
    ((State.holdsBack_atArm c).trans hfree)
  obtain ⟨hwords, hphases⟩ := State.fixCodes_kept ((s.atArm c.tc).armGo c) c.tc
  have hgen : (s.atArm c.tc).rd Reg.LMP_GEN = s.rd Reg.LMP_GEN := State.rd_atArm (by decide)
  have hhead : (s.atArm c.tc).rdf Reg.LMP_JHEAD 0 8 = s.rdf Reg.LMP_JHEAD 0 8 := congrArg (fld · 0 8) (State.rd_atArm (by decide))
  have hnumber := (hwords _).trans (((s.atArm c.tc).rd_armGo_gen c).trans (congrArg nextGen hgen))
  refine ⟨_, (exec_armPoint_sound hat hphase hfresh hlive).trans (congrArg _ (congrArg (State.fixCodes · c.tc) harm)), hnumber, ?_, ?_,
    fun j w hw => ?_, ?_⟩
  · rw [hnumber]
    exact nextGen_ne_zero _
  · rw [← hhead]
    exact (congrArg (fld · 0 8) (hwords _)).trans ((s.atArm c.tc).rdf_armGo_jhead c)
  · rw [← hhead]
    exact (hwords _).trans ((s.atArm c.tc).rd_armGo_journal c (by rwa [State.openedEntry_atArm hkind]))
  · exact hphases.trans ((s.atArm c.tc).phase_armGo c (s.commitAt_atArm hat))

/-! ## A commit that involves no tile of the module -/

/-- A tile number whose MTX_ISLSTAT has the address of LMP_ARMTIME. -/
def strayTile : Nat := 0xFFC8

/-- A calibration commit at 1 ns, armed, that involves that tile alone. Once LMP_ARMTIME shows the 1 ns, the tile reads as powered and not
fenced, and no set-point is resident in it. -/
def strayCommit : Commit := { Commit.new 1 .calibration with phase := .armed, involved := [strayTile] }

/-- The reset state with that commit. LMP_ARMTIME is still 0. -/
def strayArmed : State := { State.reset with commits := [strayCommit] }

theorem armPoint_strayArmed_drops {t : State} (h : exec (.armPoint 1) strayArmed = .next t) : t.commitAt 1 = none := by
  obtain rfl := Host.Outcome.next.inj h
  decide

/-- Refutes O24: a calibration commit involves tile 0xFFC8, whose MTX_ISLSTAT has the address of LMP_ARMTIME. The word is 0 at first, so
no residency is missing; brought up to date at the arm point, it makes the tile live, and the commit is dropped by order 3 of Table 5-1.
No run reaches such a state, but the statement is of every state. -/
theorem not_armOpensJournal : ¬ Obligations.ArmOpensJournal := by
  unfold Obligations.ArmOpensJournal
  intro h
  obtain ⟨t, hexec, -, -, -, -, -, -, hgo⟩ := h strayArmed strayCommit (by decide) (by decide) (by decide) (by decide) (by decide)
    (by decide) (by decide) (by decide) (by decide) (by decide)
  rw [show strayCommit.tc = 1 from rfl, armPoint_strayArmed_drops hexec] at hgo
  exact absurd hgo (by decide)

end Sys2Proof.Machine
end

section
/-! PROOF. O26: guard-window schedules. -/
namespace Sys2Proof.Machine

/-! ## The fields of a schedule (R126) -/

section
variable (s : State) (n : Fin 8)

theorem exec_windowScheduleWrite_refused {w : Fin 5} (v : Word) (hfield : w.val < 4)
    (h : s.bit (Reg.LMP_WINCTL n) 0 = true ∨ s.scheduleFieldOk n w v = false) : exec (.windowScheduleWrite n w v) s = .next s := by
  show execWindowScheduleWrite n w v s = _
  unfold execWindowScheduleWrite
  rw [if_neg (by omega), if_pos (by simpa using h)]

theorem exec_windowScheduleWrite_period {v : Word} (hdisabled : s.bit (Reg.LMP_WINCTL n) 0 = false) (hperiod : 2000 ≤ v.toNat) :
    exec (.windowScheduleWrite n 2 v) s = .next (s.wr (Reg.LMP_WINPER n) v) := by
  show execWindowScheduleWrite n 2 v s = _
  have hok : s.scheduleFieldOk n (2 : Fin 5).val v = true := decide_eq_true hperiod
  have hword : Reg.LMP_WINSEC n + 4 * (2 : Fin 5).val = Reg.LMP_WINPER n := Nat.add_right_comm _ _ _
  unfold execWindowScheduleWrite
  rw [if_neg (by decide), hdisabled, hok, hword]
  rfl

theorem State.winctl_ne_winstat : Reg.LMP_WINCTL n ≠ Reg.LMP_WINSTAT n := by
  unfold Reg.LMP_WINCTL Reg.LMP_WINSTAT
  omega

theorem windowScheduleWrite_enable (v : Word) : ∃ t, exec (.windowScheduleWrite n 4 v) s = .next t ∧
    t.bit (Reg.LMP_WINCTL n) 0 = wbit v 0 ∧ (wbit v 0 = false → t.bit (Reg.LMP_WINSTAT n) 0 = false) ∧
    OnlyWords [Reg.LMP_WINCTL n, Reg.LMP_WINSTAT n] s t := by
  refine ⟨_, rfl, (State.bit_wr_ne _ _ 0 (State.winctl_ne_winstat n)).trans (s.bit_wrMask_in _ v (by decide) (by decide)), fun hoff => ?_,
    ((OnlyWords.refl _ s).wrMask _ _ (by simp)).wrf _ _ _ (by simp)⟩
  rw [hoff, Bool.false_and]
  exact State.bit_wrBit_same _ _ false (by decide)

/-! ## Opening and closing (R123, R127) -/

theorem Schedule.opens_le_succ (w : Schedule) (k : Nat) : w.opens k ≤ w.opens (k + 1) :=
  Nat.add_le_add_left (Nat.mul_le_mul_right _ (Nat.le_succ k)) _

theorem State.le_raise_now (s : State) {t u : Nat} (h : t ≤ u) : t * nsUnit ≤ (s.raise u).now :=
  (Nat.mul_le_mul_right _ h).trans (Nat.le_max_right _ _)

/-- Where no cell's factors wait, or outside P0, an opening only shows OPEN. -/
theorem State.openWindow_idle {s : State} (n o : Nat) (h : s.pstate ≠ 0 ∨ s.stagedCells = []) :
    s.openWindow n o = s.wrBit (Reg.LMP_WINSTAT n) 0 true := by
  unfold State.openWindow
  extract_lets w opened ls cs
  refine if_pos ?_
  rw [Bool.or_eq_true]
  rcases h with h | h
  · exact .inr (bne_iff_ne.2 h)
  · refine .inl ?_
    unfold cs
    rw [h]
    rfl

theorem guardWindowOpen_opens (henabled : s.bit (Reg.LMP_WINCTL n) 0 = true) (hclosed : s.bit (Reg.LMP_WINSTAT n) 0 = false)
    (hidle : s.pstate ≠ 0 ∨ s.stagedCells = []) : ∃ t, exec (.guardWindowOpen n) s = .next t ∧ t.bit (Reg.LMP_WINSTAT n) 0 = true ∧
      (s.schedule n).opens ((s.schedule n).index s.ns) * nsUnit ≤ t.now ∧ OnlyWords [Reg.LMP_WINSTAT n] { s with now := t.now } t := by
  let w := s.schedule n
  let i := w.index s.ns
  let o := if s.ns < w.opens i + w.len then w.opens i else w.opens (i + 1)
  have hexec : exec (.guardWindowOpen n) s = .next ((s.raise o).wrBit (Reg.LMP_WINSTAT n) 0 true) := by
    rw [← State.openWindow_idle (s := s.raise o) n o hidle]
    exact if_neg (by simp [henabled, hclosed])
  have hinstant : w.opens i ≤ o := by
    unfold o
    split
    · exact Nat.le_refl _
    · exact w.opens_le_succ i
  exact ⟨_, hexec, State.bit_wrBit_same _ _ true (by decide), s.le_raise_now hinstant,
    (OnlyWords.refl _ (s.raise o)).wrBit _ _ (List.mem_singleton.2 rfl)⟩

/-- WINSTAT with its two bits written: OPEN is clear, and the other tells whether the window was used. -/
theorem State.winstat_closed (s : State) (a : Nat) (used : Bool) :
    (s.wrf a 0 2 (2 * used.toNat)).bit a 0 = false ∧ (s.wrf a 0 2 (2 * used.toNat)).bit a 1 = used := by
  unfold State.wrf State.bit wbit
  rw [State.rd_wr_same, put_getLsbD, put_getLsbD, if_pos (by decide), if_pos (by decide)]
  cases used <;> decide

theorem guardWindowClose_closes (henabled : s.bit (Reg.LMP_WINCTL n) 0 = true) (hopen : s.bit (Reg.LMP_WINSTAT n) 0 = true) :
    let o := (s.schedule n).opens ((s.schedule n).index s.ns)
    ∃ t, exec (.guardWindowClose n) s = .next t ∧ t.bit (Reg.LMP_WINSTAT n) 0 = false ∧
      (t.bit (Reg.LMP_WINSTAT n) 1 = true ↔ (n.val, o) ∈ s.winUsed) ∧ (n.val, o) ∉ t.winUsed ∧ (o + (s.schedule n).len) * nsUnit ≤ t.now ∧
      OnlyWords [Reg.LMP_WINSTAT n] { s with winUsed := t.winUsed, now := t.now } t := by
  intro o
  obtain ⟨hopenbit, husedbit⟩ := (s.raise (o + (s.schedule n).len)).winstat_closed (Reg.LMP_WINSTAT n) (s.winUsed.contains (n.val, o))
  refine ⟨_, if_pos (by simp [henabled, hopen]), hopenbit, ?_, fun hmem => ?_, s.le_raise_now (Nat.le_refl _),
    (OnlyWords.refl _ { s.raise (o + (s.schedule n).len) with winUsed := _ }).wrf _ _ _ (List.mem_singleton.2 rfl)⟩
  · exact (Bool.eq_iff_iff.1 husedbit).trans List.contains_iff_mem
  · have hkept : ((n.val != n.val) || decide (o < o)) = true := (List.mem_filter.1 hmem).2
    simp at hkept

theorem guardWindowOpen_idle (h : s.bit (Reg.LMP_WINCTL n) 0 = false ∨ s.bit (Reg.LMP_WINSTAT n) 0 = true) :
    exec (.guardWindowOpen n) s = .next s :=
  if_pos (by simpa using h)

theorem guardWindowClose_idle (h : s.bit (Reg.LMP_WINCTL n) 0 = false ∨ s.bit (Reg.LMP_WINSTAT n) 0 = false) :
    exec (.guardWindowClose n) s = .next s :=
  if_neg (by rcases h with h | h <;> simp [h])

end

/-- Settles O26: a schedule's fields, its enable bit, and the opening and closing of its windows. -/
theorem guardWindows : Obligations.GuardWindows := by
  unfold Obligations.GuardWindows
  exact fun s n => ⟨fun w v => exec_windowScheduleWrite_refused s n v,
    fun v hdisabled hperiod => ⟨_, exec_windowScheduleWrite_period s n hdisabled hperiod, s.rd_wr_same _ v,
      (OnlyWords.refl _ s).wr v (List.mem_singleton.2 rfl)⟩,
    windowScheduleWrite_enable s n, guardWindowOpen_opens s n, guardWindowClose_closes s n, guardWindowOpen_idle s n, guardWindowClose_idle s n⟩

end Sys2Proof.Machine
end

section
/-! PROOF. O27: the throttle bucket, HOLD, and aborts. -/
namespace Sys2Proof.Machine

/-! ## The throttle bucket (R135) -/

/-- A signed 16-bit field holds the integer whose code was put into it. -/
theorem sfld_put_code (w : Word) {x : Int} (hlow : -2 ^ 15 ≤ x) (hhigh : x < 2 ^ 15) : sfld (put w 0 16 (code 16 x)) 0 16 = x := by
  unfold sfld signed code
  rw [fld_put_same _ _ (by decide), Nat.mod_eq_of_lt (BitVec.isLt _), BitVec.ofNat_toNat, BitVec.setWidth_eq]
  exact BitVec.toInt_ofInt_eq_self (by decide) hlow hhigh

theorem State.bucket_low (s : State) : -2 ^ 15 ≤ s.bucket := BitVec.le_toInt _

theorem throttleBucketFill_fills (s : State) : ∃ t, exec .throttleBucketFill s = .next t ∧
    t.bucket = (if s.rdf Reg.LMP_THRSTAT 16 16 = 0xFFFF then 4864 else min 4864 (s.bucket + s.rdf Reg.LMP_THRSTAT 16 16)) ∧
    t.rdf Reg.LMP_THRSTAT 16 16 = s.rdf Reg.LMP_THRSTAT 16 16 ∧
    OnlyWords [Reg.LMP_THRSTAT, Reg.LMP_STAT, Reg.LMP_ARMTIME, Reg.WHL_STAT, Reg.TOL_STAT] s t := by
  let rate := s.rdf Reg.LMP_THRSTAT 16 16
  let level : Int := if rate = 0xFFFF then 4864 else min 4864 (s.bucket + rate)
  let filled := s.wrf Reg.LMP_THRSTAT 0 16 (code 16 level)
  have hkept : filled.lampStat.rd Reg.LMP_THRSTAT = filled.rd Reg.LMP_THRSTAT :=
    filled.rd_lampStat (by decide) (by decide) (by decide) (by decide)
  have hbounds : -2 ^ 15 ≤ level ∧ level < 2 ^ 15 := by
    have := s.bucket_low
    unfold level
    split <;> omega
  refine ⟨filled.lampStat, rfl, ?_, ?_, ((OnlyWords.refl _ s).wrf _ _ _ (by simp)).trans (filled.lampStat_onlyWords.mono (by simp))⟩
  · refine (congrArg (sfld · 0 16) (hkept.trans (s.rd_wr_same _ _))).trans ?_
    exact sfld_put_code _ hbounds.1 hbounds.2
  · exact (congrArg (fld · 16 16) hkept).trans (s.rdf_wrf_ne _ _ (.inr (by decide)))

/-! ## HOLD (Table 5-6) -/

theorem lmpHoldWrite_takes (s : State) (v : Word) : ∃ t, exec (.lmpHoldWrite v) s = .next t ∧ t.bit Reg.LMP_CTRL 8 = wbit v 8 ∧
    OnlyWords [Reg.LMP_CTRL, Reg.LMP_STAT, Reg.LMP_ARMTIME, Reg.WHL_STAT, Reg.TOL_STAT] s t := by
  refine ⟨_, rfl, ?_, ((OnlyWords.refl _ s).wrMask _ _ (by simp)).trans ((State.lampStat_onlyWords _).mono (by simp))⟩
  exact (congrArg (wbit · 8) (State.rd_lampStat _ (by decide) (by decide) (by decide) (by decide))).trans
    (s.bit_wrMask_in _ v (by decide) (by decide))

/-! ## A batch that ends alone, whatever is being solved (R67, R129) -/

/-- The batch that `e` ends is over: no batch is left, and its cues have their final state and status. -/
structure BatchOver (b : Batch) (e : Ending) (t : State) : Prop where
  batches : t.batches = []
  cues : ∀ q ∈ b.cues, q < 65536 → t.rd (Reg.CUE_W3 q) = cueW3 e.state e.status (e.cause == some q) false

theorem BatchOver.kept {b : Batch} {e : Ending} {t u : State} (h : BatchOver b e t) (hkept : SolverKept t u) : BatchOver b e u :=
  ⟨hkept.batches.trans h.batches, fun q hq hlt => (hkept.rd _ (solverWord_cueW3 hlt)).trans (h.cues q hq hlt)⟩

section
variable {s : State} {b : Batch} (e : Ending) (hbatches : s.batches = [b]) (hcommits : s.commits = [])
include hbatches hcommits

theorem State.endOne_over : BatchOver b e (s.endOne b e) := by
  have hleave : s.leaveCommit b.id = s := by
    unfold State.leaveCommit
    rw [hcommits]
    rfl
  unfold State.endOne State.dequeue
  rw [hleave]
  extract_lets final
  have hone : final.batches = [b] := (s.finishCues_batches _ _ _ _).trans hbatches
  have hqueue : ∀ u, BatchOver b e u → BatchOver b e ((u.tagHead b.part .successor).tollStat b.part) := fun u hu =>
    hu.kept (((SolverKept.refl u).tagHead b.part .successor).tollStat b.part)
  refine hqueue _ ⟨?_, fun q hq hlt => s.rd_finishCues _ _ _ _ hq hlt⟩
  unfold State.dropBatch
  dsimp only
  rw [hone]
  simp

theorem State.finish_over (hlive : s.fatalOn = false) (hid : e.id = b.id) : BatchOver b e (s.finish [e]) := by
  have hfound : s.batch e.id = some b := by
    unfold State.batch
    rw [hbatches, hid]
    exact List.find?_cons_of_pos (beq_self_eq_true _)
  have hended := s.endOne_over e hbatches hcommits
  unfold State.finish
  rw [hlive, hbatches, if_neg Bool.false_ne_true]
  refine BatchOver.kept ?_ (SolverKept.refl _).lampStat
  show BatchOver b e (State.endBatches 3 s [e])
  rw [State.endBatches]
  simp only [hfound, hended.batches, List.filter_nil, List.filterMap_nil, List.append_nil, State.endBatches_nil]
  exact ⟨congrArg (List.map _) hended.batches, hended.cues⟩

end

/-! ## Aborts (R128, R129, Table 5-4) -/

section
variable {s : State} {q : Nat}

theorem State.abortCue_unheld (hnone : s.batchOfCue q = none) :
    s.abortCue q none = (s, .done 2 (s.cueState q) (s.rdf (Reg.CUE_W3 q) 8 4)) := by
  simp [State.abortCue, hnone]

theorem State.abortCue_pastArm {b : Batch} (hheld : s.batchOfCue q = some b) (harmed : s.pastArm b = true) :
    s.abortCue q none = (s, .later) := by
  simp [State.abortCue, hheld, harmed]

theorem State.abortCue_ends {b : Batch} (hheld : s.batchOfCue q = some b) (hunarmed : s.pastArm b = false) (hlive : s.fatalOn = false) :
    s.abortCue q none = (s.finish [⟨b.id, 6, 0, none⟩], .done 0 6 0) := by
  simp [State.abortCue, hheld, hunarmed, hlive]

theorem State.abortFor_done {part : Option Nat} {u : State} {status fstate fstatus : Nat} (sink : AbortSink)
    (h : s.abortCue q part = (u, .done status fstate fstatus)) :
    s.abortFor q part sink = u.abortResult sink q (abortWord status fstate fstatus) := by
  unfold State.abortFor
  rw [h]

theorem State.abortFor_later {part : Option Nat} {u : State} (sink : AbortSink) (h : s.abortCue q part = (u, .later)) :
    s.abortFor q part sink = { u with aborts := u.aborts ++ [⟨q, sink⟩] } := by
  unfold State.abortFor
  rw [h]

end

/-- LMP_ABORTRES cleared for a new abort, and the abort it spoke of forgotten. -/
def State.abortCleared (s : State) : State :=
  { s with aborts := s.aborts.filter fun a => a.sink != AbortSink.register }.wr Reg.LMP_ABORTRES 0#32

theorem exec_lmpAbort (s : State) (rq : Requester) (v : Word) :
    exec (.lmpAbort rq v) s = .next (s.abortCleared.abortFor (fld v 0 16) none .register) := rfl

theorem State.rd_abortCleared (s : State) : s.abortCleared.rd Reg.LMP_ABORTRES = 0#32 := State.rd_wr_same _ _ _

theorem State.abortCleared_onlyWords (s : State) (as : List PendingAbort) :
    OnlyWords [Reg.LMP_ABORTRES] { s with aborts := as } { s.abortCleared with aborts := as } :=
  (OnlyWords.refl _ { s with aborts := as }).wr 0#32 (List.mem_singleton.2 rfl)

theorem State.rd_abortResult_register (s : State) (q : Nat) (w : Word) :
    (s.abortResult .register q w).rd Reg.LMP_ABORTRES = putBit w 31 true := State.rd_wr_same _ _ _

theorem cueW3_ne_abortres (q : Nat) : Reg.CUE_W3 q ≠ Reg.LMP_ABORTRES := by
  unfold Reg.CUE_W3 Reg.LMP_ABORTRES
  omega

theorem abortWord_fields (status fstate fstatus : Nat) : wbit (putBit (abortWord status fstate fstatus) 31 true) 31 = true ∧
    fld (putBit (abortWord status fstate fstatus) 31 true) 0 4 = status % 2 ^ 4 ∧
    fld (putBit (abortWord status fstate fstatus) 31 true) 12 3 = fstate % 2 ^ 3 := by
  refine ⟨wbit_put_same _ true (by decide), ?_, ?_⟩
  · simp [putBit, abortWord, pack, fld_put_same, fld_put_ne]
  · simp [putBit, abortWord, pack, fld_put_same, fld_put_ne]

section
variable {s : State} (rq : Requester) {v : Word}

/-- No batch holds the cue: TOO_LATE, with the cue's state. -/
theorem lmpAbort_unheld (hnone : s.batchOfCue (fld v 0 16) = none) : ∃ t, exec (.lmpAbort rq v) s = .next t ∧
    t.bit Reg.LMP_ABORTRES 31 = true ∧ t.rdf Reg.LMP_ABORTRES 0 4 = 2 ∧ t.rdf Reg.LMP_ABORTRES 12 3 = s.cueState (fld v 0 16) ∧
    OnlyWords [Reg.LMP_ABORTRES] { s with aborts := t.aborts } t := by
  have hcue : s.abortCleared.cueState (fld v 0 16) = s.cueState (fld v 0 16) := State.rdf_wr_ne _ _ _ _ (cueW3_ne_abortres _)
  obtain ⟨hvalid, hstatus, hstate⟩ := abortWord_fields 2 (s.abortCleared.cueState (fld v 0 16))
    (s.abortCleared.rdf (Reg.CUE_W3 (fld v 0 16)) 8 4)
  refine ⟨_, exec_lmpAbort s rq v, ?_⟩
  rw [State.abortFor_done .register (State.abortCue_unheld (s := s.abortCleared) hnone)]
  have hword := s.abortCleared.rd_abortResult_register (fld v 0 16)
    (abortWord 2 (s.abortCleared.cueState (fld v 0 16)) (s.abortCleared.rdf (Reg.CUE_W3 (fld v 0 16)) 8 4))
  refine ⟨(congrArg (wbit · 31) hword).trans hvalid, (congrArg (fld · 0 4) hword).trans hstatus, (congrArg (fld · 12 3) hword).trans ?_,
    (s.abortCleared_onlyWords _).wr _ (List.mem_singleton.2 rfl)⟩
  rw [hstate, hcue]
  exact Nat.mod_eq_of_lt (fld_lt _ 0 3)

/-- The cue's batch is not past its arm point: it ends, ABORTED. -/
theorem lmpAbort_ends {b : Batch} (hbatches : s.batches = [b]) (hcommits : s.commits = []) (hlive : s.fatalOn = false)
    (hcues : ∀ q, q ∈ b.cues → q < 65536) (hmem : fld v 0 16 ∈ b.cues) : ∃ t, exec (.lmpAbort rq v) s = .next t ∧ t.batches = [] ∧
      (∀ q, q ∈ b.cues → t.cueState q = 6 ∧ t.rdf (Reg.CUE_W3 q) 8 4 = 0) ∧ t.rd Reg.LMP_ABORTRES = pack [(31, 1, 1), (12, 3, 6)] := by
  have hheld : s.abortCleared.batchOfCue (fld v 0 16) = some b := by
    show s.batches.find? _ = _
    rw [hbatches]
    exact List.find?_cons_of_pos (List.contains_iff_mem.2 hmem)
  have hunarmed : s.abortCleared.pastArm b = false := by
    show s.commits.any _ = false
    rw [hcommits]
    rfl
  have hrunning : s.abortCleared.fatalOn = false := (State.fatalOn_wr_ne _ _ (by decide)).trans hlive
  have hover := s.abortCleared.finish_over ⟨b.id, 6, 0, none⟩ hbatches hcommits hrunning rfl
  refine ⟨_, exec_lmpAbort s rq v, ?_⟩
  rw [State.abortFor_done .register (State.abortCue_ends hheld hunarmed hrunning)]
  refine ⟨hover.batches, fun q hq => ?_, (State.rd_abortResult_register _ _ _).trans (by decide)⟩
  have hword : (State.abortResult (s.abortCleared.finish [⟨b.id, 6, 0, none⟩]) .register (fld v 0 16) (abortWord 0 6 0)).rd (Reg.CUE_W3 q) =
      cueW3 6 0 false false := (State.rd_wr_ne _ _ (cueW3_ne_abortres q)).trans (hover.cues q hq (hcues q hq))
  exact ⟨(congrArg (fld · 0 3) hword).trans (fld_cueW3_state _ _ (by decide : 6 < 8)),
    (congrArg (fld · 8 4) hword).trans (fld_cueW3_status _ _ (by decide : 0 < 16))⟩

/-- The cue's batch is past its arm point: the abort waits. -/
theorem lmpAbort_waits {b : Batch} (hheld : s.batchOfCue (fld v 0 16) = some b) (harmed : s.pastArm b = true) :
    ∃ t, exec (.lmpAbort rq v) s = .next t ∧ t.rd Reg.LMP_ABORTRES = 0#32 ∧
      t.aborts = (s.aborts.filter fun a => a.sink != AbortSink.register) ++ [⟨fld v 0 16, .register⟩] ∧ t.batches = s.batches ∧
      OnlyWords [Reg.LMP_ABORTRES] { s with aborts := t.aborts } t := by
  refine ⟨_, exec_lmpAbort s rq v, ?_⟩
  rw [State.abortFor_later .register (State.abortCue_pastArm (s := s.abortCleared) hheld harmed)]
  exact ⟨s.rd_abortCleared, rfl, rfl, s.abortCleared_onlyWords _⟩

end

/-- Settles O27: the bucket, HOLD, and an abort as Table 5-4 has it. -/
theorem lampControls : Obligations.LampControls := by
  unfold Obligations.LampControls
  exact fun s => ⟨throttleBucketFill_fills s, lmpHoldWrite_takes s, fun rq v =>
    ⟨lmpAbort_unheld rq, fun b => lmpAbort_ends rq, fun b => lmpAbort_waits rq⟩⟩

end Sys2Proof.Machine
end

section
/-! PROOF. O29: a freeze. -/
namespace Sys2Proof.Machine

/-! ## Words of a tile's window -/

theorem isRingWord_of_window {a : Nat} (ha : 0x2000000 ≤ a) : isRingWord a = false := by
  unfold isRingWord
  simp only [Bool.and_eq_false_iff, decide_eq_false_iff_not]
  omega

theorem WordsAndEvents.cells {as : List Nat} {s t : State} (h : WordsAndEvents as s t) : t.cells = s.cells := by
  rw [h.2]

/-! ## One cell enters HOLD (R138) -/

theorem State.settleClamps_cells (s : State) (c : Nat) : (s.settleClamps c).cells = s.cells := by
  unfold State.settleClamps
  dsimp only
  split
  · rfl
  · split
    · rfl
    · exact (State.err_events (.refl [Reg.DRV_ERRSTAT (tileOf c)] _) 3 (List.mem_singleton.2 rfl)).cells

theorem State.rd_settleClamps_ne (s : State) (c : Nat) {a : Nat} (hcount : a ≠ drvWord c 3) (herr : a ≠ Reg.DRV_ERRSTAT (tileOf c))
    (hring : isRingWord a = false) : (s.settleClamps c).rd a = s.rd a := by
  unfold State.settleClamps
  dsimp only
  split
  · rfl
  · split
    · rfl
    · exact (State.rd_err_ne _ 3 herr hring).trans (State.rd_wr_ne _ _ hcount)

/-- Entering HOLD clears no override: that is for leaving it (R179). -/
theorem State.toMode_hold (s : State) (c : Nat) : s.toMode c 3 = (s.settleClamps c).setMode c 3 := by
  unfold State.toMode
  exact congrArg (State.setMode · c 3) (if_neg fun h => h.2 rfl)

theorem State.cell_setCell_same (s : State) (c : Nat) (x : CellRec) : (s.setCell c x).cell c = x := Store.get_set_same _ _ _ _

theorem State.cell_setCell_ne (s : State) {c d : Nat} (x : CellRec) (h : d ≠ c) : (s.setCell c x).cell d = s.cell d :=
  Store.get_set_ne _ _ _ _ h

/-- A cell in HOLD, the rest of it as `x` has it. -/
def CellRec.held (x : CellRec) : CellRec := { x with mode := 3 }

theorem State.cell_toMode_hold (s : State) (c d : Nat) : (s.toMode c 3).cell d = if d = c then (s.cell d).held else s.cell d := by
  have hkept : (s.settleClamps c).cell d = s.cell d := congrArg (Store.get CellRec.rest · d) (s.settleClamps_cells c)
  rw [State.toMode_hold, State.setMode]
  split
  · next h =>
    subst h
    rw [State.cell_setCell_same, hkept, CellRec.held]
  · next h => rw [State.cell_setCell_ne _ _ h, hkept]

/-- Entering HOLD leaves the tiles' control words alone. -/
theorem State.rd_toMode_hold_ctrl (s : State) (c tile : Nat) : (s.toMode c 3).rd (Reg.COO_CTRL tile) = s.rd (Reg.COO_CTRL tile) := by
  rw [State.toMode_hold]
  refine (State.rd_wr_ne _ _ (by unfold Reg.COO_CTRL Reg.COO_CELL_W7; omega)).trans (s.rd_settleClamps_ne c ?_ ?_ (isRingWord_of_window ?_))
  · unfold drvWord Reg.COO_CTRL Reg.DRV_CELL_W0
    omega
  · unfold Reg.COO_CTRL Reg.DRV_ERRSTAT
    omega
  · unfold Reg.COO_CTRL
    omega

/-! ## Many cells enter HOLD -/

/-- The cells `cs` enter HOLD, in order. -/
def State.holdCells (s : State) (cs : List Nat) : State := s.each cs fun s c => s.toMode c 3

theorem State.cell_holdCells (s : State) (cs : List Nat) (d : Nat) :
    (s.holdCells cs).cell d = if d ∈ cs then (s.cell d).held else s.cell d := by
  induction cs generalizing s with
  | nil => rfl
  | cons c cs ih =>
    change ((s.toMode c 3).holdCells cs).cell d = _
    rw [ih, State.cell_toMode_hold]
    by_cases hd : d = c
    · simp [hd, CellRec.held]
    · simp [hd]

theorem State.bit_holdCells_ctrl (s : State) (cs : List Nat) (tile i : Nat) :
    (s.holdCells cs).bit (Reg.COO_CTRL tile) i = s.bit (Reg.COO_CTRL tile) i :=
  congrArg (wbit · i) (s.rd_each fun u c _ => u.rd_toMode_hold_ctrl c tile)

/-! ## A write of COO_CTRL -/

/-- The cells of a tile that a freeze holds: those in RUN, DARK or FAULT. -/
def State.toFreeze (s : State) (tile : Nat) : List Nat :=
  (tileCells tile).filter fun c => (s.cell c).mode == 0 || (s.cell c).mode == 1 || (s.cell c).mode == 4

theorem State.mem_toFreeze {s : State} {tile l : Nat} (hl : l < 76) :
    cellOf tile l ∈ s.toFreeze tile ↔
      ((s.cell (cellOf tile l)).mode = 0 ∨ (s.cell (cellOf tile l)).mode = 1 ∨ (s.cell (cellOf tile l)).mode = 4) := by
  have hmem : cellOf tile l ∈ tileCells tile := List.mem_map_of_mem (List.mem_range.2 hl)
  simp [State.toFreeze, hmem, or_assoc]

section
variable {s : State} {tile : Fin 64} {v : Word}

theorem exec_freezeWrite_set (h : wbit v 0 = true) : exec (.freezeWrite tile v) s =
    .next ((((s.wrMask (Reg.COO_CTRL tile) 1#32 v).holdCells (s.toFreeze tile)).wrBit (Reg.COO_STAT tile) 24 true).cooStat tile) :=
  congrArg Host.Outcome.next (if_pos h)

theorem exec_freezeWrite_clear (h : wbit v 0 = false) : exec (.freezeWrite tile v) s = .next (s.wrMask (Reg.COO_CTRL tile) 1#32 v) :=
  congrArg Host.Outcome.next (if_neg (by simp [h]))

/-- HELD and OOB are other fields of COO_STAT than FROZEN. -/
theorem State.bit_cooStat_frozen (s : State) (tile : Nat) : (s.cooStat tile).bit (Reg.COO_STAT tile) 24 = s.bit (Reg.COO_STAT tile) 24 := by
  unfold State.cooStat State.bit
  dsimp only
  rw [State.rd_wr_same, wbit_put_ne _ _ (by omega), wbit_put_ne _ _ (by omega)]

theorem freezeWrite_holds (h : wbit v 0 = true) : ∃ t, exec (.freezeWrite tile v) s = .next t ∧ t.bit (Reg.COO_STAT tile) 24 = true ∧
    t.bit (Reg.COO_CTRL tile) 0 = true ∧ ∀ l, l < 76 →
      t.cell (cellOf tile l) = if cellOf tile l ∈ s.toFreeze tile then (s.cell (cellOf tile l)).held else s.cell (cellOf tile l) := by
  have hctrl : Reg.COO_CTRL tile ≠ Reg.COO_STAT tile := by
    unfold Reg.COO_CTRL Reg.COO_STAT
    omega
  refine ⟨_, exec_freezeWrite_set h, ?_, ?_, fun l _ => State.cell_holdCells (s.wrMask (Reg.COO_CTRL tile) 1#32 v) _ _⟩
  · rw [State.bit_cooStat_frozen, State.bit_wrBit_same _ _ _ (by omega)]
  · calc _ = ((s.wrMask (Reg.COO_CTRL tile) 1#32 v).holdCells (s.toFreeze tile)).bit (Reg.COO_CTRL tile) 0 :=
          congrArg (wbit · 0) ((State.rd_cooStat _ hctrl).trans (State.rd_wr_ne _ _ hctrl))
      _ = wbit v 0 := (State.bit_holdCells_ctrl _ _ _ _).trans (s.bit_wrMask_in _ v (by omega) (by decide))
      _ = true := h

theorem freezeWrite_clears (h : wbit v 0 = false) : ∃ t, exec (.freezeWrite tile v) s = .next t ∧ t.bit (Reg.COO_CTRL tile) 0 = false ∧
    OnlyWords [Reg.COO_CTRL tile] s t :=
  ⟨_, exec_freezeWrite_clear h, (s.bit_wrMask_in _ v (by omega) (by decide)).trans h, s.wrMask_onlyWords _ _ _⟩

end

/-- Settles O29: FREEZE set, cell by cell, and cleared. -/
theorem freezeHoldsCells : Obligations.FreezeHoldsCells := by
  unfold Obligations.FreezeHoldsCells
  refine fun s tile v => ⟨fun h => ?_, freezeWrite_clears⟩
  obtain ⟨t, hexec, hfrozen, hfreeze, hcells⟩ := freezeWrite_holds (s := s) (tile := tile) h
  refine ⟨t, hexec, hfrozen, hfreeze, fun l hl => ?_⟩
  dsimp only
  rw [hcells l hl]
  simp only [State.mem_toFreeze hl]
  split <;> rfl

end Sys2Proof.Machine
end

section
/-! PROOF. O30: writes of loop state, of factors and of the cycle. -/
namespace Sys2Proof.Machine

theorem State.err_cooErrstat (s : State) (tile : Nat) : (s.err (Reg.COO_ERRSTAT tile) 0).bit (Reg.COO_ERRSTAT tile) 0 = true ∧
    WordsAndEvents [Reg.COO_ERRSTAT tile] s (s.err (Reg.COO_ERRSTAT tile) 0) :=
  ⟨s.err_bit (by omega) (isRingWord_of_window (by unfold Reg.COO_ERRSTAT; omega)), State.err_events (.refl _ s) 0 (List.mem_singleton.2 rfl)⟩

theorem WordsAndEvents.mem {as : List Nat} {s t : State} (h : WordsAndEvents as s t) : t.mem = s.mem := by
  rw [h.2]

theorem WordsAndEvents.rdLive {as : List Nat} {s t : State} (h : WordsAndEvents as s t) (a : Nat) : t.rdLive a = s.rdLive a := by
  rw [h.2]
  rfl

theorem WordsAndEvents.when {as : List Nat} {s t : State} (h : WordsAndEvents as s t) (b : Bool) {f : State → State}
    (hf : WordsAndEvents as s (f t)) : WordsAndEvents as s (t.when b f) := by
  cases b with
  | false => exact h
  | true => exact hf

/-! ## Loop state (R162) -/

section
variable {s : State} {tile : Fin 64} {l : Fin 76} {w : Fin 3} {v : Word}

theorem loopStateWrite_taken (h : (s.cell (cellOf tile l)).mode = 2 ∨ (s.cell (cellOf tile l)).mode = 3) :
    ∃ t, exec (.loopStateWrite tile l w v) s = .next t ∧ t.rd (cooWord (cellOf tile l) (9 + w)) = v ∧
      OnlyWords [cooWord (cellOf tile l) (9 + w)] s t :=
  ⟨_, congrArg Host.Outcome.next (if_pos h), s.rd_wr_same _ _, (OnlyWords.refl _ s).wr _ (List.mem_singleton.2 rfl)⟩

theorem loopStateWrite_ignored (hcal : (s.cell (cellOf tile l)).mode ≠ 2) (hhold : (s.cell (cellOf tile l)).mode ≠ 3) :
    ∃ t, exec (.loopStateWrite tile l w v) s = .next t ∧ t.bit (Reg.COO_ERRSTAT tile) 0 = true ∧ WordsAndEvents [Reg.COO_ERRSTAT tile] s t :=
  ⟨_, congrArg Host.Outcome.next (if_neg (not_or.2 ⟨hcal, hhold⟩)), s.err_cooErrstat tile⟩

end

/-! ## A field written as it stands -/

theorem RegMap.find_spec {a : Nat} {e : RegEntry} {ix : List Nat} (h : RegMap.find a = some (e, ix)) :
    e ∈ RegMap.blockOf a ∧ e.base ≤ a ∧ RegMap.locate e.dims (a - e.base) = some ix := by
  obtain ⟨e', hmem, he⟩ := List.exists_of_findSome?_eq_some h
  split at he
  · cases he
  · next hbase =>
    obtain ⟨ix', hix, hpair⟩ := Option.map_eq_some_iff.1 he
    cases hpair
    exact ⟨hmem, Nat.not_lt.1 hbase, hix⟩

/-- In the COO part of a tile's window only words below offset 0x10, one of each a tile, have W1C bits. -/
theorem coo_w1c : ∀ e ∈ RegMap.coo, e.w1c = 0 ∨ (0x2000000 ≤ e.base ∧ e.base < 0x2000010) ∧ e.dims = [(64, 0x40000)] := by decide

theorem w1c_of_cooWindow {tile o : Nat} {e : RegEntry} {ix : List Nat} (htile : tile < 64) (hlo : 0x10 ≤ o) (hhi : o < 0x10000)
    (h : RegMap.find (tileAddr tile o) = some (e, ix)) : e.w1c = 0 := by
  obtain ⟨hmem, -, hlocate⟩ := RegMap.find_spec h
  have hblock : RegMap.blockOf (tileAddr tile o) = RegMap.coo := by
    have hpart : tileAddr tile o % 0x40000 / 0x10000 = 0 := by unfold tileAddr; omega
    have hwindow : 0x2000000 ≤ tileAddr tile o ∧ tileAddr tile o < 0x3000000 := by unfold tileAddr; omega
    unfold RegMap.blockOf
    iterate 9 rw [if_neg (by omega)]
    rw [if_pos (by omega), hpart]
    rfl
  refine (coo_w1c e (hblock ▸ hmem)).resolve_right fun ⟨⟨hbase, hlow⟩, hdims⟩ => ?_
  have hoffset : (tileAddr tile o - e.base) % 0x40000 ≠ 0 := by unfold tileAddr; omega
  rw [hdims] at hlocate
  simp [RegMap.locate, hoffset] at hlocate

/-- A bit that is not W1C, written as it stands, stays (R4). -/
theorem State.getLsbD_writeReg_kept (s : State) {a i : Nat} {v : Word} (hi : i < 32) (hsame : v.getLsbD i = (s.rd a).getLsbD i)
    (hw1c : ∀ e ix, RegMap.find a = some (e, ix) → e.w1c = 0) : ((s.writeReg a v).rd a).getLsbD i = (s.rd a).getLsbD i := by
  cases hfind : RegMap.find a with
  | none =>
    unfold State.writeReg
    rw [hfind]
  | some p =>
    obtain ⟨e, ix⟩ := p
    rw [State.rd_writeReg_same s v hfind, RegEntry.merge_getLsbD e _ v hi, hw1c e ix hfind, hsame]
    cases (s.rd a).getLsbD i <;> simp

theorem getLsbD_put_fld (v w : Word) {lo n i : Nat} (hn : lo + n ≤ 32) (hi : i < n) :
    (put v lo n (fld w lo n)).getLsbD (lo + i) = w.getLsbD (lo + i) := by
  rw [put_getLsbD, if_pos (by omega), BitVec.getLsbD_ofNat, Nat.add_sub_cancel_left, fld_getLsbD]
  simp [hi]

/-- A field put back as it stands into the value of a write stays. -/
theorem State.rdf_writeReg_kept (s : State) {a lo n : Nat} (v : Word) (hn : lo + n ≤ 32)
    (hw1c : ∀ e ix, RegMap.find a = some (e, ix) → e.w1c = 0) :
    (s.writeReg a (put v lo n (s.rdf a lo n))).rdf a lo n = s.rdf a lo n :=
  fld_congr fun i hi => s.getLsbD_writeReg_kept (by omega) (getLsbD_put_fld v _ hn hi) hw1c

/-! ## The words of a factor write (R158) -/

theorem tileOf_cellOf (tile : Fin 64) (l : Nat) : tileOf (cellOf tile l) = tile := by
  unfold tileOf cellOf cellAt
  omega

theorem localOf_cellOf (tile : Fin 64) (l : Nat) : localOf (cellOf tile l) = l := by
  unfold localOf cellOf cellAt
  omega

theorem cooWord_cellOf (tile : Fin 64) (l w : Nat) : cooWord (cellOf tile l) w = tileAddr tile (0x800 + 0x40 * l + 4 * w) := by
  unfold cooWord tileAddr Reg.COO_CELL_W0
  rw [tileOf_cellOf, localOf_cellOf]
  omega

theorem drvWord_cellOf (tile : Fin 64) (l w : Nat) : drvWord (cellOf tile l) w = tileAddr tile (0x10100 + 0x10 * l + 4 * w) := by
  unfold drvWord tileAddr Reg.DRV_CELL_W0
  rw [tileOf_cellOf, localOf_cellOf]
  omega

theorem tileAddr_ne {tile o p : Nat} (h : o ≠ p) : tileAddr tile o ≠ tileAddr tile p := by
  unfold tileAddr
  omega

theorem tileAddr_window (tile o : Nat) : 0x2000000 ≤ tileAddr tile o := by
  unfold tileAddr
  omega

/-- A factor's word is neither of the words that show whether its cell's factors are staged. -/
theorem factorCell_place {o l : Nat} (h : factorCell o = some l) :
    l < 76 ∧ o ≠ 0x800 + 0x40 * l + 4 * 7 ∧ o ≠ 0x10100 + 0x10 * l + 4 * 1 := by
  unfold factorCell at h
  split_ifs at h with hloop htable hdriver
  · cases h
    omega
  · cases h
    omega
  · cases h
    omega

/-- The words of cell `c` that show whether its factors are staged, and the count of such cells. -/
def stagedWords (c : Nat) : List Nat := [cooWord c 7, drvWord c 1, Reg.ASY_STAT]

theorem State.markStaged_onlyWords (s : State) (c : Nat) : OnlyWords (stagedWords c) s (s.markStaged c) :=
  (((OnlyWords.refl _ s).wrBit _ _ (by simp [stagedWords])).wrBit _ _ (by simp [stagedWords])).wrf _ _ _ (by simp [stagedWords])

section
variable {s : State} {tile : Fin 64} {o l : Nat} {v : Word}

theorem not_mem_stagedWords (h : factorCell o = some l) : tileAddr tile o ∉ stagedWords (cellOf tile l) := by
  obtain ⟨-, hcoo, hdrv⟩ := factorCell_place h
  have hasy : tileAddr tile o ≠ Reg.ASY_STAT := by
    unfold tileAddr Reg.ASY_STAT
    omega
  simp only [stagedWords, cooWord_cellOf, drvWord_cellOf, List.mem_cons, List.not_mem_nil, or_false, not_or]
  exact ⟨tileAddr_ne hcoo, tileAddr_ne hdrv, hasy⟩

theorem State.writeFactor_none (h : factorCell o = none) : s.writeFactor tile o v = s := by
  unfold State.writeFactor
  rw [h]

/-- No TONE is written, or one that is allowed: the value is taken. -/
theorem State.writeFactor_taken (h : factorCell o = some l)
    (htone : o ≠ 0x800 + 0x40 * l ∨ fld v 0 5 = 0 ∨ s.toneRefused (cellOf tile l) (fld v 0 5) = false) :
    s.writeFactor tile o v = (s.writeReg (tileAddr tile o) v).markStaged (cellOf tile l) := by
  have hbad : (o == 0x800 + 0x40 * l && fld v 0 5 != 0 && s.toneRefused (cellOf tile l) (fld v 0 5)) = false := by
    rcases htone with hword | hzero | hallowed
    · simp [hword]
    · simp [hzero]
    · simp [hallowed]
  unfold State.writeFactor
  rw [h]
  dsimp only
  rw [hbad]
  rfl

/-- A TONE that is refused: the value is taken with TONE put back, and CFGERR is set (R142). -/
theorem State.writeFactor_refused (h : factorCell o = some l) (hword : o = 0x800 + 0x40 * l) (hzero : fld v 0 5 ≠ 0)
    (hrefused : s.toneRefused (cellOf tile l) (fld v 0 5) = true) :
    s.writeFactor tile o v = ((s.writeReg (tileAddr tile o) (put v 0 5 (s.rdf (tileAddr tile o) 0 5))).markStaged (cellOf tile l)).err
      (Reg.COO_ERRSTAT tile) 0 := by
  have hbad : (o == 0x800 + 0x40 * l && fld v 0 5 != 0 && s.toneRefused (cellOf tile l) (fld v 0 5)) = true := by
    simp [hword, hzero, hrefused]
  unfold State.writeFactor
  rw [h]
  dsimp only
  rw [hbad]
  rfl

/-- Whatever the word and the value, a factor write changes words alone. -/
theorem State.writeFactor_events (s : State) (tile : Fin 64) (o : Nat) (v : Word) : ∃ as, WordsAndEvents as s (s.writeFactor tile o v) := by
  cases h : factorCell o with
  | none =>
    rw [State.writeFactor_none h]
    exact ⟨[], .refl _ s⟩
  | some l =>
    unfold State.writeFactor
    rw [h]
    dsimp only
    generalize (o == 0x800 + 0x40 * l && _ && _) = bad
    let as := Reg.COO_ERRSTAT tile :: tileAddr tile o :: stagedWords (cellOf tile l)
    have hmarked : ∀ w, WordsAndEvents as s ((s.writeReg (tileAddr tile o) w).markStaged (cellOf tile l)) := fun w =>
      ((OnlyWords.refl as s).writeReg w (by simp [as])).events.trans
        (((s.writeReg (tileAddr tile o) w).markStaged_onlyWords _).mono fun a ha => by simp [as, ha]).events
    exact ⟨as, (hmarked _).when bad (State.err_events (hmarked _) 0 (by simp [as]))⟩

theorem factorWrite_frame (s : State) (tile : Fin 64) (o : Nat) (v : Word) : ∃ t, exec (.factorWrite tile o v) s = .next t ∧
    (∀ a, t.rdLive a = s.rdLive a) ∧ t.cells = s.cells ∧ t.mem = s.mem := by
  obtain ⟨as, hwords⟩ := s.writeFactor_events tile o v
  exact ⟨_, rfl, hwords.rdLive, hwords.cells, hwords.mem⟩

theorem factorWrite_none (h : factorCell o = none) : exec (.factorWrite tile o v) s = .next s :=
  congrArg Host.Outcome.next (State.writeFactor_none h)

theorem factorWrite_taken (h : factorCell o = some l)
    (htone : o ≠ 0x800 + 0x40 * l ∨ fld v 0 5 = 0 ∨ s.toneRefused (cellOf tile l) (fld v 0 5) = false) :
    ∃ t, exec (.factorWrite tile o v) s = .next t ∧ t.rd (tileAddr tile o) = (s.writeReg (tileAddr tile o) v).rd (tileAddr tile o) := by
  refine ⟨_, congrArg Host.Outcome.next (State.writeFactor_taken h htone), ?_⟩
  exact (State.markStaged_onlyWords _ _).rd (not_mem_stagedWords h)

theorem factorWrite_refused (h : factorCell o = some l) (hword : o = 0x800 + 0x40 * l) (hzero : fld v 0 5 ≠ 0)
    (hrefused : s.toneRefused (cellOf tile l) (fld v 0 5) = true) :
    ∃ t, exec (.factorWrite tile o v) s = .next t ∧ t.rdf (tileAddr tile o) 0 5 = s.rdf (tileAddr tile o) 0 5 ∧
      t.bit (Reg.COO_ERRSTAT tile) 0 = true := by
  obtain ⟨hl, -, -⟩ := factorCell_place h
  have herr : tileAddr tile o ≠ Reg.COO_ERRSTAT tile := by
    unfold tileAddr Reg.COO_ERRSTAT
    omega
  have hw1c : ∀ e ix, RegMap.find (tileAddr tile o) = some (e, ix) → e.w1c = 0 := fun e ix =>
    w1c_of_cooWindow tile.isLt (by omega) (by omega)
  refine ⟨_, congrArg Host.Outcome.next (State.writeFactor_refused h hword hzero hrefused), ?_, (State.err_cooErrstat _ tile).1⟩
  refine Eq.trans (congrArg (fld · 0 5) ?_) (s.rdf_writeReg_kept v (by omega) hw1c)
  exact (State.rd_err_ne _ 0 herr (isRingWord_of_window (tileAddr_window _ _))).trans
    ((State.markStaged_onlyWords _ _).rd (not_mem_stagedWords h))

end

/-! ## The cycle word (R140) -/

/-- COO_CYCLE: N and SYNC are RW, and N alone has reserved encodings. -/
theorem find_cycle : ∀ tile : Fin 64, ((RegMap.find (Reg.COO_CYCLE tile)).map fun p => (p.1.rw, p.1.w1c, p.1.w1s, p.1.rules)) =
    some (0x107FF, 0, 0, [⟨10, 0, [(0x20, 0x400)], 32⟩]) := by decide

theorem State.bit_writeReg_sync (s : State) (tile : Fin 64) (v : Word) :
    (s.writeReg (Reg.COO_CYCLE tile) v).bit (Reg.COO_CYCLE tile) 16 = wbit v 16 := by
  obtain ⟨⟨e, ix⟩, hfind, hentry⟩ := Option.map_eq_some_iff.1 (find_cycle tile)
  simp only [Prod.mk.injEq] at hentry
  obtain ⟨hrw, hw1c, hw1s, hrules⟩ := hentry
  have hwritable : (e.writable v).getLsbD 16 = true := by
    refine (e.writable_getLsbD v (by omega)).2 ⟨by rw [hrw]; decide, fun r hr _ hhi => ?_⟩
    rw [hrules, List.mem_singleton] at hr
    subst hr
    exact absurd hhi (by decide)
  unfold State.bit wbit
  rw [State.rd_writeReg_same s v hfind, RegEntry.merge_getLsbD _ _ _ (by omega), hw1c, hw1s, hwritable]
  simp

theorem cycle_w1c (tile : Fin 64) (e : RegEntry) (ix : List Nat) (h : RegMap.find (Reg.COO_CYCLE tile) = some (e, ix)) : e.w1c = 0 := by
  have hentry := find_cycle tile
  rw [h] at hentry
  simp only [Option.map_some, Option.some.injEq, Prod.mk.injEq] at hentry
  obtain ⟨-, hw1c, -⟩ := hentry
  exact hw1c

section
variable {s : State} {tile : Fin 64} {v : Word}

theorem cycleConfigWrite_frame (s : State) (tile : Fin 64) (v : Word) : ∃ t, exec (.cycleConfigWrite tile v) s = .next t ∧
    (∀ a, t.rdLive a = s.rdLive a) ∧ WordsAndEvents [Reg.COO_CYCLE tile, Reg.COO_ERRSTAT tile] s t := by
  have hwritten : ∀ w, WordsAndEvents [Reg.COO_CYCLE tile, Reg.COO_ERRSTAT tile] s (s.writeReg (Reg.COO_CYCLE tile) w) := fun w =>
    (WordsAndEvents.refl _ s).writeReg w (by simp)
  have hwords : ∀ w b, WordsAndEvents [Reg.COO_CYCLE tile, Reg.COO_ERRSTAT tile] s
      ((s.writeReg (Reg.COO_CYCLE tile) w).when b (·.err (Reg.COO_ERRSTAT tile) 0)) := fun w b =>
    (hwritten w).when b (State.err_events (hwritten w) 0 (by simp))
  exact ⟨_, rfl, (hwords _ _).rdLive, hwords _ _⟩

theorem cycleConfigWrite_taken (h : (∀ c, c ∈ tileCells tile → s.rdf (cooWord c 0) 0 5 % 2 = 0) ∨ oddN (fld v 0 11) = false) :
    exec (.cycleConfigWrite tile v) s = .next (s.writeReg (Reg.COO_CYCLE tile) v) := by
  have hbad : (oddN (fld v 0 11) && fld v 0 11 % 32 == 0 && (tileCells tile).any fun c => s.rdf (cooWord c 0) 0 5 % 2 == 1) = false := by
    rcases h with heven | hN
    · have hany : ((tileCells tile).any fun c => s.rdf (cooWord c 0) 0 5 % 2 == 1) = false :=
        List.any_eq_false.2 fun c hc => by simp [heven c hc]
      rw [hany, Bool.and_false]
    · simp [hN]
  change execCycleConfigWrite tile v s = _
  unfold execCycleConfigWrite
  dsimp only
  rw [hbad]
  rfl

/-- An N that a TONE in use does not allow: the value is taken with N put back, and CFGERR is set (R142). -/
theorem exec_cycleConfigWrite_refused (hodd : oddN (fld v 0 11) = true) (hmult : fld v 0 11 % 32 = 0)
    (htone : ∃ c ∈ tileCells tile, s.rdf (cooWord c 0) 0 5 % 2 = 1) : exec (.cycleConfigWrite tile v) s =
      .next ((s.writeReg (Reg.COO_CYCLE tile) (put v 0 11 (s.rdf (Reg.COO_CYCLE tile) 0 11))).err (Reg.COO_ERRSTAT tile) 0) := by
  have hbad : (oddN (fld v 0 11) && fld v 0 11 % 32 == 0 && (tileCells tile).any fun c => s.rdf (cooWord c 0) 0 5 % 2 == 1) = true := by
    simpa [hodd, hmult] using htone
  change execCycleConfigWrite tile v s = _
  unfold execCycleConfigWrite
  dsimp only
  rw [hbad]
  rfl

theorem cycleConfigWrite_refused (hodd : oddN (fld v 0 11) = true) (hmult : fld v 0 11 % 32 = 0)
    (htone : ∃ c ∈ tileCells tile, s.rdf (cooWord c 0) 0 5 % 2 = 1) : ∃ t, exec (.cycleConfigWrite tile v) s = .next t ∧
      t.rdf (Reg.COO_CYCLE tile) 0 11 = s.rdf (Reg.COO_CYCLE tile) 0 11 ∧ t.bit (Reg.COO_CYCLE tile) 16 = wbit v 16 ∧
      t.bit (Reg.COO_ERRSTAT tile) 0 = true := by
  have hkept : ∀ u : State, (u.err (Reg.COO_ERRSTAT tile) 0).rd (Reg.COO_CYCLE tile) = u.rd (Reg.COO_CYCLE tile) := fun u =>
    u.rd_err_ne 0 (by unfold Reg.COO_CYCLE Reg.COO_ERRSTAT; omega) (isRingWord_of_window (by unfold Reg.COO_CYCLE; omega))
  refine ⟨_, exec_cycleConfigWrite_refused hodd hmult htone, ?_, ?_, (State.err_cooErrstat _ tile).1⟩
  · exact (congrArg (fld · 0 11) (hkept _)).trans (s.rdf_writeReg_kept v (by omega) (cycle_w1c tile))
  · calc _ = (s.writeReg (Reg.COO_CYCLE tile) (put v 0 11 (s.rdf (Reg.COO_CYCLE tile) 0 11))).bit (Reg.COO_CYCLE tile) 16 :=
          congrArg (wbit · 16) (hkept _)
      _ = wbit (put v 0 11 (s.rdf (Reg.COO_CYCLE tile) 0 11)) 16 := s.bit_writeReg_sync tile _
      _ = wbit v 16 := wbit_put_ne _ _ (by omega)

end

/-- Settles O30: the loop words, then the staged factors and the staged cycle word, each taken and refused. -/
theorem cooperWrites : Obligations.CooperWrites := by
  unfold Obligations.CooperWrites
  refine ⟨fun s tile l w v => ⟨loopStateWrite_taken, loopStateWrite_ignored⟩, fun s tile o v => ?_⟩
  exact ⟨factorWrite_frame s tile o v, factorWrite_none, fun l => factorWrite_taken, fun l => factorWrite_refused,
    cycleConfigWrite_frame s tile v, cycleConfigWrite_taken, cycleConfigWrite_refused⟩

end Sys2Proof.Machine
end

section
/-! PROOF. For O33 to O35: what an update of a cell's loop and driver leaves alone in the tile windows. -/
namespace Sys2Proof.Machine

/-- From `s` to `t`, of the words of the tile windows only `as` and of the cells only `cs` have changed; no fade has begun or ended, and the
batches are as before. -/
structure TileKept (as cs : List Nat) (s t : State) : Prop where
  rd : ∀ a, 0x2000000 ≤ a → a ∉ as → t.rd a = s.rd a
  cell : ∀ c, c ∉ cs → t.cell c = s.cell c
  fade : ∀ tile, (t.tileRec tile).fade = (s.tileRec tile).fade
  batches : t.batches = s.batches

/-- The words that a change of a cell's loop state may write (R138, R165, R179). -/
def modeWords (c : Nat) : List Nat := [cooWord c 7, drvWord c 2, drvWord c 3, Reg.DRV_ERRSTAT (tileOf c)]

theorem cooWord_window (c w : Nat) : 0x2000000 ≤ cooWord c w := by
  unfold cooWord Reg.COO_CELL_W0
  omega

theorem drvWord_window (c w : Nat) : 0x2000000 ≤ drvWord c w := by
  unfold drvWord Reg.DRV_CELL_W0
  omega

/-- The status word of a cell's loop, as `setCell` names it. -/
theorem cellW7_eq (c : Nat) : Reg.COO_CELL_W7 (tileOf c) (localOf c) = cooWord c 7 := by
  unfold cooWord Reg.COO_CELL_W0 Reg.COO_CELL_W7
  omega

theorem State.tileRec_setTileRec_same (s : State) (tile : Nat) (x : TileRec) : (s.setTileRec tile x).tileRec tile = x :=
  Store.get_set_same _ _ _ _

namespace TileKept

variable {as cs : List Nat} {s t : State}

theorem refl (as cs : List Nat) (s : State) : TileKept as cs s s := ⟨fun _ _ _ => rfl, fun _ _ => rfl, fun _ => rfl, rfl⟩

theorem trans {u : State} (h : TileKept as cs s t) (k : TileKept as cs t u) : TileKept as cs s u :=
  ⟨fun a hwindow ha => (k.rd a hwindow ha).trans (h.rd a hwindow ha), fun c hc => (k.cell c hc).trans (h.cell c hc),
    fun tile => (k.fade tile).trans (h.fade tile), k.batches.trans h.batches⟩

theorem mono {bs ds : List Nat} (h : TileKept as cs s t) (has : as ⊆ bs) (hcs : cs ⊆ ds) : TileKept bs ds s t :=
  ⟨fun a hwindow ha => h.rd a hwindow fun hmem => ha (has hmem), fun c hc => h.cell c fun hmem => hc (hcs hmem), h.fade, h.batches⟩

theorem cells (h : TileKept as [] s t) (c : Nat) : t.cell c = s.cell c := h.cell c List.not_mem_nil

theorem bit (h : TileKept as cs s t) {a : Nat} (hwindow : 0x2000000 ≤ a) (ha : a ∉ as) (i : Nat) : t.bit a i = s.bit a i :=
  congrArg (wbit · i) (h.rd a hwindow ha)

theorem rdf (h : TileKept as cs s t) {a : Nat} (hwindow : 0x2000000 ≤ a) (ha : a ∉ as) (lo n : Nat) : t.rdf a lo n = s.rdf a lo n :=
  congrArg (fld · lo n) (h.rd a hwindow ha)

/-- An update of the state's other fields. -/
theorem update {u : State} (h : TileKept as cs s t)
    (hsame : u.words = t.words ∧ u.cells = t.cells ∧ u.tiles = t.tiles ∧ u.batches = t.batches := by exact ⟨rfl, rfl, rfl, rfl⟩) :
    TileKept as cs s u := by
  obtain ⟨hwords, hcells, htiles, hbatches⟩ := hsame
  exact h.trans ⟨fun a _ _ => congrArg (Store.get (resetWord a) · a) hwords, fun c _ => congrArg (Store.get CellRec.rest · c) hcells,
    fun tile => congrArg (fun ts => (Store.get TileRec.zero ts tile).fade) htiles, hbatches⟩

/-- A write of a listed word, or of one below the tile windows. -/
theorem wr (h : TileKept as cs s t) {a : Nat} (v : Word) (ha : a ∈ as ∨ a < 0x2000000) : TileKept as cs s (t.wr a v) := by
  refine h.trans ⟨fun b hwindow hb => t.rd_wr_ne v ?_, fun _ _ => rfl, fun _ => rfl, rfl⟩
  rintro rfl
  exact ha.elim hb (Nat.not_lt.2 hwindow)

theorem wrf (h : TileKept as cs s t) {a : Nat} (lo n v : Nat) (ha : a ∈ as ∨ a < 0x2000000) : TileKept as cs s (t.wrf a lo n v) := h.wr _ ha

theorem wrBit (h : TileKept as cs s t) {a : Nat} (i : Nat) (b : Bool) (ha : a ∈ as ∨ a < 0x2000000) : TileKept as cs s (t.wrBit a i b) :=
  h.wr _ ha

theorem count (h : TileKept as cs s t) {a : Nat} (lo n k : Nat) (ha : a ∈ as ∨ a < 0x2000000) : TileKept as cs s (t.count a lo n k) :=
  h.wr _ ha

theorem when (h : TileKept as cs s t) (b : Bool) {f : State → State} (hf : TileKept as cs s (f t)) : TileKept as cs s (t.when b f) := by
  cases b with
  | false => exact h
  | true => exact hf

theorem setCoo (h : TileKept as cs s t) (c : Nat) (x : CooRec) : TileKept as cs s (t.setCoo c x) := h.update

theorem setHcode (h : TileKept as cs s t) {c : Nat} (x : Nat) (ha : cooWord c 13 ∈ as) : TileKept as cs s (t.setHcode c x) :=
  h.wrf 16 14 x (.inl ha)

theorem setPbase (h : TileKept as cs s t) {c : Nat} (y : Int) (ha : cooWord c 13 ∈ as) : TileKept as cs s (t.setPbase c y) :=
  h.wrf 0 16 (code 16 y) (.inl ha)

/-- An error bit in a listed word, with its event: the ring descriptors lie below the tile windows. -/
theorem err (h : TileKept as cs s t) {a : Nat} (i : Nat) (ha : a ∈ as) : TileKept as cs s (t.err a i) := by
  have hevents : WordsAndEvents [a] t (t.err a i) := State.err_events (.refl _ t) i (List.mem_singleton.2 rfl)
  have hrest := hevents.2
  refine h.trans ⟨fun b hwindow hb => hevents.rd ?_ (isRingWord_of_window hwindow), fun c _ => ?_, fun tile => ?_, by rw [hrest]⟩
  · rintro hmem
    exact hb (List.mem_singleton.1 hmem ▸ ha)
  · rw [hrest]
    rfl
  · rw [hrest]
    rfl

theorem setCell (h : TileKept as cs s t) {c : Nat} (x : CellRec) (hword : cooWord c 7 ∈ as) (hc : c ∈ cs) : TileKept as cs s (t.setCell c x) := by
  have hcell : TileKept as cs t { t with cells := Store.set CellRec.rest t.cells c x } :=
    ⟨fun _ _ _ => rfl, fun d hd => Store.get_set_ne _ _ _ _ (by rintro rfl; exact hd hc), fun _ => rfl, rfl⟩
  exact (h.trans hcell).wr _ (.inl (cellW7_eq c ▸ hword))

/-! ## Loop states (R138) -/

theorem settleClamps (h : TileKept as cs s t) {c : Nat} (hwords : modeWords c ⊆ as) : TileKept as cs s (t.settleClamps c) := by
  unfold State.settleClamps
  dsimp only
  split
  · exact h
  · split
    · exact h.setCoo c _
    · exact ((h.setCoo c _).count _ _ _ (.inl (hwords (by simp [modeWords])))).err 3 (hwords (by simp [modeWords]))

theorem toMode (h : TileKept as cs s t) {c : Nat} (m : Nat) (hwords : modeWords c ⊆ as) (hc : c ∈ cs) : TileKept as cs s (t.toMode c m) := by
  have hword : cooWord c 7 ∈ as := hwords (by simp [modeWords])
  unfold State.toMode
  dsimp only
  split
  · exact ((h.settleClamps hwords).wr _ (.inl (hwords (by simp [modeWords])))).setCell _ hword hc
  · exact (h.settleClamps hwords).setCell _ hword hc

theorem cooStat (h : TileKept as cs s t) {tile : Nat} (ha : Reg.COO_STAT tile ∈ as) : TileKept as cs s (t.cooStat tile) := h.wr _ (.inl ha)

/-! ## The trace (R160) -/

/-- The trace's trigger changes a tile's record, but not its fade. -/
theorem setTracePost (h : TileKept as cs s t) (tile n : Nat) : TileKept as cs s (t.setTileRec tile { t.tileRec tile with tracePost := n }) := by
  refine h.trans ⟨fun _ _ _ => rfl, fun _ _ => rfl, fun k => ?_, rfl⟩
  by_cases hk : k = tile
  · rw [hk, State.tileRec_setTileRec_same]
  · exact congrArg TileRec.fade (Store.get_set_ne _ _ _ _ hk)

theorem traceFire (h : TileKept as cs s t) {tile : Nat} (ha : Reg.COO_TRSTAT tile ∈ as) : TileKept as cs s (t.traceFire tile) := by
  unfold State.traceFire
  dsimp only
  split
  · have hfired : TileKept as cs s (t.wrBit (Reg.COO_TRSTAT tile) 31 true) := h.wrBit _ _ (.inl ha)
    exact (hfired.setTracePost tile _).wrBit _ _ (.inl ha)
  · exact h

theorem traceFireCell (h : TileKept as cs s t) {c : Nat} (b : Nat) (ha : Reg.COO_TRSTAT (tileOf c) ∈ as) :
    TileKept as cs s (t.traceFireCell c b) := by
  unfold State.traceFireCell
  dsimp only
  split
  · exact h.traceFire ha
  · exact h

theorem dropBand (h : TileKept as cs s t) {c : Nat} (hword : cooWord c 7 ∈ as) (ha : Reg.COO_TRSTAT (tileOf c) ∈ as) :
    TileKept as cs s (t.dropBand c) := by
  unfold State.dropBand
  split
  · exact (h.wrBit _ _ (.inl hword)).traceFireCell 1 ha
  · exact h

/-! ## The Assayer and the Lamplighter, whose words lie below the tile windows -/

theorem asyFinish (h : TileKept as cs s t) (k status result : Nat) : TileKept as cs s (t.asyFinish k status result) := by
  unfold State.asyFinish State.asyResult
  split
  · exact (h.update (u := { t with asyLast := 0 })).wr _ (.inr (by decide))
  · exact h

theorem setCalCells (h : TileKept as cs s t) (xs : List CalRec) : TileKept as cs s { t with calCells := xs } := h.update

theorem setTink (h : TileKept as cs s t) (x : Option TinkOp) : TileKept as cs s { t with tink := x } := h.update

theorem afterCal (h : TileKept as cs s t) : TileKept as cs s t.afterCal := by
  have hstatus : ∀ {u}, TileKept as cs s u → TileKept as cs s u.asyStat.tnkStat := fun hu =>
    (((hu.wrBit _ _ (.inr (by decide))).wrf _ _ _ (.inr (by decide))).wrBit _ _ (.inr (by decide))).wrBit _ _ (.inr (by decide))
  have hsource : TileKept as cs s (t.calSource false t.calBand) := by
    unfold State.calSource
    split
    · exact h
    · exact h.update
  unfold State.afterCal
  split
  · exact hstatus hsource.update
  · exact hstatus h

theorem lampStat (h : TileKept as cs s t) : TileKept as cs s t.lampStat :=
  (((h.wr _ (.inr (by decide))).wr _ (.inr (by decide))).wr _ (.inr (by decide))).wrBit _ _ (.inr (by decide))

theorem finish_nil (h : TileKept as cs s t) : TileKept as cs s (t.finish []) := by
  unfold State.finish
  split
  · exact h
  · exact h.lampStat

theorem setSolveStart (h : TileKept as cs s t) (x : Option SolveRun) : TileKept as cs s { t with solveStart := x } := h.update

/-- With no batch held, an event of R107 reaches none. -/
theorem invalidate (h : TileKept as cs s t) (hnone : t.batches = []) (protection : Bool) (cells near ckts : List Nat) :
    TileKept as cs s (t.invalidate protection cells near ckts) := by
  have hmarked : ∀ hit, TileKept as cs s (t.markStale hit) := fun hit =>
    h.trans ⟨fun _ _ _ => rfl, fun _ _ => rfl, fun _ => rfl, by simp [State.markStale, hnone]⟩
  have hby : ∀ hit, TileKept as cs s (t.invalidateBy protection hit) := fun hit => by
    unfold State.invalidateBy
    rw [hnone, List.filter_nil, ite_self]
    exact ((hmarked _).finish_nil.count _ _ _ (.inr (by decide))).lampStat
  exact (hby (t.reaches cells near ckts)).setSolveStart _

end TileKept

/-! ## A cell after a change of its loop state -/

theorem State.cell_toMode (s : State) (c m : Nat) : (s.toMode c m).cell c = { s.cell c with mode := m } := by
  have hkept : (s.settleClamps c).cell c = s.cell c := congrArg (Store.get CellRec.rest · c) (s.settleClamps_cells c)
  unfold State.toMode
  dsimp only
  rw [State.setMode, State.cell_setCell_same]
  split <;> exact congrArg (fun x : CellRec => { x with mode := m }) hkept

/-! ## The two codes of a cell's driver -/

section
variable (s : State) (c : Nat)

theorem State.hcode_setHcode (h : Nat) : (s.setHcode c h).hcode c = h % 2 ^ 14 := s.rdf_wrf_same _ h (by omega)

theorem State.pbase_setPbase {y : Int} (hlow : -2 ^ 15 ≤ y) (hhigh : y < 2 ^ 15) : (s.setPbase c y).pbase c = y :=
  (congrArg (sfld · 0 16) (s.rd_wr_same _ _)).trans (sfld_put_code _ hlow hhigh)

theorem State.pbase_setHcode (h : Nat) : (s.setHcode c h).pbase c = s.pbase c :=
  congrArg (signed 16) (s.rdf_wrf_ne (cooWord c 13) h (.inl (Nat.le_refl 16)))

end

end Sys2Proof.Machine
end

section
/-! PROOF. O35: overrides and waveforms. -/
namespace Sys2Proof.Machine

theorem State.err_drvErrstat (s : State) (tile : Nat) : (s.err (Reg.DRV_ERRSTAT tile) 0).bit (Reg.DRV_ERRSTAT tile) 0 = true ∧
    WordsAndEvents [Reg.DRV_ERRSTAT tile] s (s.err (Reg.DRV_ERRSTAT tile) 0) :=
  ⟨s.err_bit (by omega) (isRingWord_of_window (by unfold Reg.DRV_ERRSTAT; omega)), State.err_events (.refl _ s) 0 (List.mem_singleton.2 rfl)⟩

theorem drvWord_ne_cooWord (tile : Fin 64) (l : Fin 76) {w k : Nat} (hk : k < 16) :
    drvWord (cellOf tile l) w ≠ cooWord (cellOf tile l) k := by
  rw [drvWord_cellOf, cooWord_cellOf]
  exact tileAddr_ne (by omega)

theorem sfld_range (v : Word) : -2 ^ 15 ≤ sfld v 0 16 ∧ sfld v 0 16 < 2 ^ 15 := ⟨BitVec.le_toInt _, BitVec.toInt_lt⟩

section
variable {s : State} {tile : Fin 64} {l : Fin 76} {v : Word}

theorem driveOverrideWrite_held (hhold : (s.cell (cellOf tile l)).mode = 3) (hset : wbit v 31 = true) :
    ∃ t, exec (.driveOverrideWrite tile l v) s = .next t ∧ t.rd (drvWord (cellOf tile l) 2) = v ∧ t.pbase (cellOf tile l) = sfld v 0 16 ∧
      OnlyWords [drvWord (cellOf tile l) 2, cooWord (cellOf tile l) 13] s t := by
  have hexec : exec (.driveOverrideWrite tile l v) s =
      .next ((s.wr (drvWord (cellOf tile l) 2) v).setPbase (cellOf tile l) (sfld v 0 16)) := by
    refine congrArg Host.Outcome.next ((if_pos hhold).trans ?_)
    rw [if_pos hset]
  obtain ⟨hlow, hhigh⟩ := sfld_range v
  refine ⟨_, hexec, ?_, State.pbase_setPbase _ _ hlow hhigh, ?_⟩
  · exact (State.rd_wr_ne _ _ (drvWord_ne_cooWord tile l (by omega))).trans (s.rd_wr_same _ v)
  · exact ((OnlyWords.refl _ s).wr _ List.mem_cons_self).wrf _ _ _ (by simp)

theorem driveOverrideWrite_refused (hmode : (s.cell (cellOf tile l)).mode ≠ 3) (hset : wbit v 31 = true) :
    ∃ t, exec (.driveOverrideWrite tile l v) s = .next t ∧ t.bit (Reg.DRV_ERRSTAT tile) 0 = true ∧
      WordsAndEvents [Reg.DRV_ERRSTAT tile] s t := by
  have hexec : exec (.driveOverrideWrite tile l v) s = .next (s.err (Reg.DRV_ERRSTAT tile) 0) := by
    refine congrArg Host.Outcome.next ((if_neg hmode).trans ?_)
    rw [if_pos (by rw [hset, Bool.true_or]), tileOf_cellOf]
  exact ⟨_, hexec, s.err_drvErrstat tile⟩

variable {o : Nat} (hlow : 0x11000 ≤ o) (hhigh : o < 0x19000)
include hlow hhigh

theorem waveformWrite_refused (hactive : (o - 0x11000) / 0x4000 = s.rdf (Reg.DRV_PECTL tile) 0 1) (hdriven : s.rd (Reg.BOOT_TIME 5) ≠ 0xFFFFFFFF#32) :
    ∃ t, exec (.waveformWrite tile o v) s = .next t ∧ t.bit (Reg.DRV_ERRSTAT tile) 0 = true ∧ WordsAndEvents [Reg.DRV_ERRSTAT tile] s t :=
  ⟨_, congrArg Host.Outcome.next ((if_pos ⟨hlow, hhigh⟩).trans (if_pos ⟨hactive, hdriven⟩)), s.err_drvErrstat tile⟩

theorem waveformWrite_taken (hother : (o - 0x11000) / 0x4000 ≠ s.rdf (Reg.DRV_PECTL tile) 0 1) :
    ∃ t, exec (.waveformWrite tile o v) s = .next t ∧ t = s.writeReg (tileAddr tile o) v ∧ OnlyWords [tileAddr tile o] s t :=
  ⟨_, congrArg Host.Outcome.next ((if_pos ⟨hlow, hhigh⟩).trans (if_neg fun h => hother h.1)), rfl, OnlyWords.writeReg_self s _ v⟩

end

theorem waveformBankSelect_selects (s : State) (tile : Fin 64) (v : Word) : ∃ t, exec (.waveformBankSelect tile v) s = .next t ∧
    t.rdf (Reg.DRV_PECTL tile) 0 1 = fld v 0 1 ∧ OnlyWords [Reg.DRV_PECTL tile] s t :=
  ⟨_, rfl, s.rdf_wrMask_in _ v (by omega) (by decide), s.wrMask_onlyWords _ _ _⟩

/-- Settles O35: an override in HOLD and out of it, a write of the active and of the other bank, and BANKSEL. -/
theorem driverWrites : Obligations.DriverWrites := by
  unfold Obligations.DriverWrites
  exact fun s tile v => ⟨fun _ => driveOverrideWrite_held, fun _ => driveOverrideWrite_refused, fun _ => waveformWrite_refused,
    fun _ => waveformWrite_taken, waveformBankSelect_selects s tile v⟩

end Sys2Proof.Machine
end

section
/-! PROOF. O33: heater faults. -/
namespace Sys2Proof.Machine

/-! ## A fault declared (R175) -/

/-- The status word of a driver with FAULT set, and OPEN or SHORT. -/
def shownFault (w : Word) (isOpen : Bool) : Word := putBit (putBit (putBit w 31 true) 30 isOpen) 29 (!isOpen)

/-- Cell `c`'s heater at code 0 with its loop's record `x`, and a fault shown and counted in its driver's status word. -/
def State.showFault (s : State) (c : Nat) (x : CooRec) (isOpen : Bool) : State :=
  let s1 := (s.setHcode c 0).setCoo c x
  (s1.wr (drvWord c 1) (shownFault (s1.rd (drvWord c 1)) isOpen)).count (drvWord c 1) 16 8 1

theorem wbit_shownFault (w : Word) (isOpen : Bool) : wbit (shownFault w isOpen) 31 = true ∧ wbit (shownFault w isOpen) 30 = isOpen := by
  unfold shownFault putBit
  constructor
  · rw [wbit_put_ne _ _ (by omega), wbit_put_ne _ _ (by omega), wbit_put_same _ _ (by omega)]
  · rw [wbit_put_ne _ _ (by omega), wbit_put_same _ _ (by omega)]

/-- The count of faults lies below the bits that show the fault. -/
theorem State.bit_wr_count (s : State) (a : Nat) (w : Word) (k : Nat) {i : Nat} (hi : 24 ≤ i) : ((s.wr a w).count a 16 8 k).bit a i = wbit w i := by
  unfold State.bit State.count State.wrf
  rw [State.rd_wr_same, wbit_put_ne _ _ (by omega), State.rd_wr_same]

section
variable (s : State) (c : Nat) (x : CooRec) (isOpen : Bool)

theorem State.bit_showFault : (s.showFault c x isOpen).bit (drvWord c 1) 31 = true ∧ (s.showFault c x isOpen).bit (drvWord c 1) 30 = isOpen := by
  obtain ⟨hfault, hopen⟩ := wbit_shownFault (((s.setHcode c 0).setCoo c x).rd (drvWord c 1)) isOpen
  exact ⟨(State.bit_wr_count _ _ _ 1 (by omega)).trans hfault, (State.bit_wr_count _ _ _ 1 (by omega)).trans hopen⟩

theorem State.showFault_kept : TileKept [cooWord c 13, drvWord c 1] [] s (s.showFault c x isOpen) := by
  have hzeroed : TileKept [cooWord c 13, drvWord c 1] [] s (s.setHcode c 0) := (TileKept.refl _ _ s).setHcode 0 (by simp)
  exact ((hzeroed.setCoo c x).wr _ (.inl (by simp))).count 16 8 1 (.inl (by simp))

theorem State.hcode_showFault (hne : cooWord c 13 ≠ drvWord c 1) : (s.showFault c x isOpen).hcode c = 0 := by
  have hshown : TileKept [drvWord c 1] [] ((s.setHcode c 0).setCoo c x) (s.showFault c x isOpen) :=
    ((TileKept.refl _ _ _).wr _ (.inl List.mem_cons_self)).count 16 8 1 (.inl List.mem_cons_self)
  exact (hshown.rdf (cooWord_window c 13) (by simpa using hne) 16 14).trans (s.hcode_setHcode c 0)

end

/-- From `s` the words of cell `c`'s driver show a fault, OPEN or SHORT by its run of readings, with the heater at 0; the cell's loop state
has not changed yet. -/
structure FaultShown (s : State) (c : Nat) (u : State) : Prop where
  hcode : u.hcode c = 0
  fault : u.bit (drvWord c 1) 31 = true
  opens : u.bit (drvWord c 1) 30 = decide (8 ≤ (s.coo c).openRun)
  cell : u.cell c = s.cell c
  batches : u.batches = s.batches

theorem TileKept.faultShown {as : List Nat} {s t : State} (h : TileKept as [] s t) {c : Nat} (x : CooRec) (hne : cooWord c 13 ≠ drvWord c 1) :
    FaultShown s c (t.showFault c x (decide (8 ≤ (s.coo c).openRun))) := by
  have hshown := t.showFault_kept c x (decide (8 ≤ (s.coo c).openRun))
  obtain ⟨hfault, hopen⟩ := t.bit_showFault c x (decide (8 ≤ (s.coo c).openRun))
  exact ⟨t.hcode_showFault c x _ hne, hfault, hopen, (hshown.cells c).trans (h.cells c), hshown.batches.trans h.batches⟩

/-- A measurement that a fault ends has its result in the cell's quality record, and at the command that asked for it. -/
theorem TileKept.noteResult {as cs : List Nat} {s t : State} (h : TileKept as cs s t) (r : CalRec) {c : Nat} (hqual : Reg.ASY_QUAL_W0 c < 0x2000000) :
    TileKept as cs s ((t.when (!r.tinker) (·.qualResult c r.band 8)).when r.commanded (·.asyFinish (16 + c) 0 8)) := by
  have hnoted : TileKept as cs s (t.when (!r.tinker) (·.qualResult c r.band 8)) := h.when _ (h.wrf _ _ _ (.inr hqual))
  exact hnoted.when _ (hnoted.asyFinish _ _ _)

/-- The words of cell `c`'s tile that entering or leaving FAULT writes, once the fault is shown or cleared. -/
def faultWords (c : Nat) : List Nat := Reg.DRV_STAT (tileOf c) :: Reg.COO_STAT (tileOf c) :: modeWords c

theorem modeWords_subset_faultWords (c : Nat) : modeWords c ⊆ faultWords c := fun _ ha =>
  List.mem_cons_of_mem _ (List.mem_cons_of_mem _ ha)

section
variable (tile : Fin 64) (l : Fin 76)

theorem drvWord_not_faultWords : drvWord (cellOf tile l) 1 ∉ faultWords (cellOf tile l) := by
  simp only [faultWords, modeWords, cooWord_cellOf, drvWord_cellOf, tileOf_cellOf, List.mem_cons, List.not_mem_nil, or_false]
  unfold tileAddr Reg.DRV_STAT Reg.COO_STAT Reg.DRV_ERRSTAT
  omega

theorem cooWord_not_faultWords {w : Nat} (hlow : 8 ≤ w) (hhigh : w < 16) : cooWord (cellOf tile l) w ∉ faultWords (cellOf tile l) := by
  simp only [faultWords, modeWords, cooWord_cellOf, drvWord_cellOf, tileOf_cellOf, List.mem_cons, List.not_mem_nil, or_false]
  unfold tileAddr Reg.DRV_STAT Reg.COO_STAT Reg.DRV_ERRSTAT
  omega

theorem asyQual_below_window : Reg.ASY_QUAL_W0 (cellOf tile l) < 0x2000000 := by
  unfold Reg.ASY_QUAL_W0 cellOf cellAt
  omega

end

section
variable {s : State} {tile : Fin 64} {l : Fin 76} {v : Word}

theorem exec_heaterFault_none (h : (s.coo (cellOf tile l)).openRun < 8 ∧ (s.coo (cellOf tile l)).shortRun < 8 ∨
    s.bit (drvWord (cellOf tile l) 1) 31 = true) : exec (.heaterFault tile l) s = .next s := by
  refine if_neg fun hguard => ?_
  simp only [Bool.and_eq_true, Bool.or_eq_true, decide_eq_true_eq, Bool.not_eq_true'] at hguard
  obtain ⟨hrun, hclear⟩ := hguard
  rcases h with ⟨hopen, hshort⟩ | hfault
  · omega
  · exact absurd hfault (by simp [hclear])

/-- A fault is shown in `u`, a measurement of the cell is dropped in `v`, and the cell enters FAULT on the way to `t`. -/
theorem exec_heaterFault_declares
    (hrun : 8 ≤ (s.coo (cellOf tile l)).openRun ∨ 8 ≤ (s.coo (cellOf tile l)).shortRun)
    (hclear : s.bit (drvWord (cellOf tile l) 1) 31 = false) (hnone : s.batches = []) :
    ∃ u v t, exec (.heaterFault tile l) s = .next t ∧ FaultShown s (cellOf tile l) u ∧ TileKept [] [] u v ∧
      TileKept (faultWords (cellOf tile l)) [] (v.toMode (cellOf tile l) 4) t := by
  have hguard : ((8 ≤ (s.coo (cellOf tile l)).openRun || 8 ≤ (s.coo (cellOf tile l)).shortRun) &&
      !s.bit (drvWord (cellOf tile l) 1) 31) = true := by simpa [hclear] using hrun
  change ∃ u v t, execHeaterFault tile l s = .next t ∧ _
  unfold execHeaterFault
  extract_lets t c x isOpen back s1 w s2 s3 s4
  rw [if_pos hguard]
  have hback : TileKept [cooWord c 13] [] s back := by
    unfold back
    split
    · exact (TileKept.refl _ _ s).setPbase _ List.mem_cons_self
    · exact .refl _ _ s
  have hshown : FaultShown s c s2 := hback.faultShown _ (drvWord_ne_cooWord tile l (by omega)).symm
  have hdropped : TileKept [] [] s2 s3 := by
    unfold s3
    split
    · next r _ =>
      have hreleased : TileKept [] [] s2 { s2 with calCells := s2.calCells.filter (·.cell != c) } := (TileKept.refl _ _ s2).setCalCells _
      exact hreleased.noteResult r (asyQual_below_window tile l)
    · exact .refl _ _ s2
  have hstatus : ∀ a ∈ [Reg.DRV_STAT t, Reg.COO_STAT t, Reg.DRV_ERRSTAT t], a ∈ faultWords c := by
    simp [faultWords, modeWords, c, t, tileOf_cellOf]
  have hcounted : TileKept (faultWords c) [] (s3.toMode c 4) s4 :=
    ((TileKept.refl _ _ (s3.toMode c 4)).wrf _ _ _ (.inl (hstatus _ (by simp)))).err _ (hstatus _ (by simp))
  have hempty : s4.batches = [] := by
    have hmode : TileKept (modeWords c) [c] s3 (s3.toMode c 4) := (TileKept.refl _ _ s3).toMode 4 (List.Subset.refl _) List.mem_cons_self
    rw [hcounted.batches, hmode.batches, hdropped.batches, hshown.batches, hnone]
  have htinked : TileKept (faultWords c) [] (s3.toMode c 4) { s4 with tink := s4.tink.filter fun (k : TinkOp) => k.cell != c } :=
    hcounted.setTink _
  exact ⟨s2, s3, _, rfl, hshown, hdropped, ((htinked.invalidate hempty false [c] [] []).cooStat (hstatus _ (by simp))).afterCal⟩

theorem heaterFault_declares (hrun : 8 ≤ (s.coo (cellOf tile l)).openRun ∨ 8 ≤ (s.coo (cellOf tile l)).shortRun)
    (hclear : s.bit (drvWord (cellOf tile l) 1) 31 = false) (hnone : s.batches = []) : ∃ t, exec (.heaterFault tile l) s = .next t ∧
      (t.cell (cellOf tile l)).mode = 4 ∧ (t.cell (cellOf tile l)).cross = (s.cell (cellOf tile l)).cross ∧ t.hcode (cellOf tile l) = 0 ∧
      t.bit (drvWord (cellOf tile l) 1) 31 = true ∧ (t.bit (drvWord (cellOf tile l) 1) 30 = true ↔ 8 ≤ (s.coo (cellOf tile l)).openRun) := by
  obtain ⟨u, v, t, hexec, hshown, hdropped, hentered⟩ := exec_heaterFault_declares hrun hclear hnone
  have hwords : TileKept (faultWords (cellOf tile l)) [cellOf tile l] u t :=
    ((hdropped.mono (List.nil_subset _) (List.nil_subset _)).toMode 4 (modeWords_subset_faultWords _) List.mem_cons_self).trans
      (hentered.mono (List.Subset.refl _) (List.nil_subset _))
  have hcell : t.cell (cellOf tile l) = { s.cell (cellOf tile l) with mode := 4 } := by
    rw [hentered.cells, State.cell_toMode, hdropped.cells, hshown.cell]
  have hshows := hwords.bit (drvWord_window _ 1) (drvWord_not_faultWords tile l)
  refine ⟨t, hexec, by rw [hcell], by rw [hcell], ?_, (hshows 31).trans hshown.fault, ?_⟩
  · exact (hwords.rdf (cooWord_window _ 13) (cooWord_not_faultWords tile l (by omega) (by omega)) 16 14).trans hshown.hcode
  · rw [hshows 30, hshown.opens, decide_eq_true_iff]

/-! ## A fault cleared (R176) -/

theorem exec_heaterFaultClear_none (h : s.bit (drvWord (cellOf tile l) 1) 31 = false) : exec (.heaterFaultClear tile l v) s = .next s :=
  congrArg Host.Outcome.next (if_neg (by simp [h]))

/-- FAULT, OPEN and SHORT are the three bits that FCLR clears. -/
theorem fld_faultBits (w : Word) : fld (w &&& 0x1FFFFFFF#32) 29 3 = 0 := by
  refine Nat.eq_of_testBit_eq fun i => ?_
  rw [fld_getLsbD, BitVec.getLsbD_and, Nat.zero_testBit]
  by_cases hi : i < 3
  · interval_cases i <;> simp
  · simp [hi]

theorem State.naturalMode_sound {c : Nat} (h : s.bit (drvWord c 1) 31 = false) (ls : List Nat) : s.naturalMode ls c = 0 ∨ s.naturalMode ls c = 1 := by
  unfold State.naturalMode
  rw [h, if_neg Bool.false_ne_true]
  split
  · exact .inl rfl
  · exact .inr rfl

theorem heaterFaultClear_clears (hfclr : wbit v 28 = true) (hfault : s.bit (drvWord (cellOf tile l) 1) 31 = true)
    (hmode : (s.cell (cellOf tile l)).mode = 4) : ∃ t, exec (.heaterFaultClear tile l v) s = .next t ∧
      t.rdf (drvWord (cellOf tile l) 1) 29 3 = 0 ∧ t.rd (cooWord (cellOf tile l) 11) = 0#32 ∧ t.rd (cooWord (cellOf tile l) 12) = 0#32 ∧
      ((t.cell (cellOf tile l)).mode = 0 ∨ (t.cell (cellOf tile l)).mode = 1) ∧
      (t.cell (cellOf tile l)).cross = (s.cell (cellOf tile l)).cross := by
  refine ⟨_, congrArg Host.Outcome.next (if_pos (by simp [hfclr, hfault, hmode])), ?_⟩
  extract_lets s1 s2
  generalize hm : s2.naturalMode (loads s2.ckts s2.cross) (cellOf tile l) = m
  have hdrv : ∀ w, w < 16 → drvWord (cellOf tile l) 1 ≠ cooWord (cellOf tile l) w := fun w hw => drvWord_ne_cooWord tile l hw
  have hcleared : s2.rdf (drvWord (cellOf tile l) 1) 29 3 = 0 := by
    rw [State.rdf_wr_ne _ _ _ _ (hdrv 12 (by omega)), State.rdf_wr_ne _ _ _ _ (hdrv 11 (by omega))]
    exact (congrArg (fld · 29 3) (s.rd_wr_same _ _)).trans (fld_faultBits _)
  have hsound : s2.bit (drvWord (cellOf tile l) 1) 31 = false := by
    have hbit := fld_getLsbD (s2.rd (drvWord (cellOf tile l) 1)) 29 3 2
    rw [show fld (s2.rd (drvWord (cellOf tile l) 1)) 29 3 = 0 from hcleared] at hbit
    simpa [State.bit, wbit] using hbit.symm
  have hcmd : s2.rd (cooWord (cellOf tile l) 11) = 0#32 :=
    (State.rd_wr_ne _ _ (by unfold cooWord; omega)).trans (State.rd_wr_same _ _ _)
  have hwritten : TileKept [drvWord (cellOf tile l) 1, cooWord (cellOf tile l) 11, cooWord (cellOf tile l) 12] [] s s2 :=
    (((TileKept.refl _ _ s).wr _ (.inl (by simp))).wr _ (.inl (by simp))).wr _ (.inl (by simp))
  have hmoved : TileKept (faultWords (cellOf tile l)) [cellOf tile l] s2 (s2.toMode (cellOf tile l) m) :=
    (TileKept.refl _ _ s2).toMode m (modeWords_subset_faultWords _) List.mem_cons_self
  have hcounted : TileKept (faultWords (cellOf tile l)) [] (s2.toMode (cellOf tile l) m)
      (((s2.toMode (cellOf tile l) m).countFaults (tileOf (cellOf tile l))).cooStat (tileOf (cellOf tile l))) :=
    ((TileKept.refl _ _ _).wrf _ _ _ (.inl List.mem_cons_self)).cooStat (List.mem_cons_of_mem _ List.mem_cons_self)
  have hwords := hmoved.trans (hcounted.mono (List.Subset.refl _) (List.nil_subset _))
  have hcell := (hcounted.cells (cellOf tile l)).trans (s2.cell_toMode _ m)
  have hkept := fun w hlow hhigh => hwords.rd _ (cooWord_window _ w) (cooWord_not_faultWords tile l hlow hhigh)
  refine ⟨(hwords.rdf (drvWord_window _ 1) (drvWord_not_faultWords tile l) 29 3).trans hcleared, (hkept 11 (by omega) (by omega)).trans hcmd,
    (hkept 12 (by omega) (by omega)).trans (State.rd_wr_same _ _ _), ?_, by rw [hcell, hwritten.cells]⟩
  rw [hcell, ← hm]
  exact State.naturalMode_sound hsound _

end

/-- Settles O33: no fault without a run of eight readings or beside one that stands; a fault declared; FCLR without a fault and with one. -/
theorem heaterFaults : Obligations.HeaterFaults := by
  unfold Obligations.HeaterFaults
  exact fun s tile l v => ⟨exec_heaterFault_none, heaterFault_declares, exec_heaterFaultClear_none, heaterFaultClear_clears⟩

end Sys2Proof.Machine
end

section
/-! PROOF. O34: fades. -/
namespace Sys2Proof.Machine

/-! ## The start of a fade (R178) -/

theorem State.startFade_cells (s : State) (tile n : Nat) : (s.startFade tile n).cells = s.cells :=
  s.each_kept (xs := tileCells tile) State.cells fun u c => u.settleClamps_cells c

theorem State.startFade_fade (s : State) (tile n : Nat) : ((s.startFade tile n).tileRec tile).fade = some ⟨0, n⟩ :=
  congrArg TileRec.fade (Store.get_set_same _ _ _ _)

section
variable {s : State} {tile : Fin 64}

theorem fadeStart_starts (n : Nat) (hquiet : s.commitNear tile = false) (hnone : (s.tileRec tile).fade = none) :
    ∃ t, exec (.fadeStart tile (some n)) s = .next t ∧ t.bit (Reg.DRV_STAT tile) 24 = true ∧ (t.tileRec tile).fade = some ⟨0, n⟩ ∧
      t.cells = s.cells :=
  ⟨_, congrArg Host.Outcome.next (if_neg (by simp [hquiet, hnone])), State.bit_wrBit_same _ _ _ (by omega), s.startFade_fade tile n,
    s.startFade_cells tile n⟩

theorem exec_fadeStart_waits (n : Option Nat) (hnear : s.commitNear tile = true) : exec (.fadeStart tile n) s = .next s :=
  congrArg Host.Outcome.next (if_pos (by simp [hnear]))

end

/-! ## A cell put into REST (R51, R152, R177) -/

/-- Cell `c` into REST and BAR, its outputs at 0 and its loop stopped: the step of `State.restTile`. -/
def State.restCell (s : State) (c : Nat) : State :=
  let s1 := (((s.toMode c 6).setPbase c 0).setHcode c 0).dropBand c
  let x := { s1.coo c with seg := none, passage := [], htarget := none, cur := CycleSums.zero, cnt := 0, ended := none }
  (s1.setCoo c { x with postLaw := false, postTick := false, inRun := 0, outRun := 0, lastHeld := false }).setCell c
    { s1.cell c with mode := 6, cross := false }

/-- The words that putting a cell into REST may write. -/
def restWords (c : Nat) : List Nat := cooWord c 13 :: Reg.COO_TRSTAT (tileOf c) :: modeWords c

/-- Cell `c` stands in REST and BAR, its outputs at 0 and INBAND clear. -/
structure CellRests (c : Nat) (t : State) : Prop where
  mode : (t.cell c).mode = 6
  cross : (t.cell c).cross = false
  hcode : t.hcode c = 0
  pbase : t.pbase c = 0
  inband : t.bit (cooWord c 7) 31 = false

theorem CellRests.kept {as cs : List Nat} {c : Nat} {s t : State} (h : CellRests c s) (k : TileKept as cs s t) (hc : c ∉ cs)
    (hcodes : cooWord c 13 ∉ as) (hstatus : cooWord c 7 ∉ as) : CellRests c t where
  mode := (congrArg CellRec.mode (k.cell c hc)).trans h.mode
  cross := (congrArg CellRec.cross (k.cell c hc)).trans h.cross
  hcode := (k.rdf (cooWord_window c 13) hcodes 16 14).trans h.hcode
  pbase := (congrArg (sfld · 0 16) (k.rd _ (cooWord_window c 13) hcodes)).trans h.pbase
  inband := (k.bit (cooWord_window c 7) hstatus 31).trans h.inband

section
variable (s : State) (c : Nat)

theorem trstat_ne_cooWord_status : cooWord c 7 ≠ Reg.COO_TRSTAT (tileOf c) := by
  unfold cooWord Reg.COO_CELL_W0 Reg.COO_TRSTAT
  omega

theorem State.dropBand_kept : TileKept [cooWord c 7, Reg.COO_TRSTAT (tileOf c)] [] s (s.dropBand c) :=
  (TileKept.refl _ _ _).dropBand (by simp) (by simp)

theorem State.inband_dropBand : (s.dropBand c).bit (cooWord c 7) 31 = false := by
  unfold State.dropBand
  split
  · have htrace : TileKept [Reg.COO_TRSTAT (tileOf c)] [] (s.wrBit (cooWord c 7) 31 false) ((s.wrBit (cooWord c 7) 31 false).traceFireCell c 1) :=
      (TileKept.refl _ _ _).traceFireCell 1 List.mem_cons_self
    exact (htrace.bit (cooWord_window c 7) (by simpa using trstat_ne_cooWord_status c) 31).trans (State.bit_wrBit_same _ _ _ (by omega))
  · next h => exact Bool.eq_false_iff.2 h

/-- STATE, BAND and SET lie below INBAND in a cell's status word (Table 6-10). -/
theorem State.inband_setCell (x : CellRec) : (s.setCell c x).bit (cooWord c 7) 31 = s.bit (cooWord c 7) 31 := by
  rw [← cellW7_eq]
  unfold State.setCell State.bit putBit
  dsimp only
  rw [State.rd_wr_same, wbit_put_ne _ _ (by omega), wbit_put_ne _ _ (by omega), wbit_put_ne _ _ (by omega)]

theorem State.rd_setCell_ne (x : CellRec) {a : Nat} (h : a ≠ cooWord c 7) : (s.setCell c x).rd a = s.rd a :=
  State.rd_wr_ne _ _ (cellW7_eq c ▸ h)

theorem State.restCell_kept : TileKept (restWords c) [c] s (s.restCell c) := by
  have hmode : modeWords c ⊆ restWords c := fun _ ha => List.mem_cons_of_mem _ (List.mem_cons_of_mem _ ha)
  have hstatus : cooWord c 7 ∈ restWords c := hmode (by simp [modeWords])
  have hcodes : TileKept (restWords c) [c] s (((s.toMode c 6).setPbase c 0).setHcode c 0) :=
    (((TileKept.refl _ _ s).toMode 6 hmode List.mem_cons_self).setPbase 0 List.mem_cons_self).setHcode 0 List.mem_cons_self
  exact ((hcodes.dropBand hstatus (by simp [restWords])).setCoo c _).setCell _ hstatus List.mem_cons_self

theorem State.restCell_band : ((s.restCell c).cell c).band = (s.cell c).band := by
  have hzeroed : TileKept [cooWord c 13] [] (s.toMode c 6) (((s.toMode c 6).setPbase c 0).setHcode c 0) :=
    ((TileKept.refl _ _ _).setPbase 0 List.mem_cons_self).setHcode 0 List.mem_cons_self
  unfold State.restCell
  extract_lets s1 x
  rw [State.cell_setCell_same]
  calc (s1.cell c).band = ((s.toMode c 6).cell c).band := congrArg CellRec.band ((State.dropBand_kept _ c).cells c |>.trans (hzeroed.cells c))
    _ = (s.cell c).band := by rw [State.cell_toMode]

theorem State.restCell_rests : CellRests c (s.restCell c) := by
  have hstatus : cooWord c 13 ≠ cooWord c 7 := by
    unfold cooWord
    omega
  have htrace : cooWord c 13 ≠ Reg.COO_TRSTAT (tileOf c) := by
    unfold cooWord Reg.COO_CELL_W0 Reg.COO_TRSTAT
    omega
  have hcodes : (s.restCell c).rd (cooWord c 13) = (((s.toMode c 6).setPbase c 0).setHcode c 0).rd (cooWord c 13) :=
    (State.rd_setCell_ne _ c _ hstatus).trans ((State.dropBand_kept _ c).rd _ (cooWord_window c 13) (by simp [hstatus, htrace]))
  refine ⟨?_, ?_, ?_, ?_, ?_⟩
  · exact congrArg CellRec.mode (State.cell_setCell_same _ c _)
  · exact congrArg CellRec.cross (State.cell_setCell_same _ c _)
  · exact (congrArg (fld · 16 14) hcodes).trans (State.hcode_setHcode _ c 0)
  · exact (congrArg (sfld · 0 16) hcodes).trans ((State.pbase_setHcode _ c 0).trans (State.pbase_setPbase _ c (by decide) (by decide)))
  · exact (State.inband_setCell _ c _).trans (State.inband_dropBand _ c)

end

/-! ## A tile put into REST -/

/-- Putting a cell into REST writes none of the words by which another cell of its tile rests. -/
theorem not_mem_restWords (tile : Fin 64) {k l w : Nat} (hk : k < 76) (hl : l < 76) (hne : k ≠ l) (hw : w < 16) :
    cooWord (cellOf tile l) w ∉ restWords (cellOf tile k) := by
  simp only [restWords, modeWords, cooWord_cellOf, drvWord_cellOf, tileOf_cellOf, List.mem_cons, List.not_mem_nil, or_false]
  unfold tileAddr Reg.COO_TRSTAT Reg.DRV_ERRSTAT
  omega

section
variable (s : State) (tile : Fin 64)

/-- With every cell in REST, the tile's status word is brought up to date. -/
theorem State.restTile_shown : TileKept [Reg.COO_STAT tile] [] (s.each (tileCells tile) State.restCell) (s.restTile tile) :=
  (TileKept.refl _ [] (s.each (tileCells tile) State.restCell)).cooStat List.mem_cons_self

theorem State.restTile_rests {l : Nat} (hl : l < 76) : CellRests (cellOf tile l) (s.restTile tile) := by
  have hmem : cellOf tile l ∈ tileCells tile := List.mem_map_of_mem (List.mem_range.2 hl)
  have hrests : CellRests (cellOf tile l) (s.each (tileCells tile) State.restCell) := by
    refine State.each_establishes (I := fun _ => True) hmem trivial (fun _ _ _ _ => trivial) (fun u _ => u.restCell_rests _) ?_
    intro u d hd hne hrests
    obtain ⟨k, hk, rfl⟩ := List.mem_map.1 hd
    have hother : k ≠ l := fun h => hne (h ▸ rfl)
    have hkept := fun w => not_mem_restWords tile (w := w) (List.mem_range.1 hk) hl hother
    exact hrests.kept (u.restCell_kept _) (by simpa using Ne.symm hne) (hkept 13 (by omega)) (hkept 7 (by omega))
  have hstat : ∀ w, cooWord (cellOf tile l) w ∉ [Reg.COO_STAT tile] := fun w hw => by
    rw [List.mem_singleton, cooWord_cellOf] at hw
    unfold tileAddr Reg.COO_STAT at hw
    omega
  exact hrests.kept (s.restTile_shown tile) List.not_mem_nil (hstat 13) (hstat 7)

theorem State.restTile_band (c : Nat) : ((s.restTile tile).cell c).band = (s.cell c).band := by
  rw [(s.restTile_shown tile).cells]
  refine s.each_kept (fun u => (u.cell c).band) fun u d => ?_
  by_cases hdc : c = d
  · subst hdc
    exact u.restCell_band c
  · exact congrArg CellRec.band ((u.restCell_kept d).cell c (by simpa using hdc))

theorem State.restTile_fade (k : Nat) : ((s.restTile tile).tileRec k).fade = (s.tileRec k).fade :=
  ((s.restTile_shown tile).fade k).trans (s.each_kept (fun u => (u.tileRec k).fade) fun u d => (u.restCell_kept d).fade k)

end

/-! ## The end of a fade -/

section
variable {s : State} {tile : Fin 64}

theorem exec_fadeEnd_none (h : (s.tileRec tile).fade = none) : exec (.fadeEnd tile) s = .next s :=
  if_neg (by simp [h])

theorem exec_fadeEnd_ends (h : (s.tileRec tile).fade.isSome = true) : exec (.fadeEnd tile) s =
    .next (((s.setTileRec tile { s.tileRec tile with fade := none }).restTile tile).wrBit (Reg.DRV_STAT tile) 24 false) :=
  if_pos h

theorem fadeEnd_rests (h : (s.tileRec tile).fade.isSome = true) : ∃ t, exec (.fadeEnd tile) s = .next t ∧
    t.bit (Reg.DRV_STAT tile) 24 = false ∧ (t.tileRec tile).fade = none ∧
    ∀ l, l < 76 → CellRests (cellOf tile l) t ∧ (t.cell (cellOf tile l)).band = (s.cell (cellOf tile l)).band := by
  have hclear := (TileKept.refl [Reg.DRV_STAT tile] [] ((s.setTileRec tile { s.tileRec tile with fade := none }).restTile tile)).wrBit 24 false
    (.inl List.mem_cons_self)
  refine ⟨_, exec_fadeEnd_ends h, State.bit_wrBit_same _ _ _ (by omega), ?_, fun l hl => ⟨?_, ?_⟩⟩
  · rw [hclear.fade, State.restTile_fade, State.tileRec_setTileRec_same]
  · have hstat : ∀ w, w < 16 → cooWord (cellOf tile l) w ∉ [Reg.DRV_STAT tile] := fun w hw hmem => by
      rw [List.mem_singleton, cooWord_cellOf] at hmem
      unfold tileAddr Reg.DRV_STAT at hmem
      omega
    exact (State.restTile_rests _ tile hl).kept hclear List.not_mem_nil (hstat 13 (by omega)) (hstat 7 (by omega))
  · rw [hclear.cells, State.restTile_band]
    rfl

end

/-- Settles O34: a fade started and one that waits for a commit; a fade ended, cell by cell, and none to end. -/
theorem fadesEndInRest : Obligations.FadesEndInRest := by
  unfold Obligations.FadesEndInRest
  refine fun s tile => ⟨fadeStart_starts, exec_fadeStart_waits, fun h => ?_, exec_fadeEnd_none⟩
  obtain ⟨t, hexec, hfading, hfade, hcells⟩ := fadeEnd_rests h
  refine ⟨t, hexec, hfading, hfade, fun l hl => ?_⟩
  obtain ⟨hrests, hband⟩ := hcells l hl
  exact ⟨hrests.mode, hrests.cross, hband, hrests.hcode, hrests.pbase, hrests.inband⟩

end Sys2Proof.Machine
end


section
/-! PROOF. For O36 to O40 and O58: what the monitors' and start-up's updates leave alone. -/
namespace Sys2Proof.Machine

/-- From `s` to `t`, of the words beside the ring descriptors only those in `W` have changed, and of the copies in force only those in `L`;
the converters, the image, the full calibration and the wear records are as before. -/
structure KeptBut (W L : Nat → Prop) (s t : State) : Prop where
  rd : ∀ a, ¬ W a → isRingWord a = false → t.rd a = s.rd a
  rdLive : ∀ a, ¬ L a → t.rdLive a = s.rdLive a
  mons : t.mons = s.mons
  image : t.image = s.image
  fullcal : t.fullcal = s.fullcal
  wearA : t.wearA = s.wearA
  wearB : t.wearB = s.wearB

namespace KeptBut

variable {W L : Nat → Prop} {s t : State}

theorem refl (W L : Nat → Prop) (s : State) : KeptBut W L s s := ⟨fun _ _ _ => rfl, fun _ _ => rfl, rfl, rfl, rfl, rfl, rfl⟩

theorem trans {u : State} (h : KeptBut W L s t) (k : KeptBut W L t u) : KeptBut W L s u :=
  ⟨fun a ha hr => (k.rd a ha hr).trans (h.rd a ha hr), fun a ha => (k.rdLive a ha).trans (h.rdLive a ha), k.mons.trans h.mons,
    k.image.trans h.image, k.fullcal.trans h.fullcal, k.wearA.trans h.wearA, k.wearB.trans h.wearB⟩

theorem bit (h : KeptBut W L s t) {a : Nat} (ha : ¬ W a) (hr : isRingWord a = false) (i : Nat) : t.bit a i = s.bit a i :=
  congrArg (wbit · i) (h.rd a ha hr)

theorem rdf (h : KeptBut W L s t) {a : Nat} (ha : ¬ W a) (hr : isRingWord a = false) (lo n : Nat) : t.rdf a lo n = s.rdf a lo n :=
  congrArg (fld · lo n) (h.rd a ha hr)

theorem mon (h : KeptBut W L s t) (k : Nat) : t.mon k = s.mon k := congrArg (Store.get MonRec.zero · k) h.mons

/-- An update of the state's other fields. -/
theorem update {u : State} (h : KeptBut W L s t)
    (hwords : u.words = t.words ∧ u.live = t.live := by exact ⟨rfl, rfl⟩)
    (hrest : u.mons = t.mons ∧ u.image = t.image ∧ u.fullcal = t.fullcal ∧ u.wearA = t.wearA ∧ u.wearB = t.wearB := by
      exact ⟨rfl, rfl, rfl, rfl, rfl⟩) : KeptBut W L s u := by
  obtain ⟨hword, hlive⟩ := hwords
  obtain ⟨hmons, himage, hfullcal, hwearA, hwearB⟩ := hrest
  exact h.trans ⟨fun a _ _ => congrArg (Store.get (resetWord a) · a) hword, fun a _ => congrArg (Store.get (resetWord a) · a) hlive,
    hmons, himage, hfullcal, hwearA, hwearB⟩

theorem setCoo (h : KeptBut W L s t) (c : Nat) (x : CooRec) : KeptBut W L s (t.setCoo c x) := h.update

theorem setChan (h : KeptBut W L s t) (tile ch : Nat) (x : ChanRec) : KeptBut W L s (t.setChan tile ch x) := h.update

theorem setLightRun (h : KeptBut W L s t) (out : Bool) (k : Nat) (x : LightRun) : KeptBut W L s (t.setLightRun out k x) := h.update

theorem wr (h : KeptBut W L s t) {a : Nat} (v : Word) (ha : W a) : KeptBut W L s (t.wr a v) :=
  h.trans ⟨fun _ hb _ => t.rd_wr_ne v (by rintro rfl; exact hb ha), fun _ _ => rfl, rfl, rfl, rfl, rfl, rfl⟩

theorem wrf (h : KeptBut W L s t) {a : Nat} (lo n v : Nat) (ha : W a) : KeptBut W L s (t.wrf a lo n v) := h.wr _ ha

theorem wrBit (h : KeptBut W L s t) {a : Nat} (i : Nat) (b : Bool) (ha : W a) : KeptBut W L s (t.wrBit a i b) := h.wr _ ha

theorem count (h : KeptBut W L s t) {a : Nat} (lo n k : Nat) (ha : W a) : KeptBut W L s (t.count a lo n k) := h.wr _ ha

theorem wrMask (h : KeptBut W L s t) {a : Nat} (m v : Word) (ha : W a) : KeptBut W L s (t.wrMask a m v) := h.wr _ ha

theorem wrLive (h : KeptBut W L s t) {a : Nat} (v : Word) (ha : L a) : KeptBut W L s (t.wrLive a v) :=
  h.trans ⟨fun _ _ _ => rfl, fun _ hb => t.rdLive_wrLive_ne v (by rintro rfl; exact hb ha), rfl, rfl, rfl, rfl, rfl⟩

theorem when (h : KeptBut W L s t) (b : Bool) {f : State → State} (hf : KeptBut W L s (f t)) : KeptBut W L s (t.when b f) := by
  cases b with
  | false => exact h
  | true => exact hf

theorem foldl {α : Type} (h : KeptBut W L s t) (xs : List α) {f : State → α → State}
    (hf : ∀ u x, x ∈ xs → KeptBut W L s u → KeptBut W L s (f u x)) : KeptBut W L s (xs.foldl f t) :=
  List.foldlRecOn xs f h fun u hu x hx => hf u x hx hu

/-- What changes words and delivers events changes nothing else. -/
theorem events {as : List Nat} {u : State} (h : KeptBut W L s t) (hevents : WordsAndEvents as t u) (has : ∀ a ∈ as, W a) :
    KeptBut W L s u := by
  have hrest := hevents.2
  exact h.trans ⟨fun a ha hr => hevents.rd (fun hmem => ha (has a hmem)) hr, fun a _ => hevents.rdLive a, by rw [hrest], by rw [hrest],
    by rw [hrest], by rw [hrest], by rw [hrest]⟩

theorem err (h : KeptBut W L s t) {a : Nat} (i : Nat) (ha : W a) : KeptBut W L s (t.err a i) :=
  h.events (State.err_events (.refl [a] t) i (List.mem_singleton.2 rfl)) fun _ hb => List.mem_singleton.1 hb ▸ ha

theorem errCores (h : KeptBut W L s t) {a : Nat} (i : Nat) (ha : W a) : KeptBut W L s (t.errCores a i) :=
  h.events (State.errCores_events (.refl [a] t) i (List.mem_singleton.2 rfl)) fun _ hb => List.mem_singleton.1 hb ▸ ha

end KeptBut

/-! ## The converters of a tile -/

theorem State.mon_setMon_same (s : State) (tile : Nat) (x : MonRec) : (s.setMon tile x).mon tile = x := Store.get_set_same _ _ _ _

@[simp] theorem State.rd_setMon (s : State) (tile : Nat) (x : MonRec) (a : Nat) : (s.setMon tile x).rd a = s.rd a := rfl

@[simp] theorem State.bit_setMon (s : State) (tile : Nat) (x : MonRec) (a i : Nat) : (s.setMon tile x).bit a i = s.bit a i := rfl

theorem State.setMon_onlyMons (s : State) (tile : Nat) (x : MonRec) : OnlyWords [] { s with mons := (s.setMon tile x).mons } (s.setMon tile x) :=
  OnlyWords.refl _ _

theorem State.invrem_lt (s : State) (tile ch : Nat) : s.invrem tile ch < 128 := fld_lt _ 24 7

/-- An error bit of a word in the tile windows. -/
theorem State.err_window (s : State) {a i : Nat} (hi : i < 32) (ha : 0x2000000 ≤ a) :
    (s.err a i).bit a i = true ∧ WordsAndEvents [a] s (s.err a i) :=
  ⟨s.err_bit hi (isRingWord_of_window ha), State.err_events (.refl _ s) i (List.mem_singleton.2 rfl)⟩

end Sys2Proof.Machine
end


section
/-! PROOF. O37: the monitors' commands and the end of a self-calibration. -/
namespace Sys2Proof.Machine

section
variable {s : State} {tile : Fin 64} {v : Word}

/-! ## SEQAPPLY (R189) -/

theorem State.err_monErrstat (s : State) (tile : Nat) {i : Nat} (hi : i < 32) :
    (s.err (Reg.MON_ERRSTAT tile) i).bit (Reg.MON_ERRSTAT tile) i = true ∧
      WordsAndEvents [Reg.MON_ERRSTAT tile] s (s.err (Reg.MON_ERRSTAT tile) i) :=
  s.err_window hi (by unfold Reg.MON_ERRSTAT; omega)

theorem sequenceApply_waits (h : s.modef tile ≠ 0 ∨ seqSound (s.seqStaged tile) = true) : ∃ t, exec (.sequenceApply tile) s = .next t ∧
    t.bit (Reg.MON_CTRL tile) 4 = true ∧ OnlyWords [Reg.MON_CTRL tile] s t := by
  have hwaits : s.askSequence tile = s.wrBit (Reg.MON_CTRL tile) 4 true := by
    refine if_neg fun hrefused => ?_
    rcases h with h | h <;> simp [h] at hrefused
  exact ⟨_, congrArg Host.Outcome.next hwaits, s.bit_wrBit_same _ _ (by omega), (OnlyWords.refl _ s).wrBit _ _ List.mem_cons_self⟩

theorem sequenceApply_refused (hrun : s.modef tile = 0) (hunsound : seqSound (s.seqStaged tile) = false) :
    ∃ t, exec (.sequenceApply tile) s = .next t ∧ t.bit (Reg.MON_ERRSTAT tile) 0 = true ∧ WordsAndEvents [Reg.MON_ERRSTAT tile] s t :=
  ⟨_, congrArg Host.Outcome.next (if_pos (by simp [hrun, hunsound])), s.err_monErrstat tile (by omega)⟩

/-! ## Urgent requests (R191) -/

theorem urgentRequest_ignored (hgo : wbit v 31 = true) (hwaits : s.bit (Reg.MON_URGSTAT tile) 29 = true) :
    ∃ t, exec (.urgentRequest tile v) s = .next t ∧ t.bit (Reg.MON_ERRSTAT tile) 0 = true ∧ WordsAndEvents [Reg.MON_ERRSTAT tile] s t :=
  ⟨_, congrArg Host.Outcome.next (if_pos (by simp [hgo, hwaits])), s.err_monErrstat tile (by omega)⟩

theorem urgentRequest_waits (hgo : wbit v 31 = true) (hnone : s.bit (Reg.MON_URGSTAT tile) 29 = false) :
    ∃ t, exec (.urgentRequest tile v) s = .next t ∧ t.bit (Reg.MON_URGSTAT tile) 29 = true ∧ t.bit (Reg.MON_URGSTAT tile) 31 = false ∧
      OnlyWords [Reg.MON_URGREQ tile, Reg.MON_URGSTAT tile] s t := by
  have hwrite : s.writeUrgent tile v =
      (s.writeReg (Reg.MON_URGREQ tile) (putBit v 31 false)).wr (Reg.MON_URGSTAT tile) (pack [(29, 1, 1)]) :=
    (if_neg (by simp [hnone])).trans (if_pos hgo)
  have hstat : ∀ (u : State) i, (u.wr (Reg.MON_URGSTAT tile) (pack [(29, 1, 1)])).bit (Reg.MON_URGSTAT tile) i = wbit (pack [(29, 1, 1)]) i :=
    fun u i => congrArg (wbit · i) (u.rd_wr_same _ _)
  refine ⟨_, congrArg Host.Outcome.next hwrite, (hstat _ 29).trans (by decide), (hstat _ 31).trans (by decide), ?_⟩
  exact ((OnlyWords.refl _ s).writeReg _ List.mem_cons_self).wr _ (by simp)

/-! ## Self-calibration commands (R204) -/

theorem selfCalibrationCommand_ignored (hasked : fld v 8 4 ≠ 0) (hrun : s.modef tile = 0) :
    ∃ t, exec (.selfCalibrationCommand tile v) s = .next t ∧ t.bit (Reg.MON_ERRSTAT tile) 0 = true ∧
      WordsAndEvents [Reg.MON_ERRSTAT tile] s t :=
  ⟨_, congrArg Host.Outcome.next ((if_neg hasked).trans (if_pos hrun)), s.err_monErrstat tile (by omega)⟩

theorem selfCalibrationCommand_shows (a : Fin 4) (hasked : wbit v (8 + a) = true) (hmode : s.modef tile ≠ 0) :
    ∃ t, exec (.selfCalibrationCommand tile v) s = .next t ∧ t.bit (Reg.MON_CTRL tile) (8 + a) = true ∧
      OnlyWords [Reg.MON_CTRL tile] s t := by
  have hfield : fld v 8 4 ≠ 0 := fun hzero => by
    have hbit := fld_getLsbD v 8 4 a
    rw [hzero, Nat.zero_testBit, decide_eq_true a.isLt, Bool.true_and] at hbit
    exact Bool.noConfusion (hbit.trans hasked)
  have hmask : ∀ b : Fin 4, (0xF00#32).getLsbD (8 + b) = true := by decide
  refine ⟨_, congrArg Host.Outcome.next ((if_neg hfield).trans (if_neg hmode)), ?_, (OnlyWords.refl _ s).wr _ List.mem_cons_self⟩
  unfold State.bit
  unfold wbit at hasked ⊢
  rw [State.rd_wr_same, BitVec.getLsbD_or, BitVec.getLsbD_and, hasked, hmask, Bool.and_self, Bool.or_true]

/-! ## Triggers (R205) -/

/-- A trigger counts: ONESHOT, outside RUN and outside a burst. -/
def State.triggerCounts (s : State) (tile : Nat) : Bool :=
  s.bit (Reg.MON_CTRL tile) 5 && s.modef tile != 0 && !s.bit (Reg.MON_STAT tile) 8

theorem exec_conversionTrigger : exec (.conversionTrigger tile) s =
    .next (if s.triggerCounts tile then s.setMon tile { s.mon tile with burstReq := true } else s) := rfl

theorem conversionTrigger_asks (s : State) (tile : Fin 64) : ∃ t, exec (.conversionTrigger tile) s = .next t ∧
    ((t.mon tile).burstReq = true ↔ (s.mon tile).burstReq = true ∨
      (s.bit (Reg.MON_CTRL tile) 5 = true ∧ s.modef tile ≠ 0 ∧ s.bit (Reg.MON_STAT tile) 8 = false)) ∧
    OnlyWords [] { s with mons := t.mons } t := by
  have hcounts : s.triggerCounts tile = true ↔
      s.bit (Reg.MON_CTRL tile) 5 = true ∧ s.modef tile ≠ 0 ∧ s.bit (Reg.MON_STAT tile) 8 = false := by
    simp [State.triggerCounts, and_assoc]
  refine ⟨_, exec_conversionTrigger, ?_⟩
  rw [← hcounts]
  by_cases h : s.triggerCounts tile = true
  · rw [if_pos h, State.mon_setMon_same]
    exact ⟨by simp [h], State.setMon_onlyMons _ _ _⟩
  · rw [if_neg h]
    exact ⟨by simp [h], OnlyWords.refl _ s⟩

end

/-! ## The end of a self-calibration (R204) -/

/-- The configuration words of a tile's channels, which hold their INVREM. -/
def ChcfgWord (tile a : Nat) : Prop := Reg.MON_CHCFG tile 0 ≤ a ∧ a < Reg.MON_CHCFG tile 92

theorem chcfgWord {tile ch : Nat} (h : ch < 92) : ChcfgWord tile (Reg.MON_CHCFG tile ch) := by
  unfold ChcfgWord Reg.MON_CHCFG
  omega

theorem not_chcfgWord {tile a : Nat} (h : a < 0x2020400 + 0x40000 * tile) : ¬ ChcfgWord tile a := by
  unfold ChcfgWord Reg.MON_CHCFG
  omega

theorem KeptBut.invalidateChan {W L : Nat → Prop} {s t : State} (h : KeptBut W L s t) {tile ch : Nat} (n : Nat)
    (ha : W (Reg.MON_CHCFG tile ch)) : KeptBut W L s (t.invalidateChan tile ch n) := h.wrf _ _ _ ha

/-- The channels that converter `a` converts first. -/
def State.channelsOf (s : State) (tile a : Nat) : List Nat :=
  (List.range 92).filter fun ch => (firstEntry (s.seqLive tile) ch).any fun i => i / 23 == a

/-- SCAL of converter `a` cleared, and its channels' invalid samples owed. -/
def State.scalEnded (s : State) (tile a : Nat) : State :=
  let x := s.mon tile
  (s.channelsOf tile a).foldl (fun u ch => u.invalidateChan tile ch (if x.powerUp.contains a then 16 else 2))
    ((s.wrBit (Reg.MON_CTRL tile) (8 + a) false).setMon tile { x with powerUp := x.powerUp.filter (· != a) })

theorem State.rd_scalEnded (s : State) (tile a : Nat) :
    (s.scalEnded tile a).rd (Reg.MON_CTRL tile) = (s.wrBit (Reg.MON_CTRL tile) (8 + a) false).rd (Reg.MON_CTRL tile) := by
  have hkept : KeptBut (ChcfgWord tile) (fun _ => False)
      ((s.wrBit (Reg.MON_CTRL tile) (8 + a) false).setMon tile { s.mon tile with powerUp := (s.mon tile).powerUp.filter (· != a) })
      (s.scalEnded tile a) :=
    (KeptBut.refl _ _ _).foldl _ fun u ch hch hu => hu.invalidateChan _ (chcfgWord (List.mem_range.1 (List.mem_of_mem_filter hch)))
  exact hkept.rd _ (not_chcfgWord (by unfold Reg.MON_CTRL; omega)) (isRingWord_of_window (by unfold Reg.MON_CTRL; omega))

section
variable {s : State} {tile : Fin 64} {a : Fin 4}

theorem exec_adcCalibrationDone_good (h : s.bit (Reg.MON_CTRL tile) (8 + a) = true) : exec (.adcCalibrationDone tile a true) s =
    .next (((s.scalEnded tile a).wrBit (Reg.MON_STAT tile) (16 + a) true).wrBit (Reg.MON_STAT tile) (24 + a) false) := if_pos h

theorem exec_adcCalibrationDone_bad (h : s.bit (Reg.MON_CTRL tile) (8 + a) = true) : exec (.adcCalibrationDone tile a false) s =
    .next (((s.scalEnded tile a).wrBit (Reg.MON_STAT tile) (24 + a) true).err (Reg.MON_ERRSTAT tile) 2) := if_pos h

theorem exec_adcCalibrationDone_idle (ok : Bool) (h : s.bit (Reg.MON_CTRL tile) (8 + a) = false) :
    exec (.adcCalibrationDone tile a ok) s = .next s := if_neg (by simp [h])

theorem State.scal_cleared (s : State) (tile : Fin 64) (a : Fin 4) : (s.scalEnded tile a).bit (Reg.MON_CTRL tile) (8 + a) = false :=
  (congrArg (wbit · (8 + a)) (s.rd_scalEnded tile a)).trans (s.bit_wrBit_same _ _ (by omega))

theorem adcCalibrationDone_good (h : s.bit (Reg.MON_CTRL tile) (8 + a) = true) : ∃ t, exec (.adcCalibrationDone tile a true) s = .next t ∧
    t.bit (Reg.MON_CTRL tile) (8 + a) = false ∧ t.bit (Reg.MON_STAT tile) (24 + a) = false ∧ t.bit (Reg.MON_STAT tile) (16 + a) = true := by
  have hword : Reg.MON_CTRL tile ≠ Reg.MON_STAT tile := by
    unfold Reg.MON_CTRL Reg.MON_STAT
    omega
  refine ⟨_, exec_adcCalibrationDone_good h, ?_, State.bit_wrBit_same _ _ _ (by omega), ?_⟩
  · exact ((State.bit_wr_ne _ _ _ hword).trans (State.bit_wr_ne _ _ _ hword)).trans (s.scal_cleared tile a)
  · exact (State.bit_wrBit_ne _ _ _ (by omega)).trans (State.bit_wrBit_same _ _ _ (by omega))

theorem adcCalibrationDone_bad (h : s.bit (Reg.MON_CTRL tile) (8 + a) = true) : ∃ t, exec (.adcCalibrationDone tile a false) s = .next t ∧
    t.bit (Reg.MON_CTRL tile) (8 + a) = false ∧ t.bit (Reg.MON_STAT tile) (24 + a) = true ∧ t.bit (Reg.MON_ERRSTAT tile) 2 = true := by
  have hword : Reg.MON_CTRL tile ≠ Reg.MON_STAT tile := by
    unfold Reg.MON_CTRL Reg.MON_STAT
    omega
  have hkept : ∀ (u : State) {b : Nat}, b < 0x2020008 + 0x40000 * tile.val → 0x2000000 ≤ b → ∀ i,
      (u.err (Reg.MON_ERRSTAT tile) 2).bit b i = u.bit b i := fun u b hb hwindow i =>
    congrArg (wbit · i) (u.rd_err_ne 2 (by unfold Reg.MON_ERRSTAT; omega) (isRingWord_of_window hwindow))
  refine ⟨_, exec_adcCalibrationDone_bad h, ?_, ?_, (State.err_monErrstat _ tile (by omega)).1⟩
  · rw [hkept _ (by unfold Reg.MON_CTRL; omega) (by unfold Reg.MON_CTRL; omega)]
    exact (State.bit_wr_ne _ _ _ hword).trans (s.scal_cleared tile a)
  · rw [hkept _ (by unfold Reg.MON_STAT; omega) (by unfold Reg.MON_STAT; omega)]
    exact State.bit_wrBit_same _ _ _ (by omega)

end

/-- Settles O37: SEQAPPLY, urgent requests, self-calibration commands and triggers, each taken and refused, and a self-calibration's end. -/
theorem monitorControls : Obligations.MonitorControls := by
  unfold Obligations.MonitorControls
  refine ⟨fun s tile v => ⟨sequenceApply_waits, sequenceApply_refused, urgentRequest_ignored, urgentRequest_waits,
    selfCalibrationCommand_ignored, selfCalibrationCommand_shows, conversionTrigger_asks s tile⟩, fun s tile a ok => ?_⟩
  refine ⟨fun h => ?_, exec_adcCalibrationDone_idle ok⟩
  cases ok with
  | true =>
    obtain ⟨t, hexec, hscal, hfailed, hok⟩ := adcCalibrationDone_good h
    exact ⟨t, hexec, hscal, hfailed, fun _ => hok, Bool.noConfusion⟩
  | false =>
    obtain ⟨t, hexec, hscal, hfailed, herr⟩ := adcCalibrationDone_bad h
    exact ⟨t, hexec, hscal, hfailed, Bool.noConfusion, fun _ => herr⟩

end Sys2Proof.Machine
end


section
/-! PROOF. O38: snapshot requests, triggers, clears, and the snapshot. -/
namespace Sys2Proof.Machine

/-! ## Requests, triggers and clears (R199, R200) -/

section
variable {s : State} {tile : Fin 64} {v : Word}

theorem snapshotRequest_waits (hgo : wbit v 31 = true) : ∃ t, exec (.snapshotRequest tile v) s = .next t ∧
    t.bit (Reg.TAL_SNAP tile) 31 = true ∧ (t.mon tile).snapWait.isSome = true ∧
    OnlyWords [Reg.TAL_SNAP tile] { s with mons := t.mons } t := by
  have hexec : exec (.snapshotRequest tile v) s =
      .next (((s.wrMask (Reg.TAL_SNAP tile) 1#32 v).wrBit (Reg.TAL_SNAP tile) 31 true).askSnapshot tile (wbit v 0)) :=
    congrArg Host.Outcome.next (if_pos hgo)
  refine ⟨_, hexec, ?_, ?_, ?_⟩
  · rw [State.askSnapshot, State.bit_setMon, State.bit_wrBit_same _ _ _ (by omega)]
  · rw [State.askSnapshot, State.mon_setMon_same]
    rfl
  · exact OnlyWords.wrBit ((OnlyWords.refl _ _).wrMask 1#32 v List.mem_cons_self) 31 true List.mem_cons_self

theorem snapshotTrigger_disabled (h : s.bit (Reg.TAL_CTRL tile) 0 = false) : exec (.snapshotTrigger tile) s = .next s :=
  congrArg Host.Outcome.next (if_neg (Bool.eq_false_iff.1 h))

theorem snapshotTrigger_asks (henabled : s.bit (Reg.TAL_CTRL tile) 0 = true) (hidle : (s.mon tile).snapWait = none) :
    ∃ t, exec (.snapshotTrigger tile) s = .next t ∧ (t.mon tile).snapWait = some (s.bit (Reg.TAL_CTRL tile) 1) ∧
      OnlyWords [] { s with mons := t.mons } t := by
  have hexec : exec (.snapshotTrigger tile) s = .next (s.askSnapshot tile (s.bit (Reg.TAL_CTRL tile) 1)) := by
    refine congrArg Host.Outcome.next ((if_pos henabled).trans ?_)
    rw [hidle]
    exact State.when_false _ _
  refine ⟨_, hexec, ?_, State.setMon_onlyMons _ _ _⟩
  rw [State.askSnapshot, State.mon_setMon_same, hidle]
  exact congrArg some (Bool.or_false _)

theorem channelClear_adds (s : State) (tile : Fin 64) (v : Word) (w : Fin 3) : ∃ t, exec (.channelClear tile w v) s = .next t ∧
    t.rd (Reg.TAL_CLR tile w) = s.rd (Reg.TAL_CLR tile w) ||| (if w.val = 2 then v &&& 0x0FFFFFFF#32 else v) ∧
    OnlyWords [Reg.TAL_CLR tile w] s t :=
  ⟨_, rfl, s.rd_wr_same _ _, (OnlyWords.refl _ s).wr _ List.mem_cons_self⟩

end

/-! ## The words of the live blocks and of the snapshot -/

/-- A word of a tile's live blocks. -/
def LiveWord (tile a : Nat) : Prop := Reg.TAL_LIVE_W0 tile 0 ≤ a ∧ a < Reg.TAL_LIVE_W0 tile 92

theorem liveWord_w7 {tile ch : Nat} (hch : ch < 92) : LiveWord tile (Reg.TAL_LIVE_W7 tile ch) := by
  unfold LiveWord Reg.TAL_LIVE_W0 Reg.TAL_LIVE_W7
  omega

theorem not_liveWord_of_low {tile a : Nat} (h : a < 0x2030100 + 0x40000 * tile) : ¬ LiveWord tile a := by
  unfold LiveWord Reg.TAL_LIVE_W0
  omega

theorem KeptBut.noteStale {W L : Nat → Prop} {s t : State} (h : KeptBut W L s t) {tile ch : Nat} (ha : W (Reg.TAL_LIVE_W7 tile ch)) :
    KeptBut W L s (t.noteStale tile ch) := h.wr _ ha

/-- STALE of every channel's live block brought up to date. -/
def State.noteStales (s : State) (tile : Nat) : State := s.each (List.range 92) fun u ch => u.noteStale tile ch

theorem State.noteStales_kept (s : State) (tile : Nat) : KeptBut (LiveWord tile) (fun _ => False) s (s.noteStales tile) :=
  (KeptBut.refl _ _ s).foldl _ fun _ _ hch hu => hu.noteStale (liveWord_w7 (List.mem_range.1 hch))

/-- STALE stands in W7: the other words of a live block stay. -/
theorem State.rd_noteStales_low (s : State) {tile ch k : Nat} (hk : k < 7) :
    (s.noteStales tile).rd (Reg.TAL_LIVE_W0 tile ch + 4 * k) = s.rd (Reg.TAL_LIVE_W0 tile ch + 4 * k) :=
  s.rd_each fun u d _ => u.rd_wr_ne _ (by unfold Reg.TAL_LIVE_W0 Reg.TAL_LIVE_W7; omega)

/-- A live block copied to the snapshot. -/
def State.copyBlock (s : State) (tile ch : Nat) : State :=
  s.each (List.range 8) fun u k => u.wr (Reg.TAL_SNAPBLK_W0 tile ch + 4 * k) (u.rd (Reg.TAL_LIVE_W0 tile ch + 4 * k))

theorem State.rd_copyBlock_ne (s : State) {tile ch a : Nat}
    (h : a < Reg.TAL_SNAPBLK_W0 tile ch ∨ Reg.TAL_SNAPBLK_W0 tile (ch + 1) ≤ a) : (s.copyBlock tile ch).rd a = s.rd a :=
  s.rd_each fun u k hk => u.rd_wr_ne _ (by
    have := List.mem_range.1 hk
    unfold Reg.TAL_SNAPBLK_W0 at *
    omega)

theorem State.rd_copyBlock_live (s : State) {tile ch d k : Nat} (hd : d < 92) (hk : k < 8) :
    (s.copyBlock tile ch).rd (Reg.TAL_LIVE_W0 tile d + 4 * k) = s.rd (Reg.TAL_LIVE_W0 tile d + 4 * k) :=
  s.rd_copyBlock_ne (.inl (by unfold Reg.TAL_LIVE_W0 Reg.TAL_SNAPBLK_W0; omega))

theorem State.rd_copyBlock_same (s : State) {tile ch k : Nat} (hk : k < 8) :
    (s.copyBlock tile ch).rd (Reg.TAL_SNAPBLK_W0 tile ch + 4 * k) = s.rd (Reg.TAL_LIVE_W0 tile ch + 4 * k) := by
  refine State.each_establishes (I := fun u => u.rd (Reg.TAL_LIVE_W0 tile ch + 4 * k) = s.rd (Reg.TAL_LIVE_W0 tile ch + 4 * k))
    (x := k) (List.mem_range.2 hk) rfl (fun u j _ hu => (u.rd_wr_ne _ ?_).trans hu) (fun u hu => (u.rd_wr_same _ _).trans hu)
    (fun u j _ hjk hu => (u.rd_wr_ne _ ?_).trans hu)
  · unfold Reg.TAL_LIVE_W0 Reg.TAL_SNAPBLK_W0
    omega
  · omega

/-- Every live block copied to the snapshot. -/
def State.copyBlocks (s : State) (tile : Nat) : State := s.each (List.range 92) fun u ch => u.copyBlock tile ch

theorem State.rd_copyBlocks_low (s : State) {tile a : Nat} (h : a < Reg.TAL_SNAPBLK_W0 tile 0) : (s.copyBlocks tile).rd a = s.rd a :=
  s.rd_each fun u _ _ => u.rd_copyBlock_ne (.inl (by unfold Reg.TAL_SNAPBLK_W0 at *; omega))

theorem State.rd_copyBlocks_same (s : State) {tile ch k : Nat} (hch : ch < 92) (hk : k < 8) :
    (s.copyBlocks tile).rd (Reg.TAL_SNAPBLK_W0 tile ch + 4 * k) = s.rd (Reg.TAL_LIVE_W0 tile ch + 4 * k) := by
  refine State.each_establishes (I := fun u => u.rd (Reg.TAL_LIVE_W0 tile ch + 4 * k) = s.rd (Reg.TAL_LIVE_W0 tile ch + 4 * k))
    (P := fun u => u.rd (Reg.TAL_SNAPBLK_W0 tile ch + 4 * k) = s.rd (Reg.TAL_LIVE_W0 tile ch + 4 * k)) (x := ch)
    (List.mem_range.2 hch) rfl (fun u d _ hu => (u.rd_copyBlock_live hch hk).trans hu) (fun u hu => (u.rd_copyBlock_same hk).trans hu)
    (fun u d _ hdch hu => (u.rd_copyBlock_ne ?_).trans hu)
  unfold Reg.TAL_SNAPBLK_W0
  omega

/-! ## The snapshot at a boundary (R200) -/

/-- The instant and number of a snapshot taken at the boundary `b` (ns) shown. -/
def State.stampSnapshot (s : State) (tile b : Nat) : State :=
  ((s.wr (Reg.TAL_SNAPLO tile) (wd (nsecOf b))).wr (Reg.TAL_SNAPHI tile) (wd (secOf b))).bump (Reg.TAL_SNAPSEQ tile)

/-- GO cleared: no snapshot waits. -/
def State.endSnapshot (s : State) (tile : Nat) : State :=
  (s.wrBit (Reg.TAL_SNAP tile) 31 false).setMon tile { s.mon tile with snapWait := none }

theorem State.rd_stampSnapshot_high (s : State) {tile b a : Nat} (h : 0x2030014 + 0x40000 * tile ≤ a) :
    (s.stampSnapshot tile b).rd a = s.rd a := by
  have hwords : OnlyWords [Reg.TAL_SNAPLO tile, Reg.TAL_SNAPHI tile, Reg.TAL_SNAPSEQ tile] s (s.stampSnapshot tile b) :=
    (((OnlyWords.refl _ s).wr _ (by simp)).wr _ (by simp)).bump (by simp)
  refine hwords.rd ?_
  simp only [List.mem_cons, List.not_mem_nil, or_false, not_or]
  unfold Reg.TAL_SNAPLO Reg.TAL_SNAPHI Reg.TAL_SNAPSEQ
  omega

theorem State.rd_stampSnapshot_seq (s : State) (tile b : Nat) :
    (s.stampSnapshot tile b).rd (Reg.TAL_SNAPSEQ tile) = s.rd (Reg.TAL_SNAPSEQ tile) + 1#32 := by
  have hlo : Reg.TAL_SNAPSEQ tile ≠ Reg.TAL_SNAPLO tile := by unfold Reg.TAL_SNAPSEQ Reg.TAL_SNAPLO; omega
  have hhi : Reg.TAL_SNAPSEQ tile ≠ Reg.TAL_SNAPHI tile := by unfold Reg.TAL_SNAPSEQ Reg.TAL_SNAPHI; omega
  refine (State.rd_wr_same _ _ _).trans ?_
  rw [State.rd_wr_ne _ _ hhi, State.rd_wr_ne _ _ hlo]

theorem State.rd_endSnapshot_ne (s : State) {tile a : Nat} (h : a ≠ Reg.TAL_SNAP tile) : (s.endSnapshot tile).rd a = s.rd a := by
  rw [State.endSnapshot, State.rd_setMon]
  exact s.rd_wr_ne _ h

section
variable {s : State} {tile : Fin 64}

theorem exec_tallySnapshot_none (h : (s.mon tile).snapWait = none) : exec (.tallySnapshot tile) s = .next s := by
  change execTallySnapshot tile s = _
  unfold execTallySnapshot
  dsimp only
  rw [h]

theorem exec_tallySnapshot_keeps (h : (s.mon tile).snapWait = some false) : exec (.tallySnapshot tile) s =
    .next ((((s.noteStales tile).copyBlocks tile).stampSnapshot tile (s.now / frameUnit * frameUnit / nsUnit)).endSnapshot tile) := by
  change execTallySnapshot tile s = _
  unfold execTallySnapshot
  dsimp only
  rw [h]
  dsimp only
  rw [if_neg Bool.false_ne_true]
  rfl

theorem tallySnapshot_takes (h : (s.mon tile).snapWait = some false) : ∃ t, exec (.tallySnapshot tile) s = .next t ∧
    (t.mon tile).snapWait = none ∧ t.bit (Reg.TAL_SNAP tile) 31 = false ∧
    t.rd (Reg.TAL_SNAPSEQ tile) = s.rd (Reg.TAL_SNAPSEQ tile) + 1#32 ∧
    ∀ ch k, ch < 92 → k < 7 → t.rd (Reg.TAL_SNAPBLK_W0 tile ch + 4 * k) = s.rd (Reg.TAL_LIVE_W0 tile ch + 4 * k) := by
  have hseq : ((s.noteStales tile).copyBlocks tile).rd (Reg.TAL_SNAPSEQ tile) = s.rd (Reg.TAL_SNAPSEQ tile) := by
    rw [State.rd_copyBlocks_low _ (by unfold Reg.TAL_SNAPSEQ Reg.TAL_SNAPBLK_W0; omega)]
    exact (s.noteStales_kept tile).rd _ (not_liveWord_of_low (by unfold Reg.TAL_SNAPSEQ; omega))
      (isRingWord_of_window (by unfold Reg.TAL_SNAPSEQ; omega))
  refine ⟨_, exec_tallySnapshot_keeps h, ?_, ?_, ?_, fun ch k hch hk => ?_⟩
  · rw [State.endSnapshot, State.mon_setMon_same]
  · rw [State.endSnapshot, State.bit_setMon, State.bit_wrBit_same _ _ _ (by omega)]
  · rw [State.rd_endSnapshot_ne _ (by unfold Reg.TAL_SNAPSEQ Reg.TAL_SNAP; omega), State.rd_stampSnapshot_seq, hseq]
  · rw [State.rd_endSnapshot_ne _ (by unfold Reg.TAL_SNAPBLK_W0 Reg.TAL_SNAP; omega),
      State.rd_stampSnapshot_high _ (by unfold Reg.TAL_SNAPBLK_W0; omega), State.rd_copyBlocks_same _ hch (by omega),
      State.rd_noteStales_low _ hk]

end

/-- Settles O38: requests, triggers and clears, then the snapshot, word by word. -/
theorem snapshots : Obligations.Snapshots := by
  unfold Obligations.Snapshots
  exact fun s tile v => ⟨snapshotRequest_waits, snapshotTrigger_disabled, snapshotTrigger_asks, channelClear_adds s tile v,
    tallySnapshot_takes, exec_tallySnapshot_none⟩

end Sys2Proof.Machine
end


section
/-! PROOF. O36: samples. -/
namespace Sys2Proof.Machine

/-! ## What a sample leaves alone -/

/-- The words that a window comparator shows a hit in. -/
def windowWords (tile ch : Nat) : List Nat := [Reg.MON_WINHIT tile (ch / 32), Reg.MON_WINLAST tile, Reg.MON_ERRSTAT tile]

namespace KeptBut

variable {W L : Nat → Prop} {s t : State}

theorem countInvalid (h : KeptBut W L s t) {tile ch : Nat} (ha : W (Reg.TAL_LIVE_W7 tile ch)) : KeptBut W L s (t.countInvalid tile ch) :=
  h.count _ _ _ ha

theorem cooSample (h : KeptBut W L s t) {c : Nat} (d : Int) (valid : Bool) (hcycle : L (Reg.COO_CYCLE (tileOf c))) :
    KeptBut W L s (t.cooSample c d valid) := by
  have htaken : KeptBut W L s (t.takeCycle (tileOf c)) := by
    unfold State.takeCycle
    dsimp only
    split
    · exact h
    · exact h.wrLive _ hcycle
  unfold State.cooSample
  extract_lets x w cur m
  split
  · exact htaken.setCoo c _
  · exact h.setCoo c _

theorem windowTest (h : KeptBut W L s t) {tile ch : Nat} (d : BitVec 16) (hW : ∀ a ∈ windowWords tile ch, W a) :
    KeptBut W L s (t.windowTest tile ch d) := by
  unfold State.windowTest
  extract_lets w c x lo hi out old judged
  have hjudged : KeptBut W L s judged := h.setChan tile ch _
  split
  · exact h
  · split
    · exact ((hjudged.wrBit _ _ (hW _ (by simp [windowWords]))).wr _ (hW _ (by simp [windowWords]))).errCores _
        (hW _ (by simp [windowWords]))
    · exact hjudged

theorem lightSample (h : KeptBut W L s t) (tile ch : Nat) (d : BitVec 16) : KeptBut W L s (t.lightSample tile ch d) :=
  h.setLightRun _ _ _

end KeptBut

section
variable {s : State} {tile ch : Nat}

/-- A sample while invalid samples are owed: INVREM and INVCNT alone among the words (R194, R196). -/
theorem State.sample_owed (first : Bool) (d : BitVec 16) (h : s.invrem tile ch ≠ 0) : KeptBut (fun _ => False) (fun _ => True)
    ((s.wrf (Reg.MON_CHCFG tile ch) 24 7 (s.invrem tile ch - 1)).countInvalid tile ch) (s.sample tile ch first d) := by
  have hinvalid : (s.invrem tile ch == 0) = false := by simpa using h
  unfold State.sample
  dsimp only
  rw [hinvalid, if_neg Bool.false_ne_true]
  split
  · exact .refl _ _ _
  · split
    · exact (KeptBut.refl _ _ _).cooSample _ _ trivial
    · exact .refl _ _ _

/-- A valid sample of a port channel: accumulated, then compared and judged for light. -/
theorem State.sample_port (first : Bool) (d : BitVec 16) (hvalid : s.invrem tile ch = 0) (hport : 76 ≤ ch) :
    KeptBut (· ∈ windowWords tile ch) (fun _ => False) ((s.wrf (Reg.MON_CHCFG tile ch) 24 7 0).accumulate tile ch d)
      (s.sample tile ch first d) := by
  have hcompared : KeptBut (· ∈ windowWords tile ch) (fun _ => False) ((s.wrf (Reg.MON_CHCFG tile ch) 24 7 0).accumulate tile ch d)
      (((s.wrf (Reg.MON_CHCFG tile ch) 24 7 0).accumulate tile ch d).windowTest tile ch d) :=
    (KeptBut.refl _ _ _).windowTest d fun _ => id
  unfold State.sample
  dsimp only
  rw [hvalid, Nat.zero_sub, if_pos (beq_self_eq_true 0), if_neg (Nat.not_lt.2 hport), if_pos (beq_self_eq_true 0)]
  split
  · exact hcompared.setChan tile ch _
  · exact (hcompared.setChan tile ch _).lightSample _ _ _

end

/-! ## The live sums (R197, R198) -/

theorem State.sum64_congr {s t : State} {a : Nat} (hlow : t.rd a = s.rd a) (hhigh : t.rd (a + 4) = s.rd (a + 4)) : t.sum64 a = s.sum64 a := by
  unfold State.sum64
  rw [hlow, hhigh]

theorem code_of_nat {n : Nat} (h : n < 2 ^ 64) : code 64 (n : Int) = n := by
  unfold code
  rw [BitVec.ofInt_natCast, BitVec.toNat_ofNat, Nat.mod_eq_of_lt h]

theorem State.sum64_putSum_same (s : State) (a : Nat) {n : Nat} (h : n < 2 ^ 64) : (s.putSum a n).sum64 a = n := by
  have hlow : (s.putSum a n).rd a = wd n := by
    unfold State.putSum
    rw [code_of_nat h]
    exact (State.rd_wr_ne _ _ (by omega)).trans (s.rd_wr_same _ _)
  have hhigh : (s.putSum a n).rd (a + 4) = wd (n / 2 ^ 32) := by
    unfold State.putSum
    rw [code_of_nat h]
    exact State.rd_wr_same _ _ _
  unfold State.sum64
  rw [hlow, hhigh, wd, wd, BitVec.toNat_ofNat, BitVec.toNat_ofNat]
  omega

theorem State.rd_putSum_ne (s : State) {a b : Nat} (x : Int) (hlow : b ≠ a) (hhigh : b ≠ a + 4) : (s.putSum a x).rd b = s.rd b :=
  (State.rd_wr_ne _ _ hhigh).trans (State.rd_wr_ne _ _ hlow)

/-- The words of the live block at `a` with a sample of value `v` and square `q` added; `mn` and `mx` are its new extremes. -/
def State.addSample (s : State) (a v q : Nat) (mn mx : Word) : State :=
  ((((s.putSum a (s.sum64 a + v : Nat)).putSum (a + 8) (s.sum64 (a + 8) + q : Nat)).wr (a + 16) (s.rd (a + 16) + 1#32)).wr (a + 20) mn).wr
    (a + 24) mx

section
variable (s : State) {a v q : Nat} (mn mx : Word)

theorem State.rd_addSample_low {b : Nat} (h : b < a + 16) :
    (s.addSample a v q mn mx).rd b = ((s.putSum a (s.sum64 a + v : Nat)).putSum (a + 8) (s.sum64 (a + 8) + q : Nat)).rd b := by
  unfold State.addSample
  rw [State.rd_wr_ne _ _ (by omega), State.rd_wr_ne _ _ (by omega), State.rd_wr_ne _ _ (by omega)]

theorem State.rd_addSample_ne {b : Nat} (h : b < a ∨ a + 28 ≤ b) : (s.addSample a v q mn mx).rd b = s.rd b := by
  unfold State.addSample
  rw [State.rd_wr_ne _ _ (by omega), State.rd_wr_ne _ _ (by omega), State.rd_wr_ne _ _ (by omega),
    State.rd_putSum_ne _ _ (by omega) (by omega), State.rd_putSum_ne _ _ (by omega) (by omega)]

theorem State.sum64_addSample_sum (h : s.sum64 a + v < 2 ^ 64) : (s.addSample a v q mn mx).sum64 a = s.sum64 a + v := by
  rw [← s.sum64_putSum_same a h]
  refine State.sum64_congr ?_ ?_
  · rw [s.rd_addSample_low mn mx (by omega), State.rd_putSum_ne _ _ (by omega) (by omega)]
  · rw [s.rd_addSample_low mn mx (by omega), State.rd_putSum_ne _ _ (by omega) (by omega)]

theorem State.sum64_addSample_squares (h : s.sum64 (a + 8) + q < 2 ^ 64) :
    (s.addSample a v q mn mx).sum64 (a + 8) = s.sum64 (a + 8) + q := by
  rw [← State.sum64_putSum_same (s.putSum a (s.sum64 a + v : Nat)) (a + 8) h]
  exact State.sum64_congr (s.rd_addSample_low mn mx (by omega)) (s.rd_addSample_low mn mx (by omega))

theorem State.rd_addSample_num : (s.addSample a v q mn mx).rd (a + 16) = s.rd (a + 16) + 1#32 := by
  unfold State.addSample
  rw [State.rd_wr_ne _ _ (by omega), State.rd_wr_ne _ _ (by omega), State.rd_wr_same]

end

theorem wd_toNat_add_one (w : Word) : wd (w.toNat + 1) = w + 1#32 := by
  unfold wd
  rw [BitVec.ofNat_add, BitVec.ofNat_toNat, BitVec.setWidth_eq]

/-- The value of a port's sample (R197). -/
def portValue (align : Bool) (d : BitVec 16) : Nat := d.toNat * if align then 65536 else 1

theorem talValue_port (align : Bool) (d : BitVec 16) : talValue false align d = (portValue align d : Nat) := by
  unfold talValue portValue
  cases align <;> simp

theorem portValue_le (align : Bool) (d : BitVec 16) : portValue align d ≤ d.toNat * 65536 := by
  unfold portValue
  split <;> omega

/-- A valid sample of a port channel whose NUM is not full; the last one fills it (R198). -/
theorem State.accumulate_port {s : State} {tile ch : Nat} (d : BitVec 16) (hport : 76 ≤ ch)
    (hroom : s.bit (Reg.TAL_LIVE_W7 tile ch) 29 = false) : ∃ mn mx full, s.accumulate tile ch d =
      (s.addSample (Reg.TAL_LIVE_W0 tile ch) (portValue (wbit (s.rdLive (Reg.MON_CHCFG tile ch)) 12) d) (d.toNat * d.toNat) mn mx).when full
        (·.wrBit (Reg.TAL_LIVE_W0 tile ch + 28) 29 true) := by
  have hw7 : Reg.TAL_LIVE_W0 tile ch + 28 = Reg.TAL_LIVE_W7 tile ch := by
    unfold Reg.TAL_LIVE_W0 Reg.TAL_LIVE_W7
    omega
  unfold State.accumulate
  dsimp only
  rw [decide_eq_false (Nat.not_lt.2 hport), hw7, hroom, if_neg Bool.false_ne_true, talValue_port, wd_toNat_add_one, ← hw7]
  exact ⟨_, _, _, rfl⟩

theorem State.rd_when_wrBit_ne (s : State) (b v : Bool) {a c : Nat} (i : Nat) (h : c ≠ a) : (s.when b (·.wrBit a i v)).rd c = s.rd c := by
  cases b with
  | false => rfl
  | true => exact s.rd_wr_ne _ h

theorem liveW4_eq (tile ch : Nat) : Reg.TAL_LIVE_W4 tile ch = Reg.TAL_LIVE_W0 tile ch + 16 := by
  unfold Reg.TAL_LIVE_W0 Reg.TAL_LIVE_W4
  omega

/-- After a port's valid sample INVREM reads 0, and its live block as the accumulation leaves it. -/
theorem State.rd_sample_port (s : State) {tile ch : Nat} (first : Bool) (d : BitVec 16) (hch : ch < 92) (hport : 76 ≤ ch)
    (hvalid : s.invrem tile ch = 0) (hroom : s.bit (Reg.TAL_LIVE_W7 tile ch) 29 = false) : ∃ mn mx, ∀ a,
      (a = Reg.MON_CHCFG tile ch ∨ (Reg.TAL_LIVE_W0 tile ch ≤ a ∧ a < Reg.TAL_LIVE_W0 tile ch + 28)) →
      (s.sample tile ch first d).rd a = ((s.wrf (Reg.MON_CHCFG tile ch) 24 7 0).addSample (Reg.TAL_LIVE_W0 tile ch)
        (portValue (wbit (s.rdLive (Reg.MON_CHCFG tile ch)) 12) d) (d.toNat * d.toNat) mn mx).rd a := by
  have hfull : (s.wrf (Reg.MON_CHCFG tile ch) 24 7 0).bit (Reg.TAL_LIVE_W7 tile ch) 29 = false :=
    (s.bit_wr_ne _ _ (by unfold Reg.TAL_LIVE_W7 Reg.MON_CHCFG; omega)).trans hroom
  obtain ⟨mn, mx, full, haccumulate⟩ := State.accumulate_port d hport hfull
  refine ⟨mn, mx, fun a ha => ?_⟩
  have hwindow : a ∉ windowWords tile ch := by
    simp only [windowWords, List.mem_cons, List.not_mem_nil, or_false, not_or]
    unfold Reg.MON_CHCFG Reg.TAL_LIVE_W0 at ha
    unfold Reg.MON_WINHIT Reg.MON_WINLAST Reg.MON_ERRSTAT
    omega
  have hfullWord : a ≠ Reg.TAL_LIVE_W0 tile ch + 28 := by
    unfold Reg.MON_CHCFG at ha
    unfold Reg.TAL_LIVE_W0 at *
    omega
  rw [(State.sample_port first d hvalid hport).rd a hwindow (isRingWord_of_window ?_), haccumulate,
    State.rd_when_wrBit_ne _ _ _ _ hfullWord]
  · rfl
  · unfold Reg.MON_CHCFG Reg.TAL_LIVE_W0 at ha
    omega

/-- What a port's valid sample does to SUM, SUMSQ, NUM and INVREM, while the sums have room. -/
theorem State.sample_port_shows (s : State) {tile ch : Nat} (first : Bool) (d : BitVec 16) (hch : ch < 92) (hport : 76 ≤ ch)
    (hvalid : s.invrem tile ch = 0) (hroom : s.bit (Reg.TAL_LIVE_W7 tile ch) 29 = false)
    (hsum : s.sum64 (Reg.TAL_LIVE_W0 tile ch) + d.toNat * 65536 < 2 ^ 64)
    (hsquares : s.sum64 (Reg.TAL_LIVE_W0 tile ch + 8) + d.toNat * d.toNat < 2 ^ 64) :
    (s.sample tile ch first d).sum64 (Reg.TAL_LIVE_W0 tile ch) =
      s.sum64 (Reg.TAL_LIVE_W0 tile ch) + portValue (wbit (s.rdLive (Reg.MON_CHCFG tile ch)) 12) d ∧
    (s.sample tile ch first d).sum64 (Reg.TAL_LIVE_W0 tile ch + 8) = s.sum64 (Reg.TAL_LIVE_W0 tile ch + 8) + d.toNat * d.toNat ∧
    (s.sample tile ch first d).rd (Reg.TAL_LIVE_W4 tile ch) = s.rd (Reg.TAL_LIVE_W4 tile ch) + 1#32 ∧
    (s.sample tile ch first d).invrem tile ch = 0 := by
  obtain ⟨mn, mx, hreads⟩ := s.rd_sample_port first d hch hport hvalid hroom
  generalize hu : s.wrf (Reg.MON_CHCFG tile ch) 24 7 0 = u at hreads
  have hlive : ∀ k, u.rd (Reg.TAL_LIVE_W0 tile ch + k) = s.rd (Reg.TAL_LIVE_W0 tile ch + k) := fun k =>
    hu ▸ s.rd_wr_ne _ (by unfold Reg.TAL_LIVE_W0 Reg.MON_CHCFG; omega)
  have hold : u.sum64 (Reg.TAL_LIVE_W0 tile ch) = s.sum64 (Reg.TAL_LIVE_W0 tile ch) := State.sum64_congr (hlive 0) (hlive 4)
  have holdsq : u.sum64 (Reg.TAL_LIVE_W0 tile ch + 8) = s.sum64 (Reg.TAL_LIVE_W0 tile ch + 8) := State.sum64_congr (hlive 8) (hlive 12)
  have hword : u.rdf (Reg.MON_CHCFG tile ch) 24 7 = 0 := hu ▸ s.rdf_wrf_same _ _ (by omega)
  have hvalue := portValue_le (wbit (s.rdLive (Reg.MON_CHCFG tile ch)) 12) d
  refine ⟨?_, ?_, ?_, ?_⟩
  · rw [State.sum64_congr (hreads _ (.inr (by omega))) (hreads _ (.inr (by omega))),
      State.sum64_addSample_sum _ mn mx (by rw [hold]; omega), hold]
  · rw [State.sum64_congr (hreads _ (.inr (by omega))) (hreads _ (.inr (by omega))),
      State.sum64_addSample_squares _ mn mx (by rw [holdsq]; exact hsquares), holdsq]
  · rw [liveW4_eq, hreads _ (.inr (by omega)), State.rd_addSample_num, hlive]
  · refine (congrArg (fld · 24 7) ((hreads _ (.inl rfl)).trans ?_)).trans hword
    exact State.rd_addSample_ne _ mn mx (.inl (by unfold Reg.MON_CHCFG Reg.TAL_LIVE_W0; omega))

/-! ## MONITOR_SAMPLE -/

section
variable {s : State} {tile : Fin 64} {ch : Fin 92} {second : Bool} {i : Nat} {d : BitVec 16}

/-- The sample of entry `i` noted as delivered. -/
def State.noteGot (s : State) (tile ch i : Nat) : State :=
  s.setMon tile { s.mon tile with got := (i, s.invrem tile ch == 0) :: (s.mon tile).got }

theorem exec_monitorSample_none (h : s.entryDue tile ch second = none) : exec (.monitorSample tile ch second d) s = .next s := by
  change execMonitorSample tile ch second d s = _
  unfold execMonitorSample
  dsimp only
  rw [h]

theorem exec_monitorSample_due (h : s.entryDue tile ch second = some i) : exec (.monitorSample tile ch second d) s =
    if s.converting tile && s.entryRuns tile i && (decide (76 ≤ ch.val) || s.cellFrames tile) then
      .next ((s.noteGot tile ch i).sample tile ch (!second) d) else .next s := by
  change execMonitorSample tile ch second d s = _
  unfold execMonitorSample
  dsimp only
  rw [h]
  rfl

theorem exec_monitorSample_idle (h : s.entryDue tile ch second = some i) (hidle : s.converting tile = false ∨ s.entryRuns tile i = false) :
    exec (.monitorSample tile ch second d) s = .next s := by
  rw [exec_monitorSample_due h]
  rcases hidle with hidle | hidle <;> simp [hidle]

theorem exec_monitorSample_converts (h : s.entryDue tile ch second = some i) (hconv : s.converting tile = true)
    (hruns : s.entryRuns tile i = true) (hframe : 76 ≤ ch.val ∨ s.cellFrames tile = true) :
    exec (.monitorSample tile ch second d) s = .next ((s.noteGot tile ch i).sample tile ch (!second) d) := by
  rw [exec_monitorSample_due h, hconv, hruns, Bool.and_self, Bool.true_and]
  exact if_pos (by simpa using hframe)

theorem monitorSample_owed (h : s.entryDue tile ch second = some i) (hconv : s.converting tile = true)
    (hruns : s.entryRuns tile i = true) (hframe : 76 ≤ ch.val ∨ s.cellFrames tile = true) (howed : s.invrem tile ch ≠ 0) :
    ∃ t, exec (.monitorSample tile ch second d) s = .next t ∧ t.invrem tile ch = s.invrem tile ch - 1 ∧
      t.rdf (Reg.TAL_LIVE_W7 tile ch) 0 24 = min (s.rdf (Reg.TAL_LIVE_W7 tile ch) 0 24 + 1) (2 ^ 24 - 1) ∧
      t.sum64 (Reg.TAL_LIVE_W0 tile ch) = s.sum64 (Reg.TAL_LIVE_W0 tile ch) ∧
      t.rd (Reg.TAL_LIVE_W4 tile ch) = s.rd (Reg.TAL_LIVE_W4 tile ch) := by
  have hsample := (s.noteGot tile ch i).sample_owed (!second) d howed
  have hread : ∀ a, 0x2000000 ≤ a → ((s.noteGot tile ch i).sample tile ch (!second) d).rd a =
      ((s.wrf (Reg.MON_CHCFG tile ch) 24 7 (s.invrem tile ch - 1)).countInvalid tile ch).rd a := fun a ha =>
    hsample.rd a not_false (isRingWord_of_window ha)
  have hlive : ∀ k, k < 28 → ((s.noteGot tile ch i).sample tile ch (!second) d).rd (Reg.TAL_LIVE_W0 tile ch + k) =
      s.rd (Reg.TAL_LIVE_W0 tile ch + k) := fun k hk => by
    rw [hread _ (by unfold Reg.TAL_LIVE_W0; omega)]
    refine (State.rd_wr_ne _ _ ?_).trans (State.rd_wr_ne _ _ ?_)
    · unfold Reg.TAL_LIVE_W0 Reg.TAL_LIVE_W7
      omega
    · have := ch.isLt
      unfold Reg.TAL_LIVE_W0 Reg.MON_CHCFG
      omega
  have hword : Reg.MON_CHCFG tile ch ≠ Reg.TAL_LIVE_W7 tile ch := by
    have := ch.isLt
    unfold Reg.MON_CHCFG Reg.TAL_LIVE_W7
    omega
  refine ⟨_, exec_monitorSample_converts h hconv hruns hframe, ?_, ?_, ?_, ?_⟩
  · have hlt := s.invrem_lt tile ch
    calc _ = ((s.wrf (Reg.MON_CHCFG tile ch) 24 7 (s.invrem tile ch - 1)).countInvalid tile ch).rdf (Reg.MON_CHCFG tile ch) 24 7 :=
          congrArg (fld · 24 7) (hread _ (by unfold Reg.MON_CHCFG; omega))
      _ = (s.wrf (Reg.MON_CHCFG tile ch) 24 7 (s.invrem tile ch - 1)).rdf (Reg.MON_CHCFG tile ch) 24 7 := State.rdf_wr_ne _ _ _ _ hword
      _ = (s.invrem tile ch - 1) % 2 ^ 7 := s.rdf_wrf_same _ _ (by omega)
      _ = s.invrem tile ch - 1 := Nat.mod_eq_of_lt (by omega)
  · calc _ = ((s.wrf (Reg.MON_CHCFG tile ch) 24 7 (s.invrem tile ch - 1)).countInvalid tile ch).rdf (Reg.TAL_LIVE_W7 tile ch) 0 24 :=
          congrArg (fld · 0 24) (hread _ (by unfold Reg.TAL_LIVE_W7; omega))
      _ = satN 24 ((s.wrf (Reg.MON_CHCFG tile ch) 24 7 (s.invrem tile ch - 1)).rdf (Reg.TAL_LIVE_W7 tile ch) 0 24 + 1) :=
          State.rdf_count_same _ _ _ (by omega)
      _ = satN 24 (s.rdf (Reg.TAL_LIVE_W7 tile ch) 0 24 + 1) := congrArg (fun n => satN 24 (n + 1)) (s.rdf_wr_ne _ _ _ hword.symm)
  · exact State.sum64_congr (hlive 0 (by omega)) (hlive 4 (by omega))
  · rw [liveW4_eq]
    exact hlive 16 (by omega)

theorem monitorSample_port (h : s.entryDue tile ch second = some i) (hport : 76 ≤ ch.val) (hconv : s.converting tile = true)
    (hruns : s.entryRuns tile i = true) (hvalid : s.invrem tile ch = 0) (hroom : s.bit (Reg.TAL_LIVE_W7 tile ch) 29 = false)
    (hsum : s.sum64 (Reg.TAL_LIVE_W0 tile ch) + d.toNat * 65536 < 2 ^ 64)
    (hsquares : s.sum64 (Reg.TAL_LIVE_W0 tile ch + 8) + d.toNat * d.toNat < 2 ^ 64) :
    ∃ t, exec (.monitorSample tile ch second d) s = .next t ∧
      t.sum64 (Reg.TAL_LIVE_W0 tile ch) = s.sum64 (Reg.TAL_LIVE_W0 tile ch) + portValue (wbit (s.rdLive (Reg.MON_CHCFG tile ch)) 12) d ∧
      t.sum64 (Reg.TAL_LIVE_W0 tile ch + 8) = s.sum64 (Reg.TAL_LIVE_W0 tile ch + 8) + d.toNat * d.toNat ∧
      t.rd (Reg.TAL_LIVE_W4 tile ch) = s.rd (Reg.TAL_LIVE_W4 tile ch) + 1#32 ∧ t.invrem tile ch = 0 := by
  exact ⟨_, exec_monitorSample_converts h hconv hruns (.inl hport),
    (s.noteGot tile ch i).sample_port_shows (!second) d ch.isLt hport hvalid hroom hsum hsquares⟩

end

/-- Settles O36: a sample while invalid samples are owed, one that is not due or not converted, and a port's valid one. -/
theorem samples : Obligations.Samples := by
  unfold Obligations.Samples
  refine ⟨fun s tile ch second i d h => ⟨monitorSample_owed h, exec_monitorSample_idle h⟩,
    fun s tile ch second d => exec_monitorSample_none, fun s tile ch second i d => monitorSample_port⟩

end Sys2Proof.Machine
end


section
/-! PROOF. O39: what a frame boundary brings into force, and the writes that wait for it. -/
namespace Sys2Proof.Machine

/-! ## The steps of a boundary, as far as they leave words alone -/

/-- A word COO_CYCLE of some tile. -/
def CycleWord (a : Nat) : Prop := ∃ k, a = Reg.COO_CYCLE k

namespace KeptBut

variable {W L : Nat → Prop} {s t : State} {tile ch : Nat}

theorem endFrameChan (h : KeptBut W L s t) (hlive : W (Reg.TAL_LIVE_W7 tile ch)) (hcycle : ∀ a, CycleWord a → L a) :
    KeptBut W L s (t.endFrameChan tile ch) := by
  unfold State.endFrameChan
  split
  · exact h
  · extract_lets es got x judged
    have hjudged : KeptBut W L s judged := by
      unfold judged
      split <;> exact h.update
    split
    · exact (hjudged.countInvalid hlive).when _ ((hjudged.countInvalid hlive).cooSample _ _ (hcycle _ ⟨_, rfl⟩))
    · exact hjudged

theorem clearBlock (h : KeptBut W L s t) (hlive : ∀ k, k < 32 → W (Reg.TAL_LIVE_W0 tile ch + k)) : KeptBut W L s (t.clearBlock tile ch) := by
  have hzeroed : KeptBut W L s ((List.range 7).foldl (fun u k => u.wr (Reg.TAL_LIVE_W0 tile ch + 4 * k) 0#32) t) :=
    h.foldl _ fun u k hk hu => hu.wr _ (hlive _ (by have := List.mem_range.1 hk; omega))
  exact hzeroed.wr _ (hlive 28 (by omega))

theorem takeConfig (h : KeptBut W L s t) (hcfg : W (Reg.MON_CHCFG tile ch)) (hlive : ∀ k, k < 32 → W (Reg.TAL_LIVE_W0 tile ch + k))
    (hforce : L (Reg.MON_CHCFG tile ch)) : KeptBut W L s (t.takeConfig tile ch) := by
  have hw7 : W (Reg.TAL_LIVE_W7 tile ch) := by
    have hword : Reg.TAL_LIVE_W7 tile ch = Reg.TAL_LIVE_W0 tile ch + 28 := by
      unfold Reg.TAL_LIVE_W0 Reg.TAL_LIVE_W7
      omega
    exact hword ▸ hlive 28 (by omega)
  unfold State.takeConfig
  extract_lets a old new g b al taken
  have htaken : KeptBut W L s taken := (h.wrLive _ hforce).when _ ((h.wrLive _ hforce).clearBlock hlive)
  have hgain : KeptBut W L s (taken.when g (·.invalidateChan tile ch 6)) := htaken.when _ (htaken.invalidateChan _ hcfg)
  have hband : KeptBut W L s ((taken.when g (·.invalidateChan tile ch 6)).when b (·.invalidateChan tile ch 12)) :=
    hgain.when _ (hgain.invalidateChan _ hcfg)
  split
  · exact hband.when _ (hband.wrBit _ _ hw7)
  · exact h

end KeptBut

/-! ## The end of a frame -/

/-- The frame in progress ended, where it was converted. -/
def State.endFrame (s : State) (tile : Nat) : State :=
  if s.converting tile then (List.range 92).foldl (fun u ch => u.endFrameChan tile ch) s else s

theorem State.endFrame_kept (s : State) (tile : Nat) : KeptBut (LiveWord tile) CycleWord s (s.endFrame tile) := by
  unfold State.endFrame
  split
  · exact (KeptBut.refl _ _ s).foldl _ fun _ _ hch hu => hu.endFrameChan (liveWord_w7 (List.mem_range.1 hch)) fun _ => id
  · exact .refl _ _ s

theorem not_cycleWord_seq {tile i : Nat} (h : i < 92) : ¬ CycleWord (Reg.MON_SEQ tile i) := by
  rintro ⟨k, hk⟩
  unfold Reg.MON_SEQ Reg.COO_CYCLE at hk
  omega

theorem KeptBut.seqLive {W L : Nat → Prop} {s t : State} (h : KeptBut W L s t) {tile : Nat} (hL : ∀ i, i < 92 → ¬ L (Reg.MON_SEQ tile i)) :
    t.seqLive tile = s.seqLive tile :=
  List.map_congr_left fun i hi => h.rdLive _ (hL i (List.mem_range.1 hi))

/-- A frame with nothing delivered. -/
def State.newFrame (s : State) (tile : Nat) : State := s.setMon tile { s.mon tile with got := [], urgent := [] }

/-! ## The sequences (R189) -/

/-- The words that SEQAPPLY's result touches beside MON_CTRL and MON_STAT. -/
def SequenceWord (tile a : Nat) : Prop := a = Reg.MON_ERRSTAT tile ∨ ChcfgWord tile a

section
variable {s : State} {tile : Nat}

theorem State.takeSequence_idle (h : s.bit (Reg.MON_CTRL tile) 4 = false) : s.takeSequence tile = s := if_neg (Bool.eq_false_iff.1 h)

theorem State.takeSequence_asked (h : s.bit (Reg.MON_CTRL tile) 4 = true) :
    ∃ u, KeptBut (SequenceWord tile) (fun _ => True) (s.wrBit (Reg.MON_CTRL tile) 4 false) u ∧
      (s.takeSequence tile = u ∨ s.takeSequence tile = u.showSeq tile) := by
  unfold State.takeSequence
  rw [if_pos h]
  extract_lets cleared old loaded new
  split
  · exact ⟨_, (KeptBut.refl _ _ _).err _ (.inl rfl), .inl rfl⟩
  · have hloaded : KeptBut (SequenceWord tile) (fun _ => True) cleared loaded :=
      (KeptBut.refl _ _ _).foldl _ fun _ _ _ hu => hu.wrLive _ trivial
    refine ⟨_, hloaded.foldl _ fun u ch hch hu => hu.invalidateChan 2 (.inr (chcfgWord ?_)), .inr rfl⟩
    exact List.mem_range.1 (List.mem_of_mem_filter hch)

theorem not_sequenceWord {a : Nat} (h : a < 0x2020008 + 0x40000 * tile) : ¬ SequenceWord tile a := by
  rintro (rfl | hcfg)
  · unfold Reg.MON_ERRSTAT at h
    omega
  · exact not_chcfgWord (by omega) hcfg

theorem monCtrl_ne_monStat (tile : Nat) : Reg.MON_CTRL tile ≠ Reg.MON_STAT tile := by
  unfold Reg.MON_CTRL Reg.MON_STAT
  omega

theorem State.modef_wrBit_ctrl (s : State) (tile i : Nat) (b : Bool) : (s.wrBit (Reg.MON_CTRL tile) i b).modef tile = s.modef tile :=
  s.rdf_wr_ne _ _ _ (monCtrl_ne_monStat tile).symm

/-- After a boundary's turn of SEQAPPLY it is clear; MODE, MODEF and the converters stand as before. -/
theorem State.takeSequence_shows (s : State) (tile : Nat) : (s.takeSequence tile).bit (Reg.MON_CTRL tile) 4 = false ∧
    (s.takeSequence tile).rdf (Reg.MON_CTRL tile) 0 2 = s.rdf (Reg.MON_CTRL tile) 0 2 ∧ (s.takeSequence tile).modef tile = s.modef tile ∧
    (s.takeSequence tile).mon tile = s.mon tile := by
  cases h : s.bit (Reg.MON_CTRL tile) 4 with
  | false =>
    rw [State.takeSequence_idle h]
    exact ⟨h, rfl, rfl, rfl⟩
  | true =>
    obtain ⟨u, hkept, heither⟩ := State.takeSequence_asked h
    have hctrl : u.rd (Reg.MON_CTRL tile) = (s.wrBit (Reg.MON_CTRL tile) 4 false).rd (Reg.MON_CTRL tile) :=
      hkept.rd _ (not_sequenceWord (by unfold Reg.MON_CTRL; omega)) (isRingWord_of_window (by unfold Reg.MON_CTRL; omega))
    have hmodef : u.modef tile = s.modef tile :=
      (hkept.rdf (not_sequenceWord (by unfold Reg.MON_STAT; omega)) (isRingWord_of_window (by unfold Reg.MON_STAT; omega)) 0 2).trans
        (s.modef_wrBit_ctrl tile 4 false)
    have hclear := (congrArg (wbit · 4) hctrl).trans (s.bit_wrBit_same (Reg.MON_CTRL tile) false (i := 4) (by omega))
    have hmode := (congrArg (fld · 0 2) hctrl).trans (s.rdf_wrf_ne (Reg.MON_CTRL tile) (lo := 4) (n := 1) false.toNat (.inl (by omega)))
    rcases heither with heq | heq
    · rw [heq]
      exact ⟨hclear, hmode, hmodef, hkept.mon tile⟩
    · rw [heq]
      exact ⟨(u.bit_wr_ne _ _ (monCtrl_ne_monStat tile)).trans hclear, (u.rdf_wr_ne _ _ _ (monCtrl_ne_monStat tile)).trans hmode,
        (u.rdf_wrf_ne _ _ (.inl (by omega))).trans hmodef, hkept.mon tile⟩

/-! ## The mode (R203, R205) -/

theorem State.takeMode_same (h : s.rdf (Reg.MON_CTRL tile) 0 2 = s.modef tile) : s.takeMode tile = s := if_pos h

theorem State.takeMode_refused (hchange : s.rdf (Reg.MON_CTRL tile) 0 2 ≠ s.modef tile) (hrun : s.rdf (Reg.MON_CTRL tile) 0 2 = 0)
    (hunsound : seqSound (s.seqLive tile) = false) :
    s.takeMode tile = (s.wrf (Reg.MON_CTRL tile) 0 2 (s.modef tile)).err (Reg.MON_ERRSTAT tile) 0 :=
  (if_neg hchange).trans (if_pos (by simp [hrun, hunsound]))

/-- A mode that is taken, on entry to another mode than RUN with every window comparator inside. -/
theorem State.takeMode_taken (hchange : s.rdf (Reg.MON_CTRL tile) 0 2 ≠ s.modef tile)
    (hallowed : s.rdf (Reg.MON_CTRL tile) 0 2 ≠ 0 ∨ seqSound (s.seqLive tile) = true) : ∃ chans,
      s.takeMode tile = { s.wrf (Reg.MON_STAT tile) 0 2 (s.rdf (Reg.MON_CTRL tile) 0 2) with chans := chans } := by
  have htaken : ¬ (decide (s.rdf (Reg.MON_CTRL tile) 0 2 = 0) && !seqSound (s.seqLive tile)) = true := by
    rcases hallowed with hmode | hsound
    · simp [hmode]
    · simp [hsound]
  have hinside : ∀ (xs : List Nat) (u : State), ∃ chans,
      xs.foldl (fun u ch => u.setChan tile ch { u.chan tile ch with outside := false }) u = { u with chans := chans } := fun xs u =>
    List.foldlRecOn (motive := fun w : State => ∃ chans, w = { u with chans := chans }) xs _ ⟨_, rfl⟩
      fun w ⟨chans, hw⟩ x _ => ⟨(w.setChan tile x { w.chan tile x with outside := false }).chans, by rw [hw]; rfl⟩
  unfold State.takeMode
  dsimp only
  rw [if_neg hchange, if_neg htaken]
  split
  · exact ⟨_, rfl⟩
  · exact hinside _ _

theorem State.modef_lt (s : State) (tile : Nat) : s.modef tile < 2 ^ 2 := fld_lt _ 0 2

theorem State.modef_take (s : State) (tile : Nat) : (s.wrf (Reg.MON_STAT tile) 0 2 (s.rdf (Reg.MON_CTRL tile) 0 2)).modef tile =
    s.rdf (Reg.MON_CTRL tile) 0 2 :=
  (s.rdf_wrf_same _ _ (by omega)).trans (Nat.mod_eq_of_lt (fld_lt _ 0 2))

theorem State.takeMode_other (h : s.rdf (Reg.MON_CTRL tile) 0 2 ≠ 0) : (s.takeMode tile).modef tile = s.rdf (Reg.MON_CTRL tile) 0 2 := by
  by_cases hsame : s.rdf (Reg.MON_CTRL tile) 0 2 = s.modef tile
  · rw [State.takeMode_same hsame, hsame]
  · obtain ⟨chans, htaken⟩ := State.takeMode_taken hsame (.inl h)
    rw [htaken]
    exact s.modef_take tile

theorem State.takeMode_run (h : s.rdf (Reg.MON_CTRL tile) 0 2 = 0) :
    (s.takeMode tile).modef tile = (if seqSound (s.seqLive tile) then 0 else s.modef tile) ∧
      (s.takeMode tile).rdf (Reg.MON_CTRL tile) 0 2 = (s.takeMode tile).modef tile := by
  by_cases hsame : s.rdf (Reg.MON_CTRL tile) 0 2 = s.modef tile
  · rw [State.takeMode_same hsame, ← hsame, h, ite_self]
    exact ⟨rfl, rfl⟩
  · cases hsound : seqSound (s.seqLive tile) with
    | false =>
      rw [State.takeMode_refused hsame h hsound, if_neg Bool.false_ne_true]
      have hkept : ∀ a, a < 0x2020008 + 0x40000 * tile → 0x2000000 ≤ a → ∀ lo n,
          ((s.wrf (Reg.MON_CTRL tile) 0 2 (s.modef tile)).err (Reg.MON_ERRSTAT tile) 0).rdf a lo n =
            (s.wrf (Reg.MON_CTRL tile) 0 2 (s.modef tile)).rdf a lo n := fun a ha hwindow lo n =>
        congrArg (fld · lo n) (State.rd_err_ne _ 0 (by unfold Reg.MON_ERRSTAT; omega) (isRingWord_of_window hwindow))
      have hmodef := (hkept (Reg.MON_STAT tile) (by unfold Reg.MON_STAT; omega) (by unfold Reg.MON_STAT; omega) 0 2).trans
        (s.rdf_wr_ne _ 0 2 (monCtrl_ne_monStat tile).symm)
      have hmode := (hkept (Reg.MON_CTRL tile) (by unfold Reg.MON_CTRL; omega) (by unfold Reg.MON_CTRL; omega) 0 2).trans
        (s.rdf_wrf_same (Reg.MON_CTRL tile) (s.modef tile) (by omega))
      exact ⟨hmodef, (hmode.trans (Nat.mod_eq_of_lt (s.modef_lt tile))).trans hmodef.symm⟩
    | true =>
      obtain ⟨chans, htaken⟩ := State.takeMode_taken hsame (.inr hsound)
      rw [htaken, if_pos rfl]
      exact ⟨(s.modef_take tile).trans h, (s.rdf_wr_ne _ 0 2 (monCtrl_ne_monStat tile)).trans (s.modef_take tile).symm⟩

/-- Whatever becomes of MODE, SEQAPPLY and the converters stand as before. -/
theorem State.takeMode_rest (s : State) (tile : Nat) :
    (s.takeMode tile).bit (Reg.MON_CTRL tile) 4 = s.bit (Reg.MON_CTRL tile) 4 ∧ (s.takeMode tile).mon tile = s.mon tile := by
  by_cases hsame : s.rdf (Reg.MON_CTRL tile) 0 2 = s.modef tile
  · rw [State.takeMode_same hsame]
    exact ⟨rfl, rfl⟩
  · by_cases hallowed : s.rdf (Reg.MON_CTRL tile) 0 2 ≠ 0 ∨ seqSound (s.seqLive tile) = true
    · obtain ⟨chans, htaken⟩ := State.takeMode_taken hsame hallowed
      rw [htaken]
      exact ⟨s.bit_wr_ne _ 4 (monCtrl_ne_monStat tile), rfl⟩
    · obtain ⟨hrun, hunsound⟩ := not_or.1 hallowed
      rw [State.takeMode_refused hsame (Decidable.of_not_not hrun) (Bool.eq_false_iff.2 hunsound)]
      have hkept : KeptBut (· = Reg.MON_ERRSTAT tile) (fun _ => False) (s.wrf (Reg.MON_CTRL tile) 0 2 (s.modef tile))
        ((s.wrf (Reg.MON_CTRL tile) 0 2 (s.modef tile)).err (Reg.MON_ERRSTAT tile) 0) := (KeptBut.refl _ _ _).err 0 rfl
      refine ⟨(hkept.bit ?_ (isRingWord_of_window ?_) 4).trans ?_, hkept.mon tile⟩
      · unfold Reg.MON_CTRL Reg.MON_ERRSTAT
        omega
      · unfold Reg.MON_CTRL
        omega
      · exact (congrArg (wbit · 4) (s.rd_wr_same _ _)).trans (wbit_put_ne _ _ (.inr (by omega)))

/-! ## The rest of a boundary (R194, R197, R199, R202) -/

/-- Every channel's configuration brought into force. -/
def State.takeConfigs (s : State) (tile : Nat) : State := (List.range 92).foldl (fun u ch => u.takeConfig tile ch) s

/-- The channels asked for in TAL_CLR cleared, and no longer asked for. -/
def State.clearAsked (s : State) (tile : Nat) : State :=
  (List.range 3).foldl (fun u i => u.wr (Reg.TAL_CLR tile i) 0#32)
    (((List.range 92).filter fun ch => s.bit (Reg.TAL_CLR tile (ch / 32)) (ch % 32)).foldl (fun u ch => u.clearBlock tile ch) s)

theorem State.takeConfigs_kept (s : State) (tile : Nat) :
    KeptBut (fun a => 0x2020400 + 0x40000 * tile ≤ a) (fun _ => True) s (s.takeConfigs tile) :=
  (KeptBut.refl _ _ s).foldl _ fun u ch _ hu => hu.takeConfig (by unfold Reg.MON_CHCFG; omega)
    (fun k _ => by unfold Reg.TAL_LIVE_W0; omega) trivial

theorem State.clearAsked_kept (s : State) (tile : Nat) :
    KeptBut (fun a => 0x2020400 + 0x40000 * tile ≤ a) (fun _ => True) s (s.clearAsked tile) :=
  ((KeptBut.refl _ _ s).foldl _ fun u ch _ hu => hu.clearBlock fun k _ => by unfold Reg.TAL_LIVE_W0; omega).foldl _
    fun u i _ hu => hu.wr _ (by unfold Reg.TAL_CLR; omega)

theorem State.rd_clearAsked (s : State) {tile i : Nat} (hi : i < 3) : (s.clearAsked tile).rd (Reg.TAL_CLR tile i) = 0#32 :=
  State.each_establishes (I := fun _ => True) (P := fun u => u.rd (Reg.TAL_CLR tile i) = 0#32) (x := i) (List.mem_range.2 hi) trivial
    (fun _ _ _ _ => trivial) (fun u _ => u.rd_wr_same _ _)
    fun u j _ hji hu => (u.rd_wr_ne _ (by unfold Reg.TAL_CLR; omega)).trans hu

/-- A boundary's turn of bursts writes BURST in MON_STAT, and in the tile's converters what belongs to the bursts (R205). -/
theorem State.takeBurst_forms (s : State) (tile : Nat) : ∃ req left, (s.takeBurst tile = s.setMon tile { s.mon tile with burstLeft := left } ∨
    ∃ b, s.takeBurst tile = (s.setMon tile { s.mon tile with burstReq := req, burstLeft := left }).wrBit (Reg.MON_STAT tile) 8 b) := by
  unfold State.takeBurst
  dsimp only
  split
  · exact ⟨false, _, .inl rfl⟩
  · split
    · exact ⟨false, _, .inr ⟨_, rfl⟩⟩
    · exact ⟨(s.mon tile).burstReq, _, .inr ⟨_, rfl⟩⟩

theorem State.takeBurst_shows (s : State) (tile : Nat) : (∀ a, a ≠ Reg.MON_STAT tile → (s.takeBurst tile).rd a = s.rd a) ∧
    (s.takeBurst tile).modef tile = s.modef tile ∧ ((s.takeBurst tile).mon tile).got = (s.mon tile).got ∧
    ((s.takeBurst tile).mon tile).urgent = (s.mon tile).urgent := by
  obtain ⟨req, left, heq | ⟨b, heq⟩⟩ := s.takeBurst_forms tile
  · rw [heq, State.mon_setMon_same]
    exact ⟨fun _ _ => rfl, rfl, rfl, rfl⟩
  · have hmon : ∀ x : MonRec, ((s.setMon tile x).wrBit (Reg.MON_STAT tile) 8 b).mon tile = x := s.mon_setMon_same tile
    rw [heq, hmon]
    exact ⟨fun a ha => State.rd_wr_ne _ _ ha, State.rdf_wrf_ne (s.setMon tile _) _ _ (.inl (by omega)), rfl, rfl⟩

/-! ## FRAME_BOUNDARY -/

/-- What a boundary brings into force after SEQAPPLY and MODE. -/
def State.endBoundary (s : State) (tile : Nat) : State := (((s.takeConfigs tile).clearAsked tile).takeBurst tile).noteStales tile

theorem State.endBoundary_shows (s : State) (tile : Nat) :
    (s.endBoundary tile).rd (Reg.MON_CTRL tile) = s.rd (Reg.MON_CTRL tile) ∧ (s.endBoundary tile).modef tile = s.modef tile ∧
    ((s.endBoundary tile).mon tile).got = (s.mon tile).got ∧ ((s.endBoundary tile).mon tile).urgent = (s.mon tile).urgent ∧
    ∀ i, i < 3 → (s.endBoundary tile).rd (Reg.TAL_CLR tile i) = 0#32 := by
  have hcleared : KeptBut (fun a => 0x2020400 + 0x40000 * tile ≤ a) (fun _ => True) s ((s.takeConfigs tile).clearAsked tile) :=
    (s.takeConfigs_kept tile).trans ((s.takeConfigs tile).clearAsked_kept tile)
  obtain ⟨hrd, hmodef, hgot, hurgent⟩ := ((s.takeConfigs tile).clearAsked tile).takeBurst_shows tile
  have hstale := (((s.takeConfigs tile).clearAsked tile).takeBurst tile).noteStales_kept tile
  have hlow : ∀ a, a < 0x2020400 + 0x40000 * tile → 0x2000000 ≤ a →
      (s.endBoundary tile).rd a = (((s.takeConfigs tile).clearAsked tile).takeBurst tile).rd a := fun a ha hwindow =>
    hstale.rd a (not_liveWord_of_low (by omega)) (isRingWord_of_window hwindow)
  have hmon : (s.endBoundary tile).mon tile = (((s.takeConfigs tile).clearAsked tile).takeBurst tile).mon tile := hstale.mon tile
  refine ⟨?_, ?_, ?_, ?_, fun i hi => ?_⟩
  · rw [hlow _ (by unfold Reg.MON_CTRL; omega) (by unfold Reg.MON_CTRL; omega), hrd _ (monCtrl_ne_monStat tile)]
    exact hcleared.rd _ (by unfold Reg.MON_CTRL; omega) (isRingWord_of_window (by unfold Reg.MON_CTRL; omega))
  · refine (congrArg (fld · 0 2) (hlow _ (by unfold Reg.MON_STAT; omega) (by unfold Reg.MON_STAT; omega))).trans (hmodef.trans ?_)
    exact hcleared.rdf (by unfold Reg.MON_STAT; omega) (isRingWord_of_window (by unfold Reg.MON_STAT; omega)) 0 2
  · rw [hmon, hgot, hcleared.mon]
  · rw [hmon, hurgent, hcleared.mon]
  · have hclr : Reg.TAL_CLR tile i ≠ Reg.MON_STAT tile := by
      unfold Reg.TAL_CLR Reg.MON_STAT
      omega
    refine (hstale.rd _ (not_liveWord_of_low ?_) (isRingWord_of_window ?_)).trans ((hrd _ hclr).trans (State.rd_clearAsked _ hi))
    · unfold Reg.TAL_CLR
      omega
    · unfold Reg.TAL_CLR
      omega

theorem exec_frameBoundary_dead {tile : Fin 64} (h : s.tileLive tile = false) : exec (.frameBoundary tile) s = .next s :=
  if_pos (by simp [h])

theorem exec_frameBoundary_live {tile : Fin 64} (h : s.tileLive tile = true) : exec (.frameBoundary tile) s =
    .next (((((s.endFrame tile).newFrame tile).takeSequence tile).takeMode tile).endBoundary tile) :=
  if_neg (by simp [h])

/-- The state in which a boundary's turn of MODE comes: MODE, MODEF and the sequences are those of the frame that ended, and nothing is
delivered. -/
theorem State.newFrame_shows (s : State) (tile : Nat) :
    (∀ a, a < 0x2030100 + 0x40000 * tile → 0x2000000 ≤ a → ((s.endFrame tile).newFrame tile).rd a = s.rd a) ∧
    ((s.endFrame tile).newFrame tile).seqLive tile = s.seqLive tile ∧
    (((s.endFrame tile).newFrame tile).mon tile).got = [] ∧ (((s.endFrame tile).newFrame tile).mon tile).urgent = [] := by
  have hended := s.endFrame_kept tile
  rw [State.newFrame, State.mon_setMon_same]
  exact ⟨fun a ha hwindow => hended.rd a (not_liveWord_of_low ha) (isRingWord_of_window hwindow),
    hended.seqLive fun _ => not_cycleWord_seq, rfl, rfl⟩

theorem frameBoundary_live {tile : Fin 64} (h : s.tileLive tile = true) : ∃ t, exec (.frameBoundary tile) s = .next t ∧
    (s.rdf (Reg.MON_CTRL tile) 0 2 ≠ 0 → t.modef tile = s.rdf (Reg.MON_CTRL tile) 0 2) ∧
    (s.rdf (Reg.MON_CTRL tile) 0 2 = 0 → s.bit (Reg.MON_CTRL tile) 4 = false →
      t.modef tile = (if seqSound (s.seqLive tile) then 0 else s.modef tile) ∧ t.rdf (Reg.MON_CTRL tile) 0 2 = t.modef tile) ∧
    (t.mon tile).got = [] ∧ (t.mon tile).urgent = [] ∧ (∀ i, i < 3 → t.rd (Reg.TAL_CLR tile i) = 0#32) ∧
    t.bit (Reg.MON_CTRL tile) 4 = false := by
  obtain ⟨hrd, hseq, hgot, hurgent⟩ := s.newFrame_shows tile
  have hctrl := hrd (Reg.MON_CTRL tile) (by unfold Reg.MON_CTRL; omega) (by unfold Reg.MON_CTRL; omega)
  have hstat := hrd (Reg.MON_STAT tile) (by unfold Reg.MON_STAT; omega) (by unfold Reg.MON_STAT; omega)
  generalize hframe : (s.endFrame tile).newFrame tile = u at hrd hseq hgot hurgent hctrl hstat
  have hmode : u.rdf (Reg.MON_CTRL tile) 0 2 = s.rdf (Reg.MON_CTRL tile) 0 2 := congrArg (fld · 0 2) hctrl
  have hmodef : u.modef tile = s.modef tile := congrArg (fld · 0 2) hstat
  obtain ⟨happly, hmode', hmodef', hmon'⟩ := u.takeSequence_shows tile
  obtain ⟨happlied, hmon''⟩ := (u.takeSequence tile).takeMode_rest tile
  obtain ⟨hend, hendf, hendgot, hendurg, hclr⟩ := ((u.takeSequence tile).takeMode tile).endBoundary_shows tile
  refine ⟨_, exec_frameBoundary_live h, ?_⟩
  rw [hframe]
  refine ⟨fun hother => ?_, fun hrun hidle => ?_, ?_, ?_, hclr, ?_⟩
  · rw [hendf, State.takeMode_other (by rw [hmode', hmode]; exact hother), hmode', hmode]
  · have hsame : u.takeSequence tile = u := State.takeSequence_idle ((congrArg (wbit · 4) hctrl).trans hidle)
    rw [hsame] at hend hendf ⊢
    obtain ⟨hforce, hshown⟩ := State.takeMode_run (hmode.trans hrun)
    rw [hseq, hmodef] at hforce
    exact ⟨hendf.trans hforce, (congrArg (fld · 0 2) hend).trans (hshown.trans hendf.symm)⟩
  · rw [hendgot, hmon'', hmon', hgot]
  · rw [hendurg, hmon'', hmon', hurgent]
  · exact (congrArg (wbit · 4) hend).trans (happlied.trans happly)

end

/-! ## Writes of MON_CTRL and of a channel's configuration (R194, R205) -/

/-- MON_CTRL: MODE, ONESHOT and NBURST are RW, SEQAPPLY and SCAL set by a write of 1; NBURST alone has reserved encodings. -/
theorem find_monCtrl : ∀ tile : Fin 64, ((RegMap.find (Reg.MON_CTRL tile)).map fun p => (p.1.rw, p.1.w1c, p.1.w1s, p.1.rules)) =
    some (0xFFFF0023, 0, 0xF10, [⟨31, 16, [(1, 0xFFFF)], 1⟩]) := by decide

/-- Below NBURST a write of MON_CTRL's RW fields takes those fields and no other bit. -/
theorem State.getLsbD_writeReg_monCtrl (s : State) (tile : Fin 64) (v : Word) {i : Nat} (hi : i < 16) :
    ((s.writeReg (Reg.MON_CTRL tile) (v &&& 0xFFFF0023#32)).rd (Reg.MON_CTRL tile)).getLsbD i =
      if (0xFFFF0023#32).getLsbD i then v.getLsbD i else (s.rd (Reg.MON_CTRL tile)).getLsbD i := by
  obtain ⟨⟨e, ix⟩, hfind, hentry⟩ := Option.map_eq_some_iff.1 (find_monCtrl tile)
  simp only [Prod.mk.injEq] at hentry
  obtain ⟨hrw, hw1c, hw1s, hrules⟩ := hentry
  have hset : ((BitVec.ofNat 32 e.w1s).getLsbD i && (v &&& 0xFFFF0023#32).getLsbD i) = false := by
    have hapart : BitVec.ofNat 32 0xF10 &&& 0xFFFF0023#32 = 0#32 := by decide
    have hbit := congrArg (BitVec.getLsbD · i) hapart
    simp only [BitVec.getLsbD_and, BitVec.getLsbD_zero] at hbit
    rw [hw1s, BitVec.getLsbD_and, Bool.and_left_comm, hbit, Bool.and_false]
  have hwritable : (e.writable (v &&& 0xFFFF0023#32)).getLsbD i = (0xFFFF0023#32).getLsbD i := by
    rw [Bool.eq_iff_iff, e.writable_getLsbD _ (by omega), hrw, hrules]
    refine and_iff_left fun r hr hlo _ => ?_
    rw [List.mem_singleton.1 hr] at hlo
    exact absurd hlo (Nat.not_le.2 hi)
  rw [State.rd_writeReg_same s _ hfind, RegEntry.merge_getLsbD _ _ _ (by omega), hset, hw1c, hwritable, BitVec.getLsbD_and]
  cases (0xFFFF0023#32).getLsbD i <;> simp

section
variable {s : State} {tile : Fin 64} {v : Word}

/-- What a write of `w` to the RW fields of MON_CTRL shows in MODE, ONESHOT and SEQAPPLY (R205). -/
theorem State.writeReg_monCtrl (s : State) (tile : Fin 64) (w : Word) :
    (s.writeReg (Reg.MON_CTRL tile) (w &&& 0xFFFF0023#32)).rdf (Reg.MON_CTRL tile) 0 2 = fld w 0 2 ∧
    (s.writeReg (Reg.MON_CTRL tile) (w &&& 0xFFFF0023#32)).bit (Reg.MON_CTRL tile) 5 = wbit w 5 ∧
    (s.writeReg (Reg.MON_CTRL tile) (w &&& 0xFFFF0023#32)).bit (Reg.MON_CTRL tile) 4 = s.bit (Reg.MON_CTRL tile) 4 := by
  have hmode : ∀ i, i < 2 → (0xFFFF0023#32).getLsbD (0 + i) = true := by decide
  exact ⟨fld_congr fun i hi => (s.getLsbD_writeReg_monCtrl tile w (by omega)).trans (if_pos (hmode i hi)),
    (s.getLsbD_writeReg_monCtrl tile w (by omega)).trans (if_pos (by decide)),
    (s.getLsbD_writeReg_monCtrl tile w (by omega)).trans (if_neg (by decide))⟩

theorem monitorModeWrite_refused (hrun : fld v 0 2 = 0) (hchange : s.rdf (Reg.MON_CTRL tile) 0 2 ≠ 0)
    (hunsound : seqSound (s.seqLive tile) = false) : ∃ t, exec (.monitorModeWrite tile v) s = .next t ∧
      t.rdf (Reg.MON_CTRL tile) 0 2 = s.rdf (Reg.MON_CTRL tile) 0 2 ∧ t.bit (Reg.MON_ERRSTAT tile) 0 = true ∧
      WordsAndEvents [Reg.MON_CTRL tile, Reg.MON_ERRSTAT tile] s t := by
  have hbad : (fld v 0 2 == 0 && s.rdf (Reg.MON_CTRL tile) 0 2 != 0 && !seqSound (s.seqLive tile)) = true := by
    simp [hrun, hchange, hunsound]
  have hexec : exec (.monitorModeWrite tile v) s = .next ((s.writeReg (Reg.MON_CTRL tile)
      (put v 0 2 (s.rdf (Reg.MON_CTRL tile) 0 2) &&& 0xFFFF0023#32)).err (Reg.MON_ERRSTAT tile) 0) := by
    change Host.Outcome.next (s.writeMode tile v) = _
    unfold State.writeMode
    dsimp only
    rw [hbad]
    rfl
  refine ⟨_, hexec, ?_, (State.err_monErrstat _ tile (by omega)).1, ?_⟩
  · have hkept := State.rd_err_ne (s.writeReg (Reg.MON_CTRL tile) (put v 0 2 (s.rdf (Reg.MON_CTRL tile) 0 2) &&& 0xFFFF0023#32))
      (a := Reg.MON_ERRSTAT tile) (b := Reg.MON_CTRL tile) 0 (by unfold Reg.MON_CTRL Reg.MON_ERRSTAT; omega)
      (isRingWord_of_window (by unfold Reg.MON_CTRL; omega))
    refine (congrArg (fld · 0 2) hkept).trans ((s.writeReg_monCtrl tile _).1.trans ((fld_put_same v _ (by omega)).trans ?_))
    exact Nat.mod_eq_of_lt (fld_lt _ 0 2)
  · exact State.err_events ((WordsAndEvents.refl _ s).writeReg _ List.mem_cons_self) 0 (by simp)

theorem monitorModeWrite_taken (h : fld v 0 2 ≠ 0 ∨ s.rdf (Reg.MON_CTRL tile) 0 2 = 0 ∨ seqSound (s.seqLive tile) = true) :
    ∃ t, exec (.monitorModeWrite tile v) s = .next t ∧ t.rdf (Reg.MON_CTRL tile) 0 2 = fld v 0 2 ∧
      t.bit (Reg.MON_CTRL tile) 5 = wbit v 5 ∧ t.bit (Reg.MON_CTRL tile) 4 = s.bit (Reg.MON_CTRL tile) 4 ∧
      OnlyWords [Reg.MON_CTRL tile] s t := by
  have hgood : (fld v 0 2 == 0 && s.rdf (Reg.MON_CTRL tile) 0 2 != 0 && !seqSound (s.seqLive tile)) = false := by
    rcases h with h | h | h <;> simp [h]
  have hexec : exec (.monitorModeWrite tile v) s = .next (s.writeReg (Reg.MON_CTRL tile) (v &&& 0xFFFF0023#32)) := by
    change Host.Outcome.next (s.writeMode tile v) = _
    unfold State.writeMode
    dsimp only
    rw [hgood]
    rfl
  obtain ⟨hmode, honeshot, happly⟩ := s.writeReg_monCtrl tile v
  exact ⟨_, hexec, hmode, honeshot, happly, OnlyWords.writeReg_self s _ _⟩

theorem OnlyWords.setChans {as : List Nat} {t : State} (h : OnlyWords as s t) (x : List (Nat × ChanRec)) :
    OnlyWords as { s with chans := x } { t with chans := x } :=
  ⟨h.1, congrArg (fun u : State => { u with chans := x }) h.2⟩

/-- A write of a channel's configuration changes its word, and at most the side of its window comparator. -/
theorem State.writeChcfg_chans (s : State) (tile ch : Nat) (v : Word) : ∃ chans,
    s.writeChcfg tile ch v = { s.writeReg (Reg.MON_CHCFG tile ch) v with chans := chans } := by
  unfold State.writeChcfg
  dsimp only
  split
  · exact ⟨_, rfl⟩
  · exact ⟨_, rfl⟩

theorem channelConfigWrite_waits (s : State) (tile : Fin 64) (v : Word) (ch : Fin 92) : ∃ t, exec (.channelConfigWrite tile ch v) s = .next t ∧
    (∀ a, t.rdLive a = s.rdLive a) ∧ t = { s.writeReg (Reg.MON_CHCFG tile ch) v with chans := t.chans } ∧
    OnlyWords [Reg.MON_CHCFG tile ch] { s with chans := t.chans } t := by
  obtain ⟨chans, hwrite⟩ := s.writeChcfg_chans tile ch v
  have hwords : OnlyWords [Reg.MON_CHCFG tile ch] s (s.writeReg (Reg.MON_CHCFG tile ch) v) := OnlyWords.writeReg_self s _ v
  exact ⟨_, congrArg Host.Outcome.next hwrite, hwords.events.rdLive, rfl, hwords.setChans chans⟩

end

/-- Settles O39: the boundary of a live tile and of another, and the writes of MON_CTRL and of a channel's configuration. -/
theorem boundaryTakesEffect : Obligations.BoundaryTakesEffect := by
  unfold Obligations.BoundaryTakesEffect
  exact fun s tile => ⟨frameBoundary_live, exec_frameBoundary_dead, fun v => ⟨monitorModeWrite_refused, monitorModeWrite_taken,
    channelConfigWrite_waits s tile v⟩⟩

end Sys2Proof.Machine
end


section
/-! PROOF. O40: urgent conversions. -/
namespace Sys2Proof.Machine

/-! ## The conversion at a slot (R191) -/

/-- The Assayer's requests of a tile: those that wait, and the one that comes with the conversion. -/
def State.asyQueue (s : State) (tile : Nat) (adc : Fin 4) (x : Option (Fin 92)) : List (Nat × Nat) :=
  (s.mon tile).asyWait ++ (x.map fun (ch : Fin 92) => (adc.val, ch.val)).toList

/-- The converter has made its urgent conversion of the frame, or has passed the slot. -/
def State.urgentMissed (s : State) (tile : Nat) (adc : Fin 4) (slot : Fin 23) : Bool :=
  (s.mon tile).urgent.contains adc.val || (s.mon tile).got.any fun p => p.1 / 23 == adc.val && decide (slot.val ≤ p.1 % 23)

/-- The converter's urgent conversion of the frame noted, and the first of the Assayer's requests for it taken from the queue. -/
def State.noteUrgent (s : State) (tile : Nat) (adc : Fin 4) (x : Option (Fin 92)) : State :=
  s.setMon tile { s.mon tile with
    urgent := adc.val :: (s.mon tile).urgent
    asyWait := (s.asyQueue tile adc x).eraseP fun p => p.1 == adc.val }

section
variable {s : State} {tile : Fin 64} {a : Fin 4} {slot : Fin 23} {code : BitVec 16}

theorem State.urgentMissed_iff : s.urgentMissed tile a slot = true ↔
    ((s.mon tile).urgent.contains a.val = true ∨ ∃ p, p ∈ (s.mon tile).got ∧ p.1 / 23 = a.val ∧ slot.val ≤ p.1 % 23) := by
  simp only [State.urgentMissed, Bool.or_eq_true, List.any_eq_true, Bool.and_eq_true, beq_iff_eq, decide_eq_true_eq]

theorem State.urgentMissed_false (hown : (s.mon tile).urgent.contains a.val = false)
    (hslot : ∀ p, p ∈ (s.mon tile).got → p.1 / 23 = a.val → p.1 % 23 < slot.val) : s.urgentMissed tile a slot = false := by
  refine Bool.eq_false_iff.2 fun hmissed => ?_
  rcases State.urgentMissed_iff.1 hmissed with h | ⟨p, hmem, hadc, hpassed⟩
  · exact Bool.noConfusion (hown.symm.trans h)
  · exact absurd (hslot p hmem hadc) (Nat.not_lt.2 hpassed)

theorem exec_urgentConversion_out (h : s.adcOut tile a = true ∨ s.tileLive tile = false) (x : Option (Fin 92)) :
    exec (.urgentConversion tile a slot x code) s = .next s := by
  refine if_pos ?_
  rcases h with h | h <;> simp [h]

variable (hadc : s.adcOut tile a = false) (hlive : s.tileLive tile = true)
include hadc hlive

theorem exec_urgentConversion_missed (h : s.urgentMissed tile a slot = true) (x : Option (Fin 92)) :
    exec (.urgentConversion tile a slot x code) s = .next (s.setMon tile { s.mon tile with asyWait := s.asyQueue tile a x }) :=
  (if_neg (by simp [hadc, hlive])).trans (if_pos h)

/-- At its slot, a converter that may make its urgent conversion serves the first of the Assayer's requests for it. -/
theorem exec_urgentConversion_assayer (h : s.urgentMissed tile a slot = false) {x : Option (Fin 92)} {p : Nat × Nat}
    (hfirst : (s.asyQueue tile a x).find? (fun q => q.1 == a.val) = some p) :
    exec (.urgentConversion tile a slot x code) s = .next ((s.noteUrgent tile a x).urgentSample tile p.2 false code).1 := by
  have hmay : exec (.urgentConversion tile a slot x code) s = _ := (if_neg (by simp [hadc, hlive])).trans (if_neg (Bool.eq_false_iff.1 h))
  rw [hmay]
  unfold State.asyQueue at hfirst
  rw [hfirst]
  rfl

variable (hmay : s.urgentMissed tile a slot = false) (hnone : (s.asyQueue tile a none).find? (fun q => q.1 == a.val) = none)
include hmay hnone

/-- With no request of the Assayer for it, it looks to the register's. -/
theorem exec_urgentConversion_alone : exec (.urgentConversion tile a slot none code) s = match s.urgentTarget tile with
    | some (b, ch) =>
      if b = a.val then
        let r := (s.noteUrgent tile a none).urgentSample tile ch (s.bit (Reg.MON_URGREQ tile) 30) code
        .next (r.1.wr (Reg.MON_URGSTAT tile) (pack [(31, 1, 1), (30, 1, r.2.toNat)]))
      else .next s
    | none => .next s := by
  have hslot : exec (.urgentConversion tile a slot none code) s = _ := (if_neg (by simp [hadc, hlive])).trans (if_neg (Bool.eq_false_iff.1 hmay))
  rw [hslot]
  unfold State.asyQueue at hnone
  rw [hnone]
  rfl

theorem exec_urgentConversion_register {ch : Nat} (htarget : s.urgentTarget tile = some (a.val, ch)) :
    exec (.urgentConversion tile a slot none code) s =
      .next (((s.noteUrgent tile a none).urgentSample tile ch (s.bit (Reg.MON_URGREQ tile) 30) code).1.wr (Reg.MON_URGSTAT tile)
        (pack [(31, 1, 1), (30, 1, (s.invrem tile ch == 0).toNat)])) := by
  rw [exec_urgentConversion_alone hadc hlive hmay hnone, htarget]
  exact if_pos rfl

theorem exec_urgentConversion_idle (hother : ∀ ch, s.urgentTarget tile ≠ some (a.val, ch)) :
    exec (.urgentConversion tile a slot none code) s = .next s := by
  rw [exec_urgentConversion_alone hadc hlive hmay hnone]
  split
  · next b ch htarget =>
    refine if_neg ?_
    rintro rfl
    exact hother ch htarget
  · rfl

end

/-! ## What an urgent sample leaves (R193) -/

namespace KeptBut

variable {W L : Nat → Prop} {s t : State} {tile ch : Nat}

theorem putSum (h : KeptBut W L s t) {a : Nat} (x : Int) (hlow : W a) (hhigh : W (a + 4)) : KeptBut W L s (t.putSum a x) :=
  (h.wr _ hlow).wr _ hhigh

theorem accumulate (h : KeptBut W L s t) (d : BitVec 16) (hlive : ∀ k, k < 32 → W (Reg.TAL_LIVE_W0 tile ch + k)) :
    KeptBut W L s (t.accumulate tile ch d) := by
  unfold State.accumulate
  extract_lets a c v q num n mn mx summed
  have hblock : ∀ k, k < 32 → W (a + k) := hlive
  have hsummed : KeptBut W L s summed :=
    (((h.putSum _ (hblock 0 (by omega)) (hblock 4 (by omega))).putSum _ (hblock 8 (by omega)) (hblock 12 (by omega))).wr _
      (hblock 16 (by omega))).wr _ (hblock 20 (by omega))
  split
  · exact h
  · exact (hsummed.wr _ (hblock 24 (by omega))).when _ ((hsummed.wr _ (hblock 24 (by omega))).wrBit _ _ (hblock 28 (by omega)))

theorem urgentSample (h : KeptBut W L s t) (tal : Bool) (d : BitVec 16) (hcfg : W (Reg.MON_CHCFG tile ch))
    (hwindow : ∀ a ∈ windowWords tile ch, W a) (hlive : ∀ k, k < 32 → W (Reg.TAL_LIVE_W0 tile ch + k)) :
    KeptBut W L s (t.urgentSample tile ch tal d).1 := by
  have hw7 : Reg.TAL_LIVE_W7 tile ch = Reg.TAL_LIVE_W0 tile ch + 28 := by
    unfold Reg.TAL_LIVE_W0 Reg.TAL_LIVE_W7
    omega
  unfold State.urgentSample
  extract_lets valid tested
  have htested : KeptBut W L s tested := (h.wrf _ _ _ hcfg).windowTest d hwindow
  dsimp only
  split
  · split
    · exact htested.accumulate d hlive
    · exact htested.countInvalid (hw7 ▸ hlive 28 (by omega))
  · exact htested

end KeptBut

/-- An urgent sample leaves the converters as they stand. -/
theorem State.mon_urgentSample (s : State) (tile ch : Nat) (tal : Bool) (d : BitVec 16) (k : Nat) :
    (s.urgentSample tile ch tal d).1.mon k = s.mon k :=
  ((KeptBut.refl (fun _ => True) (fun _ => True) s).urgentSample tal d trivial (fun _ _ => trivial) fun _ _ => trivial).mon k

/-- The Assayer's sample: of the words outside its window comparator INVREM alone changes (R193). -/
theorem State.urgentSample_assayer (s : State) (tile ch : Nat) (d : BitVec 16) :
    KeptBut (· ∈ windowWords tile ch) (fun _ => True) (s.wrf (Reg.MON_CHCFG tile ch) 24 7 (s.invrem tile ch - 1))
      (s.urgentSample tile ch false d).1 :=
  (KeptBut.refl _ _ _).windowTest d fun _ => id

section
variable {s : State} {tile ch : Nat} {d : BitVec 16}

theorem State.invrem_urgentSample (hch : ch < 92) : (s.urgentSample tile ch false d).1.invrem tile ch = s.invrem tile ch - 1 := by
  have hwindow : Reg.MON_CHCFG tile ch ∉ windowWords tile ch := by
    simp only [windowWords, List.mem_cons, List.not_mem_nil, or_false, not_or]
    unfold Reg.MON_CHCFG Reg.MON_WINHIT Reg.MON_WINLAST Reg.MON_ERRSTAT
    omega
  have hlt := s.invrem_lt tile ch
  calc _ = (s.wrf (Reg.MON_CHCFG tile ch) 24 7 (s.invrem tile ch - 1)).rdf (Reg.MON_CHCFG tile ch) 24 7 :=
        (s.urgentSample_assayer tile ch d).rdf hwindow (isRingWord_of_window (by unfold Reg.MON_CHCFG; omega)) 24 7
    _ = (s.invrem tile ch - 1) % 2 ^ 7 := s.rdf_wrf_same _ _ (by omega)
    _ = s.invrem tile ch - 1 := Nat.mod_eq_of_lt (by omega)

theorem State.urgstat_urgentSample (hch : ch < 92) :
    (s.urgentSample tile ch false d).1.rd (Reg.MON_URGSTAT tile) = s.rd (Reg.MON_URGSTAT tile) := by
  have hwindow : Reg.MON_URGSTAT tile ∉ windowWords tile ch := by
    simp only [windowWords, List.mem_cons, List.not_mem_nil, or_false, not_or]
    unfold Reg.MON_URGSTAT Reg.MON_WINHIT Reg.MON_WINLAST Reg.MON_ERRSTAT
    omega
  exact ((s.urgentSample_assayer tile ch d).rd _ hwindow (isRingWord_of_window (by unfold Reg.MON_URGSTAT; omega))).trans
    (s.rd_wr_ne _ (by unfold Reg.MON_URGSTAT Reg.MON_CHCFG; omega))

end

/-- What the first element of its kind is taken from is the list less that element. -/
theorem eraseP_eq_erase_of_find? {α : Type} [BEq α] [LawfulBEq α] {f : α → Bool} {xs : List α} {p : α} (h : xs.find? f = some p) :
    xs.eraseP f = xs.erase p := by
  induction xs with
  | nil => cases h
  | cons x xs ih =>
    cases hx : f x with
    | true =>
      rw [List.find?_cons_of_pos hx] at h
      cases h
      rw [List.eraseP_cons_of_pos hx, List.erase_cons_head]
    | false =>
      rw [List.find?_cons_of_neg (by simp [hx])] at h
      have hne : ¬ (x == p) = true := fun heq => by
        rw [eq_of_beq heq, List.find?_some h] at hx
        cases hx
      rw [List.eraseP_cons_of_neg (by simp [hx]), List.erase_cons_tail hne, ih h]

/-! ## URGENT_CONVERSION -/

section
variable {s : State} {tile : Fin 64} {a : Fin 4} {slot : Fin 23} {code : BitVec 16}
variable (hadc : s.adcOut tile a = false) (hlive : s.tileLive tile = true)
include hadc hlive

theorem urgentConversion_missed (h : s.urgentMissed tile a slot = true) :
    (∀ ch : Fin 92, ∃ t, exec (.urgentConversion tile a slot (some ch) code) s = .next t ∧ (a.val, ch.val) ∈ (t.mon tile).asyWait ∧
      (t.mon tile).urgent = (s.mon tile).urgent ∧ t = { s with mons := t.mons }) ∧
    ∃ t, exec (.urgentConversion tile a slot none code) s = .next t ∧ t.mon tile = s.mon tile ∧ t = { s with mons := t.mons } := by
  refine ⟨fun ch => ⟨_, exec_urgentConversion_missed hadc hlive h _, ?_, ?_, rfl⟩,
    ⟨_, exec_urgentConversion_missed hadc hlive h _, ?_, rfl⟩⟩
  · rw [State.mon_setMon_same]
    exact List.mem_append_right _ List.mem_cons_self
  · rw [State.mon_setMon_same]
  · have hqueue : s.asyQueue tile a none = (s.mon tile).asyWait := List.append_nil _
    rw [State.mon_setMon_same, hqueue]

variable (hmay : s.urgentMissed tile a slot = false)
include hmay

theorem urgentConversion_assayer {x : Option (Fin 92)} {p : Nat × Nat}
    (hfirst : (s.asyQueue tile a x).find? (fun q => q.1 == a.val) = some p) (hch : p.2 < 92) :
    ∃ t, exec (.urgentConversion tile a slot x code) s = .next t ∧ a.val ∈ (t.mon tile).urgent ∧
      (t.mon tile).asyWait = (s.asyQueue tile a x).erase p ∧ t.invrem tile p.2 = s.invrem tile p.2 - 1 ∧
      t.rd (Reg.MON_URGSTAT tile) = s.rd (Reg.MON_URGSTAT tile) := by
  refine ⟨_, exec_urgentConversion_assayer hadc hlive hmay hfirst, ?_, ?_, State.invrem_urgentSample hch, State.urgstat_urgentSample hch⟩
  · rw [State.mon_urgentSample, State.noteUrgent, State.mon_setMon_same]
    exact List.mem_cons_self
  · rw [State.mon_urgentSample, State.noteUrgent, State.mon_setMon_same]
    exact eraseP_eq_erase_of_find? hfirst

variable (hnone : (s.asyQueue tile a none).find? (fun q => q.1 == a.val) = none)
include hnone

theorem urgentConversion_register {ch : Nat} (htarget : s.urgentTarget tile = some (a.val, ch)) :
    ∃ t, exec (.urgentConversion tile a slot none code) s = .next t ∧ t.bit (Reg.MON_URGSTAT tile) 31 = true ∧
      t.bit (Reg.MON_URGSTAT tile) 29 = false ∧ (t.bit (Reg.MON_URGSTAT tile) 30 = true ↔ s.invrem tile ch = 0) ∧
      a.val ∈ (t.mon tile).urgent := by
  have hstat : ∀ (u : State) (w : Word) i, (u.wr (Reg.MON_URGSTAT tile) w).bit (Reg.MON_URGSTAT tile) i = wbit w i := fun u w i =>
    congrArg (wbit · i) (u.rd_wr_same _ _)
  have hshown : ∀ b : Bool, wbit (pack [(31, 1, 1), (30, 1, b.toNat)]) 31 = true ∧ wbit (pack [(31, 1, 1), (30, 1, b.toNat)]) 29 = false ∧
      wbit (pack [(31, 1, 1), (30, 1, b.toNat)]) 30 = b := by decide
  obtain ⟨hdone, hwaits, hvalid⟩ := hshown (s.invrem tile ch == 0)
  refine ⟨_, exec_urgentConversion_register hadc hlive hmay hnone htarget, (hstat _ _ _).trans hdone, (hstat _ _ _).trans hwaits, ?_, ?_⟩
  · rw [hstat, hvalid, beq_iff_eq]
  · have hmon : ∀ (u : State) (w : Word), (u.wr (Reg.MON_URGSTAT tile) w).mon tile = u.mon tile := fun _ _ => rfl
    rw [hmon, State.mon_urgentSample, State.noteUrgent, State.mon_setMon_same]
    exact List.mem_cons_self

end

/-- Settles O40: a converter that is out, one that has missed its slot, and one that serves the Assayer, the register or nobody. -/
theorem urgentConversions : Obligations.UrgentConversions := by
  unfold Obligations.UrgentConversions
  refine fun s tile a slot code => ⟨exec_urgentConversion_out, fun hadc hlive hmissed =>
    urgentConversion_missed hadc hlive (State.urgentMissed_iff.2 hmissed), fun hadc hlive hown hslot => ?_⟩
  have hmay := State.urgentMissed_false hown hslot
  refine ⟨fun x p => urgentConversion_assayer hadc hlive hmay, fun hothers => ?_⟩
  have hnone : (s.asyQueue tile a none).find? (fun q => q.1 == a.val) = none := by
    have hqueue : s.asyQueue tile a none = (s.mon tile).asyWait := List.append_nil _
    rw [hqueue]
    exact List.find?_eq_none.2 fun q hq => by simpa using hothers q hq
  exact ⟨fun ch => urgentConversion_register hadc hlive hmay hnone, exec_urgentConversion_idle hadc hlive hmay hnone⟩

end Sys2Proof.Machine
end


section
/-! PROOF. For O58: the image checked and applied, the banks and the wear records loaded. -/
namespace Sys2Proof.Machine

/-! ## The slots (R371, R372, R386) -/

theorem State.slotFound_foreign {s : State} (h : s.norOwn = []) (base : Nat) (x : SlotRead) : s.slotFound base x = x := by
  have hknown : s.slotKnown base = false := by
    unfold State.slotKnown
    extract_lets header n
    exact List.all_eq_false.2 ⟨0, List.mem_range.2 (by omega), by simp [h]⟩
  unfold State.slotFound
  rw [hknown]
  exact if_neg Bool.false_ne_true

theorem State.slotReason_lt (s : State) (x : SlotRead) : s.slotReason x < 16 := by
  have hreason := x.reason.isLt
  unfold State.slotReason
  dsimp only
  split_ifs <;> omega

/-- The slots of phase IMAGE in the order in which they are tried. -/
def triedFirst (a b : SlotRead) : SlotRead := if slotBFirst a b then b else a

/-- The slot tried where the first one is not valid. -/
def triedSecond (a b : SlotRead) : SlotRead := if slotBFirst a b then a else b

/-- BOOT_REJ where neither slot is valid. -/
def State.rejectWord (s : State) (a b : SlotRead) : Word :=
  if slotBFirst a b then pack [(4, 4, s.slotReason (triedFirst a b)), (0, 4, s.slotReason (triedSecond a b))]
  else pack [(4, 4, s.slotReason (triedSecond a b)), (0, 4, s.slotReason (triedFirst a b))]

theorem pack_reject {x y : Nat} (hx : x < 16) (hy : y < 16) :
    fld (pack [(4, 4, y), (0, 4, x)]) 0 4 = x ∧ fld (pack [(4, 4, y), (0, 4, x)]) 4 4 = y := by
  have hpack : pack [(4, 4, y), (0, 4, x)] = put (put 0#32 4 4 y) 0 4 x := rfl
  rw [hpack, fld_put_same _ _ (by omega), fld_put_ne _ _ (.inr (by omega)), fld_put_same _ _ (by omega)]
  exact ⟨Nat.mod_eq_of_lt hx, Nat.mod_eq_of_lt hy⟩

/-- Whichever slot is tried first, BOOT_REJ names slot A's reason and slot B's. -/
theorem State.rejectWord_reasons (s : State) (a b : SlotRead) :
    fld (s.rejectWord a b) 0 4 = s.slotReason a ∧ fld (s.rejectWord a b) 4 4 = s.slotReason b := by
  unfold State.rejectWord triedFirst triedSecond
  split
  · exact pack_reject (s.slotReason_lt a) (s.slotReason_lt b)
  · exact pack_reject (s.slotReason_lt a) (s.slotReason_lt b)

section
variable {s : State} {x y a b : SlotRead} (ha : s.slotFound 0 x = a) (hb : s.slotFound 0x1000000 y = b)

theorem exec_imageVerified_other (x y : SlotRead) (h : s.bootPhase ≠ 1) : exec (.imageVerified x y) s = .next s := if_pos h

include ha hb

theorem exec_imageVerified_first (hphase : s.bootPhase = 1) (hvalid : s.slotReason (triedFirst a b) = 0) :
    exec (.imageVerified x y) s = .next (s.loadImage (slotBFirst a b) (triedFirst a b)) := by
  subst ha hb
  exact (if_neg (not_not.2 hphase)).trans (if_pos hvalid)

theorem exec_imageVerified_fails (hphase : s.bootPhase = 1) (hfirst : s.slotReason (triedFirst a b) ≠ 0)
    (hsecond : s.slotReason (triedSecond a b) ≠ 0) :
    exec (.imageVerified x y) s = .next (s.wr Reg.BOOT_REJ (s.rejectWord a b)).bootFail := by
  subst ha hb
  refine (if_neg (not_not.2 hphase)).trans ((if_neg hfirst).trans ?_)
  exact congrArg Host.Outcome.next (if_neg hsecond)

end

/-! ## Factors loaded (R226, R375) -/

/-- The words that an image or a bank brings its contents to: those below BOOT and the tile windows. -/
def LoadWord (a : Nat) : Prop := a < 0x100000 ∨ 0x2000000 ≤ a

theorem loadWord_window {a : Nat} (h : 0x2000000 ≤ a) : LoadWord a := .inr h

theorem loadWord_low {a : Nat} (h : a < 0x100000) : LoadWord a := .inl h

namespace KeptBut

variable {W L : Nat → Prop} {s t : State}

theorem loadWord (h : KeptBut LoadWord L s t) (a : Nat) (v : Word) : KeptBut LoadWord L s (t.loadWord a v) := by
  unfold State.loadWord
  split
  · split
    · next hqual =>
      obtain ⟨-, hhigh⟩ := hqual
      exact h.wr _ (loadWord_low (by unfold Reg.ASY_QUAL_W0 at hhigh; omega))
    · exact h
  · next hwindow =>
    split
    · exact h.wrMask _ _ (loadWord_window (Nat.not_lt.1 hwindow))
    · exact h

theorem keepTone (h : KeptBut LoadWord L s t) (old : State) (c : Nat) : KeptBut LoadWord L s (old.keepTone t c) := by
  unfold State.keepTone
  dsimp only
  split
  · exact (h.wrf _ _ _ (loadWord_window (cooWord_window c 0))).err _ (loadWord_window (by unfold Reg.COO_ERRSTAT; omega))
  · exact h

theorem loadFactors (h : KeptBut W (fun _ => True) s t) (c : Nat) (hW : ∀ a, 0x2000000 ≤ a → W a) :
    KeptBut W (fun _ => True) s (t.loadFactors c) := by
  have hforced : KeptBut W (fun _ => True) s (t.forceFactors c) := h.foldl _ fun _ _ _ hu => hu.wrLive _ trivial
  exact ((hforced.wrf _ _ _ (hW _ (drvWord_window c 1))).wrf _ _ _ (hW _ (drvWord_window c 1))).wrBit _ _ (hW _ (cooWord_window c 7))

theorem loadSet (h : KeptBut LoadWord (fun _ => True) s t) (ws : List (Nat × Word)) : KeptBut LoadWord (fun _ => True) s (t.loadSet ws) := by
  have hwords := h.foldl ws (f := fun u p => u.loadWord p.1 p.2) fun _ p _ hu => hu.loadWord p.1 p.2
  have htoned := fun toned : List Nat => hwords.foldl toned (f := State.keepTone t) fun _ c _ hu => hu.keepTone t c
  exact ((htoned _).foldl _ fun _ c _ hu => hu.loadFactors c fun _ => loadWord_window).wrf _ _ _
    (loadWord_low (a := Reg.ASY_STAT) (by decide))

/-! ## The image applied -/

theorem forgetBeats (h : KeptBut W L s t) (is js : List Nat) : KeptBut W L s { t with badBeats := is, tbStart := js } := h.update

theorem lockIslands (h : KeptBut LoadWord L s t) : KeptBut LoadWord L s t.lockIslands := by
  have hlocked : KeptBut LoadWord L s ((List.range 69).foldl (fun u i => u.wr (Reg.MTX_ISLSTAT i) 0x5#32) t) :=
    h.foldl _ fun u i hi hu => hu.wr _ (loadWord_low (by have := List.mem_range.1 hi; unfold Reg.MTX_ISLSTAT; omega))
  exact hlocked.forgetBeats [] (List.range 69)

theorem applyStartup (h : KeptBut LoadWord L s t) (m : Image) : KeptBut LoadWord L s (t.applyStartup m) := by
  have hlink : ∀ k ∈ List.range 4, LoadWord (Reg.HIF_LINKCFG k) := fun k hk =>
    loadWord_low (by have := List.mem_range.1 hk; unfold Reg.HIF_LINKCFG; omega)
  exact (h.foldl _ fun u k hk hu => (hu.wrBit _ _ (hlink k hk)).wrf _ _ _ (hlink k hk)).wrf _ _ _
    (loadWord_low (a := Reg.PTH_CTRL) (by decide))

theorem applyImage (h : KeptBut LoadWord (fun _ => True) s t) {m : Image} (hregwr : m.regwr = []) :
    KeptBut LoadWord (fun _ => True) s (t.applyImage m) := by
  unfold State.applyImage
  rw [hregwr]
  exact (h.lockIslands.loadSet m.factory).applyStartup m

end KeptBut

/-! ## BOOT_STAT -/

theorem State.bootPhase_setBoot (s : State) {n : Nat} (h : n < 16) : (s.setBoot n).bootPhase = n :=
  (s.rdf_wrf_same Reg.BOOT_STAT n (by omega)).trans (Nat.mod_eq_of_lt h)

theorem State.bit_setBoot (s : State) (n : Nat) {i : Nat} (h : i < 20 ∨ 24 ≤ i) : (s.setBoot n).bit Reg.BOOT_STAT i = s.bit Reg.BOOT_STAT i :=
  (congrArg (wbit · i) (s.rd_wr_same _ _)).trans (wbit_put_ne _ _ (by omega))

theorem State.rd_setBoot_ne (s : State) (n : Nat) {a : Nat} (h : a ≠ Reg.BOOT_STAT) : (s.setBoot n).rd a = s.rd a := s.rd_wr_ne _ h

theorem State.rd_bootTime_ne (s : State) (i : Nat) {a : Nat} (h : a < 0x100020 ∨ 0x100040 ≤ a) (hi : i < 8) : (s.bootTime i).rd a = s.rd a :=
  s.rd_wr_ne _ (by unfold Reg.BOOT_TIME; omega)

/-! ## The image loaded (R375) -/

/-- The image of `slot` named in BOOT_STAT, BOOT_IMGSEQ and BOOT_IMGINFO, held, and phase APPLY entered. -/
def State.nameImage (s : State) (slot : Bool) (x : SlotRead) : State :=
  ((((((s.wrBit Reg.BOOT_STAT 26 slot).wr Reg.BOOT_IMGSEQ (imageSeq x.image)).wr Reg.BOOT_IMGINFO
    (pack [(8, 8, imageSvn x.image), (0, 2, imageKeySlot x.image)])).holdImage x).bootTime 0).setBoot 2)

section
variable (s : State) (slot : Bool) (x : SlotRead)

theorem State.bit_nameImage {i : Nat} (h : i < 20 ∨ 24 ≤ i) :
    (s.nameImage slot x).bit Reg.BOOT_STAT i = (s.wrBit Reg.BOOT_STAT 26 slot).bit Reg.BOOT_STAT i := by
  unfold State.nameImage
  rw [State.bit_setBoot _ _ h]
  refine congrArg (wbit · i) ((State.rd_bootTime_ne _ 0 (.inl (by decide)) (by omega)).trans ?_)
  exact (State.rd_wr_ne _ _ (by decide)).trans (State.rd_wr_ne _ _ (by decide))

theorem State.imgseq_nameImage : (s.nameImage slot x).rd Reg.BOOT_IMGSEQ = imageSeq x.image := by
  unfold State.nameImage
  rw [State.rd_setBoot_ne _ _ (by decide), State.rd_bootTime_ne _ 0 (.inl (by decide)) (by omega)]
  exact (State.rd_wr_ne _ _ (by decide)).trans (State.rd_wr_same _ _ _)

theorem State.loadImage_cold (h : s.bit Reg.BOOT_STAT 29 = false) : s.loadImage slot x = (s.nameImage slot x).applyImage x.image := by
  unfold State.loadImage State.nameImage
  dsimp only
  rw [h]
  exact if_neg Bool.false_ne_true

/-- An image without REGWR, loaded at a start that is no wake. -/
theorem State.loadImage_shows (hregwr : x.image.regwr = []) (hcold : s.bit Reg.BOOT_STAT 29 = false) :
    (s.loadImage slot x).bootPhase = 2 ∧ (s.loadImage slot x).image = some x.image ∧
    (s.loadImage slot x).rd Reg.BOOT_IMGSEQ = imageSeq x.image ∧ (s.loadImage slot x).bit Reg.BOOT_STAT 26 = slot := by
  have happlied := (KeptBut.refl LoadWord (fun _ => True) (s.nameImage slot x)).applyImage hregwr
  have hword : ∀ {a}, 0x100000 ≤ a → a < 0x1800000 →
      ((s.nameImage slot x).applyImage x.image).rd a = (s.nameImage slot x).rd a := fun {a} hlow hhigh =>
    happlied.rd a (by unfold LoadWord; omega) (by unfold isRingWord; simp; omega)
  have hstat := hword (a := Reg.BOOT_STAT) (by decide) (by decide)
  rw [s.loadImage_cold slot x hcold]
  refine ⟨(congrArg (fld · 20 4) hstat).trans (State.bootPhase_setBoot _ (by omega)), happlied.image,
    (hword (by decide) (by decide)).trans (s.imgseq_nameImage slot x), ?_⟩
  exact (congrArg (wbit · 26) hstat).trans ((s.bit_nameImage slot x (.inr (by omega))).trans (s.bit_wrBit_same _ _ (by omega)))

end

/-- Boot stopped: phase FAILED, BOOTFAIL and FAULT_N; the words beside BOOT_STAT stay. -/
theorem State.bootFail_shows (s : State) : s.bootFail.bootPhase = 10 ∧ s.bootFail.bit Reg.BOOT_STAT 30 = true ∧
    s.bootFail.rd Reg.BOOT_REJ = s.rd Reg.BOOT_REJ ∧ s.bootFail.out = .pin "FAULT_N" false :: s.out := by
  have hphase : s.bootFail.bootPhase = (s.setBoot 10).bootPhase := State.rdf_wrf_ne (s.setBoot 10) _ _ (.inl (by omega))
  refine ⟨hphase.trans (s.bootPhase_setBoot (by omega)), (s.setBoot 10).bit_wrBit_same _ _ (by omega), ?_, rfl⟩
  exact (State.rd_wr_ne _ _ (by decide)).trans (State.rd_wr_ne _ _ (by decide))

section
variable {s : State} {x y a b : SlotRead} (ha : s.slotFound 0 x = a) (hb : s.slotFound 0x1000000 y = b)
include ha hb

theorem imageVerified_loads (hphase : s.bootPhase = 1) (hvalid : s.slotReason (triedFirst a b) = 0) :
    ∃ t, exec (.imageVerified x y) s = .next t ∧ t = s.loadImage (slotBFirst a b) (triedFirst a b) ∧
      ((triedFirst a b).image.regwr = [] → s.bit Reg.BOOT_STAT 29 = false → t.bootPhase = 2 ∧ t.image = some (triedFirst a b).image ∧
        t.rd Reg.BOOT_IMGSEQ = (triedFirst a b).image.header.getD 3 0#32 ∧ t.bit Reg.BOOT_STAT 26 = slotBFirst a b) :=
  ⟨_, exec_imageVerified_first ha hb hphase hvalid, rfl, s.loadImage_shows _ _⟩

theorem imageVerified_fails (hphase : s.bootPhase = 1) (hfirst : s.slotReason (triedFirst a b) ≠ 0)
    (hsecond : s.slotReason (triedSecond a b) ≠ 0) : ∃ t, exec (.imageVerified x y) s = .next t ∧ t.bootPhase = 10 ∧
      t.bit Reg.BOOT_STAT 30 = true ∧ t.rdf Reg.BOOT_REJ 0 4 = s.slotReason a ∧ t.rdf Reg.BOOT_REJ 4 4 = s.slotReason b ∧
      t.out = .pin "FAULT_N" false :: s.out := by
  obtain ⟨hstopped, hshown, hrej, hout⟩ := (s.wr Reg.BOOT_REJ (s.rejectWord a b)).bootFail_shows
  obtain ⟨hreasonA, hreasonB⟩ := s.rejectWord_reasons a b
  rw [State.rd_wr_same] at hrej
  exact ⟨_, exec_imageVerified_fails ha hb hphase hfirst hsecond, hstopped, hshown, (congrArg (fld · 0 4) hrej).trans hreasonA,
    (congrArg (fld · 4 4) hrej).trans hreasonB, hout⟩

end

end Sys2Proof.Machine
end


section
/-! PROOF. For O58: what waits for an image, drive's return, UP and LOCKLATE. -/
namespace Sys2Proof.Machine

/-- With no image loaded no later step of the start does anything. -/
theorem start_without_image {s : State} (found : List Candidate) (bs : List (Option (Word × List (Nat × Word))))
    (w : Option (List (Fin 4864 × Word))) (h : s.image = none) :
    exec (.bootPhaseComplete bs w) s = .next s ∧ exec (.driveReturn found) s = .next s ∧ exec .up s = .next s ∧ exec .locklate s = .next s := by
  have hcomplete : execBootPhaseComplete bs w s = .next s := by unfold execBootPhaseComplete; rw [h]
  have hdrive : execDriveReturn found s = .next s := by unfold execDriveReturn; rw [h]
  have hup : execUp s = .next s := by unfold execUp; rw [h]
  have hlate : execLocklate s = .next s := by unfold execLocklate; rw [h]
  exact ⟨hcomplete, hdrive, hup, hlate⟩

/-! ## Drive's return (R345, R378) -/

/-- An instant at or after now, reached by waiting where it lies ahead, is the instant's nanosecond. -/
theorem State.ns_raise {s : State} {u : Nat} (h : s.ns ≤ u) : (s.raise u).ns = u := by
  have hpos : 0 < nsUnit := by decide
  have hnow : s.now / nsUnit ≤ u := h
  have hraised : (s.raise u).ns = max s.now (u * nsUnit) / nsUnit := rfl
  rw [hraised]
  rcases le_total s.now (u * nsUnit) with hahead | hpast
  · rw [max_eq_right hahead, Nat.mul_div_cancel _ hpos]
  · rw [max_eq_left hpast]
    exact le_antisymm hnow ((Nat.le_div_iff_mul_le hpos).2 hpast)

theorem le_roundUp_four (n : Nat) : n ≤ roundUp 4 n := by
  unfold roundUp
  omega

theorem State.driveAt_returned (s : State) (x n : Nat) : ({ s with driveAt := x }.setBoot n).driveAt = x := rfl

theorem driveReturn_steps {s : State} {m : Image} (himage : s.image = some m) (found : List Candidate) :
    (s.bootPhase ≠ 7 → exec (.driveReturn found) s = .next s) ∧
    (s.bootPhase = 7 → ∃ t, exec (.driveReturn found) s = .next t ∧ t.bootPhase = 8 ∧ t.driveAt = roundUp 4 s.ns) := by
  change (_ → execDriveReturn found s = _) ∧ (_ → ∃ t, execDriveReturn found s = _ ∧ _)
  unfold execDriveReturn
  rw [himage]
  dsimp only
  refine ⟨fun hother => if_pos hother, fun hphase => ⟨_, if_neg (not_not.2 hphase), State.bootPhase_setBoot _ (by omega), ?_⟩⟩
  exact (State.driveAt_returned _ _ _).trans (State.ns_raise (le_roundUp_four s.ns))

/-! ## UP (R372, R376, R378) -/

/-- The ring engine's first fetches change the rings and what is sent alone. -/
theorem State.fetchAll_eq (s : State) : ∃ rs os, s.fetchAll = { s with rings := rs, out := os } := ⟨_, _, State.fetches_eq _ s⟩

theorem State.rd_fetchAll (s : State) (a : Nat) : s.fetchAll.rd a = s.rd a := by
  obtain ⟨rs, os, heq⟩ := s.fetchAll_eq
  rw [heq]
  rfl

theorem State.now_fetchAll (s : State) : s.fetchAll.now = s.now := by
  obtain ⟨rs, os, heq⟩ := s.fetchAll_eq
  rw [heq]

theorem State.rd_raiseSvn_ne (s : State) (m : Image) {a : Nat} (h : a ≠ Reg.SEC_OTPSTAT) : (s.raiseSvn m).rd a = s.rd a := by
  unfold State.raiseSvn
  split
  · exact s.rd_wr_ne _ h
  · rfl

theorem State.now_raiseSvn (s : State) (m : Image) : (s.raiseSvn m).now = s.now := by
  unfold State.raiseSvn
  split
  · rfl
  · rfl

theorem State.bootStat_setUp (s : State) (m : Image) :
    (s.setUp m).rd Reg.BOOT_STAT = ((s.wrBit Reg.BOOT_STAT 31 true).setBoot 9).rd Reg.BOOT_STAT := by
  unfold State.setUp
  rw [State.rd_fetchAll]
  refine (State.rd_wr_ne _ _ (by decide)).trans ((State.rd_raiseSvn_ne _ m (by decide)).trans ?_)
  exact State.rd_bootTime_ne _ 6 (.inl (by decide)) (by omega)

/-- UP: BOOT_STAT's bit 31 and phase UP, its other flags as they were; a wake ends in P0. -/
theorem State.setUp_shows (s : State) (m : Image) : (s.setUp m).bit Reg.BOOT_STAT 31 = true ∧ (s.setUp m).bootPhase = 9 ∧
    (s.bit Reg.BOOT_STAT 29 = true → (s.setUp m).pstate = 0) ∧ (s.setUp m).bit Reg.BOOT_STAT 27 = s.bit Reg.BOOT_STAT 27 := by
  have hstat := s.bootStat_setUp m
  have hflag : ∀ {i}, 24 ≤ i → (s.setUp m).bit Reg.BOOT_STAT i = (s.wrBit Reg.BOOT_STAT 31 true).bit Reg.BOOT_STAT i :=
    fun {i} hi => (congrArg (wbit · i) hstat).trans (State.bit_setBoot _ 9 (.inr hi))
  refine ⟨(hflag (by omega)).trans (s.bit_wrBit_same _ _ (by omega)),
    (congrArg (fld · 20 4) hstat).trans (State.bootPhase_setBoot _ (by omega)), fun hwake => ?_,
    (hflag (by omega)).trans (s.bit_wrBit_ne _ _ (by omega))⟩
  have hpower : (s.setUp m).pstate = (if s.bit Reg.BOOT_STAT 29 then 0 else fld (startupWord m 1) 0 1) % 2 ^ 3 :=
    (congrArg (fld · 0 3) (State.rd_fetchAll _ _)).trans (State.rdf_wrf_same _ _ _ (by omega))
  rw [hpower, hwake]
  rfl

theorem State.now_setUp (s : State) (m : Image) : (s.setUp m).now = s.now := by
  unfold State.setUp
  rw [State.now_fetchAll]
  exact State.now_raiseSvn _ m

section
variable {s : State} {m : Image} (himage : s.image = some m)
include himage

theorem exec_up : exec .up s = .next (if s.bootPhase = 8 ∧ s.ckts.all s.settled then s.setUp m else s) := by
  change execUp s = _
  unfold execUp
  rw [himage]

theorem exec_locklate : exec .locklate s = .next (if s.bootPhase = 8 ∧ !s.ckts.all s.settled then
    ((s.raise (s.driveAt + 200000000)).wrBit Reg.BOOT_STAT 27 true).setUp m else s) := by
  change execLocklate s = _
  unfold execLocklate
  rw [himage]

theorem up_once_settled (hphase : s.bootPhase = 8) (hsettled : s.ckts.all s.settled = true) :
    (∃ t, exec .up s = .next t ∧ t.bit Reg.BOOT_STAT 31 = true ∧ t.bootPhase = 9 ∧ (s.bit Reg.BOOT_STAT 29 = true → t.pstate = 0)) ∧
    exec .locklate s = .next s := by
  obtain ⟨hup, hnine, hwake, -⟩ := s.setUp_shows m
  rw [exec_up himage, exec_locklate himage, if_pos ⟨hphase, hsettled⟩, hsettled, if_neg (by simp)]
  exact ⟨⟨_, rfl, hup, hnine, hwake⟩, rfl⟩

theorem up_by_locklate (hphase : s.bootPhase = 8) (hunsettled : s.ckts.all s.settled = false) :
    exec .up s = .next s ∧ ∃ t, exec .locklate s = .next t ∧ t.bit Reg.BOOT_STAT 27 = true ∧ t.bit Reg.BOOT_STAT 31 = true ∧
      t.bootPhase = 9 ∧ t.now = max s.now ((s.driveAt + 200000000) * nsUnit) := by
  obtain ⟨hup, hnine, -, hlate⟩ := ((s.raise (s.driveAt + 200000000)).wrBit Reg.BOOT_STAT 27 true).setUp_shows m
  rw [exec_up himage, exec_locklate himage, hunsettled, if_neg (by simp), if_pos ⟨hphase, rfl⟩]
  exact ⟨rfl, _, rfl, hlate.trans (State.bit_wrBit_same _ _ _ (by omega)), hup, hnine, State.now_setUp _ m⟩

theorem up_not_started (hphase : s.bootPhase ≠ 8) : exec .up s = .next s ∧ exec .locklate s = .next s := by
  rw [exec_up himage, exec_locklate himage, if_neg fun h => hphase h.1, if_neg fun h => hphase h.1]
  exact ⟨rfl, rfl⟩

end

end Sys2Proof.Machine
end


section
/-! PROOF. For O58: the full calibration of the start, and the phases ANALOG, FULLCAL and CALWAIT. -/
namespace Sys2Proof.Machine

/-- The words that the start of the full calibration may change: any but BOOT_STAT and LMP_CTRL. -/
def CalWord (a : Nat) : Prop := a ≠ Reg.BOOT_STAT ∧ a ≠ Reg.LMP_CTRL

theorem calWord_window {a : Nat} (h : 0x2000000 ≤ a) : CalWord a := by
  unfold CalWord Reg.BOOT_STAT Reg.LMP_CTRL
  omega

namespace KeptBut

variable {L : Nat → Prop} {s t : State}

theorem setCalCells {W : Nat → Prop} (h : KeptBut W L s t) (xs : List CalRec) : KeptBut W L s { t.draw with calCells := xs } := h.update

theorem setCell (h : KeptBut CalWord L s t) (c : Nat) (x : CellRec) : KeptBut CalWord L s (t.setCell c x) := by
  have hcell : KeptBut CalWord L s { t with cells := Store.set CellRec.rest t.cells c x } := h.update
  exact hcell.wr _ (calWord_window (by unfold Reg.COO_CELL_W7; omega))

theorem settleClamps (h : KeptBut CalWord L s t) (c : Nat) : KeptBut CalWord L s (t.settleClamps c) := by
  unfold State.settleClamps
  dsimp only
  split
  · exact h
  · split
    · exact h.setCoo _ _
    · exact ((h.setCoo _ _).count _ _ _ (calWord_window (drvWord_window c 3))).err _ (calWord_window (by unfold Reg.DRV_ERRSTAT; omega))

theorem toMode (h : KeptBut CalWord L s t) (c m : Nat) : KeptBut CalWord L s (t.toMode c m) := by
  unfold State.toMode
  dsimp only
  split
  · exact ((h.settleClamps c).wr _ (calWord_window (drvWord_window c 2))).setCell _ _
  · exact (h.settleClamps c).setCell _ _

theorem cooStat (h : KeptBut CalWord L s t) (tile : Nat) : KeptBut CalWord L s (t.cooStat tile) :=
  h.wr _ (calWord_window (by unfold Reg.COO_STAT; omega))

/-- A cell taken into CAL. -/
theorem takeCal (h : KeptBut CalWord L s t) (x : CalRec) : KeptBut CalWord L s (t.takeCal x) := by
  have hmode := h.toMode x.cell 2
  exact (((hmode.setCalCells _).setCoo _ _).noteStale (calWord_window (by unfold Reg.TAL_LIVE_W7; omega))).cooStat _

theorem calSource {W : Nat → Prop} (h : KeptBut W L s t) (en band : Bool) : KeptBut W L s (t.calSource en band) := by
  unfold State.calSource
  split
  · exact h
  · exact h.update

theorem lampStat (h : KeptBut CalWord L s t) : KeptBut CalWord L s t.lampStat :=
  (((h.wr _ ⟨by decide, by decide⟩).wr _ ⟨by decide, by decide⟩).wr _ ⟨by decide, by decide⟩).wrBit _ _ ⟨by decide, by decide⟩

theorem asyStat {W : Nat → Prop} (h : KeptBut W L s t) (hW : W Reg.ASY_STAT) : KeptBut W L s t.asyStat :=
  ((h.wrBit 31 _ hW).wrf 28 3 _ hW).wrBit 26 _ hW

end KeptBut

/-! ## The full calibration started (R225, R377) -/

/-- The full calibration asked for: its record, and LMP_CTRL's hold of arming. -/
def State.askFull (s : State) (boot : Bool) : State := { s with fullcal := some ⟨boot, false, [], none, []⟩ }.wrBit Reg.LMP_CTRL 8 true

theorem State.startFull_kept (s : State) (boot : Bool) : KeptBut CalWord (fun _ => False) (s.askFull boot) (s.startFull boot) := by
  have hasy : CalWord Reg.ASY_STAT := ⟨by decide, by decide⟩
  have hshown := (KeptBut.refl CalWord (fun _ => False) (s.askFull boot)).lampStat
  exact (((hshown.foldl _ fun u c _ hu => hu.takeCal _).wr _ hasy).calSource true false).asyStat hasy

theorem State.startFull_shows (s : State) (boot : Bool) : (s.startFull boot).bootPhase = s.bootPhase ∧
    (s.startFull boot).fullcal = some ⟨boot, false, [], none, []⟩ ∧ (s.startFull boot).bit Reg.LMP_CTRL 8 = true := by
  have hkept := s.startFull_kept boot
  have hphase : (s.startFull boot).bootPhase = (s.askFull boot).bootPhase := hkept.rdf (fun h => h.1 rfl) rfl 20 4
  have hasked : (s.askFull boot).rd Reg.BOOT_STAT = s.rd Reg.BOOT_STAT := State.rd_wr_ne _ _ (by decide)
  exact ⟨hphase.trans (congrArg (fld · 20 4) hasked), hkept.fullcal,
    (hkept.bit (fun h => h.2 rfl) rfl 8).trans (State.bit_wrBit_same _ _ _ (by omega))⟩

/-! ## CALWAIT (R377) -/

theorem calwaitExpiry_steps (s : State) : (s.bootPhase ≠ 6 → exec .calwaitExpiry s = .next s) ∧
    (s.bootPhase = 6 → ∃ t, exec .calwaitExpiry s = .next t ∧ t.bootPhase = 5 ∧ t.fullcal = some ⟨true, false, [], none, []⟩) := by
  refine ⟨fun hother => congrArg Host.Outcome.next (if_neg hother), fun hphase => ?_⟩
  obtain ⟨hfive, hfull, -⟩ := (s.setBoot 5).startFull_shows true
  exact ⟨_, congrArg Host.Outcome.next (if_pos hphase), hfive.trans (s.bootPhase_setBoot (by omega)), hfull⟩

/-! ## ANALOG (R204, R376) -/

/-- The words of the tile windows. -/
def WindowWord (a : Nat) : Prop := 0x2000000 ≤ a

theorem State.startAnalog_kept (s : State) : KeptBut WindowWord (fun _ => True) s s.startAnalog := by
  refine (KeptBut.refl _ _ s).foldl _ fun u tile _ hu => ?_
  have hctrl : WindowWord (Reg.MON_CTRL tile) := by unfold WindowWord Reg.MON_CTRL; omega
  have hstat : WindowWord (Reg.MON_STAT tile) := by unfold WindowWord Reg.MON_STAT; omega
  have hseq := hu.foldl (List.range 92) (f := fun (w : State) i => w.wrLive (Reg.MON_SEQ tile i) (w.rd (Reg.MON_SEQ tile i)))
    fun _ _ _ hw => hw.wrLive _ trivial
  exact ((hseq.wrf _ _ _ hctrl).wrf _ _ _ hstat).wrBit _ _ hstat

/-- The state in which phase ANALOG ends. -/
def State.analogOver (s : State) : State := s.startAnalog.bootTime 3

theorem State.rd_analogOver (s : State) {a : Nat} (h : a < 0x100020 ∨ 0x100040 ≤ a) (hring : isRingWord a = false) (hlow : a < 0x2000000) :
    s.analogOver.rd a = s.rd a :=
  (State.rd_bootTime_ne _ 3 h (by omega)).trans (s.startAnalog_kept.rd a (Nat.not_le.2 hlow) hring)

/-- Whether a calibration is wanted is told by words that phase ANALOG keeps. -/
theorem State.calWanted_analogOver (s : State) (m : Image) : s.analogOver.calWanted m = s.calWanted m := by
  have hstat : s.analogOver.bit Reg.BOOT_STAT 29 = s.bit Reg.BOOT_STAT 29 :=
    congrArg (wbit · 29) (s.rd_analogOver (.inl (by decide)) rfl (by decide))
  have hbank : ∀ i, i < 2 → s.analogOver.bankGen i = s.bankGen i := fun i hi => by
    refine congrArg BitVec.toNat (s.rd_analogOver (.inl ?_) ?_ ?_)
    · unfold Reg.ASY_BANKGEN; omega
    · unfold isRingWord Reg.ASY_BANKGEN; simp; omega
    · unfold Reg.ASY_BANKGEN; omega
  unfold State.calWanted State.anyBank
  rw [hstat, hbank 0 (by omega), hbank 1 (by omega)]

section
variable {s : State} {m : Image} (himage : s.image = some m) (bs : List (Option (Word × List (Nat × Word))))
  (w : Option (List (Fin 4864 × Word)))
include himage

theorem exec_analog_ends (hphase : s.bootPhase = 4) : exec (.bootPhaseComplete bs w) s =
    .next (if s.awake.any fun t => s.rdf (Reg.MON_CTRL t) 8 4 != 0 then s
      else if s.analogOver.calWanted m then (s.analogOver.setBoot 5).startFull true else s.analogOver.setBoot 7) := by
  change execBootPhaseComplete bs w s = _
  unfold execBootPhaseComplete
  rw [himage]
  dsimp only
  rw [hphase]
  rfl

theorem analog_waits (hphase : s.bootPhase = 4) (hscal : ∃ k ∈ s.awake, s.rdf (Reg.MON_CTRL k) 8 4 ≠ 0) :
    exec (.bootPhaseComplete bs w) s = .next s := by
  obtain ⟨k, hk, hstands⟩ := hscal
  have hany : (s.awake.any fun t => s.rdf (Reg.MON_CTRL t) 8 4 != 0) = true := List.any_eq_true.2 ⟨k, hk, bne_iff_ne.2 hstands⟩
  rw [exec_analog_ends himage bs w hphase, if_pos hany]

theorem exec_analog_over (hphase : s.bootPhase = 4) (hscal : ∀ k ∈ s.awake, s.rdf (Reg.MON_CTRL k) 8 4 = 0) :
    exec (.bootPhaseComplete bs w) s =
      .next (if s.calWanted m then (s.analogOver.setBoot 5).startFull true else s.analogOver.setBoot 7) := by
  have hnone : (s.awake.any fun t => s.rdf (Reg.MON_CTRL t) 8 4 != 0) = false :=
    List.any_eq_false.2 fun k hk => by simp [hscal k hk]
  rw [exec_analog_ends himage bs w hphase, hnone, if_neg Bool.false_ne_true, State.calWanted_analogOver]

theorem analog_to_drive (hphase : s.bootPhase = 4) (hscal : ∀ k ∈ s.awake, s.rdf (Reg.MON_CTRL k) 8 4 = 0)
    (hwanted : s.calWanted m = false) : ∃ t, exec (.bootPhaseComplete bs w) s = .next t ∧ t.bootPhase = 7 := by
  rw [exec_analog_over himage bs w hphase hscal, hwanted, if_neg Bool.false_ne_true]
  exact ⟨_, rfl, State.bootPhase_setBoot _ (by omega)⟩

theorem analog_to_fullcal (hphase : s.bootPhase = 4) (hscal : ∀ k ∈ s.awake, s.rdf (Reg.MON_CTRL k) 8 4 = 0)
    (hwanted : s.calWanted m = true) : ∃ t, exec (.bootPhaseComplete bs w) s = .next t ∧ t.bootPhase = 5 ∧
      t.fullcal = some ⟨true, false, [], none, []⟩ ∧ t.bit Reg.LMP_CTRL 8 = true := by
  obtain ⟨hfive, hfull, hhold⟩ := (s.analogOver.setBoot 5).startFull_shows true
  rw [exec_analog_over himage bs w hphase hscal, if_pos hwanted]
  exact ⟨_, rfl, hfive.trans (State.bootPhase_setBoot _ (by omega)), hfull, hhold⟩

/-! ## FULLCAL and the phases after it (R377) -/

theorem exec_fullcal_ends (hphase : s.bootPhase = 5) :
    exec (.bootPhaseComplete bs w) s = .next (if s.fullcal.isNone then s.calEnded m else s) := by
  change execBootPhaseComplete bs w s = _
  unfold execBootPhaseComplete
  rw [himage]
  dsimp only
  rw [hphase]
  rfl

theorem fullcal_runs (hphase : s.bootPhase = 5) (hfull : s.fullcal ≠ none) : exec (.bootPhaseComplete bs w) s = .next s := by
  rw [exec_fullcal_ends himage bs w hphase, if_neg (by simpa using hfull)]

theorem fullcal_to_drive (hphase : s.bootPhase = 5) (hfull : s.fullcal = none) (hmissed : s.calMissed m = false) :
    ∃ t, exec (.bootPhaseComplete bs w) s = .next t ∧ t.bootPhase = 7 ∧ OnlyWords [Reg.BOOT_STAT, Reg.BOOT_TIME 4] s t := by
  have hended : s.calEnded m = (s.bootTime 4).setBoot 7 := by
    unfold State.calEnded
    rw [hmissed]
    rfl
  rw [exec_fullcal_ends himage bs w hphase, if_pos (by rw [hfull]; rfl), hended]
  exact ⟨_, rfl, State.bootPhase_setBoot _ (by omega), ((OnlyWords.refl _ s).wr _ (by simp)).wrf _ _ _ (by simp)⟩

theorem later_phases_keep (hphase : 6 ≤ s.bootPhase) : exec (.bootPhaseComplete bs w) s = .next s := by
  change execBootPhaseComplete bs w s = _
  unfold execBootPhaseComplete
  rw [himage]
  dsimp only
  split
  · omega
  · omega
  · omega
  · omega
  · rfl

end

end Sys2Proof.Machine
end


section
/-! PROOF. For O58: the phases APPLY and BANKS. -/
namespace Sys2Proof.Machine

/-! ## A bit beside a field written -/

theorem State.bit_wrf_ne (s : State) (a : Nat) {lo n i : Nat} (v : Nat) (h : i < lo ∨ lo + n ≤ i) : (s.wrf a lo n v).bit a i = s.bit a i :=
  (congrArg (wbit · i) (s.rd_wr_same a _)).trans (wbit_put_ne _ _ h)

/-! ## The paths at the start (R372) -/

theorem State.role_setRole_same (s : State) {k r : Nat} (hk : k < 2) (hr : r < 16) : (s.setRole k r).role k = r :=
  (s.rdf_wrf_same Reg.PTH_STAT r (by omega)).trans (Nat.mod_eq_of_lt hr)

theorem State.role_setRole_ne (s : State) {j k : Nat} (r : Nat) (h : j ≠ k) : (s.setRole k r).role j = s.role j :=
  s.rdf_wrf_ne Reg.PTH_STAT r (by omega)

/-- A path that was not ACTIVE does not go down here: at most its role changes. -/
theorem State.singleRole_of_not_active {s : State} {k : Nat} (h : s.role k ≠ 3) : s.singleRole k = s ∨ ∃ r, s.singleRole k = s.setRole k r := by
  have hactive : (s.role k == 3) = false := beq_false_of_ne h
  unfold State.singleRole
  dsimp only
  rw [hactive, Bool.and_false]
  split
  · exact .inr ⟨_, rfl⟩
  · exact .inl rfl

theorem State.rd_setRole_ne (s : State) (k r : Nat) {a : Nat} (h : a ≠ Reg.PTH_STAT) : (s.setRole k r).rd a = s.rd a := s.rd_wr_ne _ h

theorem State.rd_singleRole_ne {s : State} {k a : Nat} (hrole : s.role k ≠ 3) (h : a ≠ Reg.PTH_STAT) : (s.singleRole k).rd a = s.rd a := by
  rcases State.singleRole_of_not_active hrole with hsame | ⟨r, hset⟩
  · rw [hsame]
  · rw [hset, s.rd_setRole_ne k r h]

theorem State.role_singleRole_ne {s : State} {j k : Nat} (hrole : s.role k ≠ 3) (h : j ≠ k) : (s.singleRole k).role j = s.role j := by
  rcases State.singleRole_of_not_active hrole with hsame | ⟨r, hset⟩
  · rw [hsame]
  · rw [hset, s.role_setRole_ne r h]

/-- The role in which path `k` starts under mode `m`: DOWN, or OFF where a single mode names the other path. -/
def startRole (m k : Nat) : Nat := if m = 2 ∨ m = k then 1 else 0

theorem startRole_lt (m k : Nat) : startRole m k < 2 := by
  unfold startRole
  split <;> omega

/-- Both paths in the roles in which they start, before the path of a single mode is made ACTIVE. -/
def State.rolesSet (s : State) : State :=
  ((s.setRole 0 (startRole (s.rdf Reg.PTH_CTRL 0 2) 0)).setRole 1 (startRole (s.rdf Reg.PTH_CTRL 0 2) 1)).wrBit Reg.PTH_STAT 30 true

theorem State.startPaths_eq (s : State) : s.startPaths = (s.rolesSet.singleRole 0).singleRole 1 := rfl

theorem State.role_rolesSet (s : State) {k : Nat} (hk : k < 2) : s.rolesSet.role k ≠ 3 := by
  have hroles : ∀ j, j < 2 → s.rolesSet.role j = startRole (s.rdf Reg.PTH_CTRL 0 2) j := fun j hj => by
    have hflag : s.rolesSet.role j = State.role ((s.setRole 0 (startRole (s.rdf Reg.PTH_CTRL 0 2) 0)).setRole 1
      (startRole (s.rdf Reg.PTH_CTRL 0 2) 1)) j := State.rdf_wrf_ne _ _ _ (.inl (by omega))
    rw [hflag]
    obtain rfl | rfl : j = 0 ∨ j = 1 := by omega
    · rw [State.role_setRole_ne _ _ (by omega), State.role_setRole_same _ (by omega) ((startRole_lt _ _).trans (by omega))]
    · rw [State.role_setRole_same _ (by omega) ((startRole_lt _ _).trans (by omega))]
  have hlt := startRole_lt (s.rdf Reg.PTH_CTRL 0 2) k
  rw [hroles k hk]
  omega

theorem State.rd_startPaths_ne (s : State) {a : Nat} (h : a ≠ Reg.PTH_STAT) : s.startPaths.rd a = s.rd a := by
  have hfirst := s.role_rolesSet (k := 0) (by omega)
  have hsecond : (s.rolesSet.singleRole 0).role 1 ≠ 3 := by
    rw [State.role_singleRole_ne hfirst (by omega)]
    exact s.role_rolesSet (by omega)
  have hset : s.rolesSet.rd a = s.rd a :=
    (State.rd_wr_ne _ _ h).trans ((State.rd_setRole_ne _ _ _ h).trans (s.rd_setRole_ne _ _ h))
  rw [s.startPaths_eq, State.rd_singleRole_ne hsecond h, State.rd_singleRole_ne hfirst h, hset]

section
variable {s : State} {m : Image} (himage : s.image = some m) (bs : List (Option (Word × List (Nat × Word))))
  (w : Option (List (Fin 4864 × Word)))
include himage

theorem exec_apply_ends (hphase : s.bootPhase = 2) : exec (.bootPhaseComplete bs w) s =
    .next ((((s.bootTime 1).setBoot 3).startPaths.wrBit Reg.ASY_STAT 31 true).wrf Reg.ASY_STAT 28 3 4) := by
  change execBootPhaseComplete bs w s = _
  unfold execBootPhaseComplete
  rw [himage]
  dsimp only
  rw [hphase]
  rfl

/-- APPLY ends: the Assayer shows that it is busy with the banks. -/
theorem apply_to_banks (hphase : s.bootPhase = 2) : ∃ t, exec (.bootPhaseComplete bs w) s = .next t ∧ t.bootPhase = 3 ∧
    t.bit Reg.ASY_STAT 31 = true ∧ t.rdf Reg.ASY_STAT 28 3 = 4 := by
  refine ⟨_, exec_apply_ends himage bs w hphase, ?_, ?_, State.rdf_wrf_same _ _ _ (by omega)⟩
  · refine (congrArg (fld · 20 4) ((State.rd_wr_ne _ _ (by decide)).trans (State.rd_wr_ne _ _ (by decide)))).trans ?_
    exact (congrArg (fld · 20 4) (State.rd_startPaths_ne _ (by decide))).trans (State.bootPhase_setBoot _ (by omega))
  · exact (State.bit_wrf_ne _ _ _ (.inr (by omega))).trans (State.bit_wrBit_same _ _ _ (by omega))

end

end Sys2Proof.Machine
end


section
/-! PROOF. For O58: the phase BANKS, and the obligation. -/
namespace Sys2Proof.Machine

/-! ## The banks (R226) -/

/-- The bank generations shown, NOBANK where one was not found. -/
def State.showBanks (s : State) (bs : List (Option (Word × List (Nat × Word)))) : State :=
  ((s.wr (Reg.ASY_BANKGEN 0) (((s.bankFound bs 0).map (·.1)).getD 0xFFFFFFFF#32)).wr (Reg.ASY_BANKGEN 1)
    (((s.bankFound bs 1).map (·.1)).getD 0xFFFFFFFF#32)).when ((s.bankFound bs 0).isNone || (s.bankFound bs 1).isNone)
    (·.err Reg.ASY_ERRSTAT 4)

/-- The words of cell quality and those above, and the Assayer's status. -/
def QualWord (a : Nat) : Prop := a = Reg.ASY_STAT ∨ Reg.ASY_QUAL_W0 0 ≤ a

namespace KeptBut

variable {W L : Nat → Prop} {s t : State}

theorem loadedFrom (h : KeptBut W L s t) (f : Bool) : KeptBut W L s (t.loadedFrom f) := h.update

theorem stampNow (h : KeptBut W L s t) (k : Nat) : KeptBut W L s (t.stampNow k) := h.update

end KeptBut

/-- The bank with the factors `ws` in force; every cell with a quality is stamped. -/
def State.takeBank (s : State) (useB : Bool) (ws : List (Nat × Word)) : State :=
  (((List.range 4864).foldl (fun (t : State) c => if t.rd (Reg.ASY_QUAL_W0 c) = 0#32 then t else t.stampNow (14592 + c))
    ((s.wrBit Reg.ASY_STAT 27 useB).loadSet ws)).loadedFrom false).asyStat

/-- No bank: the factory factors stay, and every cell's quality says so. -/
def State.missBanks (s : State) : State :=
  (((List.range 4864).foldl (fun (t : State) c => t.wrf (Reg.ASY_QUAL_W0 c) 4 8 0x99) s).loadedFrom true).asyStat

theorem KeptBut.takeBank {s t : State} (h : KeptBut LoadWord (fun _ => True) s t) (useB : Bool) (ws : List (Nat × Word)) :
    KeptBut LoadWord (fun _ => True) s (t.takeBank useB ws) := by
  have hstat : LoadWord Reg.ASY_STAT := loadWord_low (by decide)
  refine ((((h.wrBit 27 useB hstat).loadSet ws).foldl _ fun u c _ hu => ?_).loadedFrom false).asyStat hstat
  split
  · exact hu
  · exact hu.stampNow _

theorem KeptBut.missBanks {W L : Nat → Prop} {s t : State} (h : KeptBut W L s t) (hstat : W Reg.ASY_STAT)
    (hqual : ∀ c, c < 4864 → W (Reg.ASY_QUAL_W0 c)) : KeptBut W L s t.missBanks :=
  ((h.foldl (List.range 4864) (f := fun (t : State) c => t.wrf (Reg.ASY_QUAL_W0 c) 4 8 0x99)
    fun _ _ hc hu => hu.wrf _ _ _ (hqual _ (List.mem_range.1 hc))).loadedFrom true).asyStat hstat

section
variable (s : State) (bs : List (Option (Word × List (Nat × Word))))

/-- BANKS takes a bank that was found, or none. -/
theorem State.loadBanks_cases : (∃ useB ws, s.loadBanks bs = (s.showBanks bs).takeBank useB ws) ∨
    s.loadBanks bs = (s.showBanks bs).missBanks := by
  unfold State.loadBanks
  dsimp only
  split
  · exact .inl ⟨_, _, rfl⟩
  · exact .inr rfl

theorem State.loadBanks_kept : KeptBut LoadWord (fun _ => True) s (s.loadBanks bs) := by
  have hgen : ∀ i, i < 2 → LoadWord (Reg.ASY_BANKGEN i) := fun i hi => loadWord_low (by unfold Reg.ASY_BANKGEN; omega)
  have hnamed := ((KeptBut.refl LoadWord (fun _ => True) s).wr (((s.bankFound bs 0).map (·.1)).getD 0xFFFFFFFF#32) (hgen 0 (by omega))).wr
    (((s.bankFound bs 1).map (·.1)).getD 0xFFFFFFFF#32) (hgen 1 (by omega))
  have hshown : KeptBut LoadWord (fun _ => True) s (s.showBanks bs) := hnamed.when _ (hnamed.err 4 (loadWord_low (by decide)))
  rcases s.loadBanks_cases bs with ⟨useB, ws, htaken⟩ | hmissed
  · rw [htaken]
    exact hshown.takeBank useB ws
  · rw [hmissed]
    exact hshown.missBanks (loadWord_low (by decide)) fun c hc => loadWord_low (by unfold Reg.ASY_QUAL_W0; omega)

variable {s bs} (h0 : s.bankFound bs 0 = none) (h1 : s.bankFound bs 1 = none)
include h0 h1

theorem State.loadBanks_missing : KeptBut QualWord (fun _ => False) (s.showBanks bs) (s.loadBanks bs) := by
  have heq : s.loadBanks bs = (s.showBanks bs).missBanks := by
    unfold State.loadBanks State.showBanks
    rw [h0, h1]
    rfl
  rw [heq]
  exact (KeptBut.refl _ _ _).missBanks (.inl rfl) fun c _ => .inr (by unfold Reg.ASY_QUAL_W0; omega)

/-- Neither bank found: both generations read NOBANK, and the error is shown. -/
theorem State.loadBanks_shows_missing : (s.loadBanks bs).rd (Reg.ASY_BANKGEN 0) = 0xFFFFFFFF#32 ∧
    (s.loadBanks bs).rd (Reg.ASY_BANKGEN 1) = 0xFFFFFFFF#32 ∧ (s.loadBanks bs).bit Reg.ASY_ERRSTAT 4 = true := by
  have hkept := State.loadBanks_missing h0 h1
  have hshown : s.showBanks bs =
      ((s.wr (Reg.ASY_BANKGEN 0) 0xFFFFFFFF#32).wr (Reg.ASY_BANKGEN 1) 0xFFFFFFFF#32).err Reg.ASY_ERRSTAT 4 := by
    unfold State.showBanks
    rw [h0, h1]
    rfl
  have hnot : ∀ a, a = Reg.ASY_BANKGEN 0 ∨ a = Reg.ASY_BANKGEN 1 ∨ a = Reg.ASY_ERRSTAT → ¬ QualWord a := by
    unfold QualWord
    rintro a (rfl | rfl | rfl) <;> decide
  rw [hkept.rd _ (hnot _ (.inl rfl)) rfl, hkept.rd _ (hnot _ (.inr (.inl rfl))) rfl, hkept.bit (hnot _ (.inr (.inr rfl))) rfl, hshown]
  refine ⟨?_, ?_, State.err_bit _ (by omega) rfl⟩
  · rw [State.rd_err_ne _ _ (by decide) rfl, State.rd_wr_ne _ _ (by decide), State.rd_wr_same]
  · rw [State.rd_err_ne _ _ (by decide) rfl, State.rd_wr_same]

end

/-! ## The wear records (R229) -/

/-- The Tinker's words and those above. -/
def TankWord (a : Nat) : Prop := 0x80000 ≤ a

theorem tankWord_cell (c : Nat) : TankWord (Reg.TNK_CELL_W0 c) := by
  unfold TankWord Reg.TNK_CELL_W0
  omega

theorem KeptBut.refreshWarn {L : Nat → Prop} {s t : State} (h : KeptBut TankWord L s t) : KeptBut TankWord L s t.refreshWarn := by
  have hcount : TankWord Reg.TNK_CNT := by unfold TankWord; decide
  have herr : TankWord Reg.TNK_ERRSTAT := by unfold TankWord; decide
  unfold State.refreshWarn
  dsimp only
  refine KeptBut.when (KeptBut.wrf (KeptBut.foldl h _ fun u c _ hu => ?_) _ _ _ hcount) _
    ((KeptBut.wrf (KeptBut.foldl h _ fun u c _ hu => ?_) _ _ _ hcount).err _ herr)
  all_goals
    split
    · exact hu
    · exact hu.wrBit _ _ (tankWord_cell c)

theorem State.rd_foldWear (s : State) (r : WearRec) (a : Nat) : (s.foldWear r).rd a = s.rd a := by
  unfold State.foldWear
  split
  · rfl
  · extract_lets n intoA
    cases intoA with
    | true => rfl
    | false => rfl

/-- The wear records are read into the Tinker's words alone. -/
theorem State.rd_loadWear_low (s : State) (w : Option (List (Fin 4864 × Word))) {a : Nat} (h : a < 0x80000) :
    (s.loadWear w).rd a = s.rd a := by
  have hnot : ¬ TankWord a := Nat.not_le.2 h
  have hring : isRingWord a = false := by
    unfold isRingWord
    simp
    omega
  have hheld : ∀ u v : State, KeptBut TankWord (fun _ => False) u v → u.rd a = s.rd a → v.rd a = s.rd a :=
    fun u v hkept hu => (hkept.rd a hnot hring).trans hu
  have hstat : TankWord Reg.TNK_STAT := by unfold TankWord; decide
  have hcnt : TankWord Reg.TNK_CNT := by unfold TankWord; decide
  have herr : TankWord Reg.TNK_ERRSTAT := by unfold TankWord; decide
  unfold State.loadWear
  extract_lets s0
  have hread : s0.rd a = s.rd a := by
    unfold s0
    split
    · rfl
    · rfl
  split
  · exact hheld s0 _ (((KeptBut.refl _ _ s0).wrBit _ _ hstat).err _ herr) hread
  · next r _ =>
    have hcells := (KeptBut.refl TankWord (fun _ => False) (s0.foldWear r)).foldl r.cells
      (f := fun (t : State) p => t.wr (Reg.TNK_CELL_W0 p.1) p.2) fun _ p _ hu => hu.wr _ (tankWord_cell p.1)
    exact hheld (s0.foldWear r) _ (((hcells.wrf _ _ _ hstat).wrf _ _ _ hcnt).refreshWarn) ((s0.rd_foldWear r a).trans hread)

/-- No wear record: the Tinker shows that its wear is unknown, and the error. -/
theorem State.loadWear_shows_missing {s : State} (hA : s.wearA = none) (hB : s.wearB = none) :
    (s.loadWear none).bit Reg.TNK_STAT 30 = true ∧ (s.loadWear none).bit Reg.TNK_ERRSTAT 3 = true := by
  have heq : s.loadWear none = ({ s with wearA := none }.wrBit Reg.TNK_STAT 30 true).err Reg.TNK_ERRSTAT 3 := by
    unfold State.loadWear State.wearNow
    simp [hA, hB]
  rw [heq]
  refine ⟨?_, State.err_bit _ (by omega) rfl⟩
  exact (congrArg (wbit · 30) (State.rd_err_ne _ _ (by decide) rfl)).trans (State.bit_wrBit_same _ _ _ (by omega))

/-! ## BANKS ends -/

/-- The converters powered touch words of the tile windows alone. -/
theorem State.rd_powerAnalog (s : State) {a : Nat} (h : a < 0x2000000) : s.powerAnalog.rd a = s.rd a := by
  have hctrl : ∀ tile, a ≠ Reg.MON_CTRL tile := fun tile => by unfold Reg.MON_CTRL; omega
  have hstat : ∀ tile, a ≠ Reg.MON_STAT tile := fun tile => by unfold Reg.MON_STAT; omega
  refine List.foldlRecOn s.awake State.powerMon (motive := fun u => u.rd a = s.rd a) rfl fun u hu tile _ => ?_
  unfold State.powerMon
  rw [State.rd_setMon]
  exact (State.rd_wr_ne _ _ (hstat tile)).trans ((State.rd_wr_ne _ _ (hstat tile)).trans ((State.rd_wr_ne _ _ (hctrl tile)).trans hu))

/-- The state in which phase BANKS ends, from the one with the banks and the wear records loaded. -/
def State.banksOver (s : State) : State := ((s.bootTime 2).setBoot 4).powerAnalog

theorem State.bootPhase_banksOver (s : State) : s.banksOver.bootPhase = 4 :=
  (congrArg (fld · 20 4) (State.rd_powerAnalog _ (by decide))).trans (State.bootPhase_setBoot _ (by omega))

theorem State.rd_banksOver (s : State) {a : Nat} (h : a < 0x100000) : s.banksOver.rd a = s.rd a := by
  have hphase : a ≠ Reg.BOOT_STAT := by unfold Reg.BOOT_STAT; omega
  unfold State.banksOver
  rw [State.rd_powerAnalog _ (by omega), State.rd_setBoot_ne _ _ hphase, State.rd_bootTime_ne _ 2 (.inl (by omega)) (by omega)]

section
variable {s : State} {m : Image} (himage : s.image = some m) (bs : List (Option (Word × List (Nat × Word))))
  (w : Option (List (Fin 4864 × Word)))
include himage

theorem exec_banks_ends (hphase : s.bootPhase = 3) :
    exec (.bootPhaseComplete bs w) s = .next ((s.loadBanks bs).loadWear w).banksOver := by
  change execBootPhaseComplete bs w s = _
  unfold execBootPhaseComplete
  rw [himage]
  dsimp only
  rw [hphase]
  rfl

theorem banks_to_analog (hphase : s.bootPhase = 3) : ∃ t, exec (.bootPhaseComplete bs w) s = .next t ∧ t.bootPhase = 4 ∧
    (s.bankFound bs 0 = none → s.bankFound bs 1 = none → t.rd (Reg.ASY_BANKGEN 0) = 0xFFFFFFFF#32 ∧
      t.rd (Reg.ASY_BANKGEN 1) = 0xFFFFFFFF#32 ∧ t.bit Reg.ASY_ERRSTAT 4 = true) ∧
    (w = none → s.wearA = none → s.wearB = none → t.bit Reg.TNK_STAT 30 = true ∧ t.bit Reg.TNK_ERRSTAT 3 = true) := by
  refine ⟨_, exec_banks_ends himage bs w hphase, State.bootPhase_banksOver _, fun h0 h1 => ?_, fun hw hA hB => ?_⟩
  · obtain ⟨hfirst, hsecond, herror⟩ := State.loadBanks_shows_missing h0 h1
    have hkept : ∀ a, a < 0x80000 → ((s.loadBanks bs).loadWear w).banksOver.rd a = (s.loadBanks bs).rd a := fun a ha =>
      (State.rd_banksOver _ (by omega)).trans (State.rd_loadWear_low _ w ha)
    exact ⟨(hkept _ (by decide)).trans hfirst, (hkept _ (by decide)).trans hsecond,
      (congrArg (wbit · 4) (hkept _ (by decide))).trans herror⟩
  · subst hw
    have hbanks := s.loadBanks_kept bs
    obtain ⟨hunknown, herror⟩ := State.loadWear_shows_missing (hbanks.wearA.trans hA) (hbanks.wearB.trans hB)
    exact ⟨(congrArg (wbit · 30) (State.rd_banksOver _ (by decide))).trans hunknown,
      (congrArg (wbit · 3) (State.rd_banksOver _ (by decide))).trans herror⟩

end

/-! ## The obligation -/

/-- Settles O58: each step of the start by the phase it ends, over the words that its updates keep. -/
theorem startUp : Obligations.StartUp := by
  unfold Obligations.StartUp
  refine ⟨fun s x y => ?_, fun s found bs w hnone => start_without_image found bs w hnone, fun s m bs w himage => ?_, calwaitExpiry_steps,
    fun s m himage => ?_⟩
  · exact ⟨fun hforeign => ⟨State.slotFound_foreign hforeign 0 x, State.slotFound_foreign hforeign 0x1000000 y⟩,
      exec_imageVerified_other x y, imageVerified_loads rfl rfl, imageVerified_fails rfl rfl⟩
  · exact ⟨apply_to_banks himage bs w, banks_to_analog himage bs w, analog_waits himage bs w, analog_to_drive himage bs w,
      analog_to_fullcal himage bs w, fullcal_runs himage bs w, fullcal_to_drive himage bs w, later_phases_keep himage bs w⟩
  · exact ⟨fun found => driveReturn_steps himage found, up_once_settled himage, up_by_locklate himage, up_not_started himage⟩

end Sys2Proof.Machine
end


section
/-! PROOF. O57: the rails, the resets, and the boot ROM's start. -/
namespace Sys2Proof.Machine

/-! ## A save cut short (R225) -/

theorem State.byte_dropSave_none {s : State} (h : s.saving = none) (a : Nat) : s.dropSave.byte a = s.byte a := by
  unfold State.dropSave
  rw [h]
  rfl

theorem State.mem_dropSave (s : State) : s.dropSave.mem =
    if s.saving.isSome && decide (s.saveUntil ≤ s.ns) then (s.eraseMem (s.bankBase s.saveTarget.2) 0x1000).mem else s.mem :=
  apply_ite State.mem _ _ _

/-- What a save cut short leaves in memory does not depend on what has been sent. -/
theorem State.mem_dropSave_out (s : State) (os : List Output) : ({ s with out := os } : State).dropSave.mem = s.dropSave.mem :=
  (State.mem_dropSave _).trans s.mem_dropSave.symm

/-! ## The power-on reset (R363, R406) -/

theorem powerOn_resets (s : State) : ∃ t, exec .powerOn s = .next t ∧ t.now = 0 ∧ t.enables = [.vcore] ∧ t.batches = [] ∧ t.commits = [] ∧
    t.off = false ∧ (∀ a, a ≠ Reg.SEC_OTPSTAT → t.rd a = resetWord a) ∧ t.bit Reg.SEC_OTPSTAT 29 = false ∧
    (∀ i, i < 32 → i ≠ 29 → t.bit Reg.SEC_OTPSTAT i = s.bit Reg.SEC_OTPSTAT i) ∧
    (∀ a, norBase ≤ a → t.byte a = s.dropSave.byte a) ∧ (s.saving = none → ∀ a, norBase ≤ a → t.byte a = s.byte a) ∧
    ∀ a, a < norBase → t.byte a = memDefault a := by
  change ∃ t, execPowerOn s = .next t ∧ _
  unfold execPowerOn
  extract_lets reset r
  have hword : ∀ a, a ≠ Reg.SEC_OTPSTAT → r.rd a = resetWord a := fun a ha =>
    Store.get_filter_dropped (f := fun p => p.1 == Reg.SEC_OTPSTAT) _ _ fun _ => beq_eq_false_iff_ne.2 ha
  have hotp : r.rd Reg.SEC_OTPSTAT = s.rd Reg.SEC_OTPSTAT := Store.get_filter_kept _ _ fun _ => rfl
  have hnor : ∀ a, norBase ≤ a → r.byte a = s.dropSave.byte a := fun a ha => Store.get_filter_kept _ _ fun _ => decide_eq_true ha
  have hram : ∀ a, a < norBase → r.byte a = memDefault a := fun a ha => Store.get_filter_dropped _ _ fun _ => decide_eq_false (Nat.not_le.2 ha)
  refine ⟨_, rfl, rfl, rfl, rfl, rfl, rfl, fun a ha => (r.rd_wr_ne _ ha).trans (hword a ha), r.bit_wrBit_same _ _ (by omega),
    fun i _ hne => (r.bit_wrBit_ne _ _ hne).trans (congrArg (wbit · i) hotp), hnor, fun hnone a ha => ?_, hram⟩
  exact (hnor a ha).trans (State.byte_dropSave_none hnone a)

/-! ## The rails (R406 to R408) -/

theorem railCode_lt (r : Rail) : railCode r < 8 := by cases r <;> decide

/-- Enables that fall are outputs alone. -/
theorem State.enablesLow_eq (s : State) : ∃ os, s.enablesLow = { s with enables := [], out := os } := by
  have hsent : ∃ os, s.enables.reverse.foldl (fun (s : State) r => s.send (.pin (railPin r) false)) s = { s with out := os } := by
    refine List.foldlRecOn (motive := fun u : State => ∃ os, u = { s with out := os }) _ _ ⟨s.out, rfl⟩ fun u hu r _ => ?_
    obtain ⟨os, rfl⟩ := hu
    exact ⟨_, rfl⟩
  obtain ⟨os, hos⟩ := hsent
  exact ⟨os, congrArg (fun u : State => { u with enables := [] }) hos⟩

/-- GEN_RSTCAUSE with its cause and rail; no other word changes. -/
theorem State.setCause_shows (s : State) {cause rail : Nat} (hcause : cause < 16) (hrail : rail < 8) :
    (s.setCause cause rail).rdf Reg.GEN_RSTCAUSE 0 4 = cause ∧ (s.setCause cause rail).rdf Reg.GEN_RSTCAUSE 8 3 = rail ∧
    (s.setCause cause rail).rdf Reg.GEN_RSTCAUSE 16 8 = s.rdf Reg.GEN_RSTCAUSE 16 8 ∧
    OnlyWords [Reg.GEN_RSTCAUSE] s (s.setCause cause rail) := by
  unfold State.setCause
  refine ⟨?_, ?_, ?_, ((OnlyWords.refl _ s).wrf _ _ _ (by simp)).wrf _ _ _ (by simp)⟩
  · rw [State.rdf_wrf_ne _ _ _ (by omega), State.rdf_wrf_same _ _ _ (by omega)]
    exact Nat.mod_eq_of_lt hcause
  · rw [State.rdf_wrf_same _ _ _ (by omega)]
    exact Nat.mod_eq_of_lt hrail
  · rw [State.rdf_wrf_ne _ _ _ (by omega), State.rdf_wrf_ne _ _ _ (by omega)]

section
variable {s : State} {r : Rail}

theorem railEvents_out_of_turn (h : s.enables.getLast? ≠ some r) :
    exec (.powerGood r) s = .next s ∧ exec (.sequenceFailure r) s = .next s := ⟨if_neg h, if_neg fun k => h k.1⟩

theorem powerGood_enables {r' : Rail} (hlast : s.enables.getLast? = some r) (hnext : nextRail r = some r') :
    ∃ t, exec (.powerGood r) s = .next t ∧ t = { s with enables := s.enables ++ [r'], out := .pin (railPin r') true :: s.out } := by
  have hexec : exec (.powerGood r) s = .next (s.enable r') := (if_pos hlast).trans (by rw [hnext])
  exact ⟨_, hexec, rfl⟩

theorem sequenceFailure_drops (hlast : s.enables.getLast? = some r) (hphase : s.bootPhase = 0) :
    ∃ t, exec (.sequenceFailure r) s = .next t ∧ t.enables = [] ∧ t.seqFails = s.seqFails + 1 ∧
      t.rdf Reg.GEN_RSTCAUSE 0 4 = 5 ∧ t.rdf Reg.GEN_RSTCAUSE 8 3 = railCode r ∧ (3 ≤ t.seqFails → t.out.head? = some (.pin "FAULT_N" false)) ∧
      OnlyWords [Reg.GEN_RSTCAUSE] { s with enables := [], seqFails := s.seqFails + 1, out := t.out } t := by
  obtain ⟨os, hos⟩ := s.enablesLow_eq
  have hexec : exec (.sequenceFailure r) s = .next (if 3 ≤ s.seqFails + 1 then
      { s.enablesLow.setCause 5 (railCode r) with seqFails := s.seqFails + 1 }.send (.pin "FAULT_N" false)
      else { s.enablesLow.setCause 5 (railCode r) with seqFails := s.seqFails + 1 }) := if_pos ⟨hlast, hphase⟩
  rw [hos] at hexec
  obtain ⟨hcause, hrail, -, hwords⟩ := State.setCause_shows { s with enables := [], seqFails := s.seqFails + 1, out := os }
    (cause := 5) (by omega) (railCode_lt r)
  by_cases hthird : 3 ≤ s.seqFails + 1
  · rw [if_pos hthird] at hexec
    exact ⟨_, hexec, rfl, rfl, hcause, hrail, fun _ => rfl,
      hwords.1, congrArg (fun u : State => u.send (.pin "FAULT_N" false)) hwords.2⟩
  · rw [if_neg hthird] at hexec
    exact ⟨_, hexec, rfl, rfl, hcause, hrail, fun h => absurd h hthird, hwords⟩

end

theorem sequenceRetry_steps (s : State) :
    (s.enables = [] → 1 ≤ s.seqFails → s.seqFails < 3 → ∃ t, exec .sequenceRetry s = .next t ∧ t.enables = [.vcore] ∧
      t = { s with enables := t.enables, out := t.out }) ∧
    ((s.enables ≠ [] ∨ s.seqFails = 0 ∨ 3 ≤ s.seqFails) → exec .sequenceRetry s = .next s) := by
  refine ⟨fun hlow hone hthree => ⟨_, congrArg Host.Outcome.next (if_pos (by simp [hlow, hone, hthree])), ?_, rfl⟩,
    fun h => congrArg Host.Outcome.next (if_neg ?_)⟩
  · exact congrArg (· ++ [Rail.vcore]) hlow
  · intro hall
    simp only [Bool.and_eq_true, List.isEmpty_iff, decide_eq_true_eq] at hall
    obtain ⟨⟨hlow, hone⟩, hthree⟩ := hall
    rcases h with h | h | h
    · exact h hlow
    · omega
    · omega

/-! ## Module resets (R363, R364) -/

/-- What a reset drives before it restarts are outputs alone. -/
theorem State.quietOutputs_eq (s : State) : ∃ os, s.dropSource.releaseFault = { s with out := os } := by
  unfold State.releaseFault State.dropSource
  split
  · split
    · exact ⟨_, rfl⟩
    · exact ⟨_, rfl⟩
  · split
    · exact ⟨_, rfl⟩
    · exact ⟨_, rfl⟩

/-- The start that follows a reset asks for the first rail where none is asked for, and drives outputs. -/
theorem State.resetStart_eq (s : State) (cause rail : Nat) : ∃ os, s.resetStart cause rail =
    { s.moduleReset cause rail with enables := if s.enables = [] then [.vcore] else s.enables, out := os } := by
  obtain ⟨os, hquiet⟩ := s.quietOutputs_eq
  have hrestart : (s.moduleReset cause rail).enables = s.dropSource.releaseFault.enables := rfl
  have henables := hrestart.trans (congrArg State.enables hquiet)
  have hstart : ∀ u : State, u.enables = s.enables → ∃ os', (if u.enables.isEmpty then u.enable .vcore else u) =
      { u with enables := if s.enables = [] then [.vcore] else s.enables, out := os' } := fun u hu => by
    by_cases hlow : s.enables = []
    · rw [hlow] at hu
      rw [if_pos (by rw [hu]; rfl), if_pos hlow]
      exact ⟨.pin (railPin .vcore) true :: u.out,
        congrArg (fun es : List Rail => ({ u with enables := es ++ [Rail.vcore] } : State).send (.pin (railPin .vcore) true)) hu⟩
    · rw [if_neg (by rw [hu]; simpa using hlow), if_neg hlow, ← hu]
      exact ⟨_, rfl⟩
  unfold State.resetStart
  dsimp only
  by_cases hfails : 3 ≤ s.seqFails
  · rw [if_pos hfails]
    obtain ⟨os', hos'⟩ := hstart ((s.moduleReset cause rail).send (.pin "FAULT_N" true)) henables
    exact ⟨os', hos'⟩
  · rw [if_neg hfails]
    exact hstart _ henables

section
variable (s : State) {cause rail : Nat}

/-- GEN_RSTCAUSE after a reset: the cause, the rail, and the undervoltages counted as before. -/
theorem State.resetStart_cause (hcause : cause < 16) (hrail : rail < 8) : (s.resetStart cause rail).rdf Reg.GEN_RSTCAUSE 0 4 = cause ∧
    (s.resetStart cause rail).rdf Reg.GEN_RSTCAUSE 8 3 = rail ∧
    (s.resetStart cause rail).rdf Reg.GEN_RSTCAUSE 16 8 = s.rdf Reg.GEN_RSTCAUSE 16 8 := by
  have hword : (s.resetStart cause rail).rd Reg.GEN_RSTCAUSE = (s.resetWords.setCause cause rail).rd Reg.GEN_RSTCAUSE :=
    (s.rd_resetStart cause rail _).trans ((State.rd_wr_ne _ _ (by decide)).trans (State.rd_wr_ne _ _ (by decide)))
  have hbefore : s.resetWords.rd Reg.GEN_RSTCAUSE = s.rd Reg.GEN_RSTCAUSE := s.rd_resetWords _
  obtain ⟨hshown, hshownRail, hcount, -⟩ := s.resetWords.setCause_shows hcause hrail
  exact ⟨(congrArg (fld · 0 4) hword).trans hshown, (congrArg (fld · 8 3) hword).trans hshownRail,
    (congrArg (fld · 16 8) hword).trans (hcount.trans (congrArg (fld · 16 8) hbefore))⟩

/-- FLT_ERRSTAT.FATAL stands again after a reset while FLT_LAST is VALID. -/
theorem State.resetStart_fatal (cause rail : Nat) : (s.resetStart cause rail).bit Reg.FLT_ERRSTAT 5 = s.bit Reg.FLT_LAST_W0 31 := by
  refine (congrArg (wbit · 5) (s.rd_resetStart cause rail _)).trans ((State.bit_wrBit_same _ _ _ (by omega)).trans ?_)
  have hlast : (((s.resetWords.setCause cause rail).wrBit Reg.SEC_OTPSTAT 29 false)).rd Reg.FLT_LAST_W0 = s.resetWords.rd Reg.FLT_LAST_W0 :=
    (State.rd_wr_ne _ _ (by decide)).trans ((State.rd_wr_ne _ _ (by decide)).trans (State.rd_wr_ne _ _ (by decide)))
  exact congrArg (wbit · 31) (hlast.trans (s.rd_resetWords _))

/-- A reset starts over with nothing admitted, placed or counted; the always-on memory and the NOR stay, less what a save was writing. -/
theorem State.resetStart_rest (cause rail : Nat) : (s.resetStart cause rail).now = 0 ∧ (s.resetStart cause rail).off = false ∧
    (s.resetStart cause rail).commits = [] ∧ (s.resetStart cause rail).batches = [] ∧
    (s.resetStart cause rail).enables = (if s.enables = [] then [.vcore] else s.enables) ∧
    ∀ a, 0x11000000 ≤ a → (s.resetStart cause rail).byte a = s.dropSave.byte a := by
  obtain ⟨os, hstart⟩ := s.resetStart_eq cause rail
  obtain ⟨os', hquiet⟩ := s.quietOutputs_eq
  rw [hstart]
  refine ⟨rfl, rfl, rfl, rfl, rfl, fun a ha => ?_⟩
  have hmem : s.dropSource.releaseFault.dropSave.mem = s.dropSave.mem := by rw [hquiet, State.mem_dropSave_out]
  have hkept : (s.moduleReset cause rail).byte a = s.dropSource.releaseFault.dropSave.byte a :=
    Store.get_filter_kept _ _ fun _ => decide_eq_true ha
  exact hkept.trans (congrArg (Store.get (memDefault a) · a) hmem)

end

theorem undervoltage_resets {s : State} {r : Rail} (h : r = .vio ∨ r ∈ s.enables) :
    ∃ t, exec (.undervoltage r) s = .next t ∧ t.now = 0 ∧ t.rdf Reg.GEN_RSTCAUSE 0 4 = 4 ∧ t.rdf Reg.GEN_RSTCAUSE 8 3 = railCode r ∧
      t.rdf Reg.GEN_RSTCAUSE 16 8 = satN 8 (s.rdf Reg.GEN_RSTCAUSE 16 8 + 1) ∧ t.commits = [] := by
  obtain ⟨hcause, hrail, hcount⟩ := s.resetStart_cause (cause := 4) (by omega) (railCode_lt r)
  obtain ⟨hnow, -, hcommits, -⟩ := s.resetStart_rest 4 (railCode r)
  refine ⟨_, congrArg Host.Outcome.next (if_pos h), hnow, ?_, ?_, ?_, hcommits⟩
  · exact (State.rdf_wrf_ne _ _ _ (by omega)).trans hcause
  · exact (State.rdf_wrf_ne _ _ _ (by omega)).trans hrail
  · rw [State.rdf_count_same _ _ _ (by omega), hcount]

theorem undervoltage_off {s : State} {r : Rail} (hvio : r ≠ .vio) (hlow : r ∉ s.enables) : exec (.undervoltage r) s = .next s :=
  congrArg Host.Outcome.next (if_neg (not_or.2 ⟨hvio, hlow⟩))

theorem exec_reset (s : State) {c : Instr} {k : Nat} (h : (c = .moduleReset ∧ k = 1) ∨ (c = .swrst ∧ k = 2)) :
    exec c s = .next (s.resetStart k 0) ∧ k < 16 := by
  rcases h with ⟨rfl, rfl⟩ | ⟨rfl, rfl⟩
  · exact ⟨rfl, by omega⟩
  · exact ⟨congrArg Host.Outcome.next (if_pos (by decide)), by omega⟩

theorem reset_restarts (s : State) {c : Instr} {k : Nat} (h : (c = .moduleReset ∧ k = 1) ∨ (c = .swrst ∧ k = 2)) :
    ∃ t, exec c s = .next t ∧ t.now = 0 ∧ t.off = false ∧ t.commits = [] ∧ t.batches = [] ∧
      t.enables = (if s.enables = [] then [.vcore] else s.enables) ∧ t.rdf Reg.GEN_RSTCAUSE 0 4 = k ∧
      (∀ a, keptByReset a = false → a ≠ Reg.FLT_ERRSTAT → t.rd a = resetWord a) ∧
      (∀ a, keptByReset a = true → a ≠ Reg.GEN_RSTCAUSE → a ≠ Reg.SEC_OTPSTAT → t.rd a = s.rd a) ∧
      (t.bit Reg.FLT_ERRSTAT 5 = true ↔ s.bit Reg.FLT_LAST_W0 31 = true) ∧ (∀ a, 0x11000000 ≤ a → t.byte a = s.dropSave.byte a) ∧
      (s.saving = none → ∀ a, 0x11000000 ≤ a → t.byte a = s.byte a) := by
  obtain ⟨hexec, hk⟩ := exec_reset s h
  obtain ⟨hcause, -, -⟩ := s.resetStart_cause hk (rail := 0) (by omega)
  obtain ⟨hnow, hoff, hcommits, hbatches, henables, hbytes⟩ := s.resetStart_rest k 0
  refine ⟨_, hexec, hnow, hoff, hcommits, hbatches, henables, hcause, fun a hlost herr => ?_, fun a hkept hcauseWord hotp => ?_,
    by rw [s.resetStart_fatal], hbytes, fun hnone a ha => (hbytes a ha).trans (State.byte_dropSave_none hnone a)⟩
  · have hcauseWord : a ≠ Reg.GEN_RSTCAUSE := by rintro rfl; exact absurd hlost (by decide)
    have hotp : a ≠ Reg.SEC_OTPSTAT := by rintro rfl; exact absurd hlost (by decide)
    rw [s.rd_resetStart, s.rd_moduleReset_ne _ _ hcauseWord hotp herr, hlost, if_neg Bool.false_ne_true]
  · have herr : a ≠ Reg.FLT_ERRSTAT := by rintro rfl; exact absurd hkept (by decide)
    rw [s.rd_resetStart, s.rd_moduleReset_ne _ _ hcauseWord hotp herr, hkept, if_pos rfl]

/-! ## The boot ROM (R234, R365) -/

/-- The strap BIFSEL shown by each link, at T_rr. -/
def State.strapLinks (s : State) (b : Nat) : State :=
  (List.range 4).foldl (fun (s : State) k => s.wrf (Reg.HIF_LINKCFG k) 8 2 b) { s with released := s.ns, seqFails := 0 }

/-- The reserved strap's error, the debug state by OTP, and the NOR reset. -/
def State.strapped (s : State) (b : Fin 4) : State :=
  (((s.strapLinks b).when (b == 3) (·.err Reg.HIF_ERRSTAT 5)).wrBit Reg.SEC_OTPSTAT 29 ((s.strapLinks b).rdf Reg.SEC_OTPSTAT 30 2 == 0)).pulseNor

section
variable (s : State) (b : Fin 4)

theorem State.strapLinks_onlyWords : OnlyWords [Reg.HIF_LINKCFG 0, Reg.HIF_LINKCFG 1, Reg.HIF_LINKCFG 2, Reg.HIF_LINKCFG 3]
    { s with released := s.ns, seqFails := 0 } (s.strapLinks b) := by
  refine OnlyWords.each _ _ (fun u k hk hu => hu.wrf _ _ _ ?_) (OnlyWords.refl _ _)
  have hlt := List.mem_range.1 hk
  interval_cases k <;> simp

theorem State.rdf_strapLinks (k : Fin 4) : (s.strapLinks b).rdf (Reg.HIF_LINKCFG k) 8 2 = b := by
  refine State.each_establishes (I := fun _ => True) (P := fun u => u.rdf (Reg.HIF_LINKCFG k) 8 2 = b) (List.mem_range.2 k.isLt) trivial
    (fun _ _ _ _ => trivial) (fun u _ => ?_) fun u j _ hne hu => ?_
  · exact (u.rdf_wrf_same _ _ (by omega)).trans (Nat.mod_eq_of_lt (by omega))
  · exact (u.rdf_wr_ne _ _ _ (by unfold Reg.HIF_LINKCFG; omega)).trans hu

/-- The words that the straps write. -/
def strapWords : List Nat :=
  [Reg.HIF_LINKCFG 0, Reg.HIF_LINKCFG 1, Reg.HIF_LINKCFG 2, Reg.HIF_LINKCFG 3, Reg.HIF_ERRSTAT, Reg.SEC_OTPSTAT]

theorem State.strapped_events : WordsAndEvents strapWords { s with released := s.ns, seqFails := 0 } (s.strapped b) := by
  have hlinks : WordsAndEvents strapWords { s with released := s.ns, seqFails := 0 } (s.strapLinks b) :=
    ((s.strapLinks_onlyWords b).mono fun a ha => by simp only [strapWords, List.mem_cons] at ha ⊢; tauto).events
  have herror := hlinks.when (b == 3) (f := (·.err Reg.HIF_ERRSTAT 5)) (State.err_events hlinks 5 (by simp [strapWords]))
  exact ((herror.wrBit 29 _ (.inl (by simp [strapWords]))).send _).send _

/-- The words below the links' error word and the OTP's status show the straps. -/
theorem State.strapped_shows : (∀ k : Fin 4, (s.strapped b).rdf (Reg.HIF_LINKCFG k) 8 2 = b) ∧
    ((s.strapped b).bit Reg.SEC_OTPSTAT 29 = true ↔ s.rdf Reg.SEC_OTPSTAT 30 2 = 0) ∧
    (b = 3 → (s.strapped b).bit Reg.HIF_ERRSTAT 5 = true) ∧ (b ≠ 3 → (s.strapped b).rd Reg.HIF_ERRSTAT = s.rd Reg.HIF_ERRSTAT) ∧
    (b ≠ 3 → (s.strapped b).out = .pin "XSPI_RST_N" true :: .pin "XSPI_RST_N" false :: s.out) := by
  have hlinks := s.strapLinks_onlyWords b
  have hotp : (s.strapLinks b).rd Reg.SEC_OTPSTAT = s.rd Reg.SEC_OTPSTAT := hlinks.rd (by decide)
  have hstrap : ∀ u : State, ((u.wrBit Reg.SEC_OTPSTAT 29 ((s.strapLinks b).rdf Reg.SEC_OTPSTAT 30 2 == 0)).pulseNor).rd Reg.HIF_ERRSTAT =
      u.rd Reg.HIF_ERRSTAT := fun u => u.rd_wr_ne _ (by decide)
  refine ⟨fun k => ?_, ?_, fun h => ?_, fun h => ?_, fun h => ?_⟩
  · have hne : Reg.HIF_LINKCFG k ≠ Reg.SEC_OTPSTAT := by unfold Reg.HIF_LINKCFG Reg.SEC_OTPSTAT; omega
    have herr : Reg.HIF_LINKCFG k ≠ Reg.HIF_ERRSTAT := by unfold Reg.HIF_LINKCFG Reg.HIF_ERRSTAT; omega
    have hring : isRingWord (Reg.HIF_LINKCFG k) = false := by unfold isRingWord Reg.HIF_LINKCFG; simp; omega
    refine (congrArg (fld · 8 2) ((State.rd_wr_ne _ _ hne).trans ?_)).trans (s.rdf_strapLinks b k)
    cases b == 3 with
    | false => rfl
    | true => exact State.rd_err_ne _ 5 herr hring
  · have hshown : (s.strapped b).bit Reg.SEC_OTPSTAT 29 = ((s.strapLinks b).rdf Reg.SEC_OTPSTAT 30 2 == 0) :=
      State.bit_wrBit_same _ _ _ (by omega)
    have hlock : (s.strapLinks b).rdf Reg.SEC_OTPSTAT 30 2 = s.rdf Reg.SEC_OTPSTAT 30 2 := congrArg (fld · 30 2) hotp
    rw [hshown, hlock, beq_iff_eq]
  · subst h
    exact (congrArg (wbit · 5) (hstrap _)).trans (State.err_bit _ (by omega) (by decide))
  · have hother : (b == 3) = false := beq_false_of_ne h
    have hkept : (s.strapped b).rd Reg.HIF_ERRSTAT = (s.strapLinks b).rd Reg.HIF_ERRSTAT := by
      unfold State.strapped
      rw [hother]
      exact hstrap _
    exact hkept.trans (hlinks.rd (by decide))
  · have hother : (b == 3) = false := beq_false_of_ne h
    unfold State.strapped
    rw [hother]
    have hsent := congrArg State.out hlinks.2
    exact congrArg (fun os => Output.pin "XSPI_RST_N" true :: .pin "XSPI_RST_N" false :: os) hsent

end

section
variable {s : State}

theorem exec_bootRomStart (b : Fin 4) (ok : Bool) (hphase : s.bootPhase = 0) (hup : s.bit Reg.BOOT_STAT 31 = false) (hon : s.off = false) :
    exec (.bootRomStart b ok) s =
      .next (if ok then (s.strapped b).setBoot 1 else ((s.strapped b).wr Reg.BOOT_REJ 0x99#32).bootFail) :=
  if_pos ⟨hphase, by rw [hup]; rfl, by rw [hon]; rfl⟩

theorem bootRomStart_starts (b : Fin 4) (ok : Bool) (hphase : s.bootPhase = 0) (hup : s.bit Reg.BOOT_STAT 31 = false) (hon : s.off = false) :
    ∃ t, exec (.bootRomStart b ok) s = .next t ∧ (∀ k : Fin 4, t.rdf (Reg.HIF_LINKCFG k) 8 2 = b) ∧ t.released = s.ns ∧ t.seqFails = 0 ∧
      (t.bit Reg.SEC_OTPSTAT 29 = true ↔ s.rdf Reg.SEC_OTPSTAT 30 2 = 0) ∧
      (b = 3 → t.bit Reg.HIF_ERRSTAT 5 = true) ∧ (b ≠ 3 → t.rd Reg.HIF_ERRSTAT = s.rd Reg.HIF_ERRSTAT) ∧ (ok = true → t.bootPhase = 1) ∧
      (ok = false → t.bootPhase = 10 ∧ t.bit Reg.BOOT_STAT 30 = true ∧ t.rd Reg.BOOT_REJ = 0x99#32 ∧
        t.out.head? = some (.pin "FAULT_N" false) ∧ (b ≠ 3 →
        t.out = .pin "FAULT_N" false :: .pin "XSPI_RST_N" true :: .pin "XSPI_RST_N" false :: s.out)) := by
  have hexec := exec_bootRomStart b ok hphase hup hon
  have hrest := (s.strapped_events b).2
  have hreleased : (s.strapped b).released = s.ns := congrArg State.released hrest
  have hfails : (s.strapped b).seqFails = 0 := congrArg State.seqFails hrest
  obtain ⟨hlinks, hotp, herror, hquiet, hout⟩ := s.strapped_shows b
  have hlow : ∀ k : Fin 4, Reg.HIF_LINKCFG k < 0x100000 := fun k => by unfold Reg.HIF_LINKCFG; omega
  cases ok with
  | true =>
    rw [if_pos rfl] at hexec
    have hkept : ∀ {a}, a ≠ Reg.BOOT_STAT → ((s.strapped b).setBoot 1).rd a = (s.strapped b).rd a := fun h => State.rd_setBoot_ne _ 1 h
    refine ⟨_, hexec, fun k => ?_, hreleased, hfails, ?_, fun h => ?_, fun h => ?_, fun _ => State.bootPhase_setBoot _ (by omega), fun h => nomatch h⟩
    · exact (congrArg (fld · 8 2) (hkept (by have := hlow k; unfold Reg.BOOT_STAT; omega))).trans (hlinks k)
    · have hbit : ((s.strapped b).setBoot 1).bit Reg.SEC_OTPSTAT 29 = _ := congrArg (wbit · 29) (hkept (by decide))
      rw [hbit]
      exact hotp
    · exact (congrArg (wbit · 5) (hkept (by decide))).trans (herror h)
    · exact (hkept (by decide)).trans (hquiet h)
  | false =>
    rw [if_neg Bool.false_ne_true] at hexec
    obtain ⟨hstopped, hshown, hrej, hsent⟩ := ((s.strapped b).wr Reg.BOOT_REJ 0x99#32).bootFail_shows
    have hkept : ∀ {a}, a ≠ Reg.BOOT_STAT → a ≠ Reg.BOOT_REJ → (((s.strapped b).wr Reg.BOOT_REJ 0x99#32).bootFail).rd a = (s.strapped b).rd a :=
      fun hstat hword => (State.rd_wr_ne _ _ hstat).trans ((State.rd_wr_ne _ _ hstat).trans (State.rd_wr_ne _ _ hword))
    refine ⟨_, hexec, fun k => ?_, hreleased, hfails, ?_, fun h => ?_, fun h => ?_, fun h => (nomatch h), fun _ => ⟨hstopped, hshown,
      hrej.trans (State.rd_wr_same _ _ _), congrArg List.head? hsent, fun h => hsent.trans (congrArg (Output.pin "FAULT_N" false :: ·) (hout h))⟩⟩
    · exact (congrArg (fld · 8 2) (hkept (by have := hlow k; unfold Reg.BOOT_STAT; omega) (by have := hlow k; unfold Reg.BOOT_REJ; omega))).trans
        (hlinks k)
    · have hbit : (((s.strapped b).wr Reg.BOOT_REJ 0x99#32).bootFail).bit Reg.SEC_OTPSTAT 29 = _ :=
        congrArg (wbit · 29) (hkept (by decide) (by decide))
      rw [hbit]
      exact hotp
    · exact (congrArg (wbit · 5) (hkept (by decide) (by decide))).trans (herror h)
    · exact (hkept (by decide) (by decide)).trans (hquiet h)

end

/-! ## The obligation -/

/-- Settles O57: each reset and rail event by the words and fields it starts over, over the lemma that says what a module reset keeps. -/
theorem resetsAndRails : Obligations.ResetsAndRails := by
  unfold Obligations.ResetsAndRails
  refine ⟨powerOn_resets, fun s r => ⟨railEvents_out_of_turn, fun r' => powerGood_enables, sequenceFailure_drops, undervoltage_resets,
    undervoltage_off⟩, sequenceRetry_steps, fun s c k => reset_restarts s, fun s b ok => ⟨fun hphase => if_neg fun h => hphase h.1, ?_⟩⟩
  exact bootRomStart_starts b ok

end Sys2Proof.Machine
end


section
/-! PROOF. For O41 to O44: what taking, measuring and releasing a cell leave alone. -/
namespace Sys2Proof.Machine

/-- From `s` to `t` only words in `W` have changed, beside what the delivery of EVENT entries changes. A base `{ s with … }` says which of the
block's own fields an update changes, and to what. -/
structure EventsBut (W : Nat → Prop) (s t : State) : Prop where
  rd : ∀ a, ¬ W a → isRingWord a = false → t.rd a = s.rd a
  rest : t = { s with words := t.words, poisoned := t.poisoned, rings := t.rings, sess := t.sess, fnCfg := t.fnCfg, out := t.out }

namespace EventsBut

variable {W : Nat → Prop} {s t u : State}

theorem refl (W : Nat → Prop) (s : State) : EventsBut W s s := ⟨fun _ _ _ => rfl, rfl⟩

theorem trans (h : EventsBut W s t) (k : EventsBut W t u) : EventsBut W s u :=
  ⟨fun a ha hr => (k.rd a ha hr).trans (h.rd a ha hr), k.rest.trans (congrArg (fun v : State =>
    { v with words := u.words, poisoned := u.poisoned, rings := u.rings, sess := u.sess, fnCfg := u.fnCfg, out := u.out }) h.rest)⟩

theorem mono {V : Nat → Prop} (h : EventsBut W s t) (hW : ∀ a, W a → V a) : EventsBut V s t :=
  ⟨fun a ha => h.rd a fun hmem => ha (hW a hmem), h.rest⟩

/-- What changes words and delivers events. -/
theorem events {as : List Nat} (h : EventsBut W s t) (hevents : WordsAndEvents as t u) (has : ∀ a ∈ as, W a) : EventsBut W s u :=
  h.trans ⟨fun _ ha hr => hevents.rd (fun hmem => ha (has _ hmem)) hr, hevents.2⟩

/-- A field that neither words nor events are part of. -/
theorem get {β : Type} (h : EventsBut W s t) (f : State → β)
    (hf : ∀ u : State, ∀ ws ps rs ss fs os,
      f { u with words := ws, poisoned := ps, rings := rs, sess := ss, fnCfg := fs, out := os } = f u := by intros; rfl) : f t = f s := by
  rw [h.rest]
  exact hf _ _ _ _ _ _ _

theorem bit (h : EventsBut W s t) {a : Nat} (ha : ¬ W a) (hr : isRingWord a = false) (i : Nat) : t.bit a i = s.bit a i :=
  congrArg (wbit · i) (h.rd a ha hr)

theorem rdf (h : EventsBut W s t) {a : Nat} (ha : ¬ W a) (hr : isRingWord a = false) (lo n : Nat) : t.rdf a lo n = s.rdf a lo n :=
  congrArg (fld · lo n) (h.rd a ha hr)

theorem wr (h : EventsBut W s t) {a : Nat} (v : Word) (ha : W a) : EventsBut W s (t.wr a v) :=
  h.events ((WordsAndEvents.refl [a] t).wr v (.inl (List.mem_singleton.2 rfl))) fun _ hb => List.mem_singleton.1 hb ▸ ha

theorem wrf (h : EventsBut W s t) {a : Nat} (lo n v : Nat) (ha : W a) : EventsBut W s (t.wrf a lo n v) := h.wr _ ha

theorem wrBit (h : EventsBut W s t) {a : Nat} (i : Nat) (b : Bool) (ha : W a) : EventsBut W s (t.wrBit a i b) := h.wr _ ha

theorem count (h : EventsBut W s t) {a : Nat} (lo n k : Nat) (ha : W a) : EventsBut W s (t.count a lo n k) := h.wr _ ha

theorem wrMask (h : EventsBut W s t) {a : Nat} (m v : Word) (ha : W a) : EventsBut W s (t.wrMask a m v) := h.wr _ ha

theorem err (h : EventsBut W s t) {a : Nat} (i : Nat) (ha : W a) : EventsBut W s (t.err a i) :=
  h.events (State.err_events (.refl [a] t) i (List.mem_singleton.2 rfl)) fun _ hb => List.mem_singleton.1 hb ▸ ha

theorem send (h : EventsBut W s t) (o : Output) : EventsBut W s (t.send o) := h.events ((WordsAndEvents.refl [] t).send o) (by simp)

theorem when (h : EventsBut W s t) (b : Bool) {f : State → State} (hf : EventsBut W s (f t)) : EventsBut W s (t.when b f) := by
  cases b with
  | false => exact h
  | true => exact hf

theorem setCells (h : EventsBut W s t) (cs : List (Nat × CellRec)) (xs : List (Nat × CooRec)) :
    EventsBut W { s with cells := cs, coos := xs } { t with cells := cs, coos := xs } :=
  ⟨h.rd, congrArg (fun v : State => { v with cells := cs, coos := xs }) h.rest⟩

theorem setFresh (h : EventsBut W s t) (n : Nat) : EventsBut W { s with fresh := n } { t with fresh := n } :=
  ⟨h.rd, congrArg (fun v : State => { v with fresh := n }) h.rest⟩

theorem setCalCells (h : EventsBut W s t) (xs : List CalRec) : EventsBut W { s with calCells := xs } { t with calCells := xs } :=
  ⟨h.rd, congrArg (fun v : State => { v with calCells := xs }) h.rest⟩

theorem setCouplers (h : EventsBut W s t) (cs : List Nat) : EventsBut W { s with couplers := cs } { t with couplers := cs } :=
  ⟨h.rd, congrArg (fun v : State => { v with couplers := cs }) h.rest⟩

theorem setStamps (h : EventsBut W s t) (ss : List (Nat × Nat)) : EventsBut W { s with stamps := ss } { t with stamps := ss } :=
  ⟨h.rd, congrArg (fun v : State => { v with stamps := ss }) h.rest⟩

theorem setFigures (h : EventsBut W s t) (es ss : List (Nat × Nat)) (f : Option FullCal) :
    EventsBut W { s with extOld := es, stamps := ss, fullcal := f } { t with extOld := es, stamps := ss, fullcal := f } :=
  ⟨h.rd, congrArg (fun v : State => { v with extOld := es, stamps := ss, fullcal := f }) h.rest⟩

end EventsBut

/-! ## Words of the chapter -/

theorem not_windowWord {a : Nat} (h : a < 0x2000000) : ¬ WindowWord a := Nat.not_le.2 h

theorem isRingWord_low {a : Nat} (h : a < 0x1800000) : isRingWord a = false := by
  unfold isRingWord
  simp
  omega

/-- The status words that the Assayer and the Tinker bring up to date. -/
def CalStatus (a : Nat) : Prop := a = Reg.ASY_STAT ∨ a = Reg.TNK_STAT

theorem not_calStatus {a : Nat} (hasy : a ≠ Reg.ASY_STAT) (htnk : a ≠ Reg.TNK_STAT) : ¬ CalStatus a := not_or.2 ⟨hasy, htnk⟩

/-! ## One cell enters another loop state (R138) -/

section
variable (s : State) (c : Nat)

theorem State.settleClamps_kept : ∃ xs, EventsBut WindowWord { s with coos := xs } (s.settleClamps c) := by
  have hcount : WindowWord (drvWord c 3) := drvWord_window c 3
  have herr : WindowWord (Reg.DRV_ERRSTAT (tileOf c)) := by unfold WindowWord Reg.DRV_ERRSTAT; omega
  unfold State.settleClamps
  dsimp only
  split
  · exact ⟨_, .refl _ s⟩
  · split
    · exact ⟨_, .refl _ _⟩
    · exact ⟨_, ((EventsBut.refl _ (s.setCoo c _)).count _ _ _ hcount).err _ herr⟩

theorem State.toMode_kept (m : Nat) : ∃ cs xs, EventsBut WindowWord { s with cells := cs, coos := xs } (s.toMode c m) := by
  obtain ⟨xs, hsettled⟩ := s.settleClamps_kept c
  have hset : ∀ u, EventsBut WindowWord { s with coos := xs } u →
      ∃ cs ys, EventsBut WindowWord { s with cells := cs, coos := ys } (u.setMode c m) := fun u hu => by
    have hcell : WindowWord (Reg.COO_CELL_W7 (tileOf c) (localOf c)) := by unfold WindowWord Reg.COO_CELL_W7; omega
    exact ⟨_, _, (hu.setCells (Store.set CellRec.rest u.cells c { u.cell c with mode := m }) u.coos).wr _ hcell⟩
  unfold State.toMode
  dsimp only
  split
  · exact hset _ (hsettled.wr _ (drvWord_window c 2))
  · exact hset _ hsettled

variable {c} (hc : c < 4864)
include hc

theorem localOf_lt : localOf c < 76 := by
  unfold localOf
  omega

/-- The codes of a cell's driver are no words of its loop state. -/
theorem codeWord_not_modeWords : cooWord c 13 ∉ modeWords c := by
  have hlocal := localOf_lt hc
  have htile : tileOf c < 64 := by unfold tileOf; omega
  simp only [modeWords, List.mem_cons, List.not_mem_nil, or_false, not_or]
  unfold cooWord drvWord Reg.COO_CELL_W0 Reg.DRV_CELL_W0 Reg.DRV_ERRSTAT
  omega

theorem State.hcode_toMode (m : Nat) : (s.toMode c m).hcode c = s.hcode c :=
  ((TileKept.refl (modeWords c) [c] s).toMode m (List.Subset.refl _) (List.mem_singleton.2 rfl)).rdf (cooWord_window c 13)
    (codeWord_not_modeWords hc) 16 14

end

/-! ## Taken into CAL (R212, R213) -/

section
variable (s : State) (x : CalRec)

theorem State.takeCal_kept : ∃ cs xs, EventsBut WindowWord
    { s with cells := cs, coos := xs, fresh := s.fresh + 1, calCells := s.calCells ++ [{ x with seed := s.fresh }] } (s.takeCal x) := by
  obtain ⟨cs, xs, hmode⟩ := s.toMode_kept x.cell 2
  have hfresh : (s.toMode x.cell 2).fresh = s.fresh := hmode.get State.fresh
  have hcells : (s.toMode x.cell 2).calCells = s.calCells := hmode.get State.calCells
  have hstale : WindowWord (Reg.TAL_LIVE_W7 (tileOf x.cell) (localOf x.cell)) := by unfold WindowWord Reg.TAL_LIVE_W7; omega
  have hstat : WindowWord (Reg.COO_STAT (tileOf x.cell)) := by unfold WindowWord Reg.COO_STAT; omega
  have htaken := ((hmode.setFresh (s.fresh + 1)).setCalCells (s.calCells ++ [{ x with seed := s.fresh }])).setCells (s.toMode x.cell 2).cells
    (Store.set CooRec.zero (s.toMode x.cell 2).coos x.cell { (s.toMode x.cell 2).coo x.cell with calH := (s.toMode x.cell 2).hcode x.cell })
  unfold State.takeCal State.noteStale State.draw
  dsimp only
  rw [hfresh, hcells]
  exact ⟨_, _, (htaken.wr _ hstale).wr _ hstat⟩

theorem State.cell_takeCal : (s.takeCal x).cell x.cell = { s.cell x.cell with mode := 2 } := s.cell_toMode x.cell 2

theorem State.calH_takeCal (hc : x.cell < 4864) : ((s.takeCal x).coo x.cell).calH = s.hcode x.cell := by
  have hheld : (s.takeCal x).coo x.cell = { (s.toMode x.cell 2).coo x.cell with calH := (s.toMode x.cell 2).hcode x.cell } :=
    Store.get_set_same _ _ _ _
  rw [hheld]
  exact s.hcode_toMode hc 2

end

/-! ## Released from CAL (R214) -/

section
variable (s : State) (x : CalRec)

theorem State.leaveCal_kept : ∃ cs xs, EventsBut WindowWord
    { s with cells := cs, coos := xs, calCells := s.calCells.filter fun (y : CalRec) => y.cell != x.cell } (s.leaveCal x) := by
  have hstale : WindowWord (Reg.TAL_LIVE_W7 (tileOf x.cell) (localOf x.cell)) := by unfold WindowWord Reg.TAL_LIVE_W7; omega
  have hstat : WindowWord (Reg.COO_STAT (tileOf x.cell)) := by unfold WindowWord Reg.COO_STAT; omega
  obtain ⟨xs, hsettled⟩ := (s.noteStale (tileOf x.cell) (localOf x.cell)).settleClamps_kept x.cell
  have hkept := (((EventsBut.refl WindowWord s).wr _ hstale).setCells s.cells xs).trans hsettled
  have hcells := hkept.get State.calCells
  have hgone := hkept.setCalCells (s.calCells.filter fun (y : CalRec) => y.cell != x.cell)
  unfold State.leaveCal
  dsimp only
  rw [hcells]
  split
  · obtain ⟨cs, ys, hmode⟩ := State.toMode_kept (State.setHcode { (s.noteStale (tileOf x.cell) (localOf x.cell)).settleClamps x.cell with
      calCells := s.calCells.filter fun (y : CalRec) => y.cell != x.cell } x.cell (s.coo x.cell).calH) x.cell
      (if s.frozen (tileOf x.cell) && x.prev != 6 then 3 else x.prev)
    exact ⟨cs, ys, (((hgone.wrf 16 14 _ (cooWord_window x.cell 13)).setCells cs ys).trans hmode).wr _ hstat⟩
  · exact ⟨s.cells, xs, hgone⟩

/-- The loop state of a cell that was in CAL: the one it was taken from, or HOLD. -/
theorem State.mode_leaveCal (h : (s.cell x.cell).mode = 2) :
    ((s.leaveCal x).cell x.cell).mode = if s.frozen (tileOf x.cell) && x.prev != 6 then 3 else x.prev := by
  unfold State.leaveCal
  dsimp only
  rw [if_pos h]
  exact congrArg CellRec.mode (State.cell_toMode _ x.cell _)

/-- Its heater stands at the code it was taken with. -/
theorem State.hcode_leaveCal (h : (s.cell x.cell).mode = 2) (hc : x.cell < 4864) :
    (s.leaveCal x).hcode x.cell = (s.coo x.cell).calH % 16384 := by
  have hstat : cooWord x.cell 13 ≠ Reg.COO_STAT (tileOf x.cell) := by unfold cooWord Reg.COO_CELL_W0 Reg.COO_STAT; omega
  unfold State.leaveCal
  dsimp only
  rw [if_pos h]
  exact (State.rdf_wr_ne _ _ 16 14 hstat).trans ((State.hcode_toMode _ hc _).trans (State.hcode_setHcode _ _ _))

end

/-- Cells released one after another are gone from CAL, and so are all records of them. -/
theorem State.leaveCals_kept (s : State) (xs : List CalRec) : ∃ cs ys rs, EventsBut WindowWord { s with cells := cs, coos := ys, calCells := rs }
    (xs.foldl State.leaveCal s) ∧ ∀ y ∈ rs, y ∈ s.calCells ∧ ∀ x ∈ xs, y.cell ≠ x.cell := by
  induction xs generalizing s with
  | nil => exact ⟨_, _, _, .refl _ s, fun y hy => ⟨hy, fun x hx => absurd hx List.not_mem_nil⟩⟩
  | cons x xs ih =>
    obtain ⟨cs, ys, hfirst⟩ := s.leaveCal_kept x
    have hcells : (s.leaveCal x).calCells = s.calCells.filter fun (y : CalRec) => y.cell != x.cell := hfirst.get State.calCells
    obtain ⟨cs', ys', rs, hrest, hgone⟩ := ih (s.leaveCal x)
    refine ⟨cs', ys', rs, ((hfirst.setCells cs' ys').setCalCells rs).trans hrest, fun y hy => ?_⟩
    obtain ⟨hkept, hothers⟩ := hgone y hy
    rw [hcells, List.mem_filter, bne_iff_ne] at hkept
    obtain ⟨hmem, hne⟩ := hkept
    refine ⟨hmem, fun z hz => ?_⟩
    rcases List.mem_cons.1 hz with rfl | hz
    · exact hne
    · exact hothers z hz

/-! ## The source and the status words (R216, R232, R233) -/

section
variable (s : State)

/-- The source as asked for, whether it has settled before or not. -/
theorem State.calSource_kept (W : Nat → Prop) (en band : Bool) :
    ∃ settled, EventsBut W { s with calEn := en, calBand := band, calSettled := settled } (s.calSource en band) := by
  unfold State.calSource
  split
  · next h =>
    obtain ⟨rfl, rfl⟩ := h
    exact ⟨_, .refl _ s⟩
  · exact ⟨_, ((EventsBut.refl _ { s with calEn := en, calBand := band, calSettled := false }).send _).send _⟩

theorem State.asyStat_onlyWords : OnlyWords [Reg.ASY_STAT] s s.asyStat :=
  (((OnlyWords.refl _ s).wrBit _ _ (by simp)).wrf _ _ _ (by simp)).wrBit _ _ (by simp)

/-- ASY_STAT shows that the Assayer is busy. -/
theorem State.asyStat_busy (h : s.fullcal.isSome = true ∨ (s.calCells.any fun x => !x.tinker) = true ∨ s.saving.isSome = true) :
    s.asyStat.bit Reg.ASY_STAT 31 = true := by
  unfold State.asyStat
  dsimp only
  rw [State.bit_wrBit_ne _ _ _ (by omega), State.bit_wrf_ne _ _ _ (by omega), State.bit_wrBit_same _ _ _ (by omega)]
  by_cases hfull : s.fullcal.isSome = true
  · rw [if_pos hfull]
    rfl
  · rw [if_neg hfull]
    by_cases hcells : (s.calCells.any fun x => !x.tinker) = true
    · rw [if_pos hcells]
      rfl
    · rw [if_neg hcells, if_pos ((h.resolve_left hfull).resolve_left hcells)]
      rfl

theorem State.afterCal_kept : ∃ en band settled cs,
    EventsBut CalStatus { s with calEn := en, calBand := band, calSettled := settled, couplers := cs } s.afterCal := by
  have hstatus : ∀ {v u : State}, EventsBut CalStatus v u → EventsBut CalStatus v u.asyStat.tnkStat := fun hu =>
    (hu.events (State.asyStat_onlyWords _).events fun a ha => .inl (List.mem_singleton.1 ha)).wrBit _ _ (.inr rfl)
  unfold State.afterCal
  split
  · obtain ⟨settled, hsource⟩ := s.calSource_kept CalStatus false s.calBand
    exact ⟨false, s.calBand, settled, [], hstatus (hsource.setCouplers [])⟩
  · exact ⟨_, _, _, _, hstatus (.refl _ s)⟩

end

/-! ## A cell done with (R214) -/

/-- What decides whether a tile's loops stand still: the words of FREEZE, of HOLD, and of the power state. -/
theorem State.frozen_congr {s t : State} {tile : Nat} (hctrl : t.rd (Reg.COO_CTRL tile) = s.rd (Reg.COO_CTRL tile))
    (hstat : t.rd (Reg.COO_STAT tile) = s.rd (Reg.COO_STAT tile)) (hpower : t.rd Reg.PWR_STAT = s.rd Reg.PWR_STAT) :
    t.frozen tile = s.frozen tile := by
  unfold State.frozen State.heldTile State.pstate State.bit State.rdf
  rw [hctrl, hstat, hpower]

/-- A command's result changes a word, and which command waits. -/
theorem State.asyFinish_cases (s : State) (k status result : Nat) : (s.asyLast ≠ k ∧ s.asyFinish k status result = s) ∨
    (s.asyLast = k ∧ s.asyFinish k status result = s.asyResult status result) := by
  unfold State.asyFinish
  split
  · next h => exact .inr ⟨h, rfl⟩
  · next h => exact .inl ⟨h, rfl⟩

/-- The only cell in CAL released, and with `b` the result of the command that asked for it: its loop state and code, the words that stay,
and the result. -/
theorem State.release_shows (s : State) (x : CalRec) (b : Bool) (k status result : Nat) (hc : x.cell < 4864) (honly : s.calCells = [x])
    (hmode : (s.cell x.cell).mode = 2) : let t := ((s.leaveCal x).when b (·.asyFinish k status result)).afterCal
    t.calCells = [] ∧ (t.cell x.cell).mode = (if s.frozen (tileOf x.cell) && x.prev != 6 then 3 else x.prev) ∧
    t.hcode x.cell = (s.coo x.cell).calH % 16384 ∧
    (∀ a, a < 0x1800000 → a ≠ Reg.ASY_STAT → a ≠ Reg.TNK_STAT → a ≠ Reg.ASY_CMDRES → t.rd a = s.rd a) ∧
    (b = true → s.asyLast = k → t.rd Reg.ASY_CMDRES = pack [(31, 1, 1), (8, 4, status), (0, 4, result)]) := by
  obtain ⟨cs, xs, hleft⟩ := s.leaveCal_kept x
  have hgone := hleft.get State.calCells
  have hlast := hleft.get State.asyLast
  have hmode' := s.mode_leaveCal x hmode
  have hcode := s.hcode_leaveCal x hmode hc
  have hwords : ∀ a, a < 0x1800000 → (s.leaveCal x).rd a = s.rd a := fun a ha => hleft.rd a (not_windowWord (by omega)) (isRingWord_low ha)
  have hempty : (s.leaveCal x).calCells = [] := by
    rw [hgone, honly]
    simp
  generalize s.leaveCal x = u at hlast hmode' hcode hwords hempty
  have hfinish : ∃ v, u.when b (·.asyFinish k status result) = v ∧ v.calCells = [] ∧ v.cell x.cell = u.cell x.cell ∧
      (∀ a, a ≠ Reg.ASY_CMDRES → v.rd a = u.rd a) ∧
      (b = true → s.asyLast = k → v.rd Reg.ASY_CMDRES = pack [(31, 1, 1), (8, 4, status), (0, 4, result)]) := by
    cases b with
    | false => exact ⟨u, rfl, hempty, rfl, fun _ _ => rfl, fun h => nomatch h⟩
    | true =>
      rcases u.asyFinish_cases k status result with ⟨hother, heq⟩ | ⟨-, heq⟩
      · exact ⟨u, heq, hempty, rfl, fun _ _ => rfl, fun _ h => absurd (hlast.trans h) hother⟩
      · exact ⟨_, heq, hempty, rfl, fun _ ha => State.rd_wr_ne _ _ ha, fun _ _ => State.rd_wr_same _ _ _⟩
  obtain ⟨v, hv, hnone, hcell, hrd, hres⟩ := hfinish
  obtain ⟨en, band, settled, ps, hafter⟩ := v.afterCal_kept
  have hkept : ∀ a, isRingWord a = false → a ≠ Reg.ASY_STAT → a ≠ Reg.TNK_STAT → v.afterCal.rd a = v.rd a := fun a hr hasy htnk =>
    hafter.rd a (not_calStatus hasy htnk) hr
  have hcodeWord : 0x2000000 ≤ cooWord x.cell 13 := cooWord_window x.cell 13
  dsimp only
  rw [hv]
  refine ⟨(hafter.get State.calCells).trans hnone, (hafter.get fun w => (w.cell x.cell).mode).trans ((congrArg CellRec.mode hcell).trans hmode'),
    ?_, fun a ha hasy htnk hcmd => ?_, fun hb hk => ?_⟩
  · refine (congrArg (fld · 16 14) ((hkept _ (isRingWord_of_window hcodeWord) ?_ ?_).trans (hrd _ ?_))).trans hcode
    · unfold Reg.ASY_STAT; omega
    · unfold Reg.TNK_STAT; omega
    · unfold Reg.ASY_CMDRES; omega
  · exact (hkept a (isRingWord_low ha) hasy htnk).trans ((hrd a hcmd).trans (hwords a ha))
  · exact (hkept _ (by decide) (by decide) (by decide)).trans (hres hb hk)

end Sys2Proof.Machine
end


section
/-! PROOF. O41: FULLCAL, CELLCAL, SAVE, CAL_ABORT, and the couplers. -/
namespace Sys2Proof.Machine

/-! ## A command refused (R219, R221, R225) -/

theorem State.asyRefuse_shows (s : State) : s.asyRefuse.rd Reg.ASY_CMDRES = pack [(31, 1, 1), (8, 4, 4)] ∧
    s.asyRefuse.bit Reg.ASY_ERRSTAT 0 = true ∧ WordsAndEvents [Reg.ASY_CMDRES, Reg.ASY_ERRSTAT] { s with asyLast := 0 } s.asyRefuse := by
  have hresult : WordsAndEvents [Reg.ASY_CMDRES, Reg.ASY_ERRSTAT] { s with asyLast := 0 } (s.asyResult 4 0) :=
    (WordsAndEvents.refl _ _).wr _ (.inl (by simp))
  refine ⟨(State.rd_err_ne _ 0 (by decide) (by decide)).trans ((State.rd_wr_same _ _ _).trans (by decide)),
    State.err_bit _ (by omega) (by decide), State.err_events hresult 0 (by simp)⟩

/-! ## The source, the cells and the couplers (R212, R216) -/

theorem State.calSource_drives (s : State) (en band : Bool) : (s.calSource en band).calEn = en ∧ (s.calSource en band).calBand = band := by
  obtain ⟨settled, hkept⟩ := s.calSource_kept (fun _ => False) en band
  exact ⟨hkept.get State.calEn, hkept.get State.calBand⟩

/-- Light for a measurement: the cells in CAL stay as they are. -/
theorem State.probeLight_kept (s : State) (W : Nat → Prop) (b : Bool) : ∃ en band settled cs,
    EventsBut W { s with calEn := en, calBand := band, calSettled := settled, couplers := cs } (s.probeLight b) := by
  obtain ⟨settled, hsource⟩ := s.calSource_kept W true b
  have hcouplers := hsource.get State.couplers
  unfold State.probeLight
  split
  · exact ⟨_, _, _, _, .refl _ s⟩
  · dsimp only
    split
    · exact ⟨_, _, _, _, hsource.setCouplers _⟩
    · exact ⟨true, b, settled, s.couplers, hsource⟩

/-- A cell taken into CAL and lit: its loop state, its held code and its record; the Assayer's command waits on, and it is busy. -/
theorem State.takeProbe_shows (s : State) (x : CalRec) (b : Bool) (hc : x.cell < 4864) (htinker : x.tinker = false) :
    let t := ((s.takeCal x).probeLight b).asyStat
    (t.cell x.cell).mode = 2 ∧ (t.coo x.cell).calH = s.hcode x.cell ∧ { x with seed := s.fresh } ∈ t.calCells ∧
    t.asyLast = s.asyLast ∧ t.bgNext = s.bgNext ∧ t.rd Reg.ASY_CMDRES = s.rd Reg.ASY_CMDRES ∧ t.bit Reg.ASY_STAT 31 = true := by
  obtain ⟨cs, xs, htaken⟩ := s.takeCal_kept x
  have hcells := htaken.get State.calCells
  have hlast := htaken.get State.asyLast
  have hnext := htaken.get State.bgNext
  have hres := htaken.rd Reg.ASY_CMDRES (not_windowWord (by decide)) (by decide)
  have hmode := congrArg CellRec.mode (s.cell_takeCal x)
  have hheld := s.calH_takeCal x hc
  generalize s.takeCal x = u at hcells hlast hnext hres hmode hheld
  obtain ⟨en, band, settled, ps, hprobe⟩ := u.probeLight_kept CalStatus b
  have hsame := hprobe.get State.calCells
  have hmem : { x with seed := s.fresh } ∈ (u.probeLight b).calCells := by
    rw [hsame, hcells]
    exact List.mem_append_right _ (List.mem_singleton.2 rfl)
  have hshown := hprobe.events (State.asyStat_onlyWords _).events fun a ha => .inl (List.mem_singleton.1 ha)
  refine ⟨(hshown.get fun v => (v.cell x.cell).mode).trans hmode, (hshown.get fun v => (v.coo x.cell).calH).trans hheld, hmem,
    (hshown.get State.asyLast).trans hlast, (hshown.get State.bgNext).trans hnext,
    (hshown.rd _ (not_calStatus (by decide) (by decide)) (by decide)).trans hres, ?_⟩
  exact State.asyStat_busy _ (.inr (.inl (List.any_eq_true.2 ⟨_, hmem, by simp [htinker]⟩)))

theorem State.takeCals_kept (s : State) (cs : List Nat) (g : Nat → CalRec) : ∃ xs ys n rs,
    EventsBut WindowWord { s with cells := xs, coos := ys, fresh := n, calCells := rs } (cs.foldl (fun u c => u.takeCal (g c)) s) := by
  induction cs generalizing s with
  | nil => exact ⟨_, _, _, _, .refl _ s⟩
  | cons c cs ih =>
    obtain ⟨xs, ys, hfirst⟩ := s.takeCal_kept (g c)
    obtain ⟨xs', ys', n, rs, hrest⟩ := ih (s.takeCal (g c))
    exact ⟨xs', ys', n, rs, (((hfirst.setCells xs' ys').setFresh n).setCalCells rs).trans hrest⟩

/-! ## FULLCAL (R219, R231) -/

/-- A full calibration takes every eligible cell. -/
def State.takeEligible (s : State) : State :=
  ((List.range 4864).filter s.eligible).foldl (fun u c => u.takeCal (CalRec.new c false true false (s.cell c).mode)) s

theorem State.takeEligible_kept (s : State) : ∃ xs ys n rs,
    EventsBut WindowWord { s with cells := xs, coos := ys, fresh := n, calCells := rs } s.takeEligible :=
  s.takeCals_kept _ fun c => CalRec.new c false true false (s.cell c).mode

theorem State.startFull_eq (s : State) (boot : Bool) : s.startFull boot =
    (((s.askFull boot).lampStat.takeEligible.wr Reg.ASY_STAT ((s.askFull boot).lampStat.takeEligible.rd Reg.ASY_STAT &&& 0xFC0FFFFF#32)).calSource
      true false).asyStat := rfl

theorem State.takeEligible_command (s : State) : s.takeEligible.asyLast = s.asyLast ∧
    s.takeEligible.rd Reg.ASY_CMDRES = s.rd Reg.ASY_CMDRES := by
  obtain ⟨xs, ys, n, rs, htaken⟩ := s.takeEligible_kept
  exact ⟨htaken.get State.asyLast, htaken.rd _ (not_windowWord (by decide)) (by decide)⟩

/-- The stage and band of ASY_STAT written as `v`, and the source on in band O. -/
theorem State.lightBandO_shows (s : State) (v : Word) : let t := ((s.wr Reg.ASY_STAT v).calSource true false).asyStat
    t.calEn = true ∧ t.calBand = false ∧ t.asyLast = s.asyLast ∧ t.rd Reg.ASY_CMDRES = s.rd Reg.ASY_CMDRES := by
  obtain ⟨settled, hsource⟩ := (s.wr Reg.ASY_STAT v).calSource_kept CalStatus true false
  have hshown := hsource.events (State.asyStat_onlyWords _).events fun a ha => .inl (List.mem_singleton.1 ha)
  exact ⟨hshown.get State.calEn, hshown.get State.calBand, hshown.get State.asyLast,
    (hshown.rd _ (not_calStatus (by decide) (by decide)) (by decide)).trans (State.rd_wr_ne _ _ (by decide))⟩

/-- The start of a full calibration leaves the command it answers to as it was, and drives the source in band O. -/
theorem State.startFull_begins (s : State) (boot : Bool) : (s.startFull boot).calEn = true ∧ (s.startFull boot).calBand = false ∧
    (s.startFull boot).asyLast = s.asyLast ∧ (s.startFull boot).rd Reg.ASY_CMDRES = s.rd Reg.ASY_CMDRES := by
  have hlamp : (s.askFull boot).lampStat.rd Reg.ASY_CMDRES = s.rd Reg.ASY_CMDRES :=
    (State.rd_lampStat _ (by decide) (by decide) (by decide) (by decide)).trans (State.rd_wr_ne _ _ (by decide))
  obtain ⟨hlast, hres⟩ := (s.askFull boot).lampStat.takeEligible_command
  obtain ⟨hen, hband, hkept, hshown⟩ := (s.askFull boot).lampStat.takeEligible.lightBandO_shows
    ((s.askFull boot).lampStat.takeEligible.rd Reg.ASY_STAT &&& 0xFC0FFFFF#32)
  rw [s.startFull_eq boot]
  exact ⟨hen, hband, hkept.trans hlast, hshown.trans (hres.trans hlamp)⟩

theorem fullcal_refused {s : State}
    (h : s.ckts ≠ [] ∨ s.heldBatches ≠ [] ∨ s.thermalBlock = true ∨ s.fullcal.isSome = true ∨ s.pstate ≠ 0) :
    ∃ t, exec .fullcal s = .next t ∧ t.rd Reg.ASY_CMDRES = pack [(31, 1, 1), (8, 4, 4)] ∧ t.bit Reg.ASY_ERRSTAT 0 = true ∧
      WordsAndEvents [Reg.ASY_CMDRES, Reg.ASY_ERRSTAT] { s with asyLast := 0 } t := by
  have hbarred : (!s.ckts.isEmpty || !s.heldBatches.isEmpty || s.thermalBlock || s.fullcal.isSome || s.pstate != 0) = true := by
    simpa [or_assoc] using h
  have hexec : execFullcal s = .next s.asyRefuse := by
    unfold execFullcal
    rw [if_pos hbarred]
  exact ⟨_, hexec, s.asyRefuse_shows⟩

theorem fullcal_begins {s : State} (hckts : s.ckts = []) (hheld : s.heldBatches = []) (hthermal : s.thermalBlock = false)
    (hnone : s.fullcal = none) (hpower : s.pstate = 0) : ∃ t, exec .fullcal s = .next t ∧
      t.fullcal = some ⟨false, false, [], none, []⟩ ∧ t.bit Reg.LMP_CTRL 8 = true ∧ t.calEn = true ∧ t.calBand = false ∧
      t.rd Reg.ASY_CMDRES = 0#32 ∧ t.asyLast = 1 := by
  have hfree : ¬ (!s.ckts.isEmpty || !s.heldBatches.isEmpty || s.thermalBlock || s.fullcal.isSome || s.pstate != 0) = true := by
    simp [hckts, hheld, hthermal, hnone, hpower]
  have hexec : execFullcal s = .next ((s.asyBegin 1).startFull false) := by
    unfold execFullcal
    rw [if_neg hfree]
  obtain ⟨-, hfull, hhold⟩ := (s.asyBegin 1).startFull_shows false
  obtain ⟨hen, hband, hlast, hres⟩ := (s.asyBegin 1).startFull_begins false
  exact ⟨_, hexec, hfull, hhold, hen, hband, hres.trans (State.rd_wr_same _ _ _), hlast⟩

/-! ## CELLCAL (R221) -/

section
variable {s : State} (c : Fin 4864) (full : Bool)

theorem cellcal_defers (h : s.eligible c = false ∨ s.calRoom (tileOf c) = false ∨ s.pstate ≠ 0 ∨ s.fullcal.isSome = true) :
    ∃ t, exec (.cellcal c full) s = .next t ∧ t.deferredCal = s.deferredCal.filter (fun p => p.1 != c.val) ++ [(c.val, full)] ∧
      t.rd Reg.ASY_CMDRES = pack [(31, 1, 1), (8, 4, 1)] ∧ OnlyWords [Reg.ASY_CMDRES] { s with deferredCal := t.deferredCal, asyLast := 0 } t := by
  have hnot : ¬ (s.eligible c && s.calRoom (tileOf c) && s.pstate == 0 && s.fullcal.isNone) = true := by
    simp only [Bool.and_eq_true, beq_iff_eq, Option.isNone_iff_eq_none, not_and]
    rintro ⟨⟨heligible, hroom⟩, hpower⟩ hnone
    rcases h with h | h | h | h
    · exact absurd heligible (by simp [h])
    · exact absurd hroom (by simp [h])
    · exact h hpower
    · simp [hnone] at h
  exact ⟨_, congrArg Host.Outcome.next (if_neg hnot), rfl, (State.rd_wr_same _ _ _).trans (by decide), (OnlyWords.refl _ _).wr _ (by simp)⟩

theorem cellcal_takes (heligible : s.eligible c = true) (hroom : s.calRoom (tileOf c) = true) (hpower : s.pstate = 0) (hnone : s.fullcal = none) :
    ∃ t, exec (.cellcal c full) s = .next t ∧ (t.cell c).mode = 2 ∧ (t.coo c).calH = s.hcode c ∧
      (∃ x, x ∈ t.calCells ∧ x.cell = c.val ∧ x.full = full ∧ x.commanded = true ∧ x.tinker = false ∧ x.prev = (s.cell c).mode) ∧
      t.rd Reg.ASY_CMDRES = 0#32 ∧ t.asyLast = 16 + c.val ∧ t.bit Reg.ASY_STAT 31 = true := by
  have hpass : (s.eligible c && s.calRoom (tileOf c) && s.pstate == 0 && s.fullcal.isNone) = true := by
    simp [heligible, hroom, hpower, hnone]
  obtain ⟨hmode, hheld, hmem, hlast, -, hres, hbusy⟩ := (s.asyBegin (16 + c)).takeProbe_shows
    { CalRec.new c false full (s.cell c).band (s.cell c).mode with commanded := true } (s.cell c).band c.isLt rfl
  refine ⟨_, congrArg Host.Outcome.next (if_pos hpass), hmode, hheld.trans ?_, ⟨_, hmem, rfl, rfl, rfl, rfl, rfl⟩,
    hres.trans (State.rd_wr_same _ _ _), hlast, hbusy⟩
  exact congrArg (fld · 16 14) (State.rd_wr_ne _ _ (by unfold cooWord Reg.COO_CELL_W0 Reg.ASY_CMDRES; omega))

end

/-! ## SAVE (R225) -/

/-- A write that a filter of the store does not see. -/
theorem Store.filter_set {α : Type} [DecidableEq α] (d : α) (m : List (Nat × α)) {a : Nat} (v : α) {f : Nat × α → Bool}
    (h : ∀ w, f (a, w) = false) : (Store.set d m a v).filter f = m.filter f := by
  have hdel : (Store.del m a).filter f = m.filter f := by
    unfold Store.del
    rw [List.filter_filter]
    refine List.filter_congr fun p _ => ?_
    by_cases hp : p.1 = a
    · have hf : f p = false := by
        subst hp
        exact h p.2
      simp [hf]
    · simp [hp]
  have hins : ∀ n : List (Nat × α), (Store.ins n a v).filter f = n.filter f := fun n => by
    induction n with
    | nil => simp [Store.ins, h]
    | cons p n ih =>
      unfold Store.ins
      split
      · exact List.filter_cons_of_neg (by simp [h])
      · simp only [List.filter_cons, ih]
  unfold Store.set
  split
  · exact hdel
  · exact (hins _).trans hdel

/-- The copy that a save takes does not depend on ASY_CMDRES, nor on which command waits for its result. -/
theorem State.bankCopy_asyBegin (s : State) (k : Nat) : (s.asyBegin k).bankCopy = s.bankCopy := by
  have hage : ∀ c, (s.asyBegin k).qualAge c = s.qualAge c := fun c => by
    have hword : (s.asyBegin k).rdf (Reg.ASY_QUAL_W1 c) 0 16 = s.rdf (Reg.ASY_QUAL_W1 c) 0 16 :=
      State.rdf_wr_ne _ _ 0 16 (by unfold Reg.ASY_QUAL_W1 Reg.ASY_CMDRES; omega)
    unfold State.qualAge
    rw [hword]
    rfl
  have hwords : ((s.asyBegin k).words.filter fun p => bankAddr p.1 && decide (p.1 < 0x2000000)) =
      s.words.filter fun p => bankAddr p.1 && decide (p.1 < 0x2000000) := 
    Store.filter_set (α := Word) (a := Reg.ASY_CMDRES) (f := fun p => bankAddr p.1 && decide (p.1 < 0x2000000)) (resetWord Reg.ASY_CMDRES)
      s.words 0#32 fun _ => rfl
  unfold State.bankCopy
  rw [hwords, funext hage]
  rfl

theorem save_refused {s : State} (h : s.saving.isSome = true ∨ s.saveGen = 0xFFFFFFFF) : ∃ t, exec .save s = .next t ∧
    t.rd Reg.ASY_CMDRES = pack [(31, 1, 1), (8, 4, 4)] ∧ t.bit Reg.ASY_ERRSTAT 0 = true ∧
    WordsAndEvents [Reg.ASY_CMDRES, Reg.ASY_ERRSTAT] { s with asyLast := 0 } t := by
  have hbarred : (s.saving.isSome || s.saveGen == 0xFFFFFFFF) = true := by simpa using h
  have hexec : execSave s = .next s.asyRefuse := by
    unfold execSave
    rw [if_pos hbarred]
  exact ⟨_, hexec, s.asyRefuse_shows⟩

/-- A save begun: its copy, its instant and whether a NOR command goes before it. -/
theorem State.startSave_shows (s : State) : (∃ r, s.startSave.saving = some r ∧ r.copy = s.bankCopy ∧ r.time = wd (secOf s.ns) ∧
    r.behind = s.flash.isSome) ∧ s.startSave.saveUntil = s.ns + 20000000 ∧ s.startSave.bit Reg.ASY_STAT 31 = true :=
  ⟨⟨_, rfl, rfl, rfl, rfl⟩, rfl, State.asyStat_busy _ (.inr (.inr rfl))⟩

theorem State.rd_startSave (s : State) {a : Nat} (h : a ≠ Reg.ASY_STAT) : s.startSave.rd a = s.rd a :=
  (State.asyStat_onlyWords _).rd (by simpa using h)

theorem save_begins {s : State} (hfree : s.saving = none) (hgen : s.saveGen ≠ 0xFFFFFFFF) : ∃ t, exec .save s = .next t ∧
    (∃ r, t.saving = some r ∧ r.copy = s.bankCopy ∧ r.time = wd (secOf s.ns) ∧ r.behind = s.flash.isSome) ∧
    t.saveUntil = s.ns + 20000000 ∧ t.rd Reg.ASY_CMDRES = 0#32 ∧ t.asyLast = 3 ∧ t.bit Reg.ASY_STAT 31 = true := by
  have hpass : ¬ (s.saving.isSome || s.saveGen == 0xFFFFFFFF) = true := by simp [hfree, hgen]
  have hexec : execSave s = .next (s.asyBegin 3).startSave := by
    unfold execSave
    rw [if_neg hpass]
  obtain ⟨⟨r, hr, hcopy, htime, hbehind⟩, huntil, hbusy⟩ := (s.asyBegin 3).startSave_shows
  exact ⟨_, hexec, ⟨r, hr, hcopy.trans (s.bankCopy_asyBegin 3), htime, hbehind⟩, huntil,
    (State.rd_startSave _ (by decide)).trans (State.rd_wr_same _ _ _), rfl, hbusy⟩

/-! ## CAL_ABORT (R214, R221) -/

/-- With the source off, the end of the last measurement leaves only the status words. -/
theorem State.afterCal_dark {s : State} (h : s.calEn = false) : s.afterCal = s.asyStat.tnkStat := by
  unfold State.afterCal
  rw [h]
  rfl

/-- The couplers closed, no full calibration, and the source off. -/
def State.endLight (s : State) : State := State.calSource { s with couplers := [], fullcal := none } false false

theorem State.endLight_shows (s : State) : s.endLight.fullcal = none ∧ s.endLight.calEn = false ∧ s.endLight.couplers = [] := by
  obtain ⟨settled, hsource⟩ := State.calSource_kept { s with couplers := [], fullcal := none } CalStatus false false
  exact ⟨hsource.get State.fullcal, hsource.get State.calEn, hsource.get State.couplers⟩

theorem State.stopFull_shows (s : State) : (s.stopFull true).fullcal = none ∧ (s.stopFull true).bit Reg.LMP_CTRL 8 = false ∧
    (s.stopFull true).calEn = false ∧ (s.stopFull true).couplers = [] := by
  obtain ⟨hended, hdark, hclosed⟩ := s.releaseCal.endLight_shows
  have hstop : s.stopFull true = ((s.releaseCal.endLight.wrBit Reg.LMP_CTRL 8 false).afterCal).lampStat := rfl
  generalize s.releaseCal.endLight = u at hended hdark hclosed hstop
  rw [hstop, State.afterCal_dark (s := u.wrBit Reg.LMP_CTRL 8 false) hdark]
  refine ⟨hended, ?_, hdark, hclosed⟩
  refine (congrArg (wbit · 8) ((State.rd_lampStat _ (by decide) (by decide) (by decide) (by decide)).trans ?_)).trans
    (u.bit_wrBit_same Reg.LMP_CTRL false (by omega))
  exact (State.rd_wr_ne _ _ (by decide)).trans ((State.asyStat_onlyWords _).rd (by decide))

/-- A command's result is a word alone, beside the command it answers. -/
theorem State.asyResult_kept (s : State) (status result : Nat) : (s.asyResult status result).fullcal = s.fullcal ∧
    (s.asyResult status result).calEn = s.calEn ∧ (s.asyResult status result).couplers = s.couplers ∧
    ∀ a, a ≠ Reg.ASY_CMDRES → (s.asyResult status result).rd a = s.rd a := ⟨rfl, rfl, rfl, fun _ h => State.rd_wr_ne _ _ h⟩

theorem calAbort_full {s : State} (h : s.fullcal.isSome = true) : ∃ t, exec .calAbort s = .next t ∧ t.fullcal = none ∧
    t.bit Reg.LMP_CTRL 8 = false ∧ t.calEn = false ∧ t.couplers = [] ∧ t.rd Reg.ASY_CMDRES = pack [(31, 1, 1)] := by
  have hexec : execCalAbort s = .next ((s.stopFull true).asyResult 0 0) := by
    unfold execCalAbort
    rw [if_pos h]
  obtain ⟨hended, hhold, hdark, hclosed⟩ := s.stopFull_shows
  obtain ⟨hfull, hen, hcouplers, hrd⟩ := (s.stopFull true).asyResult_kept 0 0
  exact ⟨_, hexec, hfull.trans hended, (congrArg (wbit · 8) (hrd _ (by decide))).trans hhold, hen.trans hdark, hcouplers.trans hclosed,
    (State.rd_wr_same _ _ _).trans (by decide)⟩

theorem calAbort_cells {s : State} (h : s.fullcal = none) : ∃ t, exec .calAbort s = .next t ∧ t.deferredCal = [] ∧
    (∀ x, x ∈ t.calCells → x.commanded = false) ∧ t.rd Reg.ASY_CMDRES = pack [(31, 1, 1)] := by
  obtain ⟨cs, ys, rs, hleft, hgone⟩ := s.leaveCals_kept (s.calCells.filter fun (x : CalRec) => x.commanded)
  have hcells := hleft.get State.calCells
  have hexec : execCalAbort s = .next (({ (s.calCells.filter fun (x : CalRec) => x.commanded).foldl State.leaveCal s with
      deferredCal := [] }.afterCal).asyResult 0 0) := by
    unfold execCalAbort
    rw [if_neg (by simp [h])]
  generalize (s.calCells.filter fun (x : CalRec) => x.commanded).foldl State.leaveCal s = u at hcells hexec
  obtain ⟨en, band, settled, ps, hafter⟩ := ({ u with deferredCal := [] } : State).afterCal_kept
  refine ⟨_, hexec, hafter.get State.deferredCal, fun x hx => ?_, (State.rd_wr_same _ _ _).trans (by decide)⟩
  have hmem : x ∈ u.calCells := (hafter.get State.calCells) ▸ hx
  rw [hcells] at hmem
  obtain ⟨hwas, hnot⟩ := hgone x hmem
  by_contra hcommanded
  exact hnot x (List.mem_filter.2 ⟨hwas, by simpa using hcommanded⟩) rfl

/-! ## The couplers (R216, R220) -/

theorem calsrcSettled_opens {s : State} (hen : s.calEn = true) (hsettled : s.calSettled = false) :
    ∃ t, exec .calsrcSettled s = .next t ∧ t.calSettled = true ∧
      t.couplers = (if s.fullcal.isSome then (List.range 256).filterMap s.pairCoupler
        else (s.calCells.filter fun x => !x.tinker && !x.retried).filterMap fun x => s.probeInput x.cell) ∧
      (∀ f, s.fullcal = some f → t.fullcal = some { f with settledAt := some s.ns }) ∧
      t = { s with calSettled := true, couplers := t.couplers, fullcal := t.fullcal } := by
  have hdue : (s.calEn && !s.calSettled) = true := by simp [hen, hsettled]
  have hexec : execCalsrcSettled s = .next { s.openCouplers with calSettled := true, fullcal := s.fullcal.map fun (f : FullCal) =>
      { f with settledAt := some s.ns } } := by
    unfold execCalsrcSettled
    rw [if_pos hdue]
  exact ⟨_, hexec, rfl, rfl, fun f hf => by rw [hf]; rfl, rfl⟩

theorem calsrcSettled_not_due {s : State} (h : s.calEn = false ∨ s.calSettled = true) : exec .calsrcSettled s = .next s := by
  have hnot : ¬ (s.calEn && !s.calSettled) = true := by
    rcases h with h | h
    · simp [h]
    · simp [h]
  change execCalsrcSettled s = _
  unfold execCalsrcSettled
  rw [if_neg hnot]

/-! ## The obligation -/

/-- Settles O41: each command by the branch it takes, over the lemmas that say what taking and releasing cells keep. -/
theorem assayerOperations : Obligations.AssayerOperations := by
  unfold Obligations.AssayerOperations
  exact ⟨fun s => ⟨fullcal_refused, fullcal_begins⟩, fun s => ⟨cellcal_defers, cellcal_takes, save_refused, save_begins, calAbort_full,
    calAbort_cells, calsrcSettled_opens, calsrcSettled_not_due⟩⟩

end Sys2Proof.Machine
end


section
/-! PROOF. O44: background visits, rest errors, AUTOSAVE, and the Tinker's writes. -/
namespace Sys2Proof.Machine

/-! ## Background work (R221, R227, R231) -/

section
variable {s : State} {c : Fin 4864}

theorem backgroundVisit_not_due (h : s.background = false ∨ s.nextVisit ≠ some c.val) : exec (.backgroundVisit c) s = .next s := by
  have hnot : ¬ (s.background && (s.bit Reg.ASY_CTRL 0 || (s.deferredCal.find? (·.1 == c.val)).isSome) && s.nextVisit == some c.val) = true := by
    rcases h with h | h
    · simp [h]
    · simp [h]
  change execBackgroundVisit c s = _
  unfold execBackgroundVisit
  dsimp only
  rw [if_neg hnot]

theorem restErrorMeasurement_not_due (h : s.background = false ∨ s.sinceStamp (4864 + c) 86400 = false ∨ s.calRoom (tileOf c) = false) :
    exec (.restErrorMeasurement c) s = .next s := by
  have hnot : ¬ (s.eligible c && s.calRoom (tileOf c) && s.background && s.sinceStamp (4864 + c) 86400) = true := by
    rcases h with h | h | h
    · simp [h]
    · simp [h]
    · simp [h]
  change execRestErrorMeasurement c s = _
  unfold execRestErrorMeasurement
  dsimp only
  rw [if_neg hnot]

theorem mem_map_cell {x : CalRec} {xs : List CalRec} {n : Nat} (hmem : x ∈ xs) (hcell : x.cell = n) : (xs.map (·.cell)).contains n = true :=
  List.contains_iff_mem.2 (List.mem_map.2 ⟨x, hmem, hcell⟩)

theorem restErrorMeasurement_takes (heligible : s.eligible c = true) (hroom : s.calRoom (tileOf c) = true) (hrun : s.background = true)
    (hdue : s.sinceStamp (4864 + c) 86400 = true) : ∃ t, exec (.restErrorMeasurement c) s = .next t ∧ (t.cell c).mode = 2 ∧
      (t.coo c).calH = s.hcode c ∧ t.bit Reg.TNK_STAT 31 = true ∧ (t.calCells.map (·.cell)).contains c.val = true := by
  have hexec : execRestErrorMeasurement c s =
      .next (((s.stampNow (4864 + c)).takeCal (CalRec.new c true false (s.cell c).band 1)).tnkStat) := by
    unfold execRestErrorMeasurement
    dsimp only
    rw [if_pos (by simp [heligible, hroom, hrun, hdue])]
  obtain ⟨cs, xs, htaken⟩ := (s.stampNow (4864 + c)).takeCal_kept (CalRec.new c true false (s.cell c).band 1)
  have hcells := htaken.get State.calCells
  have hmode := congrArg CellRec.mode ((s.stampNow (4864 + c)).cell_takeCal (CalRec.new c true false (s.cell c).band 1))
  have hheld := (s.stampNow (4864 + c)).calH_takeCal (CalRec.new c true false (s.cell c).band 1) c.isLt
  generalize (s.stampNow (4864 + c)).takeCal (CalRec.new c true false (s.cell c).band 1) = u at hexec hcells hmode hheld
  have hmem : { CalRec.new c true false (s.cell c).band 1 with seed := (s.stampNow (4864 + c)).fresh } ∈ u.calCells := by
    rw [hcells]
    exact List.mem_append_right _ (List.mem_singleton.2 rfl)
  refine ⟨_, hexec, hmode, hheld, (State.bit_wrBit_same _ _ _ (by omega)).trans ?_, mem_map_cell hmem rfl⟩
  rw [Bool.or_eq_true]
  exact .inl (List.any_eq_true.2 ⟨_, hmem, rfl⟩)

theorem backgroundVisit_takes (hrun : s.background = true) (htrim : s.bit Reg.ASY_CTRL 0 = true) (hdue : s.nextVisit = some c.val) :
    ∃ t, exec (.backgroundVisit c) s = .next t ∧ (t.cell c).mode = 2 ∧ t.bgNext = (c.val + 1) % 4864 ∧
      (t.calCells.map (·.cell)).contains c.val = true ∧ t.bit Reg.ASY_STAT 31 = true := by
  have hpass : (s.background && (s.bit Reg.ASY_CTRL 0 || (s.deferredCal.find? (·.1 == c.val)).isSome) && s.nextVisit == some c.val) = true := by
    simp [hrun, htrim, hdue]
  change ∃ t, execBackgroundVisit c s = .next t ∧ _
  unfold execBackgroundVisit
  extract_lets n cmd band last full s1
  obtain ⟨hmode, -, hmem, -, hnext, -, hbusy⟩ := State.takeProbe_shows
    ({ s with deferredCal := s.deferredCal.filter (·.1 != n), bgNext := (n + 1) % 4864 }.stampNow n) (CalRec.new c false full band 1) band c.isLt rfl
  exact ⟨_, if_pos hpass, hmode, hnext, mem_map_cell hmem rfl, hbusy⟩

/-! ## Rest errors read (R227) -/

theorem restErrorMeasured_releases {x : CalRec} (e : BitVec 16) (honly : s.calCells = [x]) (hcell : x.cell = c.val) (htinker : x.tinker = true)
    (hoff : s.bit Reg.TNK_CTRL 0 = false) (hmode : (s.cell c).mode = 2) : ∃ t, exec (.restErrorMeasured c (some e)) s = .next t ∧
      t.calCells = [] ∧ (t.cell c).mode = (if s.frozen (tileOf c) && x.prev != 6 then 3 else x.prev) ∧
      t.rdf (Reg.TNK_CELL_W1 c) 16 16 = e.toNat := by
  have hlow : Reg.TNK_CELL_W1 c < 0x100000 := by unfold Reg.TNK_CELL_W1; omega
  have hword : Reg.TNK_CELL_W1 c ≠ Reg.TNK_CTRL ∧ Reg.TNK_CELL_W1 c ≠ Reg.TNK_STAT := by
    unfold Reg.TNK_CELL_W1 Reg.TNK_CTRL Reg.TNK_STAT
    omega
  have hallowed : (s.recordRest c (some e)).trimAllowed c true = false := by
    have hctrl : (s.recordRest c (some e)).bit Reg.TNK_CTRL 0 = false := (s.bit_wr_ne _ 0 (Ne.symm hword.1)).trans hoff
    unfold State.trimAllowed
    dsimp only
    rw [hctrl]
    rfl
  have hfind : s.calCells.find? (·.cell == c.val) = some x := by
    rw [honly]
    exact List.find?_cons_of_pos (by simp [hcell])
  have hexec : execRestErrorMeasured c (some e) s = .next (((s.recordRest c (some e)).leaveCal x).afterCal) := by
    unfold execRestErrorMeasured
    dsimp only
    rw [hfind]
    dsimp only
    rw [if_pos htinker, hallowed]
    rfl
  have hfrozen : (s.recordRest c (some e)).frozen (tileOf c) = s.frozen (tileOf c) :=
    State.frozen_congr (s.rd_wr_ne _ (by unfold Reg.COO_CTRL; omega)) (s.rd_wr_ne _ (by unfold Reg.COO_STAT; omega))
      (s.rd_wr_ne _ (by unfold Reg.TNK_CELL_W1 Reg.PWR_STAT; omega))
  obtain ⟨hgone, hback, -, hkept, -⟩ := (s.recordRest c (some e)).release_shows x false 0 0 0 (by omega) honly (by rw [hcell]; exact hmode)
  rw [hcell, hfrozen] at hback
  refine ⟨_, hexec, hgone, hback, ?_⟩
  refine (congrArg (fld · 16 16) (hkept _ (by omega) ?_ hword.2 ?_)).trans ((s.rdf_wrf_same _ _ (by omega)).trans (Nat.mod_eq_of_lt e.isLt))
  · unfold Reg.TNK_CELL_W1 Reg.ASY_STAT; omega
  · unfold Reg.TNK_CELL_W1 Reg.ASY_CMDRES; omega

end

/-! ## AUTOSAVE (R225) -/

section
variable {s : State}

theorem autosave_not_due (h : s.sinceSave.length < 256 ∨ s.saving.isSome = true ∨ s.bit Reg.ASY_CTRL 3 = false ∨ secOf s.ns < s.lastSave + 3600) :
    exec .autosave s = .next s := by
  have hnot : ¬ (s.bit Reg.ASY_CTRL 3 && s.saving.isNone && decide (256 ≤ s.sinceSave.length) && decide (s.lastSave + 3600 ≤ secOf s.ns)) = true := by
    simp only [Bool.and_eq_true, decide_eq_true_eq, Option.isNone_iff_eq_none, not_and]
    rintro ⟨⟨hauto, hfree⟩, hchanged⟩ hhour
    rcases h with h | h | h | h
    · omega
    · simp [hfree] at h
    · simp [hauto] at h
    · omega
  exact congrArg Host.Outcome.next (if_neg hnot)

theorem autosave_due (hauto : s.bit Reg.ASY_CTRL 3 = true) (hfree : s.saving = none) (hchanged : 256 ≤ s.sinceSave.length)
    (hhour : s.lastSave + 3600 ≤ secOf s.ns) : exec .autosave s = .next s.autosave :=
  congrArg Host.Outcome.next (if_pos (by simp [hauto, hfree, hchanged, hhour]))

theorem State.autosave_starts (h : s.saveGen ≠ 0xFFFFFFFF) : (∃ r, s.autosave.saving = some r ∧ r.copy = s.bankCopy) ∧
    s.autosave.saveUntil = s.ns + 20000000 := by
  obtain ⟨⟨r, hr, hcopy, -⟩, huntil, -⟩ := s.startSave_shows
  unfold State.autosave
  rw [if_neg h]
  exact ⟨⟨r, hr, hcopy⟩, huntil⟩

/-- Without a generation number left, AUTOSAVE only reports it. -/
theorem State.autosave_exhausted (h : s.saveGen = 0xFFFFFFFF) : s.autosave.bit Reg.ASY_ERRSTAT 0 = true ∧
    WordsAndEvents [Reg.ASY_ERRSTAT] s s.autosave := by
  unfold State.autosave
  rw [if_pos h]
  exact ⟨State.err_bit _ (by omega) (by decide), State.err_events (.refl _ s) 0 (by simp)⟩

end

/-! ## A write operation counted (R229, R230) -/

theorem tnkCell_low {c : Nat} (h : c < 4864) : Reg.TNK_CELL_W0 c < 0x100000 := by
  unfold Reg.TNK_CELL_W0
  omega

theorem tnkCell_apart (c : Nat) : Reg.TNK_CELL_W0 c ≠ Reg.TNK_STAT ∧ Reg.TNK_CELL_W0 c ≠ Reg.TNK_CNT ∧
    Reg.TNK_CELL_W0 c ≠ Reg.TNK_ERRSTAT := by
  unfold Reg.TNK_CELL_W0 Reg.TNK_STAT Reg.TNK_CNT Reg.TNK_ERRSTAT
  omega

/-- A flag of the cell's word raised, a cell counted, and the event: the number of write operations stays. -/
theorem State.wearFlag_kept (s : State) {c a e i : Nat} (lo j v : Nat) (hc : c < 4864) (hi : 15 ≤ i) (ha : Reg.TNK_CELL_W0 c ≠ a)
    (he : Reg.TNK_CELL_W0 c ≠ e) : let t := (((s.wrBit (Reg.TNK_CELL_W0 c) i true).wrf a lo 13 v).err e j)
    t.rdf (Reg.TNK_CELL_W0 c) 0 15 = s.rdf (Reg.TNK_CELL_W0 c) 0 15 ∧ t.tink = s.tink := by
  have hkept : EventsBut (fun b => b = Reg.TNK_CELL_W0 c ∨ b = a ∨ b = e) s
      (((s.wrBit (Reg.TNK_CELL_W0 c) i true).wrf a lo 13 v).err e j) :=
    (((EventsBut.refl _ s).wrBit i true (.inl rfl)).wrf lo 13 v (.inr (.inl rfl))).err j (.inr (.inr rfl))
  refine ⟨?_, hkept.get State.tink⟩
  calc (((s.wrBit (Reg.TNK_CELL_W0 c) i true).wrf a lo 13 v).err e j).rdf (Reg.TNK_CELL_W0 c) 0 15
      = ((s.wrBit (Reg.TNK_CELL_W0 c) i true).wrf a lo 13 v).rdf (Reg.TNK_CELL_W0 c) 0 15 :=
        congrArg (fld · 0 15) (State.rd_err_ne _ j he (isRingWord_low (by have := tnkCell_low hc; omega)))
    _ = (s.wrBit (Reg.TNK_CELL_W0 c) i true).rdf (Reg.TNK_CELL_W0 c) 0 15 := State.rdf_wr_ne _ _ 0 15 ha
    _ = s.rdf (Reg.TNK_CELL_W0 c) 0 15 := State.rdf_wrf_ne s _ _ (.inl (by omega))

theorem State.countWrite_shows (s : State) {c : Nat} (hc : c < 4864) :
    (s.countWrite c).rdf (Reg.TNK_CELL_W0 c) 0 15 = (s.rdf (Reg.TNK_CELL_W0 c) 0 15 + 1) % 2 ^ 15 ∧ (s.countWrite c).tink = s.tink := by
  obtain ⟨hstat, hcnt, herr⟩ := tnkCell_apart c
  unfold State.countWrite
  extract_lets a n s1 warn s2
  have hfirst : s2.rdf a 0 15 = n % 2 ^ 15 ∧ s2.tink = s.tink := by
    have hcounted : s1.rdf a 0 15 = n % 2 ^ 15 := s.rdf_wrf_same a n (by omega)
    by_cases hwarn : warn = true
    · have hs2 : s2 = ((s1.wrBit a 30 true).wrf Reg.TNK_CNT 0 13 (s1.rdf Reg.TNK_CNT 0 13 + 1)).err Reg.TNK_ERRSTAT 1 := if_pos hwarn
      obtain ⟨hnumber, htink⟩ := s1.wearFlag_kept (i := 30) 0 1 (s1.rdf Reg.TNK_CNT 0 13 + 1) hc (by omega) hcnt herr
      rw [hs2]
      exact ⟨hnumber.trans hcounted, htink⟩
    · have hs2 : s2 = s1 := if_neg hwarn
      rw [hs2]
      exact ⟨hcounted, rfl⟩
  obtain ⟨hnumber, htink⟩ := hfirst
  split
  · obtain ⟨hnumber', htink'⟩ := s2.wearFlag_kept (i := 31) 16 2 (s2.rdf Reg.TNK_STAT 16 13 + 1) hc (by omega) hstat herr
    exact ⟨hnumber'.trans hnumber, htink'.trans htink⟩
  · exact ⟨hnumber, htink⟩

section
variable {s : State} (c : Fin 4864)

theorem tinkerWriteOperation_not_allowed (hnot : s.trimAllowed c true = false) (hnone : s.tink = none) :
    exec (.tinkerWriteOperation c) s = .next s := by
  change execTinkerWriteOperation c s = _
  unfold execTinkerWriteOperation
  rw [hnone]
  exact if_neg (by simp [hnot])

theorem tinkerWriteOperation_starts (hallowed : s.trimAllowed c true = true) (hnone : s.tink = none)
    (hmine : (s.calCells.any fun x => x.cell == c.val && x.tinker) = true) : ∃ t, exec (.tinkerWriteOperation c) s = .next t ∧
      t.rdf (Reg.TNK_CELL_W0 c) 0 15 = (s.rdf (Reg.TNK_CELL_W0 c) 0 15 + 1) % 2 ^ 15 ∧
      t.tink = some ⟨c.val, 1, 0, false, true⟩ ∧ t.bit Reg.TNK_STAT 31 = true := by
  have hexec : execTinkerWriteOperation c s =
      .next ((({ s with tink := some ⟨c.val, 1, 0, false, true⟩ }.stampNow (9728 + c)).countWrite c).tnkStat) := by
    unfold execTinkerWriteOperation
    rw [hnone]
    exact if_pos (by simp [hallowed, hmine])
  obtain ⟨hnumber, htink⟩ := ({ s with tink := some ⟨c.val, 1, 0, false, true⟩ }.stampNow (9728 + c)).countWrite_shows c.isLt
  obtain ⟨hstat, -⟩ := tnkCell_apart c
  refine ⟨_, hexec, (State.rdf_wr_ne _ _ 0 15 hstat).trans hnumber, htink, (State.bit_wrBit_same _ _ _ (by omega)).trans ?_⟩
  rw [htink]
  exact Bool.or_true _

end

/-! ## The wear log, pulses, and STUCK cleared (R229) -/

section
variable {s : State}

theorem wearLogProgrammed_logs (k : TinkOp) (hop : s.tink = some k) (hactive : k.active = true) (hlogged : k.logged = false) :
    ∃ t, exec .wearLogProgrammed s = .next t ∧ t.wearLog = s.wearLog ++ [(k.cell, s.rd (Reg.TNK_CELL_W0 k.cell) &&& 0xA0007FFF#32)] ∧
      t = { s with tink := some { k with logged := true }, wearLog := t.wearLog } := by
  have hexec : execWearLogProgrammed s = .next { s.logWear k.cell with tink := some { k with logged := true } } := by
    unfold execWearLogProgrammed
    rw [hop]
    exact congrArg Host.Outcome.next (if_pos (by simp [hactive, hlogged]))
  exact ⟨_, hexec, rfl, rfl⟩

theorem wearLogProgrammed_again (k : TinkOp) (hop : s.tink = some k) (hlogged : k.logged = true) :
    exec .wearLogProgrammed s = .next s := by
  change execWearLogProgrammed s = _
  unfold execWearLogProgrammed
  rw [hop]
  exact congrArg Host.Outcome.next (if_neg (by simp [hlogged]))

theorem trimPulseRemeasure_idle (c : Fin 4864) (e : BitVec 16) (hnone : s.tink = none) : exec (.trimPulseRemeasure c e) s = .next s := by
  change execTrimPulseRemeasure c e s = _
  unfold execTrimPulseRemeasure
  rw [hnone]

/-- A pulse that leaves the cell out of range, and is not the last one. -/
theorem trimPulseRemeasure_counts (c : Fin 4864) (e : BitVec 16) (k : TinkOp) (hop : s.tink = some k) (hcell : k.cell = c.val)
    (hactive : k.active = true) (hlogged : k.logged = true) (hout : s.trimThr < 4 * e.toInt.natAbs) (hpulses : k.pulses < 15) :
    ∃ t, exec (.trimPulseRemeasure c e) s = .next t ∧ t.tink = some { k with pulses := k.pulses + 1 } ∧
      t.rdf (Reg.TNK_CELL_W1 c) 16 16 = e.toNat ∧ OnlyWords [Reg.TNK_CELL_W1 c] { s with tink := t.tink, stamps := t.stamps } t := by
  have hexec : execTrimPulseRemeasure c e s =
      .next { s.recordRest c (some e) with tink := some { k with pulses := k.pulses + 1 } } := by
    unfold execTrimPulseRemeasure
    rw [hop]
    dsimp only
    rw [if_pos ⟨hcell, hactive, hlogged⟩, if_neg (by omega), ← hcell]
  refine ⟨_, hexec, rfl, (s.rdf_wrf_same _ _ (by omega)).trans (Nat.mod_eq_of_lt e.isLt), ?_⟩
  exact OnlyWords.wrf (OnlyWords.refl [Reg.TNK_CELL_W1 c] { s with tink := some { k with pulses := k.pulses + 1 }, stamps := _ }) 16 16 e.toNat (by simp)

theorem stuckClear_counts_out (v : Word) (hset : wbit v 31 = true) (hc : fld v 0 13 < 4864)
    (hstuck : s.bit (Reg.TNK_CELL_W0 (fld v 0 13)) 29 = true) : ∃ t, exec (.stuckClear v) s = .next t ∧
      t.bit (Reg.TNK_CELL_W0 (fld v 0 13)) 29 = false ∧ t.rdf Reg.TNK_CNT 16 13 = s.rdf Reg.TNK_CNT 16 13 - 1 ∧
      (∃ w, t.wearLog = s.wearLog ++ [(fld v 0 13, w)] ∧ wbit w 29 = false) ∧
      OnlyWords [Reg.TNK_CELL_W0 (fld v 0 13), Reg.TNK_CNT] { s with wearLog := t.wearLog } t := by
  obtain ⟨-, hcnt, -⟩ := tnkCell_apart (fld v 0 13)
  have hexec : execStuckClear v s = .next (((s.wrBit (Reg.TNK_CELL_W0 (fld v 0 13)) 29 false).logWear (fld v 0 13)).wrf Reg.TNK_CNT 16 13
      (s.rdf Reg.TNK_CNT 16 13 - 1)) := by
    unfold execStuckClear State.clearStuck
    dsimp only
    rw [if_pos (by simp [hset, hc, hstuck])]
  have hclear : (s.wrBit (Reg.TNK_CELL_W0 (fld v 0 13)) 29 false).bit (Reg.TNK_CELL_W0 (fld v 0 13)) 29 = false :=
    s.bit_wrBit_same _ _ (by omega)
  have hcount : s.rdf Reg.TNK_CNT 16 13 < 2 ^ 13 := fld_lt _ 16 13
  refine ⟨_, hexec, (State.bit_wr_ne _ _ 29 hcnt).trans hclear, (State.rdf_wrf_same _ _ _ (by omega)).trans (Nat.mod_eq_of_lt (by omega)),
    ⟨_, rfl, ?_⟩, ?_⟩
  · exact (BitVec.getLsbD_and ..).trans ((congrArg (· && _) hclear).trans (Bool.false_and _))
  · exact (OnlyWords.wrBit (OnlyWords.refl _ { s with wearLog := _ }) 29 false (by simp)).wrf 16 13 _ (by simp)

end

/-! ## The obligation -/

/-- Settles O44: what is not due changes nothing; what is due by the lemmas on taking and releasing cells, and on the words of the Tinker. -/
theorem backgroundAndTinker : Obligations.BackgroundAndTinker := by
  unfold Obligations.BackgroundAndTinker
  refine ⟨fun s c => ⟨fun h => ⟨backgroundVisit_not_due (.inl h), restErrorMeasurement_not_due (.inl h)⟩,
    fun h => backgroundVisit_not_due (.inr h), fun h => restErrorMeasurement_not_due (.inr h), restErrorMeasurement_takes,
    backgroundVisit_takes, fun x e => restErrorMeasured_releases e, fun hauto hfree hchanged hhour => ⟨fun h => ?_, fun h => ?_⟩,
    autosave_not_due⟩, fun s => ⟨tinkerWriteOperation_not_allowed, tinkerWriteOperation_starts, wearLogProgrammed_logs,
    fun k hop _ => wearLogProgrammed_again k hop, trimPulseRemeasure_idle, trimPulseRemeasure_counts, stuckClear_counts_out⟩⟩
  · exact ⟨_, autosave_due hauto hfree hchanged hhour, State.autosave_starts h⟩
  · exact ⟨_, autosave_due hauto hfree hchanged hhour, State.autosave_exhausted h⟩

end Sys2Proof.Machine
end


section
/-! PROOF. O43: measurements, and the release of a measured cell. -/
namespace Sys2Proof.Machine

/-! ## What staging a measurement may change (R210, R215, Table 9-2) -/

/-- ASY_STAT, and words of the tile windows, of those of cell `c`'s tile none before its errors: not FREEZE, not its status. -/
def StageWord (c a : Nat) : Prop := a = Reg.ASY_STAT ∨ Reg.COO_STAT (tileOf c) < a

/-- The words of the cell's blocks lie beyond the tile's status. -/
theorem measuredWords_beyond (c : Nat) (band full lit : Bool) : ∀ p ∈ measuredWords c band full lit, Reg.COO_STAT (tileOf c) < p.1 := by
  have hcoo : ∀ w, Reg.COO_STAT (tileOf c) < cooWord c w := fun w => by unfold cooWord Reg.COO_STAT Reg.COO_CELL_W0; omega
  have hdrv : Reg.COO_STAT (tileOf c) < drvWord c 0 := by unfold drvWord Reg.COO_STAT Reg.DRV_CELL_W0; omega
  have hhdr : ∀ l b, Reg.COO_STAT (tileOf c) < Reg.COO_HDR_W0 (tileOf c) l b := fun l b => by unfold Reg.COO_STAT Reg.COO_HDR_W0; omega
  have hscale : ∀ l b, Reg.COO_STAT (tileOf c) < Reg.COO_HDR_W1 (tileOf c) l b := fun l b => by unfold Reg.COO_STAT Reg.COO_HDR_W1; omega
  have horigin : ∀ l b, Reg.COO_STAT (tileOf c) < Reg.COO_HDR_W2 (tileOf c) l b := fun l b => by unfold Reg.COO_STAT Reg.COO_HDR_W2; omega
  have hheater : ∀ l b, Reg.COO_STAT (tileOf c) < Reg.COO_HDR_W3 (tileOf c) l b := fun l b => by unfold Reg.COO_STAT Reg.COO_HDR_W3; omega
  have htable : ∀ l o k, Reg.COO_STAT (tileOf c) < Reg.COO_PTAB (tileOf c) l 0 + o + 4 * k := fun l o k => by
    unfold Reg.COO_STAT Reg.COO_PTAB
    omega
  unfold measuredWords
  cases full with
  | false => simp [hcoo, hhdr, horigin]
  | true =>
    dsimp only
    rw [if_neg (by decide)]
    simp only [List.forall_mem_append, List.forall_mem_cons, hcoo, hhdr, hdrv, hscale, true_and]
    cases lit with
    | false =>
      simp only [Bool.false_eq_true, if_false, List.forall_mem_append, List.forall_mem_cons, horigin, hheater]
      simp [htable]
    | true => simp [htable]

section
variable (s : State) (c : Nat) (band full : Bool)

theorem State.stageWord_kept {q : Nat × Word} (v : Word) (h : Reg.COO_STAT (tileOf c) < q.1) :
    EventsBut (StageWord c) s (s.stageWord c q v) := by
  have herr : Reg.COO_STAT (tileOf c) < Reg.COO_ERRSTAT (tileOf c) := by unfold Reg.COO_STAT Reg.COO_ERRSTAT; omega
  unfold State.stageWord
  extract_lets bad
  have hput := (EventsBut.refl (StageWord c) s).wrMask (if bad then q.2 &&& 0xFFFFFFE0#32 else q.2) v (.inr h)
  exact hput.when _ (hput.err 0 (.inr herr))

theorem State.markStaged_kept : EventsBut (StageWord c) s (s.markStaged c) := by
  have hcell : Reg.COO_STAT (tileOf c) < cooWord c 7 := by unfold cooWord Reg.COO_STAT Reg.COO_CELL_W0; omega
  have hdrv : Reg.COO_STAT (tileOf c) < drvWord c 1 := by unfold drvWord Reg.COO_STAT Reg.DRV_CELL_W0; omega
  exact (((EventsBut.refl _ s).wrBit _ _ (.inr hcell)).wrBit _ _ (.inr hdrv)).wrf _ _ _ (.inl rfl)

/-- Measured words staged: beside the words, only what a full calibration would undo. -/
theorem State.stageMeasured_kept (fs : List (Nat × Word)) : ∃ es ss f, EventsBut (StageWord c)
    { s with extOld := es, stamps := ss, fullcal := f } (s.stageMeasured c band full fs) := by
  have hbeyond := measuredWords_beyond c band full (s.litBeside c)
  unfold State.stageMeasured
  dsimp only
  generalize measuredWords c band full (s.litBeside c) = words at hbeyond
  induction fs generalizing s with
  | nil => exact ⟨_, _, _, s.markStaged_kept c⟩
  | cons p fs ih =>
    rw [List.foldl_cons]
    cases hq : words.find? fun (q : Nat × Word) => q.1 == tileAddr (tileOf c) p.1 with
    | none => exact ih s
    | some q =>
      obtain ⟨es, ss, f, hrest⟩ := ih { s.stageWord c q p.2 with
        fullcal := s.fullcal.map fun (f : FullCal) => if c < 256 then { f with undo := (q.1, s.rd q.1) :: f.undo } else f }
      exact ⟨es, ss, f, ((s.stageWord_kept c p.2 (hbeyond q (List.mem_of_find?_eq_some hq))).setFigures es ss f).trans hrest⟩

end

/-! ## A measurement's outcome recorded (R211, R217) -/

/-- What recording a measurement of cell `c` may change, beside what staging it may. -/
def RecordWord (c a : Nat) : Prop := StageWord c a ∨
  a ∈ [Reg.ASY_QUAL_W0 c, Reg.ASY_QUAL_W1 c, Reg.ASY_CALCNT, Reg.ASY_SKIPCNT, Reg.ASY_ERRSTAT]

/-- The figures of one that passed, and its age. -/
def State.putFigures (s : State) (c : Nat) (band : Bool) (m : Measured) : State :=
  ((s.wrf (Reg.ASY_QUAL_W0 c) (if band then 22 else 12) 10 (satN 10 m.ext)).wrf (Reg.ASY_QUAL_W1 c) (if band then 24 else 16) 8
    (satN 8 m.phase)).wrf (Reg.ASY_QUAL_W1 c) 0 16 0

section
variable (s : State) (c : Nat) (band full : Bool) (m : Measured)

/-- One that passed: result and figures, then its factors staged, and counted. -/
theorem State.recordMeasured_passed : ∃ es, s.recordMeasured c band full 1 m =
    (((({ s.qualResult c band 1 with extOld := es } : State).putFigures c band m).stageMeasured c band full m.factors).stampNow
      (14592 + c)).count Reg.ASY_CALCNT 0 32 1 := ⟨_, rfl⟩

theorem State.recordMeasured_failed : s.recordMeasured c band full 6 m = (s.qualResult c band 6).err Reg.ASY_ERRSTAT 2 := rfl

theorem State.recordMeasured_fault : s.recordMeasured c band full 8 m = s.qualResult c band 8 := rfl

theorem State.recordMeasured_skipped {res : Nat} (h1 : res ≠ 1) (h6 : res ≠ 6) (h8 : res ≠ 8) :
    s.recordMeasured c band full res m = ((s.qualResult c band res).count Reg.ASY_SKIPCNT 0 32 1).err Reg.ASY_ERRSTAT 1 := by
  unfold State.recordMeasured
  dsimp only
  split
  · exact absurd rfl h1
  · exact absurd rfl h6
  · exact absurd rfl h8
  · rfl

theorem State.qualResult_kept (res : Nat) : EventsBut (RecordWord c) s (s.qualResult c band res) :=
  (EventsBut.refl _ s).wrf _ _ _ (.inr (by simp))

theorem State.recordMeasured_kept (res : Nat) : ∃ es ss f, EventsBut (RecordWord c) { s with extOld := es, stamps := ss, fullcal := f }
    (s.recordMeasured c band full res m) := by
  by_cases h1 : res = 1
  · subst h1
    obtain ⟨es, hpassed⟩ := s.recordMeasured_passed c band full m
    have hfigures : EventsBut (RecordWord c) { s with extOld := es } (({ s.qualResult c band 1 with extOld := es } : State).putFigures c band m) :=
      ((((s.qualResult_kept c band 1).setFigures es s.stamps s.fullcal).wrf _ _ _ (.inr (by simp))).wrf _ _ _ (.inr (by simp))).wrf _ _ _
        (.inr (by simp))
    rw [hpassed]
    generalize ({ s.qualResult c band 1 with extOld := es } : State).putFigures c band m = u at hfigures
    obtain ⟨es', ss, f, hstaged⟩ := u.stageMeasured_kept c band full m.factors
    have hkept := (hfigures.setFigures es' ss f).trans (hstaged.mono fun _ => .inl)
    exact ⟨es', _, f, (hkept.setStamps _).count 0 32 1 (.inr (by simp))⟩
  · by_cases h6 : res = 6
    · subst h6
      exact ⟨_, _, _, (s.qualResult_kept c band 6).err _ (.inr (by simp))⟩
    · by_cases h8 : res = 8
      · subst h8
        rw [s.recordMeasured_fault c band full m]
        exact ⟨_, _, _, s.qualResult_kept c band 8⟩
      · rw [s.recordMeasured_skipped c band full m h1 h6 h8]
        exact ⟨_, _, _, ((s.qualResult_kept c band res).count _ _ _ (.inr (by simp))).err _ (.inr (by simp))⟩

/-- Staging leaves every word below the tile windows but ASY_STAT. -/
theorem not_stageWord {a : Nat} (h : a < 0x2000000) (hstat : a ≠ Reg.ASY_STAT) : ¬ StageWord c a := by
  unfold StageWord Reg.COO_STAT
  omega

theorem State.putFigures_shows : (s.putFigures c band m).rdf (Reg.ASY_QUAL_W0 c) (if band then 8 else 4) 4 =
      s.rdf (Reg.ASY_QUAL_W0 c) (if band then 8 else 4) 4 ∧
    (s.putFigures c band m).rdf (Reg.ASY_QUAL_W0 c) (if band then 22 else 12) 10 = min m.ext 1023 ∧
    (s.putFigures c band m).rdf (Reg.ASY_QUAL_W1 c) 0 16 = 0 := by
  have hapart : Reg.ASY_QUAL_W0 c ≠ Reg.ASY_QUAL_W1 c := by unfold Reg.ASY_QUAL_W0 Reg.ASY_QUAL_W1; omega
  have hword : (s.putFigures c band m).rd (Reg.ASY_QUAL_W0 c) =
      (s.wrf (Reg.ASY_QUAL_W0 c) (if band then 22 else 12) 10 (satN 10 m.ext)).rd (Reg.ASY_QUAL_W0 c) :=
    (State.rd_wr_ne _ _ hapart).trans (State.rd_wr_ne _ _ hapart)
  refine ⟨(congrArg (fld · _ 4) hword).trans (s.rdf_wrf_ne _ _ (by split <;> omega)), (congrArg (fld · _ 10) hword).trans ?_,
    State.rdf_wrf_same _ _ 0 (by omega)⟩
  exact (s.rdf_wrf_same _ _ (by split <;> omega)).trans (Nat.mod_eq_of_lt (by unfold satN; omega))

/-- The quality record of one that passed is what its figures make it. -/
theorem State.recordMeasured_quality (hc : c < 4864) : ∃ es, ∀ a, a = Reg.ASY_QUAL_W0 c ∨ a = Reg.ASY_QUAL_W1 c →
    (s.recordMeasured c band full 1 m).rd a = (({ s.qualResult c band 1 with extOld := es } : State).putFigures c band m).rd a := by
  obtain ⟨es, hpassed⟩ := s.recordMeasured_passed c band full m
  refine ⟨es, fun a ha => ?_⟩
  have hplace : a < 0x1800000 ∧ a ≠ Reg.ASY_CALCNT ∧ a ≠ Reg.ASY_STAT := by
    unfold Reg.ASY_QUAL_W0 Reg.ASY_QUAL_W1 at ha
    unfold Reg.ASY_CALCNT Reg.ASY_STAT
    omega
  obtain ⟨hlow, hcal, hstat⟩ := hplace
  rw [hpassed]
  generalize ({ s.qualResult c band 1 with extOld := es } : State).putFigures c band m = u
  obtain ⟨es', ss, f, hstaged⟩ := u.stageMeasured_kept c band full m.factors
  have hsame : (u.stageMeasured c band full m.factors).rd a = u.rd a :=
    hstaged.rd a (not_stageWord c (by omega) hstat) (isRingWord_low hlow)
  generalize u.stageMeasured c band full m.factors = v at hsame
  exact (State.rd_wr_ne _ _ hcal).trans hsame

/-- The result field, and with it the event or the figures of that result. -/
theorem State.recordMeasured_shows {res : Nat} (hc : c < 4864) (hres : res < 16) : let t := s.recordMeasured c band full res m
    t.rdf (Reg.ASY_QUAL_W0 c) (if band then 8 else 4) 4 = res ∧
    (res = 1 → t.rdf (Reg.ASY_QUAL_W0 c) (if band then 22 else 12) 10 = min m.ext 1023 ∧ t.rdf (Reg.ASY_QUAL_W1 c) 0 16 = 0) ∧
    (res = 6 → t.bit Reg.ASY_ERRSTAT 2 = true) ∧ (res ≠ 1 → res ≠ 6 → res ≠ 8 → t.bit Reg.ASY_ERRSTAT 1 = true) := by
  have hring : isRingWord (Reg.ASY_QUAL_W0 c) = false := isRingWord_low (by unfold Reg.ASY_QUAL_W0; omega)
  have hring1 : isRingWord (Reg.ASY_QUAL_W1 c) = false := isRingWord_low (by unfold Reg.ASY_QUAL_W1; omega)
  have herr : Reg.ASY_QUAL_W0 c ≠ Reg.ASY_ERRSTAT := by unfold Reg.ASY_QUAL_W0 Reg.ASY_ERRSTAT; omega
  have hcal : Reg.ASY_QUAL_W0 c ≠ Reg.ASY_CALCNT := by unfold Reg.ASY_QUAL_W0 Reg.ASY_CALCNT; omega
  have hskip : Reg.ASY_QUAL_W0 c ≠ Reg.ASY_SKIPCNT := by unfold Reg.ASY_QUAL_W0 Reg.ASY_SKIPCNT; omega
  have hresult : (s.qualResult c band res).rdf (Reg.ASY_QUAL_W0 c) (if band then 8 else 4) 4 = res :=
    (s.rdf_wrf_same _ _ (by split <;> omega)).trans (Nat.mod_eq_of_lt hres)
  dsimp only
  by_cases h1 : res = 1
  · subst h1
    obtain ⟨es, hquality⟩ := s.recordMeasured_quality c band full m hc
    obtain ⟨hsame, hext, hage⟩ := ({ s.qualResult c band 1 with extOld := es } : State).putFigures_shows c band m
    exact ⟨(congrArg (fld · _ 4) (hquality _ (.inl rfl))).trans (hsame.trans hresult), fun _ =>
      ⟨(congrArg (fld · _ 10) (hquality _ (.inl rfl))).trans hext, (congrArg (fld · 0 16) (hquality _ (.inr rfl))).trans hage⟩,
      fun h => absurd h (by decide), fun h => absurd rfl h⟩
  · by_cases h6 : res = 6
    · subst h6
      rw [s.recordMeasured_failed]
      exact ⟨(congrArg (fld · _ 4) (State.rd_err_ne _ 2 herr hring)).trans hresult, fun h => absurd h h1,
        fun _ => State.err_bit _ (by omega) (by decide), fun _ h => absurd rfl h⟩
    · by_cases h8 : res = 8
      · subst h8
        rw [s.recordMeasured_fault c band full m]
        exact ⟨hresult, fun h => absurd h h1, fun h => absurd h h6, fun _ _ h => absurd rfl h⟩
      · rw [s.recordMeasured_skipped c band full m h1 h6 h8]
        exact ⟨(congrArg (fld · _ 4) ((State.rd_err_ne _ 1 herr hring).trans (State.rd_wr_ne _ _ hskip))).trans hresult, fun h => absurd h h1,
          fun h => absurd h h6, fun _ _ _ => State.err_bit _ (by omega) (by decide)⟩

/-- Every result is a code of Table 9-1. -/
theorem State.judgeMeasured_lt (moved : Bool) : s.judgeMeasured full moved c band m < 16 := by
  unfold State.judgeMeasured
  dsimp only
  repeat' split
  all_goals omega

end

/-- FREEZE, the tile's status and the power state are none of them. -/
theorem not_recordWord {a c : Nat} (hc : c < 4864) (h : a = Reg.PWR_STAT ∨ a = Reg.COO_CTRL (tileOf c) ∨ a = Reg.COO_STAT (tileOf c)) :
    ¬ RecordWord c a := by
  unfold Reg.PWR_STAT Reg.COO_CTRL Reg.COO_STAT at h
  unfold RecordWord StageWord Reg.COO_STAT Reg.ASY_STAT Reg.ASY_QUAL_W0 Reg.ASY_QUAL_W1 Reg.ASY_CALCNT Reg.ASY_SKIPCNT Reg.ASY_ERRSTAT
  simp only [List.mem_cons, List.not_mem_nil, or_false, not_or]
  omega

/-! ## The cell released, kept, or tried again (R214, R216, R220) -/

section
variable {s : State} {cell : Fin 4864} {m : Measured} {x : CalRec}

theorem find_probe (honly : s.calCells = [x]) (hcell : x.cell = cell.val) (htinker : x.tinker = false) :
    (s.calCells.find? fun x => x.cell == cell.val && !x.tinker) = some x := by
  rw [honly]
  exact List.find?_cons_of_pos (by simp [hcell, htinker])

/-- A measurement counts: the source has settled, or is not needed. -/
theorem probe_settled (h : s.calEn = false ∨ s.calSettled = true ∨ x.retried = true) : (s.calEn && !s.calSettled && !x.retried) = false := by
  rcases h with h | h | h
  · simp [h]
  · simp [h]
  · simp [h]

theorem measurementComplete_releases {res : Nat} (honly : s.calCells = [x]) (hcell : x.cell = cell.val) (htinker : x.tinker = false)
    (hnone : s.fullcal = none) (hsettled : s.calEn = false ∨ s.calSettled = true ∨ x.retried = true)
    (hres : s.judgeMeasured false x.moved cell x.band m = res) (hdark : res = 2 → s.rdf Reg.ASY_CTRL 10 2 = 2 → x.retried = true) :
    exec (.measurementComplete cell m) s = .next ((((s.recordMeasured cell x.band x.full res m).leaveCal x).when x.commanded
      (·.asyFinish (16 + cell) (resultStatus res) res)).afterCal) := by
  have hkeep : ¬ (!false && res == 2 && s.rdf Reg.ASY_CTRL 10 2 == 2 && !x.retried) = true := by
    simp only [Bool.not_false, Bool.true_and, Bool.and_eq_true, beq_iff_eq, Bool.not_eq_true', not_and, Bool.not_eq_false]
    exact fun h => hdark h.1 h.2
  change execMeasurementComplete cell m s = _
  unfold execMeasurementComplete
  dsimp only
  rw [find_probe honly hcell htinker, hnone]
  simp only [Option.isSome_none, Bool.false_eq_true, if_false]
  rw [hres, if_neg (by simp [probe_settled hsettled]), if_neg hkeep]

/-- In a full calibration a cell of the stage in progress is only measured. -/
theorem measurementComplete_stage {f : FullCal} {res : Nat} (honly : s.calCells = [x]) (hcell : x.cell = cell.val) (htinker : x.tinker = false)
    (hfull : s.fullcal = some f) (hsettled : s.calEn = false ∨ s.calSettled = true ∨ x.retried = true)
    (hstage : cell.val / 256 = s.rdf Reg.ASY_STAT 21 5) (hres : s.judgeMeasured true x.moved cell (s.bit Reg.ASY_STAT 20) m = res) :
    exec (.measurementComplete cell m) s = .next (s.recordMeasured cell (s.bit Reg.ASY_STAT 20) x.full res m) := by
  change execMeasurementComplete cell m s = _
  unfold execMeasurementComplete
  dsimp only
  rw [find_probe honly hcell htinker, hfull]
  simp only [Option.isSome_some, if_true]
  rw [hres, if_neg (by simp [probe_settled hsettled, hstage]), if_neg (by simp)]

/-- A dark probe under PROBE_AMBIENT. -/
theorem measurementComplete_retries (honly : s.calCells = [x]) (hcell : x.cell = cell.val) (htinker : x.tinker = false)
    (hretried : x.retried = false) (hnone : s.fullcal = none) (hsettled : s.calEn = false ∨ s.calSettled = true)
    (hres : s.judgeMeasured false x.moved cell x.band m = 2) (hambient : s.rdf Reg.ASY_CTRL 10 2 = 2) :
    exec (.measurementComplete cell m) s = .next { s with couplers := [], calCells := [{ x with retried := true }] } := by
  have hready : (s.calEn && !s.calSettled && !x.retried) = false := probe_settled (hsettled.imp_right .inl)
  change execMeasurementComplete cell m s = _
  unfold execMeasurementComplete
  dsimp only
  rw [find_probe honly hcell htinker, hnone]
  simp only [Option.isSome_none, Bool.false_eq_true, if_false]
  rw [hres, if_neg (by simp [hready]), if_pos (by simp [hambient, hretried]), honly, List.map_cons, if_pos hcell]
  rfl

theorem measurementComplete_of_empty (hempty : s.calCells = []) : exec (.measurementComplete cell m) s = .next s := by
  change execMeasurementComplete cell m s = _
  unfold execMeasurementComplete
  dsimp only
  rw [hempty]
  rfl

theorem restErrorMeasured_of_empty (hempty : s.calCells = []) (e : Option (BitVec 16)) : exec (.restErrorMeasured cell e) s = .next s := by
  change execRestErrorMeasured cell e s = _
  unfold execRestErrorMeasured
  dsimp only
  rw [hempty]
  rfl

theorem measurementComplete_unsettled (hen : s.calEn = true) (hsettled : s.calSettled = false) (honly : s.calCells = [x])
    (hretried : x.retried = false) : exec (.measurementComplete cell m) s = .next s := by
  change execMeasurementComplete cell m s = _
  unfold execMeasurementComplete
  dsimp only
  cases hfind : s.calCells.find? fun x => x.cell == cell.val && !x.tinker with
  | none => rfl
  | some y =>
    have hsame : y = x := by
      have hmem := List.mem_of_find?_eq_some hfind
      rwa [honly, List.mem_singleton] at hmem
    dsimp only
    rw [if_pos (by simp [hsame, hen, hsettled, hretried])]

/-- A cell outside a full calibration, from its measurement to its release. -/
theorem measured_released {res : Nat} (honly : s.calCells = [x]) (hcell : x.cell = cell.val) (hres : res < 16)
    (hmode : (s.cell cell).mode = 2) : let c := cell.val
    let t := (((s.recordMeasured c x.band x.full res m).leaveCal x).when x.commanded (·.asyFinish (16 + c) (resultStatus res) res)).afterCal
    t.calCells = [] ∧ (t.cell c).mode = (if s.frozen (tileOf c) && x.prev != 6 then 3 else x.prev) ∧ t.hcode c = (s.coo c).calH % 16384 ∧
    t.rdf (Reg.ASY_QUAL_W0 c) (if x.band then 8 else 4) 4 = res ∧
    (res = 1 → t.rdf (Reg.ASY_QUAL_W0 c) (if x.band then 22 else 12) 10 = min m.ext 1023 ∧ t.rdf (Reg.ASY_QUAL_W1 c) 0 16 = 0) ∧
    (res = 6 → t.bit Reg.ASY_ERRSTAT 2 = true) ∧ (res ≠ 1 → res ≠ 6 → res ≠ 8 → t.bit Reg.ASY_ERRSTAT 1 = true) ∧
    (x.commanded = true → s.asyLast = 16 + c → t.rd Reg.ASY_CMDRES = pack [(31, 1, 1), (8, 4, resultStatus res), (0, 4, res)]) := by
  intro c
  obtain ⟨es, ss, f, hkept⟩ := s.recordMeasured_kept c x.band x.full m res
  obtain ⟨hresult, hfigures, hfail, hskip⟩ := s.recordMeasured_shows c x.band x.full m cell.isLt hres
  have hcells := hkept.get State.calCells
  have hcellRec := hkept.get State.cells
  have hcoo := hkept.get State.coos
  have hlast := hkept.get State.asyLast
  have hfrozen : (s.recordMeasured c x.band x.full res m).frozen (tileOf c) = s.frozen (tileOf c) :=
    State.frozen_congr (hkept.rd _ (not_recordWord cell.isLt (.inr (.inl rfl))) (isRingWord_of_window (by unfold Reg.COO_CTRL; omega)))
      (hkept.rd _ (not_recordWord cell.isLt (.inr (.inr rfl))) (isRingWord_of_window (by unfold Reg.COO_STAT; omega)))
      (hkept.rd _ (not_recordWord cell.isLt (.inl rfl)) (by decide))
  generalize s.recordMeasured c x.band x.full res m = u at hresult hfigures hfail hskip hcells hcellRec hcoo hlast hfrozen
  have hmode' : (u.cell x.cell).mode = 2 := by
    rw [hcell]
    exact (congrArg (fun cs => (Store.get CellRec.rest cs c).mode) hcellRec).trans hmode
  obtain ⟨hgone, hback, hcode, hwords, hcmd⟩ := u.release_shows x x.commanded (16 + c) (resultStatus res) res (by omega) (hcells.trans honly) hmode'
  rw [hcell, hfrozen] at hback
  rw [hcell] at hcode
  have hlow : Reg.ASY_QUAL_W0 c < 0x1800000 ∧ Reg.ASY_QUAL_W1 c < 0x1800000 := by
    unfold Reg.ASY_QUAL_W0 Reg.ASY_QUAL_W1
    omega
  have hq0 : _ = u.rd (Reg.ASY_QUAL_W0 c) := hwords _ hlow.1 (by unfold Reg.ASY_QUAL_W0 Reg.ASY_STAT; omega)
    (by unfold Reg.ASY_QUAL_W0 Reg.TNK_STAT; omega) (by unfold Reg.ASY_QUAL_W0 Reg.ASY_CMDRES; omega)
  have hq1 : _ = u.rd (Reg.ASY_QUAL_W1 c) := hwords _ hlow.2 (by unfold Reg.ASY_QUAL_W1 Reg.ASY_STAT; omega)
    (by unfold Reg.ASY_QUAL_W1 Reg.TNK_STAT; omega) (by unfold Reg.ASY_QUAL_W1 Reg.ASY_CMDRES; omega)
  have herr : _ = u.rd Reg.ASY_ERRSTAT := hwords _ (by decide) (by decide) (by decide) (by decide)
  exact ⟨hgone, hback, hcode.trans (congrArg (fun xs => (Store.get CooRec.zero xs c).calH % 16384) hcoo), (congrArg (fld · _ 4) hq0).trans hresult,
    fun h => ⟨(congrArg (fld · _ 10) hq0).trans (hfigures h).1, (congrArg (fld · 0 16) hq1).trans (hfigures h).2⟩,
    fun h => (congrArg (wbit · 2) herr).trans (hfail h), fun h1 h6 h8 => (congrArg (wbit · 1) herr).trans (hskip h1 h6 h8),
    fun hcommanded hk => hcmd hcommanded (hlast.trans hk)⟩

end

/-! ## The obligation -/

/-- Settles O43: what `recordMeasured` shows and keeps, then the release of the only cell in CAL. -/
theorem measurementsReleaseCells : Obligations.MeasurementsReleaseCells := by
  unfold Obligations.MeasurementsReleaseCells
  intro s cell m x c
  refine ⟨fun res honly hcell htinker hnone hsettled hres hdark hmode => ?_, fun f res honly hcell htinker hfull hsettled hstage hres => ?_,
    fun hempty => ⟨measurementComplete_of_empty hempty, restErrorMeasured_of_empty hempty⟩, measurementComplete_unsettled,
    fun honly hcell htinker hretried hnone hsettled hres hambient => ?_⟩
  · exact ⟨_, measurementComplete_releases honly hcell htinker hnone hsettled hres hdark,
      measured_released honly hcell (hres ▸ s.judgeMeasured_lt _ _ _ _ _) hmode⟩
  · obtain ⟨es, ss, g, hkept⟩ := s.recordMeasured_kept c (s.bit Reg.ASY_STAT 20) x.full m res
    obtain ⟨hresult, -⟩ := s.recordMeasured_shows c (s.bit Reg.ASY_STAT 20) x.full m cell.isLt (hres ▸ s.judgeMeasured_lt _ _ _ _ _ : res < 16)
    exact ⟨_, measurementComplete_stage honly hcell htinker hfull hsettled hstage hres, (hkept.get State.calCells).trans honly,
      hkept.get fun u => u.cell c, hresult⟩
  · exact ⟨_, measurementComplete_retries honly hcell htinker hretried hnone hsettled hres hambient, rfl, rfl, rfl⟩

end Sys2Proof.Machine
end


section
/-! PROOF. O42: the end of a save, the stages of a full calibration, and the placing of calibration commits. -/
namespace Sys2Proof.Machine

/-! ## A command's result (Table 9-9) -/

theorem EventsBut.setAsyLast {W : Nat → Prop} {s t : State} (h : EventsBut W s t) (n : Nat) :
    EventsBut W { s with asyLast := n } { t with asyLast := n } := ⟨h.rd, congrArg (fun v : State => { v with asyLast := n }) h.rest⟩

theorem State.asyFinish_kept (W : Nat → Prop) (hW : W Reg.ASY_CMDRES) (s : State) (k status result : Nat) :
    ∃ n, EventsBut W { s with asyLast := n } (s.asyFinish k status result) := by
  rcases s.asyFinish_cases k status result with ⟨-, heq⟩ | ⟨-, heq⟩
  · rw [heq]
    exact ⟨s.asyLast, .refl W s⟩
  · rw [heq]
    exact ⟨0, (EventsBut.refl W { s with asyLast := 0 }).wr _ hW⟩

theorem State.cmdres_asyFinish (s : State) (k status result : Nat) : (s.asyFinish k status result).rd Reg.ASY_CMDRES =
    if s.asyLast = k then pack [(31, 1, 1), (8, 4, status), (0, 4, result)] else s.rd Reg.ASY_CMDRES := by
  rcases s.asyFinish_cases k status result with ⟨hother, heq⟩ | ⟨hlast, heq⟩
  · rw [heq, if_neg hother]
  · rw [heq, if_pos hlast]
    exact State.rd_wr_same _ _ _

/-! ## A bank in the NOR (R224, R225) -/

theorem State.putMem_cons (s : State) (a : Nat) (w : Word) (ws : List Word) :
    s.putMem a (w :: ws) = (s.putMemWord a w).putMem (a + 4) ws := by
  have hnext : ∀ i, a + 4 * Nat.succ i = a + 4 + 4 * i := fun i => by omega
  unfold State.putMem
  rw [List.length_cons, List.range_succ_eq_map, List.zip_cons_cons, List.foldl_cons, List.zip_map_right, List.foldl_map]
  simp only [Prod.map_fst, Prod.map_snd, id_eq, hnext]
  rfl

/-- The first word and the third of those written. -/
theorem State.memWord_putMem_third (s : State) (a : Nat) (w0 w1 w2 : Word) (ws : List Word) :
    (s.putMem a (w0 :: w1 :: w2 :: ws)).memWord (a + 8) = w2 := by
  rw [State.putMem_cons, State.putMem_cons]
  exact State.memWord_putMem _ (a + 8) w2 ws

section
variable (s : State) (i gen : Nat) (r : SaveRun)

/-- The header of a bank stored: MAGIC and GEN. -/
theorem State.storeBank_shows : (s.storeBank i gen r).memWord (s.bankBase i) = 0x4E474342#32 ∧
    (s.storeBank i gen r).memWord (s.bankBase i + 8) = wd gen :=
  ⟨State.memWord_putMem _ _ _ _, State.memWord_putMem_third _ _ _ _ _ _⟩

/-- A bank stored changes memory alone, beside whose bank it is. -/
theorem State.storeBank_kept : (s.storeBank i gen r).saving = s.saving ∧ (s.storeBank i gen r).now = s.now ∧
    (s.storeBank i gen r).asyLast = s.asyLast ∧ ∀ a, (s.storeBank i gen r).rd a = s.rd a := by
  have hmem : MemOnly (s.eraseHead i) (s.storeBank i gen r) := (((MemOnly.refl _).eraseMem _ _).putMem _ _).putMem _ _
  obtain ⟨m, hm⟩ := hmem
  rw [hm]
  exact ⟨rfl, rfl, rfl, fun _ => rfl⟩

/-- With the save ended and the header sector of its bank erased, nothing is being saved. -/
theorem State.eraseHead_kept : (s.endSave.eraseHead i).saving = none ∧ (s.endSave.eraseHead i).now = s.now ∧
    (s.endSave.eraseHead i).asyLast = s.asyLast ∧ (∀ a, (s.endSave.eraseHead i).rd a = s.rd a) ∧
    (s.endSave.eraseHead i).bankBase i = s.bankBase i := ⟨rfl, rfl, rfl, fun _ => rfl, rfl⟩

/-- What `noteSave` writes, with the time as a variable: the kernel need not evaluate it to compare the other fields. -/
theorem State.noteSave_eq : ∃ x, x = secOf s.ns ∧ s.noteSave = { s with lastSave := x, sinceSave := [] } := ⟨_, rfl, rfl⟩

theorem State.noteSave_shows : s.noteSave.saving = s.saving ∧ s.noteSave.mem = s.mem ∧ s.noteSave.asyLast = s.asyLast ∧
    (∀ a, s.noteSave.rd a = s.rd a) ∧ s.noteSave.sinceSave = [] ∧ s.noteSave.lastSave = secOf s.ns := by
  obtain ⟨x, hx, hnote⟩ := s.noteSave_eq
  rw [hnote]
  exact ⟨rfl, rfl, rfl, fun _ => rfl, rfl, hx⟩

theorem State.byte_congr {s t : State} (h : t.mem = s.mem) (a : Nat) : t.byte a = s.byte a := congrArg (Store.get (memDefault a) · a) h

theorem State.memWord_congr {s t : State} (h : t.mem = s.mem) (a : Nat) : t.memWord a = s.memWord a := by
  unfold State.memWord State.byte
  rw [h]

/-- The header sector erased, and no other byte. -/
theorem State.byte_eraseHead (a : Nat) : (s.eraseHead i).byte a =
    if s.bankBase i ≤ a ∧ a < s.bankBase i + 0x1000 then memDefault a else s.byte a := by
  split
  · next h => exact Store.get_filter_dropped _ _ fun _ => by simp [h]
  · next h => exact State.byte_eraseMem_ne s (by omega)

theorem State.saveTarget_lt : s.saveTarget.2 < 2 := by
  unfold State.saveTarget
  dsimp only
  repeat' split
  all_goals simp

end

/-! ## The end of a save (R224, R225, R386) -/

/-- The words that the end of a save of bank `i` changes. -/
def SaveWord (i a : Nat) : Prop := a ∈ [Reg.ASY_BANKGEN i, Reg.ASY_STAT, Reg.ASY_CMDRES, Reg.ASY_ERRSTAT]

section
variable {s : State} {r : SaveRun}

theorem saveComplete_behind (ok : Bool) (hsaving : s.saving = some r) (hbehind : r.behind = true) : exec (.saveComplete ok) s = .next s := by
  change execSaveComplete ok s = _
  unfold execSaveComplete
  rw [hsaving]
  exact if_pos hbehind

/-- The generation of bank `i` entered, and the command answered. -/
theorem State.finishSave_shows (u : State) {i : Nat} (g : Word) (hi : i < 2) : let t := (((u.wr (Reg.ASY_BANKGEN i) g).asyStat).asyFinish 3 0 0)
    (∃ n, EventsBut (SaveWord i) { u with asyLast := n } t) ∧ t.rd (Reg.ASY_BANKGEN i) = g ∧
    t.rd (Reg.ASY_BANKGEN (1 - i)) = u.rd (Reg.ASY_BANKGEN (1 - i)) ∧
    t.rd Reg.ASY_CMDRES = (if u.asyLast = 3 then pack [(31, 1, 1)] else u.rd Reg.ASY_CMDRES) := by
  have hfirst : EventsBut (SaveWord i) u (u.wr (Reg.ASY_BANKGEN i) g).asyStat :=
    ((EventsBut.refl _ u).wr g (by simp [SaveWord])).events (State.asyStat_onlyWords _).events (by simp [SaveWord])
  have hgen : ∀ b, b < 2 → (u.wr (Reg.ASY_BANKGEN i) g).asyStat.rd (Reg.ASY_BANKGEN b) = (u.wr (Reg.ASY_BANKGEN i) g).rd (Reg.ASY_BANKGEN b) :=
    fun b hb => (State.asyStat_onlyWords _).rd (by unfold Reg.ASY_BANKGEN Reg.ASY_STAT; simp; omega)
  have hres : (u.wr (Reg.ASY_BANKGEN i) g).asyStat.rd Reg.ASY_CMDRES = u.rd Reg.ASY_CMDRES :=
    ((State.asyStat_onlyWords _).rd (by decide)).trans (State.rd_wr_ne _ _ (by unfold Reg.ASY_BANKGEN Reg.ASY_CMDRES; omega))
  have hlast := hfirst.get State.asyLast
  generalize (u.wr (Reg.ASY_BANKGEN i) g).asyStat = v at hfirst hgen hres hlast
  obtain ⟨n, hfinish⟩ := v.asyFinish_kept (fun a => a = Reg.ASY_CMDRES) rfl 3 0 0
  have hstays : ∀ b, b < 2 → (v.asyFinish 3 0 0).rd (Reg.ASY_BANKGEN b) = (u.wr (Reg.ASY_BANKGEN i) g).rd (Reg.ASY_BANKGEN b) := fun b hb =>
    (hfinish.rd _ (by unfold Reg.ASY_BANKGEN Reg.ASY_CMDRES; omega) (isRingWord_low (by unfold Reg.ASY_BANKGEN; omega))).trans (hgen b hb)
  have hcmd := v.cmdres_asyFinish 3 0 0
  rw [hlast, hres] at hcmd
  refine ⟨⟨n, (hfirst.setAsyLast n).trans (hfinish.mono ?_)⟩, (hstays i hi).trans (State.rd_wr_same _ _ _),
    (hstays _ (by omega)).trans (State.rd_wr_ne _ _ ?_), hcmd⟩
  · rintro a rfl
    simp [SaveWord]
  · unfold Reg.ASY_BANKGEN
    omega

theorem State.finishSave_fields (u : State) {i : Nat} (g : Word) (hi : i < 2) :
    let t := (((u.wr (Reg.ASY_BANKGEN i) g).asyStat).asyFinish 3 0 0)
    t.saving = u.saving ∧ t.mem = u.mem ∧ t.sinceSave = u.sinceSave ∧ t.lastSave = u.lastSave := by
  obtain ⟨⟨n, hkept⟩, -⟩ := u.finishSave_shows g hi
  exact ⟨hkept.get State.saving, hkept.get State.mem, hkept.get State.sinceSave, hkept.get State.lastSave⟩

theorem saveComplete_stored (hsaving : s.saving = some r) (hbehind : r.behind = false) (hclosed : s.bit Reg.SEC_OTPSTAT 29 = false) :
    ∃ t, exec (.saveComplete true) s = .next t ∧ t.saving = none ∧ t.rd (Reg.ASY_BANKGEN s.saveTarget.2) = wd s.saveGen ∧
      t.memWord (s.bankBase s.saveTarget.2) = 0x4E474342#32 ∧ t.memWord (s.bankBase s.saveTarget.2 + 8) = wd s.saveGen ∧ t.sinceSave = [] ∧
      t.lastSave = secOf s.ns ∧ t.rd (Reg.ASY_BANKGEN (1 - s.saveTarget.2)) = s.rd (Reg.ASY_BANKGEN (1 - s.saveTarget.2)) ∧
      t.rd Reg.ASY_CMDRES = (if s.asyLast = 3 then pack [(31, 1, 1)] else s.rd Reg.ASY_CMDRES) := by
  have htarget := s.saveTarget_lt
  have hexec : execSaveComplete true s = .next ((((((s.endSave.eraseHead s.saveTarget.2).storeBank s.saveTarget.2 s.saveGen r).noteSave.wr
      (Reg.ASY_BANKGEN s.saveTarget.2) (wd s.saveGen)).asyStat).asyFinish 3 0 0)) := by
    unfold execSaveComplete
    rw [hsaving]
    dsimp only
    rw [if_neg (by simp [hbehind]), if_pos (by simp [hclosed])]
  generalize s.saveTarget.2 = i at hexec htarget
  obtain ⟨hnone, hnow, hlast, hrd, hbase⟩ := s.eraseHead_kept i
  generalize s.endSave.eraseHead i = x at hexec hnone hnow hlast hrd hbase
  obtain ⟨hmagic, hgen⟩ := x.storeBank_shows i s.saveGen r
  obtain ⟨hnone', hnow', hlast', hrd'⟩ := x.storeBank_kept i s.saveGen r
  rw [hbase] at hmagic hgen
  generalize x.storeBank i s.saveGen r = u at hexec hmagic hgen hnone' hnow' hlast' hrd'
  have hsecond : secOf u.ns = secOf s.ns := by
    unfold State.ns
    rw [hnow', hnow]
  obtain ⟨hsame, hnor, hcmdlast, hwords, hsince, htime⟩ := u.noteSave_shows
  generalize u.noteSave = v at hexec hsame hnor hcmdlast hwords hsince htime
  obtain ⟨-, hbank, hother, hcmd⟩ := v.finishSave_shows (wd s.saveGen) htarget
  obtain ⟨hsaves, hbytes, hsinces, htimes⟩ := v.finishSave_fields (wd s.saveGen) htarget
  have hmem := State.memWord_congr (hbytes.trans hnor)
  rw [hcmdlast.trans (hlast'.trans hlast), (hwords _).trans ((hrd' _).trans (hrd _))] at hcmd
  exact ⟨_, hexec, hsaves.trans (hsame.trans (hnone'.trans hnone)), hbank, (hmem _).trans hmagic, (hmem _).trans hgen,
    hsinces.trans hsince, htimes.trans (htime.trans hsecond), hother.trans ((hwords _).trans ((hrd' _).trans (hrd _))), hcmd⟩

/-- SAVEFAIL leaves memory, and what is being saved, as they are, and the banks' generations. -/
theorem State.saveFail_shows (t : State) : (t.err Reg.ASY_ERRSTAT 3).saving = t.saving ∧ (t.err Reg.ASY_ERRSTAT 3).mem = t.mem ∧
    ∀ {i}, i < 2 → (t.err Reg.ASY_ERRSTAT 3).rd (Reg.ASY_BANKGEN i) = t.rd (Reg.ASY_BANKGEN i) := by
  have hevent := (EventsBut.refl (fun a => a = Reg.ASY_ERRSTAT) t).err 3 rfl
  exact ⟨hevent.get State.saving, hevent.get State.mem, fun hi => State.rd_err_ne _ 3 (by unfold Reg.ASY_BANKGEN Reg.ASY_ERRSTAT; omega)
    (isRingWord_low (by unfold Reg.ASY_BANKGEN; omega))⟩

theorem saveComplete_failed (hsaving : s.saving = some r) (hbehind : r.behind = false) (ok : Bool)
    (hfail : ok = false ∨ s.bit Reg.SEC_OTPSTAT 29 = true) : ∃ t, exec (.saveComplete ok) s = .next t ∧ t.saving = none ∧
      t.rd (Reg.ASY_BANKGEN s.saveTarget.2) = 0xFFFFFFFF#32 ∧ t.bit Reg.ASY_ERRSTAT 3 = true ∧
      ∀ a, t.byte a = if s.bankBase s.saveTarget.2 ≤ a ∧ a < s.bankBase s.saveTarget.2 + 0x1000 then memDefault a else s.byte a := by
  have htarget := s.saveTarget_lt
  have hnot : ¬ (ok && !s.bit Reg.SEC_OTPSTAT 29) = true := by
    rcases hfail with h | h
    · simp [h]
    · simp [h]
  have hexec : execSaveComplete ok s = .next (((((s.endSave.eraseHead s.saveTarget.2).wr (Reg.ASY_BANKGEN s.saveTarget.2)
      0xFFFFFFFF#32).asyStat).asyFinish 3 0 0).err Reg.ASY_ERRSTAT 3) := by
    unfold execSaveComplete
    rw [hsaving]
    dsimp only
    rw [if_neg (by simp [hbehind]), if_neg hnot]
  generalize s.saveTarget.2 = i at hexec htarget
  obtain ⟨hnone, -⟩ := s.eraseHead_kept i
  have herased := s.endSave.byte_eraseHead i
  generalize s.endSave.eraseHead i = x at hexec hnone herased
  obtain ⟨-, hbank, -⟩ := x.finishSave_shows 0xFFFFFFFF#32 htarget
  obtain ⟨hsaves, hbytes, -⟩ := x.finishSave_fields 0xFFFFFFFF#32 htarget
  generalize ((x.wr (Reg.ASY_BANKGEN i) 0xFFFFFFFF#32).asyStat).asyFinish 3 0 0 = t at hexec hbank hsaves hbytes
  obtain ⟨hsaving', hmem', hrd'⟩ := t.saveFail_shows
  refine ⟨_, hexec, hsaving'.trans (hsaves.trans hnone), (hrd' htarget).trans hbank, State.err_bit _ (by omega) (by decide), fun a => ?_⟩
  exact (State.byte_congr (hmem'.trans hbytes) a).trans (herased a)

end

/-! ## The stages of a full calibration (R220, Table 9-3) -/

section
variable {s : State} {f : FullCal}

theorem fullcalStage_next (hfull : s.fullcal = some f) (hrun : f.ended = false) (hstage : s.rdf Reg.ASY_STAT 21 5 < 18)
    (hlit : s.rdf Reg.ASY_STAT 21 5 = 0 → s.darkInStage 0 (s.bit Reg.ASY_STAT 20) < 128) : ∃ t, exec .fullcalStageComplete s = .next t ∧
      t.rdf Reg.ASY_STAT 21 5 = s.rdf Reg.ASY_STAT 21 5 + 1 ∧ (∀ x, x ∈ t.calCells → x.moved = false) ∧
      OnlyWords [Reg.ASY_STAT] { s with calCells := t.calCells } t := by
  have hexec : execFullcalStageComplete s = .next (s.stillCal.wrf Reg.ASY_STAT 21 5 (s.rdf Reg.ASY_STAT 21 5 + 1)) := by
    unfold execFullcalStageComplete
    rw [hfull]
    dsimp only
    rw [if_neg (by simp [hrun]), if_neg fun h => absurd (hlit h.1) (Nat.not_lt.2 h.2), if_pos hstage]
  refine ⟨_, hexec, (State.rdf_wrf_same _ _ _ (by omega)).trans (Nat.mod_eq_of_lt (by omega)), fun x hx => ?_,
    (OnlyWords.refl _ s.stillCal).wrf 21 5 _ (by simp)⟩
  obtain ⟨y, -, rfl⟩ := List.mem_map.1 hx
  rfl

/-- Band C follows band O: its first stage, with the source on in it. -/
theorem State.endBand_first (u : State) (f : FullCal) : (u.endBand f false).fullcal = some { f with settledAt := none, undo := [] } ∧
    (u.endBand f false).bit Reg.ASY_STAT 20 = true ∧ (u.endBand f false).rdf Reg.ASY_STAT 21 5 = 0 ∧ (u.endBand f false).calEn = true ∧
    (u.endBand f false).calBand = true := by
  obtain ⟨settled, hsource⟩ := (({ u with fullcal := some { f with settledAt := none, undo := [] } }.stillCal).wr Reg.ASY_STAT
    (put (putBit (u.rd Reg.ASY_STAT) 20 true) 21 5 0)).calSource_kept (fun _ => False) true true
  have hstat := hsource.rd Reg.ASY_STAT not_false (by decide)
  have hword : (u.endBand f false).rd Reg.ASY_STAT = put (putBit (u.rd Reg.ASY_STAT) 20 true) 21 5 0 :=
    hstat.trans (State.rd_wr_same _ _ _)
  refine ⟨hsource.get State.fullcal, (congrArg (wbit · 20) hword).trans ?_, (congrArg (fld · 21 5) hword).trans (fld_put_same _ 0 (by omega)),
    hsource.get State.calEn, hsource.get State.calBand⟩
  exact (wbit_put_ne _ 0 (.inl (by omega))).trans (wbit_put_same _ true (by omega))

/-- A calibration commit placed: its cells and its instant; the status words alone change beside it. -/
theorem State.placeCal_shows (u : State) (cs : List Nat) (tc : Nat) : (u.placeCal cs tc).fullcal = u.fullcal ∧ (u.placeCal cs tc).calEn = u.calEn ∧
    (u.placeCal cs tc).couplers = u.couplers ∧ (u.placeCal cs tc).lastCalCommit = tc ∧ (u.placeCal cs tc).commits = u.commits ++
      [{ Commit.new tc .calibration with factors := cs, involved := (cs.map tileOf).eraseDups }] := by
  have hlamp : ∀ v : State, EventsBut (fun a => a ∈ [Reg.LMP_STAT, Reg.LMP_ARMTIME, Reg.WHL_STAT, Reg.TOL_STAT]) v v.lampStat := fun v =>
    (EventsBut.refl _ v).events v.lampStat_onlyWords.events fun _ h => h
  have hkept : EventsBut _ _ (u.placeCal cs tc) := hlamp _
  exact ⟨hkept.get State.fullcal, hkept.get State.calEn, hkept.get State.couplers, hkept.get State.lastCalCommit, hkept.get State.commits⟩

/-- The commit at the end of a full calibration, of the staged cells there are. -/
theorem State.placeLast_shows (u : State) (tc : Nat) : let t := if u.stagedCells.isEmpty then u else u.placeCal u.stagedCells tc
    t.fullcal = u.fullcal ∧ t.calEn = u.calEn ∧ t.couplers = u.couplers := by
  obtain ⟨hfull, hen, hcouplers, -⟩ := u.placeCal_shows u.stagedCells tc
  dsimp only
  split
  · exact ⟨rfl, rfl, rfl⟩
  · exact ⟨hfull, hen, hcouplers⟩

/-- With band C over the source is off, the couplers are closed, and the calibration ends. -/
theorem State.endBand_last (u : State) (f : FullCal) : (u.endBand f true).fullcal = some { f with ended := true, undo := [] } ∧
    (u.endBand f true).calEn = false ∧ (u.endBand f true).couplers = [] := by
  have hend : ∃ x, x = { u.releaseCal.calSource false false with couplers := [], fullcal := some { f with ended := true, undo := [] } } ∧
      ∃ tc, u.endBand f true = if x.stagedCells.isEmpty then x else x.placeCal x.stagedCells tc := by
    unfold State.endBand
    rw [if_neg (by decide)]
    exact ⟨_, rfl, _, rfl⟩
  obtain ⟨hdark, -⟩ := u.releaseCal.calSource_drives false false
  obtain ⟨x, hx, tc, hend⟩ := hend
  obtain ⟨hfull, hen, hcouplers⟩ := x.placeLast_shows tc
  rw [hend]
  exact ⟨hfull.trans (congrArg State.fullcal hx), hen.trans ((congrArg State.calEn hx).trans hdark), hcouplers.trans (congrArg State.couplers hx)⟩

theorem fullcalStage_dark (hfull : s.fullcal = some f) (hrun : f.ended = false) (hband : s.bit Reg.ASY_STAT 20 = false)
    (hfirst : s.rdf Reg.ASY_STAT 21 5 = 0) (hdark : 128 ≤ s.darkInStage 0 false) : ∃ t, exec .fullcalStageComplete s = .next t ∧
      t.fullcal = some { f with abandoned := f.abandoned ++ [false], settledAt := none, undo := [] } ∧ t.bit Reg.ASY_STAT 20 = true ∧
      t.rdf Reg.ASY_STAT 21 5 = 0 ∧ t.calEn = true ∧ t.calBand = true := by
  have hexec : execFullcalStageComplete s = .next ((s.unstage f).endBand { f with abandoned := f.abandoned ++ [false] } false) := by
    unfold execFullcalStageComplete
    rw [hfull]
    dsimp only
    rw [if_neg (by simp [hrun]), hband, if_pos ⟨hfirst, hdark⟩]
  exact ⟨_, hexec, State.endBand_first _ _⟩

theorem fullcalStage_bandC (hfull : s.fullcal = some f) (hrun : f.ended = false) (hband : s.bit Reg.ASY_STAT 20 = false)
    (hlast : 18 ≤ s.rdf Reg.ASY_STAT 21 5) : ∃ t, exec .fullcalStageComplete s = .next t ∧
      t.fullcal = some { f with settledAt := none, undo := [] } ∧ t.bit Reg.ASY_STAT 20 = true ∧ t.rdf Reg.ASY_STAT 21 5 = 0 ∧
      t.calEn = true ∧ t.calBand = true := by
  have hexec : execFullcalStageComplete s = .next (s.endBand f false) := by
    unfold execFullcalStageComplete
    rw [hfull]
    dsimp only
    rw [if_neg (by simp [hrun]), hband, if_neg fun h => by omega, if_neg (by omega)]
  exact ⟨_, hexec, State.endBand_first _ _⟩

theorem fullcalStage_last (hfull : s.fullcal = some f) (hrun : f.ended = false) (hband : s.bit Reg.ASY_STAT 20 = true)
    (hlast : 18 ≤ s.rdf Reg.ASY_STAT 21 5) : ∃ t, exec .fullcalStageComplete s = .next t ∧
      t.fullcal = some { f with ended := true, undo := [] } ∧ t.calEn = false ∧ t.couplers = [] := by
  have hexec : execFullcalStageComplete s = .next (s.endBand f true) := by
    unfold execFullcalStageComplete
    rw [hfull]
    dsimp only
    rw [if_neg (by simp [hrun]), hband, if_neg fun h => by omega, if_neg (by omega)]
  exact ⟨_, hexec, State.endBand_last _ _⟩

/-! ## The end of a full calibration (R220) -/

/-- What the end of a full calibration says does not depend on the result and the save that follow it. -/
structure Closed (f : FullCal) (t : State) : Prop where
  ended : t.fullcal = none
  free : t.bit Reg.LMP_CTRL 8 = false
  kept : t.abandoned = f.abandoned

theorem Closed.of_kept {u t : State} {W : Nat → Prop} (h : Closed f u) (hW : ¬ W Reg.LMP_CTRL) (hrd : EventsBut W u t) : Closed f t :=
  ⟨(hrd.get State.fullcal).trans h.ended, (hrd.bit hW (by decide) 8).trans h.free, (hrd.get State.abandoned).trans h.kept⟩

theorem Closed.asyFinish {u : State} (h : Closed f u) (k status result : Nat) : Closed f (u.asyFinish k status result) := by
  rcases u.asyFinish_cases k status result with ⟨-, heq⟩ | ⟨-, heq⟩
  · rw [heq]
    exact h
  · rw [heq]
    exact ⟨h.ended, (State.bit_wr_ne _ _ 8 (by decide)).trans h.free, h.kept⟩

theorem Closed.autosave {u : State} (h : Closed f u) : Closed f u.autosave := by
  unfold State.autosave
  split
  · exact h.of_kept (W := fun a => a = Reg.ASY_ERRSTAT) (by decide) ((EventsBut.refl _ u).err 0 rfl)
  · exact ⟨h.ended, (congrArg (wbit · 8) (u.rd_startSave (by decide))).trans h.free, h.kept⟩

theorem State.closeFull_closed (u : State) (f : FullCal) : Closed f (u.closeFull f) := by
  have hstart : Closed f ({ u with fullcal := none, abandoned := f.abandoned }.wrBit Reg.LMP_CTRL 8 false) :=
    ⟨rfl, State.bit_wrBit_same _ _ _ (by omega), rfl⟩
  have hshown : Closed f ({ u with fullcal := none, abandoned := f.abandoned }.wrBit Reg.LMP_CTRL 8 false).asyStat.lampStat :=
    hstart.of_kept (W := fun a => a ∈ [Reg.ASY_STAT, Reg.LMP_STAT, Reg.LMP_ARMTIME, Reg.WHL_STAT, Reg.TOL_STAT]) (by decide)
      (((EventsBut.refl _ _).events (State.asyStat_onlyWords _).events (by decide)).events (State.lampStat_onlyWords _).events (by decide))
  have hanswered : ∀ b k, Closed f (if b = true then ({ u with fullcal := none, abandoned := f.abandoned }.wrBit Reg.LMP_CTRL 8
      false).asyStat.lampStat else ({ u with fullcal := none, abandoned := f.abandoned }.wrBit Reg.LMP_CTRL 8
      false).asyStat.lampStat.asyFinish 1 k 0) := fun b k => by
    split
    · exact hshown
    · exact hshown.asyFinish 1 k 0
  unfold State.closeFull
  extract_lets s1 s2
  split
  · exact (hanswered _ _).autosave
  · exact hanswered _ _

theorem fullcalStage_over (hfull : s.fullcal = some f) (hended : f.ended = true) : ∃ t, exec .fullcalStageComplete s = .next t ∧
    t.fullcal = none ∧ t.bit Reg.LMP_CTRL 8 = false ∧ t.abandoned = f.abandoned := by
  have hexec : execFullcalStageComplete s = .next (s.closeFull f) := by
    unfold execFullcalStageComplete
    rw [hfull]
    exact if_pos hended
  obtain ⟨hnone, hfree, hkept⟩ := s.closeFull_closed f
  exact ⟨_, hexec, hnone, hfree, hkept⟩

end

/-! ## Calibration commits (R223) -/

section
variable {s : State}

theorem State.firstFree_of_empty (h : s.commits = []) (n t : Nat) : s.firstFree n t = t := by
  cases n with
  | zero => rfl
  | succ n =>
    unfold State.firstFree
    rw [h]
    rfl

theorem State.armedHost_of_empty (h : s.commits = []) (tile : Nat) : s.armedHost tile = none := by
  unfold State.armedHost
  rw [h]
  rfl

/-- Where no commit is, dark cells take the first grid instant that R223 allows. -/
theorem State.placeDark_of_empty (h : s.commits = []) {cs : List Nat} (hcs : cs ≠ []) : s.placeDark cs =
    s.placeCal cs (roundUp 4 (max (s.ns + 460) (s.lastCalCommit + s.rdf Reg.ASY_CTRL 16 8 * 100000))) := by
  have hnone : (cs.filter fun c => (s.armedHost (tileOf c)).isSome) = [] :=
    List.filter_eq_nil_iff.2 fun c _ => by simp [State.armedHost_of_empty h]
  have hall : (cs.filter fun c => (s.armedHost (tileOf c)).isNone) = cs :=
    List.filter_eq_self.2 fun c _ => by simp [State.armedHost_of_empty h]
  unfold State.placeDark
  dsimp only
  rw [hnone, hall, List.foldl_nil, if_neg (by simpa using hcs), State.firstFree_of_empty h]

theorem calibrationCommitPlacement_none (h : s.pstate ≠ 0 ∨ s.stagedCells = []) : exec .calibrationCommitPlacement s = .next s := by
  have hnot : (s.pstate != 0 || (s.stagedCells.filter fun c => !(loads s.ckts s.cross).contains c).isEmpty) = true := by
    rcases h with h | h
    · simp [h]
    · simp [h]
  exact congrArg Host.Outcome.next (if_pos hnot)

theorem calibrationCommitPlacement_places (hpower : s.pstate = 0) (hfree : s.commits = [])
    (hcells : (s.stagedCells.filter fun c => !(loads s.ckts s.cross).contains c) ≠ []) : ∃ t, exec .calibrationCommitPlacement s = .next t ∧
      t.lastCalCommit % 4 = 0 ∧ s.ns + 460 ≤ t.lastCalCommit ∧ s.lastCalCommit + s.rdf Reg.ASY_CTRL 16 8 * 100000 ≤ t.lastCalCommit ∧
      ∃ k, t.commits = [k] ∧ k.kind = .calibration ∧ k.tc = t.lastCalCommit ∧
        k.factors = s.stagedCells.filter fun c => !(loads s.ckts s.cross).contains c := by
  have hpass : ¬ (s.pstate != 0 || (s.stagedCells.filter fun c => !(loads s.ckts s.cross).contains c).isEmpty) = true := by
    simpa [hpower] using hcells
  have hexec : execCalibrationCommitPlacement s = .next (s.placeDark (s.stagedCells.filter fun c => !(loads s.ckts s.cross).contains c)) :=
    congrArg Host.Outcome.next (if_neg hpass)
  rw [State.placeDark_of_empty hfree hcells] at hexec
  have hlate := le_roundUp_four (max (s.ns + 460) (s.lastCalCommit + s.rdf Reg.ASY_CTRL 16 8 * 100000))
  have hgrid : roundUp 4 (max (s.ns + 460) (s.lastCalCommit + s.rdf Reg.ASY_CTRL 16 8 * 100000)) % 4 = 0 := Nat.mul_mod_left _ 4
  generalize roundUp 4 (max (s.ns + 460) (s.lastCalCommit + s.rdf Reg.ASY_CTRL 16 8 * 100000)) = tc at hexec hlate hgrid
  generalize (s.stagedCells.filter fun c => !(loads s.ckts s.cross).contains c) = cs at hexec
  obtain ⟨-, -, -, hinstant, hcommits⟩ := s.placeCal_shows cs tc
  rw [hfree, List.nil_append] at hcommits
  obtain ⟨hsend, hspaced⟩ := max_le_iff.1 hlate
  exact ⟨_, hexec, hinstant ▸ hgrid, hinstant ▸ hsend, hinstant ▸ hspaced, _, hcommits, rfl, hinstant.symm, rfl⟩

end

/-! ## The obligation -/

/-- Settles O42: the end of a save by what it writes, each end of a stage by the band it is in, and the only commit on its grid. -/
theorem calibrationFlow : Obligations.CalibrationFlow := by
  unfold Obligations.CalibrationFlow
  exact ⟨fun s r ok => saveComplete_behind ok, fun s r hsaving hbehind => ⟨saveComplete_stored hsaving hbehind,
    saveComplete_failed hsaving hbehind⟩, fun s f hfull => ⟨fullcalStage_next hfull, fun hrun hband => ⟨fullcalStage_dark hfull hrun hband,
    fullcalStage_bandC hfull hrun hband⟩, fullcalStage_last hfull, fullcalStage_over hfull⟩,
    fun s => ⟨calibrationCommitPlacement_none, calibrationCommitPlacement_places⟩⟩

end Sys2Proof.Machine
end

section
/-! PROOF. O9: an error bit raised. -/
namespace Sys2Proof.Machine

/-- The other bits of the register stay (R250). -/
theorem State.bit_err_ne (s : State) {a i j : Nat} (hr : isRingWord a = false) (h : j ≠ i) : (s.err a i).bit a j = s.bit a j := by
  unfold State.err
  split
  · rfl
  · exact (congrArg (wbit · j) (State.rd_eventMgmt _ _ _ hr)).trans (s.bit_wrBit_ne a true h)

/-- Settles O9: the bit and the rest of its register, what else is touched, and the event on the rise alone. -/
theorem errorBitRises : Obligations.ErrorBitRises := by
  unfold Obligations.ErrorBitRises
  exact fun s a i hi hr => ⟨s.err_bit hi hr, fun j _ hj => s.bit_err_ne hr hj, State.err_events (.refl _ s) i (List.mem_singleton.2 rfl),
    fun hset => if_pos hset, fun hclear => if_neg (Bool.eq_false_iff.1 hclear)⟩

end Sys2Proof.Machine
end

section
/-! PROOF. For O46 to O48: the words of a ring's descriptor, what the delivery of events leaves of a ring, and an entry put into it. -/
namespace Sys2Proof.Machine

/-! ## A part of a field written -/

theorem fld_put_within (w : Word) {lo n lo' n' : Nat} (v : Nat) (hlo : lo ≤ lo') (hhi : lo' + n' ≤ lo + n) (h : lo + n ≤ 32) :
    fld (put w lo n v) lo' n' = v / 2 ^ (lo' - lo) % 2 ^ n' := by
  refine Nat.eq_of_testBit_eq fun i => ?_
  rw [fld_getLsbD, put_getLsbD, Nat.testBit_mod_two_pow, Nat.testBit_div_two_pow]
  by_cases hi : i < n'
  · have hbit : lo' + i - lo = lo' - lo + i := by omega
    have hin : lo' - lo + i < n := by omega
    rw [if_pos (by omega), BitVec.getLsbD_ofNat, hbit, decide_eq_true hin, Bool.true_and, Nat.add_comm i]
  · simp [hi]

/-- STATE and ERR of a ring as they are set. -/
theorem State.setRingState_shows (s : State) (r : Nat) {st e : Nat} (hst : st < 16) (he : e < 16) :
    (s.setRingState r st e).rdf (Reg.RING_W5 r) 28 4 = st ∧ (s.setRingState r st e).rdf (Reg.RING_W5 r) 24 4 = e := by
  unfold State.setRingState State.wrf State.rdf
  rw [State.rd_wr_same, fld_put_within _ _ (by omega) (by omega) (by omega), fld_put_within _ _ (by omega) (by omega) (by omega)]
  omega

theorem State.rd_setRingState_ne (s : State) {r a : Nat} (st e : Nat) (h : a ≠ Reg.RING_W5 r) : (s.setRingState r st e).rd a = s.rd a :=
  s.rd_wr_ne _ h

/-! ## W2 of a descriptor (Table 10-16) -/

/-- The entry of W2: its reserved encodings are of LOG2SZ. -/
def ringW2Entry : RegEntry :=
  ⟨"RING_W2", 0x1800008, [(32768, 0x20)], .const 0x4000000, 0xFFFF7FFF, 0x0, 0x0, 0x0, 0x0, [⟨28, 24, [(0x4, 0xF)], 1⟩], true⟩

theorem find_ringW2 {r : Nat} (hr : r < 32768) : RegMap.find (Reg.RING_W2 r) = some (ringW2Entry, [r]) := by
  have hblock : RegMap.blockOf (Reg.RING_W2 r) = RegMap.ring := by
    have hwindow : 0x1800000 ≤ Reg.RING_W2 r ∧ Reg.RING_W2 r < 0x1900000 := by unfold Reg.RING_W2; omega
    unfold RegMap.blockOf
    iterate 7 rw [if_neg (by omega)]
    exact if_pos hwindow.2
  have hoff : Reg.RING_W2 r = 0x1800000 + (0x20 * r + 8) := by unfold Reg.RING_W2; omega
  have hbase : ringW2Entry.base = 0x1800008 := rfl
  generalize Reg.RING_W2 r = a at hblock hoff
  have hw0 : RegMap.locate [(32768, 0x20)] (a - 0x1800000) = none := by
    rw [show a - 0x1800000 = 0x20 * r + 8 by omega]
    simp [RegMap.locate]
  have hw1 : RegMap.locate [(32768, 0x20)] (a - 0x1800004) = none := by
    rw [show a - 0x1800004 = 0x20 * r + 4 by omega]
    simp [RegMap.locate]
  have hw2 : RegMap.locate ringW2Entry.dims (a - ringW2Entry.base) = some [r] := by
    rw [show a - ringW2Entry.base = 0x20 * r by omega]
    simp [RegMap.locate, ringW2Entry, hr]
  have hskip : (RegMap.ring.take 2).findSome? (fun e => if a < e.base then none else (RegMap.locate e.dims (a - e.base)).map (e, ·)) = none := by
    simp [RegMap.ring, hw0, hw1]
  have hsplit : RegMap.ring = RegMap.ring.take 2 ++ ringW2Entry :: RegMap.ring.drop 3 := rfl
  unfold RegMap.find
  rw [hblock, hsplit, List.findSome?_append, hskip, Option.none_or, List.findSome?_cons, hw2, if_neg (by omega)]
  rfl

/-- CQ, TYPE and EN of a ring as written. -/
theorem State.getLsbD_writeReg_ringW2 (s : State) {r i : Nat} (hr : r < 32768) (v : Word) (hi : i < 15 ∨ 29 ≤ i ∧ i < 32) :
    ((s.writeReg (Reg.RING_W2 r) v).rd (Reg.RING_W2 r)).getLsbD i = v.getLsbD i := by
  have hbits : ∀ i, i < 32 → i < 15 ∨ 29 ≤ i ∧ i < 32 → (BitVec.ofNat 32 ringW2Entry.rw).getLsbD i = true := by decide
  have hlt : i < 32 := by omega
  have hwritable : (ringW2Entry.writable v).getLsbD i = true := by
    refine (ringW2Entry.writable_getLsbD v hlt).2 ⟨hbits i hlt hi, fun rule hrule hlo hhi => ?_⟩
    obtain rfl := List.mem_singleton.1 hrule
    simp only at hlo hhi
    omega
  rw [State.rd_writeReg_same s v (find_ringW2 hr), ringW2Entry.merge_getLsbD _ _ hlt, hwritable]
  simp [ringW2Entry]

/-- A write of W2 whose EN is `en`. -/
theorem State.writeReg_ringW2_shows (s : State) {r : Nat} (hr : r < 32768) (v : Word) (en : Bool) :
    (s.writeReg (Reg.RING_W2 r) (putBit v 31 en)).ringOn r = en ∧
      (s.writeReg (Reg.RING_W2 r) (putBit v 31 en)).rdf (Reg.RING_W2 r) 0 15 = fld v 0 15 ∧
      (s.writeReg (Reg.RING_W2 r) (putBit v 31 en)).ringType r = fld v 29 2 := by
  have hother : ∀ i, i < 15 ∨ 29 ≤ i ∧ i < 31 →
      ((s.writeReg (Reg.RING_W2 r) (putBit v 31 en)).rd (Reg.RING_W2 r)).getLsbD i = v.getLsbD i := fun i hi =>
    (s.getLsbD_writeReg_ringW2 hr _ (by omega)).trans (wbit_put_ne v _ (by omega))
  exact ⟨(s.getLsbD_writeReg_ringW2 hr _ (by omega)).trans (wbit_put_same v en (by omega)), fld_congr fun i hi => hother _ (by omega),
    fld_congr fun i hi => hother _ (by omega)⟩

/-! ## What the delivery of events leaves of a ring -/

/-- A word of a ring's descriptor other than its indexes (W4) and DROPCNT (W6). -/
def DescriptorWord (a : Nat) : Prop := 0x1800000 ≤ a ∧ a % 32 ≠ 16 ∧ a % 32 ≠ 24

theorem descriptorWord_W2 (r : Nat) : DescriptorWord (Reg.RING_W2 r) := by unfold DescriptorWord Reg.RING_W2; omega

theorem descriptorWord_W5 (r : Nat) : DescriptorWord (Reg.RING_W5 r) := by unfold DescriptorWord Reg.RING_W5; omega

/-- From `s` to `t` every ring has kept its descriptor but for PI and DROPCNT, the entries fetched, and the read outstanding. -/
structure RingsKept (s t : State) : Prop where
  rd : ∀ a, DescriptorWord a → t.rd a = s.rd a
  ci : ∀ r, t.ringCi r = s.ringCi r
  fetched : ∀ r, (t.ring r).fetched = (s.ring r).fetched
  asked : ∀ r, (t.ring r).asked = (s.ring r).asked

namespace RingsKept

variable {s t : State}

theorem refl (s : State) : RingsKept s s := ⟨fun _ _ => rfl, fun _ => rfl, fun _ => rfl, fun _ => rfl⟩

/-- An update of fields other than words and rings. -/
theorem update {u : State} (h : RingsKept s t) (hsame : u.words = t.words ∧ u.rings = t.rings := by exact ⟨rfl, rfl⟩) : RingsKept s u := by
  obtain ⟨hwords, hrings⟩ := hsame
  have hrd : ∀ a, u.rd a = t.rd a := fun a => congrArg (Store.get (resetWord a) · a) hwords
  have hring : ∀ r, u.ring r = t.ring r := fun r => congrArg (Store.get RingRec.empty · r) hrings
  exact ⟨fun a ha => (hrd a).trans (h.rd a ha), fun r => (congrArg (fld · 0 16) (hrd _)).trans (h.ci r),
    fun r => (congrArg RingRec.fetched (hring r)).trans (h.fetched r), fun r => (congrArg RingRec.asked (hring r)).trans (h.asked r)⟩

theorem send (h : RingsKept s t) (o : Output) : RingsKept s (t.send o) := h.update

/-- A word below the ring descriptors. -/
theorem wr (h : RingsKept s t) {a : Nat} (v : Word) (ha : a < 0x1800000) : RingsKept s (t.wr a v) := by
  refine ⟨fun b hb => (t.rd_wr_ne v ?_).trans (h.rd b hb), fun r => (t.rdf_wr_ne v 0 16 ?_).trans (h.ci r), h.fetched, h.asked⟩
  · unfold DescriptorWord at hb
    omega
  · unfold Reg.RING_W4
    omega

theorem wrf (h : RingsKept s t) {a : Nat} (lo n v : Nat) (ha : a < 0x1800000) : RingsKept s (t.wrf a lo n v) := h.wr _ ha

theorem wrPi (h : RingsKept s t) (q v : Nat) : RingsKept s (t.wrf (Reg.RING_W4 q) 16 16 v) := by
  refine ⟨fun b hb => (t.rd_wr_ne _ ?_).trans (h.rd b hb), fun r => .trans ?_ (h.ci r), h.fetched, h.asked⟩
  · unfold DescriptorWord at hb
    unfold Reg.RING_W4
    omega
  · by_cases hq : r = q
    · subst hq
      exact t.rdf_wrf_ne _ v (by omega)
    · exact t.rdf_wr_ne _ 0 16 (by unfold Reg.RING_W4; omega)

theorem countDrop (h : RingsKept s t) (q lo n k : Nat) : RingsKept s (t.count (Reg.RING_W6 q) lo n k) := by
  refine ⟨fun b hb => (t.rd_wr_ne _ ?_).trans (h.rd b hb), fun r => (t.rdf_wr_ne _ 0 16 ?_).trans (h.ci r), h.fetched, h.asked⟩
  · unfold DescriptorWord at hb
    unfold Reg.RING_W6
    omega
  · unfold Reg.RING_W4 Reg.RING_W6
    omega

/-- A ring's counts changed, its entries and its read left. -/
theorem setRing (h : RingsKept s t) {q : Nat} {x : RingRec} (hfetched : x.fetched = (t.ring q).fetched) (hasked : x.asked = (t.ring q).asked) :
    RingsKept s (t.setRing q x) := by
  have hring : ∀ r, ((t.setRing q x).ring r).fetched = (t.ring r).fetched ∧ ((t.setRing q x).ring r).asked = (t.ring r).asked := fun r => by
    by_cases hq : r = q
    · subst hq
      rw [State.ring_setRing_same]
      exact ⟨hfetched, hasked⟩
    · rw [State.ring_setRing_ne t x hq]
      exact ⟨rfl, rfl⟩
  exact ⟨h.rd, h.ci, fun r => (hring r).1.trans (h.fetched r), fun r => (hring r).2.trans (h.asked r)⟩

theorem msixSend (h : RingsKept s t) (g v : Nat) : RingsKept s (t.msixSend g v) := by
  unfold State.msixSend
  dsimp only
  split
  · exact h.update
  · exact h.send _

theorem ringSignal (h : RingsKept s t) (r : Nat) : RingsKept s (t.ringSignal r) := by
  unfold State.ringSignal
  dsimp only
  split
  · exact h
  · split
    · exact (h.setRing (x := { t.ring r with unsignalled := 0, timing := false }) rfl rfl).msixSend _ _
    · exact h.setRing rfl rfl

theorem ringPut (h : RingsKept s t) (r : Nat) (ws : List Word) : RingsKept s (t.ringPut r ws) := ((h.send _).wrPi _ _).ringSignal r

theorem ringDrop (h : RingsKept s t) (r : Nat) : RingsKept s (t.ringDrop r) := (h.countDrop _ _ _ _).setRing rfl rfl

theorem payEvlost (h : RingsKept s t) (r : Nat) : RingsKept s (t.payEvlost r) := by
  unfold State.payEvlost
  split
  · exact h
  · exact (h.setRing (x := { t.ring r with evlost := 0 }) rfl rfl).ringPut _ _

theorem eventToFn (h : RingsKept s t) (ws : List Word) (g : Nat) : RingsKept s (t.eventToFn ws g) := by
  unfold State.eventToFn
  split
  · exact h
  · dsimp only
    split
    · split
      · exact (h.payEvlost _).ringDrop _
      · exact (h.payEvlost _).ringPut _ _
    · exact h.ringDrop _

theorem eventToSession (h : RingsKept s t) (ws : List Word) (n : Nat) : RingsKept s (t.eventToSession ws n) := by
  unfold State.eventToSession
  split
  · exact h
  · exact h.update

theorem foldl {α : Type} (h : RingsKept s t) (xs : List α) {f : State → α → State} (hf : ∀ u x, RingsKept s u → RingsKept s (f u x)) :
    RingsKept s (xs.foldl f t) :=
  List.foldlRecOn xs f h fun u hu x _ => hf u x hu

theorem eventMgmt (h : RingsKept s t) (ws : List Word) (skip : Option Nat) : RingsKept s (t.eventMgmt ws skip) :=
  (h.foldl _ fun _ g hu => hu.eventToFn ws g).foldl _ fun _ n hu => hu.eventToSession ws n

theorem err (h : RingsKept s t) {a : Nat} (i : Nat) (ha : a < 0x1800000) : RingsKept s (t.err a i) := by
  unfold State.err
  split
  · exact h
  · exact (h.wrf _ _ _ ha).eventMgmt _ _

end RingsKept

/-! ## An entry put into a ring (R244) -/

theorem State.rd_ringSignal (s : State) (r a : Nat) : (s.ringSignal r).rd a = s.rd a := by
  have hmsix : ∀ (u : State) (g v : Nat), (u.msixSend g v).rd a = u.rd a := fun u g v => by
    unfold State.msixSend
    dsimp only
    split
    · rfl
    · rfl
  unfold State.ringSignal
  dsimp only
  split
  · rfl
  · split
    · exact hmsix _ _ _
    · rfl

theorem Extends.mem {s t : State} (h : Extends s t) {o : Output} (ho : o ∈ s.out) : o ∈ t.out := by
  obtain ⟨l, hl⟩ := h
  rw [hl]
  exact List.mem_append_right l ho

/-- The entry goes to host memory at PI, with its PHASE in W0, and PI advances. -/
theorem State.ringPut_shows {s : State} {r g : Nat} (ws : List Word) (howner : s.ringOwner r = some g) :
    (s.ringPut r ws).ringPi r = (s.ringPi r + 1) % 65536 ∧
      .dma (g / 17) (g % 17) (s.entryAddr r (s.ringPi r)) (putBit (ws.headD 0#32) 31 (s.phase r (s.ringPi r)) :: ws.tail) ∈ (s.ringPut r ws).out := by
  unfold State.ringPut
  rw [howner]
  dsimp only
  refine ⟨?_, (State.ringSignal_keeps r (.refl _)).2.1.mem (List.mem_cons_self ..)⟩
  exact (congrArg (fld · 16 16) (State.rd_ringSignal _ r _)).trans (State.rdf_wrf_same _ _ _ (by omega))

end Sys2Proof.Machine
end

section
/-! PROOF. O46: rings enabled and disabled, and doorbells. -/
namespace Sys2Proof.Machine

/-! ## Enabling (R242) -/

theorem State.payOwed_of_none {s : State} (h : s.owed = []) : s.payOwed = s := by
  unfold State.payOwed
  rw [h]
  rfl

theorem OnlyWords.setRing {as : List Nat} {s t : State} (h : OnlyWords as s t) (r : Nat) (x : RingRec) :
    OnlyWords as { s with rings := (t.setRing r x).rings } (t.setRing r x) :=
  ⟨h.1, congrArg (fun u : State => { u with rings := (t.setRing r x).rings }) h.2⟩

/-- A ring emptied and in RUN, behind a W2 already written. -/
def State.startRing (s : State) (r : Nat) : State :=
  (((s.wr (Reg.RING_W4 r) 0#32).setRingState r 1 0).wr (Reg.RING_W6 r) 0#32).setRing r RingRec.empty

theorem State.rd_startRing_W2 (s : State) (r : Nat) : (s.startRing r).rd (Reg.RING_W2 r) = s.rd (Reg.RING_W2 r) := by
  unfold State.startRing
  rw [State.rd_setRing, State.rd_wr_ne _ _ (by simp), State.rd_setRingState_ne _ _ _ (by simp), State.rd_wr_ne _ _ (by simp)]

theorem State.startRing_shows (s : State) (r : Nat) :
    (s.startRing r).ringPi r = 0 ∧ (s.startRing r).ringCi r = 0 ∧ (s.startRing r).rdf (Reg.RING_W5 r) 28 4 = 1 ∧
      (s.startRing r).rdf (Reg.RING_W5 r) 24 4 = 0 ∧ (s.startRing r).rdf (Reg.RING_W6 r) 0 16 = 0 ∧ (s.startRing r).ring r = RingRec.empty := by
  have hw4 : (s.startRing r).rd (Reg.RING_W4 r) = 0#32 := by
    unfold State.startRing
    rw [State.rd_setRing, State.rd_wr_ne _ _ (by simp), State.rd_setRingState_ne _ _ _ (by simp), State.rd_wr_same]
  have hw5 : (s.startRing r).rd (Reg.RING_W5 r) = ((s.wr (Reg.RING_W4 r) 0#32).setRingState r 1 0).rd (Reg.RING_W5 r) := by
    unfold State.startRing
    rw [State.rd_setRing, State.rd_wr_ne _ _ (by simp)]
  have hw6 : (s.startRing r).rd (Reg.RING_W6 r) = 0#32 := by
    unfold State.startRing
    rw [State.rd_setRing, State.rd_wr_same]
  have hring : (s.startRing r).ring r = RingRec.empty := by
    unfold State.startRing
    rw [State.ring_setRing_same]
  obtain ⟨hstate, herr⟩ := (s.wr (Reg.RING_W4 r) 0#32).setRingState_shows r (st := 1) (e := 0) (by omega) (by omega)
  exact ⟨congrArg (fld · 16 16) hw4, congrArg (fld · 0 16) hw4, (congrArg (fld · 28 4) hw5).trans hstate, (congrArg (fld · 24 4) hw5).trans herr,
    congrArg (fld · 0 16) hw6, hring⟩

/-- The words written where a ring is enabled. -/
abbrev ringStart (r : Nat) : List Nat := [Reg.RING_W2 r, Reg.RING_W4 r, Reg.RING_W5 r, Reg.RING_W6 r]

theorem OnlyWords.startRing {s t : State} {r : Nat} (h : OnlyWords (ringStart r) s t) :
    OnlyWords (ringStart r) { s with rings := (t.startRing r).rings } (t.startRing r) :=
  (((h.wr (a := Reg.RING_W4 r) _ (by simp)).wrf (a := Reg.RING_W5 r) _ _ _ (by simp)).wr (a := Reg.RING_W6 r) _ (by simp)).setRing _ _

section
variable {s : State} {r : Fin 32768} (v : Word)

theorem State.writeRingW2_configures (hoff : s.ringOn r = false) :
    s.writeRingW2 r (putBit v 31 false) = s.writeReg (Reg.RING_W2 r) (putBit v 31 false) := by
  have hen : wbit (putBit v 31 false) 31 = false := wbit_put_same v false (by omega)
  unfold State.writeRingW2
  rw [hoff, hen]

theorem State.writeRingW2_enables (hoff : s.ringOn r = false) (hgood : s.enableRefused r (putBit v 31 true) = false) :
    s.writeRingW2 r (putBit v 31 true) = (s.writeReg (Reg.RING_W2 r) (putBit v 31 true)).startRing r := by
  have hen : wbit (putBit v 31 true) 31 = true := wbit_put_same v true (by omega)
  unfold State.writeRingW2
  rw [hoff, hen]
  exact if_neg (Bool.eq_false_iff.1 hgood)

theorem State.writeRingW2_refuses (hbad : s.ringOn r = true ∨ s.enableRefused r (putBit v 31 true) = true) :
    s.writeRingW2 r (putBit v 31 true) = s.err Reg.HIF_ERRSTAT 0 := by
  have hen : wbit (putBit v 31 true) 31 = true := wbit_put_same v true (by omega)
  unfold State.writeRingW2
  cases hon : s.ringOn r with
  | true => rw [hen]
  | false =>
    rw [hen]
    exact if_pos (hbad.resolve_left (by simp [hon]))

theorem ringConfigure_takes (hoff : s.ringOn r = false) :
    ∃ t, exec (.ringConfigure r v) s = .next t ∧ t.ringOn r = false ∧ t.rdf (Reg.RING_W2 r) 0 15 = fld v 0 15 ∧
      t.ringType r = fld v 29 2 ∧ OnlyWords [Reg.RING_W2 r] s t := by
  obtain ⟨hon, hcq, htype⟩ := s.writeReg_ringW2_shows r.isLt v false
  exact ⟨_, congrArg Host.Outcome.next (State.writeRingW2_configures v hoff), hon, hcq, htype, OnlyWords.writeReg_self _ _ _⟩

theorem ringEnable_starts (hoff : s.ringOn r = false) (howed : s.owed = []) (hgood : s.enableRefused r (putBit v 31 true) = false) :
    ∃ t, exec (.ringEnable r v) s = .next t ∧ t.ringOn r = true ∧ t.ringType r = fld v 29 2 ∧ t.ringPi r = 0 ∧ t.ringCi r = 0 ∧
      t.rdf (Reg.RING_W5 r) 28 4 = 1 ∧ t.rdf (Reg.RING_W5 r) 24 4 = 0 ∧ t.rdf (Reg.RING_W6 r) 0 16 = 0 ∧ t.ring r = RingRec.empty ∧
      OnlyWords [Reg.RING_W2 r, Reg.RING_W4 r, Reg.RING_W5 r, Reg.RING_W6 r] { s with rings := t.rings } t := by
  obtain ⟨hon, -, htype⟩ := s.writeReg_ringW2_shows r.isLt v true
  have hframe := ((OnlyWords.writeReg_self s (Reg.RING_W2 r) (putBit v 31 true)).mono (bs := ringStart r) (by simp)).startRing
  have hwrite := State.writeRingW2_enables v hoff hgood
  generalize s.writeReg (Reg.RING_W2 r) (putBit v 31 true) = w at hwrite hon htype hframe
  have hpaid : (s.writeRingW2 r (putBit v 31 true)).payOwed = w.startRing r := by
    rw [hwrite]
    exact State.payOwed_of_none ((congrArg State.owed hframe.2).trans howed)
  have hw2 := w.rd_startRing_W2 r
  obtain ⟨hpi, hci, hstate, herr, hdropped, hring⟩ := w.startRing_shows r
  exact ⟨_, congrArg Host.Outcome.next hpaid, (congrArg (wbit · 31) hw2).trans hon, (congrArg (fld · 29 2) hw2).trans htype,
    hpi, hci, hstate, herr, hdropped, hring, hframe⟩

theorem ringEnable_refused (howed : s.owed = []) (hbad : s.ringOn r = true ∨ s.enableRefused r (putBit v 31 true) = true) :
    ∃ t, exec (.ringEnable r v) s = .next t ∧ t.bit Reg.HIF_ERRSTAT 0 = true ∧ WordsAndEvents [Reg.HIF_ERRSTAT] s t := by
  obtain ⟨hbit, hevents⟩ := s.err_hifErrstat (i := 0) (by omega)
  have hpaid : (s.writeRingW2 r (putBit v 31 true)).payOwed = s.err Reg.HIF_ERRSTAT 0 := by
    rw [State.writeRingW2_refuses v hbad]
    exact State.payOwed_of_none ((congrArg State.owed hevents.2).trans howed)
  exact ⟨_, congrArg Host.Outcome.next hpaid, hbit, hevents⟩

/-! ## Disabling (R242, R256) -/

theorem exec_ringDisable (hon : s.ringOn r = true) : exec (.ringDisable r v) s = .next (s.disableRing r) :=
  congrArg Host.Outcome.next (if_pos hon)

theorem State.rd_ringOff_ne (s : State) {r a : Nat} (hw2 : a ≠ Reg.RING_W2 r) (hw5 : a ≠ Reg.RING_W5 r) : (s.ringOff r).rd a = s.rd a := by
  unfold State.ringOff
  rw [State.rd_setRing, State.rd_setRingState_ne _ _ _ hw5]
  exact s.rd_wr_ne _ hw2

theorem State.ring_ringOff (s : State) (r : Nat) : (s.ringOff r).ring r = RingRec.empty := State.ring_setRing_same _ _ _

theorem ringDisable_empties (hon : s.ringOn r = true) (htype : s.ringType r ≠ 1) :
    ∃ t, exec (.ringDisable r v) s = .next t ∧ t.ringOn r = false ∧ t.ring r = RingRec.empty ∧
      t.rdf (Reg.RING_W5 r) 28 4 = 0 ∧ OnlyWords [Reg.RING_W2 r, Reg.RING_W5 r] { s with rings := t.rings } t := by
  have hframe := ((OnlyWords.refl [Reg.RING_W2 r, Reg.RING_W5 r] s).wrBit (a := Reg.RING_W2 r) 31 false (by simp)).wrf (a := Reg.RING_W5 r)
    24 8 (16 * 0 + 0) (by simp)
  exact ⟨_, (exec_ringDisable v hon).trans (congrArg Host.Outcome.next (if_neg htype)), by simp [State.ringOn_ringOff],
    s.ring_ringOff r, ((s.wrBit (Reg.RING_W2 r) 31 false).setRingState_shows r (by omega) (by omega)).1,
    hframe.setRing _ _⟩

end

/-- A word that is no W5 reads as before where rings halt. -/
theorem State.rd_haltNocq (s : State) (r : Nat) {a : Nat} (ha : ∀ q, a ≠ Reg.RING_W5 q) : (s.haltNocq r).rd a = s.rd a :=
  foldl_keeps (fun u => u.rd a) (fun u q => u.rd_wr_ne _ (ha q)) _ s

theorem State.ring_haltNocq (s : State) (r q : Nat) : (s.haltNocq r).ring q = s.ring q := by
  have hstep : ∀ (u : State) (x : Nat), (u.setRingState x 3 3).ring q = u.ring q := fun _ _ => rfl
  exact foldl_keeps (fun u => u.ring q) hstep _ s

/-- Ring `q` has halted with NOCQ (Table 10-16). -/
def State.HaltedNocq (s : State) (q : Nat) : Prop := s.rdf (Reg.RING_W5 q) 28 4 = 3 ∧ s.rdf (Reg.RING_W5 q) 24 4 = 3

theorem haltedNocq_foldl (xs : List Nat) {s : State} {q : Nat} (h : s.HaltedNocq q ∨ q ∈ xs) :
    (xs.foldl (fun u q => u.setRingState q 3 3) s).HaltedNocq q := by
  induction xs generalizing s with
  | nil => exact h.resolve_right List.not_mem_nil
  | cons x xs ih =>
    refine ih ?_
    by_cases hx : q = x
    · subst hx
      exact .inl (s.setRingState_shows q (by omega) (by omega))
    · refine h.imp (fun hhalted => ?_) fun hmem => (List.mem_cons.1 hmem).resolve_left hx
      have hkept := s.rd_setRingState_ne (a := Reg.RING_W5 q) (r := x) 3 3 (by unfold Reg.RING_W5; omega)
      obtain ⟨hstate, herr⟩ := hhalted
      exact ⟨(congrArg (fld · 28 4) hkept).trans hstate, (congrArg (fld · 24 4) hkept).trans herr⟩

/-- Every enabled SUBMIT ring that names the CQ halts. -/
theorem State.haltNocq_halts {s : State} {r q : Nat} (hq : q < 32768) (hon : s.ringOn q = true) (htype : s.ringType q = 0) (hcq : s.cqOf q = r) :
    (s.haltNocq r).HaltedNocq q :=
  haltedNocq_foldl _ (.inr (List.mem_filter.2 ⟨List.mem_range.2 hq, by simp [hon, htype, hcq]⟩))

/-- The reserved entries of a CQ counted as lost. -/
theorem State.disableRing_lost (s : State) {r : Nat} (htype : s.ringType r = 1) : ∃ u, RingsKept s u ∧
    ((s.ring r).reserved ≠ 0 → u.bit Reg.HIF_ERRSTAT 4 = true) ∧ s.disableRing r = ((u.ringOff r).dropOrigins r).haltNocq r := by
  have hcounted : ∃ u, RingsKept s u ∧ s.disableRing r = (((u.when ((s.ring r).reserved != 0) (·.err Reg.HIF_ERRSTAT 4)).ringOff r).dropOrigins
      r).haltNocq r := by
    unfold State.disableRing
    rw [if_pos htype]
    dsimp only
    cases howner : s.ringOwner r with
    | none => exact ⟨s, .refl s, rfl⟩
    | some g =>
      have hg := State.ringOwner_lt howner
      exact ⟨_, (RingsKept.refl s).wrf 0 16 _ (by unfold Reg.HIF_FNCFG_W3; omega), rfl⟩
  obtain ⟨u, hkept, heq⟩ := hcounted
  refine ⟨_, ?_, fun hreserved => ?_, heq⟩
  · unfold State.when
    split
    · exact hkept.err 4 (by decide)
    · exact hkept
  · unfold State.when
    rw [if_pos (bne_iff_ne.2 hreserved)]
    exact u.err_bit (by omega) (by decide)

theorem ringDisable_cq {s : State} {r : Fin 32768} (v : Word) (hon : s.ringOn r = true) (htype : s.ringType r = 1) :
    ∃ t, exec (.ringDisable r v) s = .next t ∧ t.ringOn r = false ∧ t.ring r = RingRec.empty ∧
      ((s.ring r).reserved ≠ 0 → t.bit Reg.HIF_ERRSTAT 4 = true) ∧
      ∀ q, q < 32768 → s.ringOn q = true → s.ringType q = 0 → s.cqOf q = r → t.rdf (Reg.RING_W5 q) 28 4 = 3 ∧ t.rdf (Reg.RING_W5 q) 24 4 = 3 := by
  obtain ⟨u, hkept, hlost, heq⟩ := s.disableRing_lost htype
  have hoff : ((u.ringOff r).dropOrigins r).ringOn r = false := by
    refine (u.ringOn_ringOff r r).trans ?_
    simp
  refine ⟨_, (exec_ringDisable v hon).trans (congrArg Host.Outcome.next heq), ?_, ?_, fun hreserved => ?_, fun q hq hqon hqtype hqcq => ?_⟩
  · exact (congrArg (wbit · 31) (State.rd_haltNocq _ _ fun q => by unfold Reg.RING_W2 Reg.RING_W5; omega)).trans hoff
  · exact (State.ring_haltNocq _ _ _).trans (u.ring_ringOff r)
  · have herrstat := u.rd_ringOff_ne (a := Reg.HIF_ERRSTAT) (r := r) (by unfold Reg.HIF_ERRSTAT Reg.RING_W2; omega)
      (by unfold Reg.HIF_ERRSTAT Reg.RING_W5; omega)
    have hhalted := ((u.ringOff r).dropOrigins r).rd_haltNocq r (a := Reg.HIF_ERRSTAT) fun q => by unfold Reg.HIF_ERRSTAT Reg.RING_W5; omega
    exact (congrArg (wbit · 4) (hhalted.trans herrstat)).trans (hlost hreserved)
  · have hne : q ≠ r := by
      rintro rfl
      omega
    have hw2 : (u.ringOff r).rd (Reg.RING_W2 q) = s.rd (Reg.RING_W2 q) :=
      (u.rd_ringOff_ne (by unfold Reg.RING_W2; omega) (by unfold Reg.RING_W2 Reg.RING_W5; omega)).trans (hkept.rd _ (descriptorWord_W2 q))
    exact State.haltNocq_halts hq ((congrArg (wbit · 31) hw2).trans hqon) ((congrArg (fld · 29 2) hw2).trans hqtype)
      ((congrArg (fld · 0 15) hw2).trans hqcq)

/-! ## Doorbells (R243) -/

section
variable {s : State} {l : Fin 4} {f : Fin 17} {r : Fin 32768} (v : Word)

/-- The tests of R24 on a doorbell: the access rule of BAR2, for an island that answers. -/
theorem State.fails_doorbell (l : Fin 4) (f : Fin 17) (r : Fin 32768) (hanswers : s.silent 64 = false) :
    s.fails (.fn l f) true true (8 * r) 4 = if s.reach2 (.fn l f) true (8 * r) then none else some (1, 0) := by
  have hin : ¬ 0x40000 ≤ 8 * r.val := by omega
  cases hreach : s.reach2 (.fn l f) true (8 * r) with
  | false => simp [State.fails, State.failsBefore, hin, hreach]
  | true => simp [State.fails, State.failsBefore, hin, hreach, hanswers]

theorem doorbell_isolated (hoff : s.off = false) (hdrain : s.isDraining (.fn l f) = false) (hanswers : s.silent 64 = false)
    (hother : s.reach2 (.fn l f) true (8 * r) = false) : ∃ t, exec (.doorbell l f r v) s = .next t ∧ t.bit Reg.MTX_ERRSTAT 1 = true ∧
      WordsAndEvents [Reg.MTX_ERRSTAT, Reg.MTX_ERRADDR, Reg.MTX_ERRINFO] s t := by
  have hfail := State.fails_doorbell l f r hanswers
  rw [hother, if_neg Bool.false_ne_true] at hfail
  exact ⟨_, congrArg Host.Outcome.next (s.access_refused (x := ⟨.fn l f, true, true, 8 * r, 4, [v]⟩) hoff hdrain hfail),
    s.refuse_effect (.fn l f) true true (8 * r) 0 1 (by omega)⟩

theorem exec_doorbell (hoff : s.off = false) (hdrain : s.isDraining (.fn l f) = false) (hanswers : s.silent 64 = false)
    (hown : s.reach2 (.fn l f) true (8 * r) = true) : exec (.doorbell l f r v) s = .next (s.ringDoorbell r v) := by
  have hpass := State.fails_doorbell l f r hanswers
  rw [hown, if_pos rfl] at hpass
  have hindex : r.val % 32768 = r.val := Nat.mod_eq_of_lt r.isLt
  simp [exec, execDoorbell, State.access, hoff, hdrain, hpass, hindex]

/-- A doorbell that the ring cannot hold sets its error bit. -/
theorem State.ringDoorbell_refuses
    (hbad : s.ringOn r = false ∨ (s.ringType r = 0 ∧ s.ringSize r < sub16 (fld v 0 16) (s.ringCi r)) ∨
      (s.ringType r ≠ 0 ∧ s.ringUsed r < sub16 (s.ringPi r) (fld v 0 16))) : s.ringDoorbell r v = s.err Reg.HIF_ERRSTAT 1 := by
  unfold State.ringDoorbell
  cases hon : s.ringOn r with
  | false => rfl
  | true =>
    rcases hbad.resolve_left (by simp [hon]) with ⟨htype, hfar⟩ | ⟨htype, hfar⟩
    · simp [htype, Nat.not_le.2 hfar]
    · simp [htype, Nat.not_le.2 hfar]

theorem State.ringDoorbell_submits (hon : s.ringOn r = true) (htype : s.ringType r = 0) (hroom : sub16 (fld v 0 16) (s.ringCi r) ≤ s.ringSize r) :
    s.ringDoorbell r v = (s.wrf (Reg.RING_W4 r) 16 16 (fld v 0 16)).issueFetch r := by
  simp [State.ringDoorbell, hon, htype, hroom]

theorem State.ringDoorbell_consumes (hon : s.ringOn r = true) (htype : s.ringType r ≠ 0) (hused : sub16 (s.ringPi r) (fld v 0 16) ≤ s.ringUsed r) :
    s.ringDoorbell r v = s.wrf (Reg.RING_W4 r) 0 16 (fld v 0 16) := by
  simp [State.ringDoorbell, hon, htype, hused]

theorem State.rd_issueFetch (s : State) (r a : Nat) : (s.issueFetch r).rd a = s.rd a := by
  unfold State.issueFetch
  dsimp only
  split
  · rfl
  · rfl

/-- PI moved by the host, and the fetch that follows. -/
theorem State.submitted_shows (s : State) (r : Nat) {n : Nat} (hn : n < 65536) :
    ((s.wrf (Reg.RING_W4 r) 16 16 n).issueFetch r).ringPi r = n ∧ ((s.wrf (Reg.RING_W4 r) 16 16 n).issueFetch r).ringCi r = s.ringCi r := by
  have hword := (s.wrf (Reg.RING_W4 r) 16 16 n).rd_issueFetch r (Reg.RING_W4 r)
  exact ⟨(congrArg (fld · 16 16) hword).trans ((s.rdf_wrf_same _ n (by omega)).trans (Nat.mod_eq_of_lt hn)),
    (congrArg (fld · 0 16) hword).trans (s.rdf_wrf_ne _ n (by omega))⟩

/-- Rings and outputs changed after a chain of updates to words, and to rings and outputs. -/
theorem OnlyWords.setRingsOut {as : List Nat} {t : State} (h : OnlyWords as { s with rings := t.rings, out := t.out } t)
    (rs : List (Nat × RingRec)) (os : List Output) : OnlyWords as { s with rings := rs, out := os } { t with rings := rs, out := os } :=
  ⟨h.1, congrArg (fun u : State => { u with rings := rs, out := os }) h.2⟩

theorem OnlyWords.issueFetch {as : List Nat} {t : State} (h : OnlyWords as { s with rings := t.rings, out := t.out } t) (r : Nat) :
    OnlyWords as { s with rings := (t.issueFetch r).rings, out := (t.issueFetch r).out } (t.issueFetch r) := by
  unfold State.issueFetch
  dsimp only
  split
  · exact h
  · exact h.setRingsOut _ _

end

/-- Settles O46: rings configured, enabled and disabled by what W2 asks, and doorbells by the tests of R24 and the ring's indexes. -/
theorem ringControl : Obligations.RingControl := by
  unfold Obligations.RingControl
  refine ⟨fun s r v => ⟨ringConfigure_takes v, ringEnable_starts v, ringEnable_refused v, ringDisable_empties v, ringDisable_cq v⟩, ?_⟩
  intro s l f r v n may hoff hdrain hanswers
  have hlt : n < 65536 := fld_lt v 0 16
  refine ⟨doorbell_isolated v hoff hdrain hanswers, fun hmay hbad => ?_, fun hmay hon htype hroom => ?_, fun hmay hon htype hused => ?_⟩
  · exact ⟨_, (exec_doorbell v hoff hdrain hanswers hmay).trans (congrArg Host.Outcome.next (State.ringDoorbell_refuses v hbad)),
      s.err_hifErrstat (by omega)⟩
  · obtain ⟨hpi, hci⟩ := s.submitted_shows r hlt
    exact ⟨_, (exec_doorbell v hoff hdrain hanswers hmay).trans (congrArg Host.Outcome.next (State.ringDoorbell_submits v hon htype hroom)),
      hpi, hci, ((OnlyWords.refl _ s).wrf 16 16 n (List.mem_singleton.2 rfl)).issueFetch r⟩
  · exact ⟨_, (exec_doorbell v hoff hdrain hanswers hmay).trans (congrArg Host.Outcome.next (State.ringDoorbell_consumes v hon htype hused)),
      (s.rdf_wrf_same _ n (by omega)).trans (Nat.mod_eq_of_lt hlt), s.rdf_wrf_ne _ n (by omega),
      (OnlyWords.refl _ s).wrf 0 16 n (List.mem_singleton.2 rfl)⟩

end Sys2Proof.Machine
end

section
/-! PROOF. O47, the first part: fetches, and the entry at the head of a ring. -/
namespace Sys2Proof.Machine

/-! ## Fetches (R245) -/

theorem State.fetched_issueFetch (s : State) (q r : Nat) : ((s.issueFetch q).ring r).fetched = (s.ring r).fetched := by
  have hset : ∀ n, ((s.setRing q { s.ring q with asked := n }).ring r).fetched = (s.ring r).fetched := fun n => by
    by_cases hr : r = q
    · rw [hr, State.ring_setRing_same]
    · rw [State.ring_setRing_ne _ _ hr]
  unfold State.issueFetch
  dsimp only
  split
  · rfl
  · exact hset _

/-- A ring that is not in RUN fetches nothing. -/
theorem State.issueFetch_idle {s : State} {r : Nat} (h : s.rdf (Reg.RING_W5 r) 28 4 ≠ 1) : s.issueFetch r = s := by
  unfold State.issueFetch
  exact if_pos (by simp [h])

theorem submitFetch_queues {s : State} {r : Fin 32768} (es : List (List Word)) : ∃ t, exec (.submitFetch r es) s = .next t ∧
    ((s.ringOn r = true ∧ s.ringType r = 0 ∧ s.rdf (Reg.RING_W5 r) 28 4 ≠ 3) →
      (t.ring r).fetched = (s.ring r).fetched ++ es.take (s.ring r).asked ∧
      OnlyWords [] { s with rings := t.rings, out := t.out } t) ∧
    (¬(s.ringOn r = true ∧ s.ringType r = 0 ∧ s.rdf (Reg.RING_W5 r) 28 4 ≠ 3) → t = s) := by
  have hcond : (s.ringOn r && s.ringType r == 0 && s.rdf (Reg.RING_W5 r) 28 4 != 3) = true ↔
      s.ringOn r = true ∧ s.ringType r = 0 ∧ s.rdf (Reg.RING_W5 r) 28 4 ≠ 3 := by simp [and_assoc]
  refine ⟨_, rfl, fun htakes => ?_, fun hnot => if_neg (mt hcond.1 hnot)⟩
  rw [if_pos (hcond.2 htakes)]
  refine ⟨(State.fetched_issueFetch _ r r).trans (congrArg RingRec.fetched (State.ring_setRing_same s r _)), OnlyWords.issueFetch ?_ r⟩
  exact OnlyWords.setRingsOut (OnlyWords.refl [] s) _ _

/-! ## The entry at the head (R245, R246) -/

/-- The ring engine's turn taken by ring `r` of function `g`. -/
def State.takeTurn (s : State) (g r : Nat) : State := { s with served := Store.set 32767 s.served (g / 17) r }

/-- Ring `r` of function `g` has `e` at its head, and is due: it runs and has its turn, or waits for completion space. -/
structure HeadDue (s : State) (r : Nat) (e : List Word) (es : List (List Word)) (g : Nat) : Prop where
  on : s.ringOn r = true
  submit : s.ringType r = 0
  due : s.rdf (Reg.RING_W5 r) 28 4 = 1 ∧ s.turn r = true ∨ s.rdf (Reg.RING_W5 r) 28 4 = 2
  allowed : s.submitStopped = false
  head : (s.ring r).fetched = e :: es
  owner : s.ringOwner r = some g

section
variable {s : State} {r : Nat} {e : List Word} {es : List (List Word)} {g : Nat} {want : Nat → Bool}

theorem HeadDue.processes (h : HeadDue s r e es g) (hwant : want (fld (e.getD 0 0#32) 0 4) = true) :
    (s.ringOn r && s.ringType r == 0 && ((s.rdf (Reg.RING_W5 r) 28 4 == 1 && s.turn r) || s.rdf (Reg.RING_W5 r) 28 4 == 2) &&
      !s.submitStopped && want (fld (e.getD 0 0#32) 0 4)) = true ∧ (s.ringLink r).getD 0 = g / 17 := by
  obtain ⟨hon, htype, hdue, hallowed, -, howner⟩ := h
  refine ⟨?_, ?_⟩
  · rw [hwant]
    rcases hdue with ⟨hrun, hturn⟩ | hwaits
    · simp [hon, htype, hrun, hturn, hallowed]
    · simp [hon, htype, hwaits, hallowed]
  · unfold State.ringLink
    rw [howner]
    rfl

theorem HeadDue.processHead_cues (h : HeadDue s r e es g) (hop : fld (e.getD 0 0#32) 0 4 = 1) (hwant : want 1 = true) :
    s.processHead r want = ((s.takeTurn g r).cuesEntry r e).issueFetch r := by
  obtain ⟨hcond, hlink⟩ := h.processes (hop.symm ▸ hwant)
  unfold State.processHead
  rw [h.head]
  dsimp only
  rw [if_pos hcond, hlink, hop]
  rfl

theorem HeadDue.processHead_abort (h : HeadDue s r e es g) (hop : fld (e.getD 0 0#32) 0 4 = 2) (hwant : want 2 = true) :
    s.processHead r want = ((s.takeTurn g r).abortEntry r e).issueFetch r := by
  obtain ⟨hcond, hlink⟩ := h.processes (hop.symm ▸ hwant)
  unfold State.processHead
  rw [h.head]
  dsimp only
  rw [if_pos hcond, hlink, hop]
  rfl

theorem HeadDue.processHead_nop (h : HeadDue s r e es g) (hcues : fld (e.getD 0 0#32) 0 4 ≠ 1) (habort : fld (e.getD 0 0#32) 0 4 ≠ 2)
    (hwant : want (fld (e.getD 0 0#32) 0 4) = true) : s.processHead r want = ((s.takeTurn g r).nopEntry r e).issueFetch r := by
  obtain ⟨hcond, hlink⟩ := h.processes hwant
  unfold State.processHead
  rw [h.head]
  dsimp only
  rw [if_pos hcond, hlink]
  split
  · next hop => exact absurd hop hcues
  · next hop => exact absurd hop habort
  · rfl

end

/-! ## An entry done with -/

section
variable {s : State} {r a : Nat}

theorem State.rd_entryDone_ne (s : State) (hw4 : a ≠ Reg.RING_W4 r) (hw5 : a ≠ Reg.RING_W5 r) : (s.entryDone r).rd a = s.rd a := by
  unfold State.entryDone State.wrf
  rw [State.rd_setRing, State.rd_wr_ne _ _ hw5, State.rd_wr_ne _ _ hw4]

/-- CI moves past the entry, and the ring runs. -/
theorem State.entryDone_shows (s : State) (r : Nat) : (s.entryDone r).ringCi r = (s.ringCi r + 1) % 65536 ∧
    (s.entryDone r).rdf (Reg.RING_W5 r) 28 4 = 1 ∧ ((s.entryDone r).ring r).fetched = (s.ring r).fetched.drop 1 := by
  refine ⟨?_, ?_, ?_⟩
  · have hkept : (s.entryDone r).rd (Reg.RING_W4 r) = (s.wrf (Reg.RING_W4 r) 0 16 (s.ringCi r + 1)).rd (Reg.RING_W4 r) := by
      unfold State.entryDone
      rw [State.rd_setRing]
      exact State.rd_wr_ne _ _ (by simp)
    exact (congrArg (fld · 0 16) hkept).trans (s.rdf_wrf_same _ _ (by omega))
  · exact (s.wrf (Reg.RING_W4 r) 0 16 (s.ringCi r + 1)).rdf_wrf_same (Reg.RING_W5 r) (lo := 28) (n := 4) 1 (by omega)
  · unfold State.entryDone
    rw [State.ring_setRing_same]

theorem State.entryDone_onlyWords (s : State) (r : Nat) :
    OnlyWords [Reg.RING_W4 r, Reg.RING_W5 r] { s with rings := (s.entryDone r).rings, out := (s.entryDone r).out } (s.entryDone r) := by
  have hframe := ((OnlyWords.refl [Reg.RING_W4 r, Reg.RING_W5 r] s).wrf (a := Reg.RING_W4 r) 0 16 (s.ringCi r + 1) (by simp)).wrf
    (a := Reg.RING_W5 r) 28 4 1 (by simp)
  exact ⟨hframe.1, congrArg (fun u : State => { u with rings := (s.entryDone r).rings, out := (s.entryDone r).out }) hframe.2⟩

end

/-! ## Rings by the words they stand in -/

section
variable {s t : State} {r : Nat}

theorem State.ringOwner_congr (h : ∀ g, g < 68 → t.rd (Reg.HIF_FNCFG_W1 g) = s.rd (Reg.HIF_FNCFG_W1 g)) (r : Nat) :
    t.ringOwner r = s.ringOwner r :=
  List.find?_congr fun g hg => by
    unfold State.ownsRing State.rdf
    rw [h g (List.mem_range.1 hg)]

theorem State.entryAddr_congr (h : ∀ a, a = Reg.RING_W0 r ∨ a = Reg.RING_W1 r ∨ a = Reg.RING_W2 r → t.rd a = s.rd a) (i : Nat) :
    t.entryAddr r i = s.entryAddr r i := by
  unfold State.entryAddr State.entrySize State.ringType State.ringSize State.rdf
  rw [h _ (.inl rfl), h _ (.inr (.inl rfl)), h _ (.inr (.inr rfl))]

end

/-! ## Completion entries (R246, R247) -/

/-- Ring `cq` of function `g` takes completion entries. -/
structure CqTakes (s : State) (cq g : Nat) : Prop where
  on : s.ringOn cq = true
  complete : s.ringType cq = 1
  owner : s.ringOwner cq = some g
  master : s.dmaOk g = true

theorem CqTakes.postCq {s : State} {cq g : Nat} (h : CqTakes s cq g) (ws : List Word) : s.postCq cq ws = (s.unreserve cq 1).ringPut cq ws := by
  obtain ⟨hon, hcomplete, howner, hmaster⟩ := h
  unfold State.postCq
  rw [hon, hcomplete, howner]
  exact if_pos hmaster

/-- W1 of an entry whose W0 was replaced. -/
theorem getD_one_cons_tail (w d : Word) (ws : List Word) : (w :: ws.tail).getD 1 d = ws.getD 1 d := by
  cases ws with
  | nil => rfl
  | cons => rfl

/-- What a result entry names: its entry, its code. -/
theorem resultEntry_fields (e : List Word) {res : Nat} (h : res < 16) :
    fld ((resultEntry e res).getD 1 0#32) 0 4 = res ∧ fld ((resultEntry e res).getD 1 0#32) 16 16 = fld (e.getD 0 0#32) 16 16 := by
  have hw1 : (resultEntry e res).getD 1 0#32 = put (put 0#32 16 16 (fld (e.getD 0 0#32) 16 16)) 0 4 res := rfl
  rw [hw1, fld_put_same _ _ (by omega), fld_put_ne _ _ (by omega), fld_put_same _ _ (by omega)]
  exact ⟨Nat.mod_eq_of_lt h, Nat.mod_eq_of_lt (fld_lt _ 16 16)⟩

section
variable {s : State} {r g : Nat} (e : List Word)

/-- The entry answered through its CQ: what the ring and the CQ show. -/
structure Answered (s : State) (r g : Nat) (e : List Word) (res : Nat) (t : State) : Prop where
  ci : t.ringCi r = (s.ringCi r + 1) % 65536
  fetched : (t.ring r).fetched = (s.ring r).fetched.drop 1
  runs : t.rdf (Reg.RING_W5 r) 28 4 = 1
  cqPi : t.ringPi (s.cqOf r) = (s.ringPi (s.cqOf r) + 1) % 65536
  batches : t.batches = s.batches
  origins : t.origins = s.origins
  posted : ∃ ws, .dma (g / 17) (g % 17) (s.entryAddr (s.cqOf r) (s.ringPi (s.cqOf r))) ws ∈ t.out ∧ fld (ws.getD 1 0#32) 0 4 = res ∧
    fld (ws.getD 1 0#32) 16 16 = fld (e.getD 0 0#32) 16 16

/-- The ring past its entry, an entry of its CQ reserved and taken back. -/
def State.entryPaid (s : State) (r : Nat) : State := ((s.entryDone r).reserve (s.cqOf r) 1).unreserve (s.cqOf r) 1

theorem State.rd_entryPaid (s : State) (r a : Nat) : (s.entryPaid r).rd a = (s.entryDone r).rd a := by
  unfold State.entryPaid State.unreserve State.reserve
  rw [State.rd_setRing, State.rd_setRing]

theorem State.ring_entryPaid {s : State} {r : Nat} (hcq : r ≠ s.cqOf r) : (s.entryPaid r).ring r = (s.entryDone r).ring r := by
  unfold State.entryPaid State.unreserve State.reserve
  rw [State.ring_setRing_ne _ _ hcq, State.ring_setRing_ne _ _ hcq]

theorem State.entryPaid_batches (s : State) (r : Nat) : (s.entryPaid r).batches = s.batches ∧ (s.entryPaid r).origins = s.origins := ⟨rfl, rfl⟩

/-- A CQ's words and its owner's, beside the entry's own ring. -/
theorem State.rd_entryDone_other (s : State) {r a : Nat} (h : a % 16 ≠ 0 ∧ a < 0x1800000 ∨ a % 32 ≠ 16 ∧ a % 32 ≠ 20) :
    (s.entryDone r).rd a = s.rd a :=
  s.rd_entryDone_ne (by unfold Reg.RING_W4; omega) (by unfold Reg.RING_W5; omega)

theorem State.ringOwner_entryDone (s : State) (r q : Nat) : (s.entryDone r).ringOwner q = s.ringOwner q :=
  State.ringOwner_congr (fun x hx => s.rd_entryDone_other (.inl (by unfold Reg.HIF_FNCFG_W1; omega))) q

/-- The CQ still takes entries. -/
theorem CqTakes.entryDone (h : CqTakes s (s.cqOf r) g) : CqTakes ((s.entryDone r).reserve (s.cqOf r) 1) (s.cqOf r) g := by
  obtain ⟨hon, hcomplete, howner, hmaster⟩ := h
  have hw2 : ((s.entryDone r).reserve (s.cqOf r) 1).rd (Reg.RING_W2 (s.cqOf r)) = s.rd (Reg.RING_W2 (s.cqOf r)) :=
    (State.rd_setRing _ _ _ _).trans (s.rd_entryDone_other (.inr (by unfold Reg.RING_W2; omega)))
  have hkept : ((s.entryDone r).reserve (s.cqOf r) 1).ringOwner (s.cqOf r) = (s.entryDone r).ringOwner (s.cqOf r) :=
    State.ringOwner_congr (fun _ _ => State.rd_setRing _ _ _ _) _
  exact ⟨(congrArg (wbit · 31) hw2).trans hon, (congrArg (fld · 29 2) hw2).trans hcomplete,
    hkept.trans ((s.ringOwner_entryDone r _).trans howner), hmaster⟩

theorem State.entryResult_answers (hcq : r ≠ s.cqOf r) (h : CqTakes s (s.cqOf r) g) (hroom : s.cqRoom (s.cqOf r) ≠ 0) {res : Nat}
    (hres : res < 16) : Answered s r g e res (s.entryResult r e res) := by
  have heq : s.entryResult r e res = (s.entryPaid r).ringPut (s.cqOf r) (resultEntry e res) := by
    unfold State.entryResult
    exact (if_neg hroom).trans (h.entryDone.postCq _)
  have howner : (s.entryPaid r).ringOwner (s.cqOf r) = some g :=
    (State.ringOwner_congr (fun _ _ => s.rd_entryPaid r _) _).trans ((s.ringOwner_entryDone r _).trans h.owner)
  have hcqPi : (s.entryPaid r).ringPi (s.cqOf r) = s.ringPi (s.cqOf r) := congrArg (fld · 16 16) ((s.rd_entryPaid r _).trans
    (s.rd_entryDone_ne (by unfold Reg.RING_W4; omega) (by unfold Reg.RING_W4 Reg.RING_W5; omega)))
  have haddr : ∀ i, (s.entryPaid r).entryAddr (s.cqOf r) i = s.entryAddr (s.cqOf r) i := State.entryAddr_congr fun a ha =>
    (s.rd_entryPaid r a).trans (s.rd_entryDone_other (.inr (by unfold Reg.RING_W0 Reg.RING_W1 Reg.RING_W2 at ha; omega)))
  obtain ⟨hci, hruns, hfetched⟩ := s.entryDone_shows r
  have hci' := (congrArg (fld · 0 16) (s.rd_entryPaid r (Reg.RING_W4 r))).trans hci
  have hruns' := (congrArg (fld · 28 4) (s.rd_entryPaid r (Reg.RING_W5 r))).trans hruns
  have hfetched' := (congrArg RingRec.fetched (State.ring_entryPaid hcq)).trans hfetched
  obtain ⟨hbatches, horigins⟩ := s.entryPaid_batches r
  rw [heq]
  generalize s.entryPaid r = p at *
  have hkept := (RingsKept.refl p).ringPut (s.cqOf r) (resultEntry e res)
  have hevents := State.ringPut_events (.refl [] p) (resultEntry e res) (fld_lt _ 0 15 : s.cqOf r < 32768)
  obtain ⟨hpi, hdma⟩ := State.ringPut_shows (resultEntry e res) howner
  rw [hcqPi] at hpi hdma
  rw [haddr] at hdma
  obtain ⟨hcode, htag⟩ := resultEntry_fields e hres
  exact ⟨(hkept.ci r).trans hci', (hkept.fetched r).trans hfetched', (congrArg (fld · 28 4) (hkept.rd _ (descriptorWord_W5 r))).trans hruns',
    hpi, (congrArg State.batches hevents.2).trans hbatches, (congrArg State.origins hevents.2).trans horigins, _, hdma,
    by rwa [getD_one_cons_tail], by rwa [getD_one_cons_tail]⟩

/-- Without room the ring waits, its entry kept. -/
theorem State.entryResult_waits (hroom : s.cqRoom (s.cqOf r) = 0) (res : Nat) : s.entryResult r e res = s.cqWait r := by
  unfold State.entryResult
  exact if_pos hroom

theorem State.cqWait_shows (s : State) (r : Nat) : (s.cqWait r).rdf (Reg.RING_W5 r) 28 4 = 2 ∧ (s.cqWait r).ring r = s.ring r ∧
    (s.cqWait r).ringCi r = s.ringCi r :=
  ⟨s.rdf_wrf_same _ _ (by omega), rfl, s.rdf_wr_ne _ _ _ (by simp)⟩

end

end Sys2Proof.Machine
end

section
/-! PROOF. O47, the second part: each kind of entry, and the obligation. -/
namespace Sys2Proof.Machine

/-! ## A refused entry (R246) -/

section
variable {s t u : State} {r g : Nat} {e : List Word} {res : Nat}

/-- What follows the answer and leaves the rings' words and entries, the batches, and what was sent. -/
theorem Answered.of_kept (h : Answered s r g e res u) (hrd : ∀ a, 0x1800000 ≤ a → t.rd a = u.rd a)
    (hfetched : (t.ring r).fetched = (u.ring r).fetched) (hrest : t.batches = u.batches ∧ t.origins = u.origins) (hout : Extends u t) :
    Answered s r g e res t := by
  obtain ⟨hci, hentries, hruns, hcqPi, hbatches, horigins, ws, hdma, hcode⟩ := h
  exact ⟨(congrArg (fld · 0 16) (hrd _ (by unfold Reg.RING_W4; omega))).trans hci, hfetched.trans hentries,
    (congrArg (fld · 28 4) (hrd _ (by unfold Reg.RING_W5; omega))).trans hruns,
    (congrArg (fld · 16 16) (hrd _ (by unfold Reg.RING_W4; omega))).trans hcqPi, hrest.1.trans hbatches, hrest.2.trans horigins,
    ws, hout.mem hdma, hcode⟩

theorem Answered.issueFetch (h : Answered s r g e res u) (q : Nat) : Answered s r g e res (u.issueFetch q) :=
  h.of_kept (fun a _ => u.rd_issueFetch q a) (u.fetched_issueFetch q r)
    ⟨(congrArg State.batches (u.issueFetch_eq q)).trans rfl, (congrArg State.origins (u.issueFetch_eq q)).trans rfl⟩
    (State.issueFetch_keeps q (.refl u)).2.1

theorem State.rd_lampStat_high (s : State) {a : Nat} (h : 0x1800000 ≤ a) : s.lampStat.rd a = s.rd a :=
  s.lampStat_onlyWords.rd (by simp [Reg.LMP_STAT, Reg.LMP_ARMTIME, Reg.WHL_STAT, Reg.TOL_STAT]; omega)

theorem Answered.lampStat (h : Answered s r g e res u) : Answered s r g e res u.lampStat :=
  h.of_kept (fun _ ha => u.rd_lampStat_high ha) rfl ⟨rfl, rfl⟩ (State.lampStat_keeps (.refl u)).2.1

/-- The ring waits for completion space, its entry kept (R246). -/
structure Waits (s : State) (r : Nat) (t : State) : Prop where
  waits : t.rdf (Reg.RING_W5 r) 28 4 = 2
  ring : t.ring r = s.ring r
  ci : t.ringCi r = s.ringCi r

theorem Waits.issueFetch (h : Waits s r u) : u.issueFetch r = u :=
  State.issueFetch_idle (by rw [h.waits]; omega)

theorem Waits.lampStat (h : Waits s r u) : Waits s r u.lampStat := by
  obtain ⟨hwaits, hring, hci⟩ := h
  exact ⟨(congrArg (fld · 28 4) (u.rd_lampStat_high (by unfold Reg.RING_W5; omega))).trans hwaits, hring,
    (congrArg (fld · 0 16) (u.rd_lampStat_high (by unfold Reg.RING_W4; omega))).trans hci⟩

/-- An entry answered or kept waiting, and the fetch that follows. -/
theorem State.entryResult_effect (e : List Word) (hcq : r ≠ s.cqOf r) (h : CqTakes s (s.cqOf r) g) (hres : res < 16) :
    (s.cqRoom (s.cqOf r) ≠ 0 → Answered s r g e res ((s.entryResult r e res).issueFetch r)) ∧
      (s.cqRoom (s.cqOf r) = 0 → Waits s r ((s.entryResult r e res).issueFetch r)) := by
  refine ⟨fun hroom => (s.entryResult_answers e hcq h hroom hres).issueFetch r, fun hroom => ?_⟩
  obtain ⟨hwaits, hring, hci⟩ := s.cqWait_shows r
  have hkept : Waits s r (s.entryResult r e res) := by
    rw [s.entryResult_waits e hroom]
    exact ⟨hwaits, hring, hci⟩
  rw [hkept.issueFetch]
  exact hkept

theorem State.cuesEntry_unsound (h : entrySound e = false) : s.cuesEntry r e = s.entryResult r e 3 := by
  unfold State.cuesEntry
  exact if_pos (by simp [h])

theorem State.abortEntry_unsound (h : entrySound e = false) : s.abortEntry r e = s.entryResult r e 3 := by
  unfold State.abortEntry
  exact if_pos (by simp [h])

theorem State.nopEntry_unsound (h : entrySound e = false) : s.nopEntry r e = s.entryResult r e 3 := by
  unfold State.nopEntry
  exact if_pos (by simp [h])

end

section
variable {s : State} {r : Fin 32768} {e : List Word} {es : List (List Word)} {g : Nat}

/-- The command that processes an entry, by the entry's OPC. -/
def ProcessesHead (c : Instr) (r : Fin 32768) (op : Nat) : Prop :=
  (c = .cues r ∧ op = 1) ∨ (c = .abort r ∧ op = 2) ∨ (c = .nop r ∧ op ≠ 1 ∧ op ≠ 2)

/-- An entry that check 1 of R246 refuses, whatever its OPC. -/
theorem HeadDue.exec_unsound (h : HeadDue s r e es g) (hbad : entrySound e = false) {c : Instr} (hc : ProcessesHead c r (fld (e.getD 0 0#32) 0 4)) :
    exec c s = .next (((s.takeTurn g r).entryResult r e 3).issueFetch r) ∨
      exec c s = .next (((s.takeTurn g r).entryResult r e 3).issueFetch r).lampStat := by
  rcases hc with ⟨rfl, hop⟩ | ⟨rfl, hop⟩ | ⟨rfl, hcues, habort⟩
  · right
    refine congrArg (fun u : State => Host.Outcome.next u.lampStat) ((h.processHead_cues hop rfl).trans ?_)
    rw [State.cuesEntry_unsound hbad]
  · left
    refine congrArg Host.Outcome.next ((h.processHead_abort hop rfl).trans ?_)
    rw [State.abortEntry_unsound hbad]
  · left
    refine congrArg Host.Outcome.next ((h.processHead_nop hcues habort (by simp only [Bool.and_eq_true, bne_iff_ne]; exact ⟨hcues, habort⟩)).trans ?_)
    rw [State.nopEntry_unsound hbad]

theorem HeadDue.apart (h : HeadDue s r e es g) (hcq : CqTakes s (s.cqOf r) g) : r.val ≠ s.cqOf r := fun heq => by
  have hsubmit := h.submit
  rw [heq, hcq.complete] at hsubmit
  omega

/-- The CQ and the ring as the turn leaves them. -/
theorem CqTakes.takeTurn {cq : Nat} (h : CqTakes s cq g) (q : Nat) : CqTakes (s.takeTurn g q) cq g := ⟨h.on, h.complete, h.owner, h.master⟩

theorem HeadDue.refuses (h : HeadDue s r e es g) (hcq : CqTakes s (s.cqOf r) g) {c : Instr} (hc : ProcessesHead c r (fld (e.getD 0 0#32) 0 4)) :
    ∃ t, exec c s = .next t ∧ (entrySound e = false → s.cqRoom (s.cqOf r) ≠ 0 → Answered (s.takeTurn g r) r g e 3 t) ∧
      (entrySound e = false → s.cqRoom (s.cqOf r) = 0 → Waits s r t) := by
  cases hsound : entrySound e with
  | true =>
    obtain ⟨t, hexec, -⟩ := exec_answers s c
    exact ⟨t, hexec, fun hbad => Bool.noConfusion hbad, fun hbad => Bool.noConfusion hbad⟩
  | false =>
    obtain ⟨hanswered, hwaits⟩ := State.entryResult_effect (s := s.takeTurn g r) (res := 3) e (h.apart hcq) (hcq.takeTurn r) (by omega)
    have hwaits' : s.cqRoom (s.cqOf r) = 0 → Waits s r (((s.takeTurn g r).entryResult r e 3).issueFetch r) := fun hroom =>
      ⟨(hwaits hroom).waits, (hwaits hroom).ring, (hwaits hroom).ci⟩
    rcases h.exec_unsound hsound hc with hexec | hexec
    · exact ⟨_, hexec, fun _ => hanswered, fun _ => hwaits'⟩
    · exact ⟨_, hexec, fun _ hroom => (hanswered hroom).lampStat, fun _ hroom => (hwaits' hroom).lampStat⟩

/-! ## NOP (R246) -/

theorem State.nopEntry_done {r : Nat} (hsound : entrySound e = true) (hack : wbit (e.getD 0 0#32) 8 = false) (hroom : s.cqRoom (s.cqOf r) ≠ 0) :
    s.nopEntry r e = s.entryDone r := by
  unfold State.nopEntry
  rw [if_neg (by simp [hsound]), if_neg (by rw [hack]; exact Bool.false_ne_true), if_neg hroom]

/-- An entry done with, and the fetch that follows. -/
theorem State.entryDone_fetches (s : State) (r : Nat) :
    ((s.entryDone r).issueFetch r).ringCi r = (s.ringCi r + 1) % 65536 ∧ ((s.entryDone r).issueFetch r).rdf (Reg.RING_W5 r) 28 4 = 1 ∧
      (((s.entryDone r).issueFetch r).ring r).fetched = (s.ring r).fetched.drop 1 ∧
      OnlyWords [Reg.RING_W4 r, Reg.RING_W5 r] { s with rings := ((s.entryDone r).issueFetch r).rings, out := ((s.entryDone r).issueFetch r).out }
        ((s.entryDone r).issueFetch r) := by
  obtain ⟨hci, hruns, hfetched⟩ := s.entryDone_shows r
  exact ⟨(congrArg (fld · 0 16) (State.rd_issueFetch _ r _)).trans hci, (congrArg (fld · 28 4) (State.rd_issueFetch _ r _)).trans hruns,
    (State.fetched_issueFetch _ r r).trans hfetched, (s.entryDone_onlyWords r).issueFetch r⟩

/-- A NOP at the head done with, by whichever command takes it up. -/
theorem HeadDue.nop_done (h : HeadDue s r e es g) (hop : fld (e.getD 0 0#32) 0 4 = 0) (hsound : entrySound e = true)
    (hack : wbit (e.getD 0 0#32) 8 = false) (hroom : s.cqRoom (s.cqOf r) ≠ 0) {want : Nat → Bool} (hwant : want 0 = true) :
    s.processHead r want = ((s.takeTurn g r).entryDone r).issueFetch r := by
  refine (h.processHead_nop (by omega) (by omega) (hop.symm ▸ hwant)).trans ?_
  rw [State.nopEntry_done (s := s.takeTurn g r) hsound hack hroom]

/-! ## CUES and ABORT (R246, R247) -/

/-- A run is cut by its cues' LINK bits alone. -/
theorem State.splitBatches_congr {s t : State} (h : ∀ q, t.cue q = s.cue q) (acc qs : List Nat) : t.splitBatches acc qs = s.splitBatches acc qs := by
  induction qs generalizing acc with
  | nil => rfl
  | cons q qs ih =>
    unfold State.splitBatches
    rw [h q, ih, ih]

theorem State.runEntries_takeTurn (s : State) (g r q n : Nat) : (s.takeTurn g r).runEntries q n = s.runEntries q n := by
  have hcue : ∀ i, (s.takeTurn g r).cue i = s.cue i := fun _ => rfl
  unfold State.runEntries
  rw [State.splitBatches_congr hcue]
  rfl

theorem State.cuesEntry_submits {r : Nat} (howner : s.ringOwner r = some g) (hsound : entrySound e = true) {w0 w1 : Word} (hw0 : e.getD 0 0#32 = w0)
    (hw1 : e.getD 1 0#32 = w1) {q n : Nat} (hq : fld w1 0 16 = q) (hcount : fld w1 16 13 = n) (hpos : 0 < n) (hmax : n ≤ 4096)
    (hend : q + n ≤ 65536) (hclean : (List.range' q n).any s.cuePoisoned = false) (hrange : s.runInRange g q n = true)
    (hidle : (List.range' q n).any s.cueBusy = false) (hsize : 1 + s.runEntries q n ≤ s.ringSize (s.cqOf r))
    (hroom : 1 + s.runEntries q n ≤ s.cqRoom (s.cqOf r)) (hack : wbit w0 8 = false) :
    s.cuesEntry r e = ((s.entryDone r).reserve (s.cqOf r) (1 + s.runEntries q n - 1)).submitRun q n (s.fnPart g)
      (.ring (s.cqOf r) g (fld w0 16 16)) := by
  unfold State.cuesEntry
  rw [hw0, hw1]
  dsimp only
  rw [hq, hcount, howner, hack, Option.getD_some]
  rw [if_neg (by simp [hsound, hclean]; omega), if_neg (by simp [hrange]), if_neg (by rw [hidle]; exact Bool.false_ne_true),
    if_neg (by omega), if_neg (by omega)]
  rfl

theorem State.abortEntry_aborts {r : Nat} (howner : s.ringOwner r = some g) (hsound : entrySound e = true) (hroom : s.cqRoom (s.cqOf r) ≠ 0) :
    s.abortEntry r e = ((s.entryDone r).reserve (s.cqOf r) 1).abortFor (fld (e.getD 1 0#32) 0 16) (s.fnPart g)
      (.ring (s.cqOf r) g (fld (e.getD 0 0#32) 16 16)) := by
  unfold State.abortEntry
  dsimp only
  rw [if_neg (by simp [hsound]), if_neg hroom, howner]
  rfl

end

/-! ## Completion space freed (R246) -/

theorem cqSpaceFreed_idle {s : State} {r : Fin 32768} (h : s.rdf (Reg.RING_W5 r) 28 4 ≠ 2) : exec (.cqSpaceFreed r) s = .next s :=
  congrArg Host.Outcome.next (if_neg (by simpa using h))

/-- Settles O47: fetches, then the entry at the head by the check it fails or the OPC it has, and a ring that waits. -/
theorem submitEntries : Obligations.SubmitEntries := by
  unfold Obligations.SubmitEntries
  refine ⟨fun s r es => submitFetch_queues es, fun s r e es g hon htype hdue hallowed hhead howner hcqOn hcqType hcqOwner hmaster => ?_,
    fun s r => cqSpaceFreed_idle⟩
  have h : HeadDue s r e es g := ⟨hon, htype, hdue, hallowed, hhead, howner⟩
  have hcq : CqTakes s (s.cqOf r) g := ⟨hcqOn, hcqType, hcqOwner, hmaster⟩
  intro s0 w0 w1 op cq
  have hdrop : (s.ring r).fetched.drop 1 = es := by rw [hhead]; rfl
  obtain ⟨hci, hruns, hfetched, hframe⟩ := s0.entryDone_fetches r
  refine ⟨fun c hc => ?_, fun hop hsound hack hroom => ?_, ?_,
    fun hop hsound hroom => ?_, fun hwaits hop hsound hack hroom => ?_⟩
  · obtain ⟨t, hexec, hanswered, hwaits⟩ := h.refuses hcq hc
    refine ⟨t, hexec, fun hbad hroom => ?_, fun hbad hroom => ?_⟩
    · obtain ⟨hnext, hentries, hstate, hpi, hbatches, horigins, hposted⟩ := hanswered hbad hroom
      exact ⟨hnext, hentries.trans hdrop, hstate, hpi, hbatches, horigins, hposted⟩
    · obtain ⟨hstate, hring, hsame⟩ := hwaits hbad hroom
      exact ⟨hstate, hring, hsame⟩
  · exact ⟨_, congrArg Host.Outcome.next (h.nop_done hop hsound hack hroom rfl), hci, hfetched.trans hdrop, hframe⟩
  · intro hop hsound q n need hpos hmax hend hclean hrange hidle hsize hroom hack
    refine ⟨_, congrArg (fun u : State => Host.Outcome.next u.lampStat) (h.processHead_cues hop rfl), ?_⟩
    have hneed : 1 + (s.takeTurn g r).runEntries q n = need := congrArg (1 + ·) (s.runEntries_takeTurn g r q n)
    rw [State.cuesEntry_submits (s := s.takeTurn g r) howner hsound (w0 := w0) rfl (w1 := w1) rfl rfl rfl hpos hmax hend hclean hrange hidle
      (hneed.trans_le hsize) (hneed.trans_le hroom) hack, hneed]
    rfl
  · refine ⟨_, congrArg Host.Outcome.next (h.processHead_abort hop rfl), ?_⟩
    rw [State.abortEntry_aborts (s := s.takeTurn g r) howner hsound hroom]
    rfl
  · have hexec : execCqSpaceFreed r s = .next ((s0.entryDone r).issueFetch r) :=
      congrArg Host.Outcome.next ((if_pos (by simpa using hwaits)).trans (h.nop_done hop hsound hack hroom rfl))
    exact ⟨_, hexec, hci, hruns, hfetched.trans hdrop, hframe⟩

end Sys2Proof.Machine
end

section
/-! PROOF. O48: the interrupt timer, DMA errors and poisoned writes, and what the Crier emits. -/
namespace Sys2Proof.Machine

/-! ## The interrupt timer (R254) -/

section
variable {s : State} {r : Fin 32768} {g : Nat}

theorem State.ring_msixSend (s : State) (g v r : Nat) : (s.msixSend g v).ring r = s.ring r := by
  unfold State.msixSend
  dsimp only
  split
  · rfl
  · rfl

theorem exec_interruptTimer (howner : s.ringOwner r = some g) (htiming : (s.ring r).timing = true) (hunsent : (s.ring r).unsignalled ≠ 0)
    (hcount : s.rdf (Reg.RING_W3 r) 0 16 ≠ 0) (hperiod : s.rdf (Reg.RING_W3 r) 16 16 ≠ 0) : exec (.interruptTimer r) s =
      .next ((s.setRing r { s.ring r with unsignalled := 0, timing := false }).msixSend g (s.rdf (Reg.RING_W2 r) 16 8)) := by
  have hdue : ((s.ring r).timing && (s.ring r).unsignalled != 0 && s.rdf (Reg.RING_W3 r) 0 16 != 0 && s.rdf (Reg.RING_W3 r) 16 16 != 0) = true := by
    simp [htiming, hunsent, hcount, hperiod]
  refine (congrArg Host.Outcome.next (if_pos hdue)).trans ?_
  rw [howner]
  rfl

theorem interruptTimer_sends (howner : s.ringOwner r = some g) (htiming : (s.ring r).timing = true) (hunsent : (s.ring r).unsignalled ≠ 0)
    (hcount : s.rdf (Reg.RING_W3 r) 0 16 ≠ 0) (hperiod : s.rdf (Reg.RING_W3 r) 16 16 ≠ 0) : ∃ t,
      exec (.interruptTimer r) s = .next t ∧ t.ring r = { s.ring r with unsignalled := 0, timing := false } ∧
      ((s.cfg g).masked.contains (s.rdf (Reg.RING_W2 r) 16 8) = false → t = { s with out := t.out, rings := t.rings } ∧
        t.out = .msix (g / 17) (g % 17) (s.rdf (Reg.RING_W2 r) 16 8) :: s.out) ∧
      ((s.cfg g).masked.contains (s.rdf (Reg.RING_W2 r) 16 8) = true → t = { s with fnCfg := t.fnCfg, rings := t.rings } ∧
        (t.cfg g).pendingVecs.contains (s.rdf (Reg.RING_W2 r) 16 8) = true) := by
  refine ⟨_, exec_interruptTimer howner htiming hunsent hcount hperiod, (State.ring_msixSend _ _ _ _).trans (State.ring_setRing_same _ _ _),
    fun hclear => ?_, fun hmasked => ?_⟩
  · have hsent : (s.setRing r { s.ring r with unsignalled := 0, timing := false }).msixSend g (s.rdf (Reg.RING_W2 r) 16 8) =
        (s.setRing r { s.ring r with unsignalled := 0, timing := false }).send (.msix (g / 17) (g % 17) (s.rdf (Reg.RING_W2 r) 16 8)) :=
      if_neg (Bool.eq_false_iff.1 hclear)
    rw [hsent]
    exact ⟨rfl, rfl⟩
  · have hpending : (s.setRing r { s.ring r with unsignalled := 0, timing := false }).msixSend g (s.rdf (Reg.RING_W2 r) 16 8) =
        (s.setRing r { s.ring r with unsignalled := 0, timing := false }).setCfg g
          { s.cfg g with pendingVecs := (s.rdf (Reg.RING_W2 r) 16 8 :: (s.cfg g).pendingVecs).eraseDups } := if_pos hmasked
    rw [hpending]
    refine ⟨rfl, ?_⟩
    rw [State.cfg_setCfg_same]
    exact List.contains_iff_mem.2 (List.mem_eraseDups.2 List.mem_cons_self)

theorem interruptTimer_idle (h : (s.ring r).timing = false ∨ s.rdf (Reg.RING_W3 r) 16 16 = 0) : exec (.interruptTimer r) s = .next s := by
  have hnot : ¬ ((s.ring r).timing && (s.ring r).unsignalled != 0 && s.rdf (Reg.RING_W3 r) 0 16 != 0 && s.rdf (Reg.RING_W3 r) 16 16 != 0) = true := by
    rcases h with h | h
    · simp [h]
    · simp [h]
  exact congrArg Host.Outcome.next (if_neg hnot)

/-! ## DMA errors and poisoned writes (R255) -/

theorem dmaErrorCompletion_halts (p : Bool) (hon : s.ringOn r = true) : ∃ t, exec (.dmaErrorCompletion r p) s = .next t ∧
    t.rdf (Reg.RING_W5 r) 28 4 = 3 ∧ t.rdf (Reg.RING_W5 r) 24 4 = (if p then 2 else 1) ∧ t.ringCi r = s.ringCi r ∧
    (t.ring r).fetched = [] ∧ (t.ring r).asked = 0 ∧ t.bit Reg.HIF_ERRSTAT 2 = true ∧ WordsAndEvents [Reg.RING_W5 r, Reg.HIF_ERRSTAT] s t := by
  obtain ⟨hstate, herr⟩ := s.setRingState_shows r (st := 3) (e := if p then 2 else 1) (by omega) (by split <;> omega)
  have hci : (s.setRingState r 3 (if p then 2 else 1)).ringCi r = s.ringCi r :=
    congrArg (fld · 0 16) (s.rd_setRingState_ne _ _ (by simp))
  have hframe := ((WordsAndEvents.refl [Reg.RING_W5 r, Reg.HIF_ERRSTAT] s).wrf (a := Reg.RING_W5 r) 24 8 (16 * 3 + if p then 2 else 1)
    (.inl (by simp))).setRing r { s.ring r with fetched := [], asked := 0 }
  have hexec : exec (.dmaErrorCompletion r p) s = .next (((s.setRingState r 3 (if p then 2 else 1)).setRing r
      { s.ring r with fetched := [], asked := 0 }).err Reg.HIF_ERRSTAT 2) := congrArg Host.Outcome.next (if_pos hon)
  have hkept := (RingsKept.refl ((s.setRingState r 3 (if p then 2 else 1)).setRing r { s.ring r with fetched := [], asked := 0 })).err
    (a := Reg.HIF_ERRSTAT) 2 (by decide)
  have hw5 := hkept.rd _ (descriptorWord_W5 r)
  have hring := (s.setRingState r 3 (if p then 2 else 1)).ring_setRing_same r { s.ring r with fetched := [], asked := 0 }
  exact ⟨_, hexec, (congrArg (fld · 28 4) hw5).trans hstate, (congrArg (fld · 24 4) hw5).trans herr, (hkept.ci r).trans hci,
    (hkept.fetched r).trans (congrArg RingRec.fetched hring), (hkept.asked r).trans (congrArg RingRec.asked hring),
    State.err_bit _ (by omega) (by decide), State.err_events hframe 2 (by simp)⟩

end

theorem poisonedWrite_flags (s : State) (x : Access) : ∃ t, exec (.poisonedWrite x) s = .next t ∧ t.bit Reg.HIF_ERRSTAT 3 = true ∧
    WordsAndEvents [Reg.HIF_ERRSTAT] s t := ⟨_, rfl, s.err_hifErrstat (by omega)⟩

/-! ## Emissions (R252, R253) -/

section
variable {s : State} {i : Fin 64}

/-- The stream's count of emissions moved on. -/
def State.emitting (s : State) (i : Nat) : State := { s with emissions := Store.set 0 s.emissions i ((s.emitted i + 1) % 2 ^ 32) }

/-- The sequence number of the records that stream `i` emits at `s` (Table 10-11). -/
def State.telSeq (s : State) (i : Nat) : Word :=
  let w := s.rd (Reg.HIF_CRSTREAM_W0 i)
  if fld w 28 3 = 0 then s.rd (Reg.TAL_SNAPSEQ (fld w 16 6)) else if fld w 28 3 = 1 then s.rd Reg.CIR_FSSEQ else wd ((s.emitted i + 1) % 2 ^ 32)

/-- W0 of the record of index `k` that stream `i` emits at `s`, without its PHASE. -/
def State.telHead (s : State) (i k : Nat) : Word :=
  let w := s.rd (Reg.HIF_CRSTREAM_W0 i)
  pack [(28, 3, fld w 28 3), (22, 6, i), (16, 6, if fld w 28 3 = 1 then 0 else fld w 16 6), (0, 16, k)]

/-- The record of index `k` that stream `i` emits at `s` for the ring's owner `g`. -/
def State.telEntry (s : State) (i g k : Nat) : List Word :=
  let w := s.rd (Reg.HIF_CRSTREAM_W0 i)
  let src := fld w 28 3
  let t := fld w 16 6
  let body := s.telPayload g src t k
  [s.telHead i k, s.telSeq i,
    if src = 0 then s.rd (Reg.TAL_SNAPLO t) else wd (nsecOf s.ns), if src = 0 then s.rd (Reg.TAL_SNAPHI t) else wd (secOf s.ns),
    0#32, 0#32, 0#32, 0#32] ++ body ++ List.replicate (8 - body.length) 0#32

theorem State.telEntry_words (s : State) (i g k : Nat) :
    (s.telEntry i g k).headD 0#32 = s.telHead i k ∧ (s.telEntry i g k).getD 1 0#32 = s.telSeq i := ⟨rfl, rfl⟩

/-- The indexes that stream `i` emits. -/
def State.telIndexes (s : State) (i : Nat) : List Nat :=
  (List.range' (s.rdf (Reg.HIF_CRSTREAM_W1 i) 0 16) (s.rdf (Reg.HIF_CRSTREAM_W1 i) 16 16)).filter fun k =>
    decide (k < telCount (s.rdf (Reg.HIF_CRSTREAM_W0 i) 28 3))

/-- The function that owns the stream's ring. -/
def State.telOwner (s : State) (i : Nat) : Nat := (s.ringOwner (s.rdf (Reg.HIF_CRSTREAM_W0 i) 0 15)).getD 0

/-- The records of one instant, offered in the order of their indexes. -/
def State.emit (s : State) (i : Nat) : State :=
  (s.telIndexes i).foldl (fun u k => u.telRecord i (s.telOwner i) (s.telEntry i (s.telOwner i) k)) (s.emitting i)

theorem telemetryEmission_off {k : Nat} (h : s.bit (Reg.HIF_CRSTREAM_W0 i) 31 = false ∨ s.crierStopped = true) :
    exec (.telemetryEmission i k) s = .next s := by
  have hoff : (!s.bit (Reg.HIF_CRSTREAM_W0 i) 31 || s.crierStopped) = true := by
    rcases h with h | h
    · simp [h]
    · simp [h]
  exact if_pos hoff

theorem telemetryEmission_changed {k : Nat} (hon : s.bit (Reg.HIF_CRSTREAM_W0 i) 31 = true) (hrun : s.crierStopped = false)
    (hsrc : s.rdf (Reg.HIF_CRSTREAM_W0 i) 28 3 = 0) (hk : 0 < k) : ∃ t, exec (.telemetryEmission i k) s = .next t ∧
      t.rdf (Reg.HIF_CRSTREAM_W3 i) 0 16 = satN 16 (s.rdf (Reg.HIF_CRSTREAM_W3 i) 0 16 + 1) ∧ OnlyWords [Reg.HIF_CRSTREAM_W3 i] s t := by
  have hoff : ¬ (!s.bit (Reg.HIF_CRSTREAM_W0 i) 31 || s.crierStopped) = true := by simp [hon, hrun]
  have hmoved : ((s.rdf (Reg.HIF_CRSTREAM_W0 i) 28 3 == 0 && decide (1 ≤ k)) ||
      (s.rdf (Reg.HIF_CRSTREAM_W0 i) 28 3 == 1 && (decide (4 ≤ k) || s.fsOpen))) = true := by
    rw [hsrc, decide_eq_true (Nat.one_le_iff_ne_zero.2 hk.ne')]
    rfl
  exact ⟨_, (if_neg hoff).trans (if_pos hmoved), s.rdf_count_same _ 1 (by omega), (OnlyWords.refl _ s).count _ _ _ (List.mem_singleton.2 rfl)⟩

theorem exec_telemetryEmission (hon : s.bit (Reg.HIF_CRSTREAM_W0 i) 31 = true) (hrun : s.crierStopped = false)
    (hstill : s.rdf (Reg.HIF_CRSTREAM_W0 i) 28 3 ≠ 1 ∨ s.fsOpen = false) : exec (.telemetryEmission i 0) s = .next (s.emit i) := by
  have hoff : ¬ (!s.bit (Reg.HIF_CRSTREAM_W0 i) 31 || s.crierStopped) = true := by simp [hon, hrun]
  have hmoved : ¬ ((s.rdf (Reg.HIF_CRSTREAM_W0 i) 28 3 == 0 && decide (1 ≤ 0)) ||
      (s.rdf (Reg.HIF_CRSTREAM_W0 i) 28 3 == 1 && (decide (4 ≤ 0) || s.fsOpen))) = true := by
    rcases hstill with h | h
    · simp [h]
    · simp [h]
  exact (if_neg hoff).trans (if_neg hmoved)

/-- A record goes to its ring or is counted. -/
theorem State.telRecord_events {as : List Nat} {t : State} (h : WordsAndEvents as s t) (i g : Nat) (ws : List Word)
    (ha : Reg.HIF_CRSTREAM_W3 i ∈ as) : WordsAndEvents as s (t.telRecord i g ws) := by
  unfold State.telRecord
  dsimp only
  split
  · exact State.ringPut_events h ws (fld_lt _ 0 15)
  · exact h.count _ _ _ (.inl ha)

theorem State.emit_events (s : State) (i : Nat) : WordsAndEvents [Reg.HIF_CRSTREAM_W3 i] (s.emitting i) (s.emit i) :=
  WordsAndEvents.each _ _ (fun _ _ _ hu => State.telRecord_events hu i _ _ (List.mem_singleton.2 rfl)) (.refl _ _)

theorem State.emit_counts (s : State) (i : Nat) : (s.emit i).emitted i = (s.emitted i + 1) % 2 ^ 32 ∧
    WordsAndEvents [Reg.HIF_CRSTREAM_W3 i] { s with emissions := (s.emit i).emissions } (s.emit i) := by
  have hevents := s.emit_events i
  have hsame : (s.emit i).emissions = (s.emitting i).emissions := (congrArg State.emissions hevents.2).trans rfl
  have hbase : { s with emissions := (s.emit i).emissions } = s.emitting i := congrArg (fun x => { s with emissions := x }) hsame
  refine ⟨(congrArg (Store.get 0 · i) hsame).trans (Store.get_set_same _ _ _ _), ?_⟩
  rw [hbase]
  exact hevents

/-- W0 of a record names its source, its stream and its index, whatever its PHASE. -/
theorem telHead_fields {i k : Nat} (t : Nat) (phase : Bool) (hi : i < 64) (hk : k < 65536) :
    let w := putBit (pack [(28, 3, 0), (22, 6, i), (16, 6, t), (0, 16, k)]) 31 phase
    fld w 28 3 = 0 ∧ fld w 22 6 = i ∧ fld w 0 16 = k := by
  have hw : pack [(28, 3, 0), (22, 6, i), (16, 6, t), (0, 16, k)] = put (put (put (put 0#32 28 3 0) 22 6 i) 16 6 t) 0 16 k := rfl
  dsimp only
  unfold putBit
  rw [hw]
  refine ⟨?_, ?_, ?_⟩
  · rw [fld_put_ne _ _ (by omega), fld_put_ne _ _ (by omega), fld_put_ne _ _ (by omega), fld_put_ne _ _ (by omega), fld_put_same _ _ (by omega)]
    rfl
  · rw [fld_put_ne _ _ (by omega), fld_put_ne _ _ (by omega), fld_put_ne _ _ (by omega), fld_put_same _ _ (by omega)]
    exact Nat.mod_eq_of_lt hi
  · rw [fld_put_ne _ _ (by omega), fld_put_same _ _ (by omega)]
    exact Nat.mod_eq_of_lt hk

/-- A record that the stream's ring takes. -/
theorem State.telRecord_taken {i g : Nat} {ws : List Word} (hon : s.ringOn (s.rdf (Reg.HIF_CRSTREAM_W0 i) 0 15) = true)
    (htype : s.ringType (s.rdf (Reg.HIF_CRSTREAM_W0 i) 0 15) = 3) (hmaster : s.dmaOk g = true)
    (hfree : s.ringFree (s.rdf (Reg.HIF_CRSTREAM_W0 i) 0 15) ≠ 0) : s.telRecord i g ws = s.ringPut (s.rdf (Reg.HIF_CRSTREAM_W0 i) 0 15) ws := by
  unfold State.telRecord
  exact if_pos (by simp [hon, htype, hmaster, hfree])

/-- An emission of one index is one record. -/
theorem State.emit_one {i k : Nat} (hsrc : s.rdf (Reg.HIF_CRSTREAM_W0 i) 28 3 = 0) (hfirst : s.rdf (Reg.HIF_CRSTREAM_W1 i) 0 16 = k)
    (hone : s.rdf (Reg.HIF_CRSTREAM_W1 i) 16 16 = 1) (hk : k < 92) :
    s.emit i = (s.emitting i).telRecord i (s.telOwner i) (s.telEntry i (s.telOwner i) k) := by
  have hindexes : s.telIndexes i = [k] := by
    unfold State.telIndexes
    rw [hsrc, hfirst, hone]
    simp [telCount, hk]
  unfold State.emit
  rw [hindexes]
  rfl

theorem State.emit_record {i r g k : Nat} (hi : i < 64) (hsrc : s.rdf (Reg.HIF_CRSTREAM_W0 i) 28 3 = 0)
    (hfirst : s.rdf (Reg.HIF_CRSTREAM_W1 i) 0 16 = k) (hone : s.rdf (Reg.HIF_CRSTREAM_W1 i) 16 16 = 1) (hk : k < 92)
    (hr : s.rdf (Reg.HIF_CRSTREAM_W0 i) 0 15 = r) (hon : s.ringOn r = true) (htype : s.ringType r = 3) (howner : s.ringOwner r = some g)
    (hmaster : s.dmaOk g = true) (hfree : s.ringFree r ≠ 0) : (s.emit i).ringPi r = (s.ringPi r + 1) % 65536 ∧
      ∃ ws, .dma (g / 17) (g % 17) (s.entryAddr r (s.ringPi r)) ws ∈ (s.emit i).out ∧ fld (ws.getD 0 0#32) 28 3 = 0 ∧
        fld (ws.getD 0 0#32) 22 6 = i ∧ fld (ws.getD 0 0#32) 0 16 = k ∧
        ws.getD 1 0#32 = s.rd (Reg.TAL_SNAPSEQ (s.rdf (Reg.HIF_CRSTREAM_W0 i) 16 6)) := by
  subst hr
  have howns : s.telOwner i = g := by
    unfold State.telOwner
    rw [howner]
    rfl
  have htaken := (State.emit_one hsrc hfirst hone hk).trans (State.telRecord_taken (s := s.emitting i) hon htype (howns ▸ hmaster) hfree)
  obtain ⟨hpi, hdma⟩ := State.ringPut_shows (s := s.emitting i) (s.telEntry i (s.telOwner i) k) howner
  have hseq : s.telSeq i = s.rd (Reg.TAL_SNAPSEQ (s.rdf (Reg.HIF_CRSTREAM_W0 i) 16 6)) := if_pos hsrc
  obtain ⟨hhead, hsecond⟩ := s.telEntry_words i (s.telOwner i) k
  have hplain : s.telHead i k = pack [(28, 3, 0), (22, 6, i), (16, 6, s.rdf (Reg.HIF_CRSTREAM_W0 i) 16 6), (0, 16, k)] := by
    have hzero : fld (s.rd (Reg.HIF_CRSTREAM_W0 i)) 28 3 = 0 := hsrc
    unfold State.telHead
    dsimp only
    rw [hzero, if_neg (by omega)]
    rfl
  rw [hhead, hplain] at hdma
  generalize (s.emitting i).phase (s.rdf (Reg.HIF_CRSTREAM_W0 i) 0 15) _ = phase at hdma
  obtain ⟨hsource, hstream, hindex⟩ := telHead_fields (s.rdf (Reg.HIF_CRSTREAM_W0 i) 16 6) phase hi (by omega : k < 65536)
  rw [htaken]
  exact ⟨hpi, _, hdma, hsource, hstream, hindex, (getD_one_cons_tail _ _ _).trans (hsecond.trans hseq)⟩

end

/-- Settles O48: the timer's message, sent or left pending; a ring halted; a write discarded; a stream that emits nothing, a count, or records. -/
theorem interruptsAndTelemetry : Obligations.InterruptsAndTelemetry := by
  unfold Obligations.InterruptsAndTelemetry
  refine ⟨fun s r g howner => ⟨interruptTimer_sends howner, interruptTimer_idle⟩, fun s r p => dmaErrorCompletion_halts p, poisonedWrite_flags,
    fun s i k => ⟨telemetryEmission_off, telemetryEmission_changed, fun hon hrun hstill => ?_⟩⟩
  obtain ⟨hcount, hevents⟩ := s.emit_counts i
  exact ⟨_, exec_telemetryEmission hon hrun hstill, hcount, hevents, fun r g => State.emit_record i.isLt⟩

end Sys2Proof.Machine
end
